-- ==== Sys2Proof/Word.lean ====
section
/-! DEFINITION. The byte and word types of the module and the names of small widths (00 R7, R11). -/

namespace Sys2Proof

/-- One byte of memory or of a message. -/
abbrev Byte := BitVec 8

/-- A 32-bit control-space register or value. -/
abbrev Word32 := BitVec 32

/-- A 64-bit control-space register or word (00 R11). -/
abbrev Word := BitVec 64

end Sys2Proof
end

