-- ==== Sys2Proof/Syntax.lean ====
section
/-! DEFINITION. The commands the block takes: one constructor of `Instr` for each row of
spec/opcode_table.json, with the operands its rule names. -/

namespace Sys2Proof

/-- The access paths of the control space (00 R16): the EF management class, each PCIe port, I3C. -/
inductive Path where
  | ef | pcie0 | pcie1 | i3c
  deriving DecidableEq, Repr

/-- A request header of 11 R351, as received. `rsvd` says that some bit that is not listed is set. -/
structure Hdr where
  tc : BitVec 3
  mark : Bool
  acq : Bool
  rel : Bool
  scope : BitVec 2
  reqId : BitVec 16
  src : BitVec 18
  job : BitVec 12
  offset : BitVec 48
  node : BitVec 14
  tide : BitVec 32
  epoch : BitVec 16
  len : BitVec 8
  fmt : BitVec 4
  trial : BitVec 4
  tchk : BitVec 32
  aux : BitVec 8
  range : BitVec 24
  rsvd : Bool
  deriving DecidableEq, Repr

/-- A response header of 11 R352, as received. -/
structure RspHdr where
  op : BitVec 6
  reqId : BitVec 16
  dst : BitVec 18
  status : BitVec 8
  tchk : BitVec 32
  tc : BitVec 3 := 3
  cred : BitVec 8 := 0
  grant : BitVec 2 := 0
  dlen : BitVec 8 := 0
  deriving DecidableEq, Repr

/-- The answers an agent may give to a snoop (11 R352, ANSWER). -/
inductive SnoopAnswer where
  | invAck | notHeld | data | clean
  deriving DecidableEq, Repr

/-- A descriptor in its ring: berth, ring and the 32-bit index it was rung under (02 R67). -/
structure DescRef where
  berth : Nat
  ring : Nat
  index : Nat
  deriving DecidableEq, Repr

/-- How the host answers a device-originated read (03 R100): with the bytes it holds, or not. -/
inductive HostAnswer where
  | ok (data : List Byte) | unsupportedRequest | completerAbort | poisoned
  deriving DecidableEq, Repr

/-- The SU checks of 06 R213. -/
inductive SuCheck where
  | scratchSingle | scratchDouble | residue | link | contextParity
  deriving DecidableEq, Repr

/-- What a partner offers at training (11 R337): no generation, EF1 only, or EF1 and EF2. -/
inductive PartnerOffer where
  | none | ef1 | ef2
  deriving DecidableEq, Repr

/-- The causes of an emergency off (16 R486). -/
inductive OffCause where
  | railFault | inputOverPower | overTemperature | clockFailure
  deriving DecidableEq, Repr

/-- The temperature readings of 16 R489: a die sensor of a bank, a stack site, a flash package's channel. -/
inductive TempPoint where
  | die (bank sensor : Nat) | stack (site : Nat) | flash (channel : Nat)
  deriving DecidableEq, Repr

/-- The interfaces with a PHY PLL of their own (16 R491). -/
inductive Phy where
  | landing (n : Nat) | pcie (n : Nat) | stackChannel (site channel : Nat) | flashChannel (n : Nat)
  deriving DecidableEq, Repr

/-- How the work of a start unit ends (16 R499, R501). -/
inductive UnitEnd where
  | good | trainingFailure | checkFailure | timeLimit
  deriving DecidableEq, Repr

/-- The protocols a PCIe port may train as (13 R415, R428). -/
inductive PcieProto where
  | pcie | cxl20 | cxl31
  deriving DecidableEq, Repr

/-- The SPDM transports (13 R424): MCTP on I3C and the DOE mailbox of each port. -/
inductive SpdmPort where
  | mctp | doe0 | doe1
  deriving DecidableEq, Repr

/-- The AtomicOps a port completes (13 R404, R410). -/
inductive PcieAtomic where
  | fetchAdd | swap | cas
  deriving DecidableEq, Repr

/-- Why a tier move is given up (03 R108). -/
inductive MoveFailure where
  | sourceUnreadable | sourceTierFailed | destinationFailed
  deriving DecidableEq, Repr

/-- What crosses the Causeway between one sending and one receiving block (01 R25): requests from a Toll to a home, a home's answers
to a port or an engine, frames for a Landing of the other bank, deltas of a home for a stack site's parity, doorbell accesses from a Toll
to a ring's sequencer, and the changes of the Toll's table and of the Crossing map. -/
inductive CwPair where
  | request | answer | frame | delta | doorbell | update
  deriving DecidableEq, Repr

/-- The frames of one class between two blocks, which the Causeway delivers in order (01 R25). -/
structure CwFlow where
  pair : CwPair
  cls : Nat
  deriving DecidableEq, Repr

/-- The commands. -/
inductive Instr where
  -- control space (00, 17)
  | controlRegisterWrite (p : Path) (off width : Nat) (v : BitVec 64)
  | counterLowHalfRead (p : Path) (off : Nat)
  | counterHighHalfRead (p : Path) (off : Nat)
  | evtStatWrite (p : Path) (page : Nat) (v : BitVec 32)
  | evtSetWrite (p : Path) (page : Nat) (v : BitVec 32)
  | evtEnWrite (p : Path) (page : Nat) (v : BitVec 32)
  | cntClear (p : Path) (page : Nat)
  | cntFreeze (p : Path) (page : Nat) (on : Bool)
  | feValidClear (p : Path) (page : Nat)
  -- Causeway (01)
  | causewayFrameRx (toWest : Bool) (flow : CwFlow) (group seq : Nat) (good : Bool)
  | laneGroupRetire (toWest : Bool) (group : Nat)
  | spareGroupTrained (toWest : Bool) (group : Nat)
  | causewayLoss
  | causewayRetrain (groupsToWest groupsToEast : Nat)
  | westBankRejoin
  -- memory requests (02, 04, 05)
  | rd (ld : Nat) (h : Hdr)
  | wr (ld : Nat) (h : Hdr) (d : List Byte)
  | stackDeltaApply (chan stripe : Nat)
  | storeAck (id : Nat)
  | atomic (ld : Nat) (h : Hdr) (d : List Byte)
  | homeAtomic (ld : Nat) (h : Hdr) (d : List Byte)
  | publish (ld : Nat) (h : Hdr) (d : List Byte)
  | acquire (ld : Nat) (h : Hdr)
  | flush (ld : Nat) (h : Hdr)
  | eadd (ld : Nat) (h : Hdr) (d : List Byte)
  | eddyWritebackDone (bank offset : Nat)
  | eddyIdleExpiry (bank offset : Nat)
  | rdShared (ld : Nat) (h : Hdr)
  | rdOwn (ld : Nat) (h : Hdr)
  | upgrade (ld : Nat) (h : Hdr)
  | wb (ld : Nat) (h : Hdr) (d : List Byte)
  | evictClean (ld : Nat) (h : Hdr)
  | snoopAns (ld : Nat) (snoopId : BitVec 16) (agent : BitVec 18) (a : SnoopAnswer) (tchk : BitVec 32) (d : List Byte)
  | quayHomeTimeout (snoopId : BitVec 16)
  | quayAgentDataWrite (p : Path) (bank : Nat) (v : BitVec 64)
  | directoryEccError (bank set way : Nat)
  | directorySweepDone (bank set : Nat)
  | tollCacheEccError (bank : Nat)
  | rdComb (ld : Nat) (h : Hdr) (others : List (BitVec 18 × BitVec 16)) (rsvd : Bool)
  | mgmtRd (ld : Nat) (h : Hdr)
  | mgmtWr (ld : Nat) (h : Hdr) (d : List Byte)
  | rspRx (ld : Nat) (r : RspHdr) (d : List Byte)
  -- rings and descriptors (02)
  | doorbellStore (ld : Nat) (h : Hdr) (d : List Byte)
  | descriptorFetch (berth ring : Nat)
  | ringControlNoop (r : DescRef)
  | descriptorComplete (r : DescRef)
  -- Toll commands (02, 17)
  | tollInsert (p : Path) (bank : Nat)
  | tollModify (p : Path) (bank : Nat)
  | tollRevoke (p : Path) (bank : Nat)
  | tollOffer (p : Path) (bank : Nat) (job : BitVec 12)
  | tollAccept (p : Path) (bank : Nat) (job : BitVec 12)
  | tollCancel (p : Path) (bank : Nat)
  | tollRead (p : Path) (bank : Nat)
  | jobWrite (p : Path) (bank : Nat) (job : BitVec 12)
  | tollTakeEffect
  | revokeComplete (slot : Nat)
  | handoverComplete (slot : Nat)
  | drainWarn (slot : Nat)
  | ferryTimeout (base : Nat)
  -- Crossing map (02, 17)
  | xmapNodeWrite (p : Path) (bank : Nat) (v : BitVec 32)
  | xmapCommit (p : Path) (bank : Nat)
  | xmapSetEpoch (p : Path) (bank : Nat) (newEpoch : BitVec 16)
  | xmapDiscard (p : Path) (bank : Nat)
  | mapTakeEffect
  | epochRetire
  | ringApply (p : Path) (bank : Nat) (v : BitVec 64)
  -- tiers (03, 14)
  | flashStageDrain (bank : Nat)
  | tierAnswer (id : Nat)
  | towLate (id : Nat)
  | towFail (id : Nat)
  | rowReplace (site chan row : Nat)
  | stackChannelDown (site chan : Nat)
  | stackChannelRebuildDone (site chan : Nat)
  | stackSiteFail (site : Nat)
  | spareStackReady
  | stackRebuildDone
  | loggedParityRecomputeDone (bank : Nat)
  | flashChannelFail (channel : Nat)
  | flashRebuildDone (bank : Nat)
  | flashBlockRetire (channel : Nat)
  | vaultFail (vault : Nat)
  | nearRowReplace (vault row : Nat)
  | move (r : DescRef)
  | pin (r : DescRef)
  | unpin (r : DescRef)
  | persist (r : DescRef)
  | moveCopyDone (base : Nat)
  | moveSwitch (base : Nat)
  | moveAbandon (base : Nat) (why : MoveFailure)
  | towPinWaitExpiry (base : Nat)
  | lossListComplete (ld : Nat)
  | lossListExpire (ld : Nat)
  -- Raft (06)
  | raftLoad (r : DescRef)
  | raftRun (r : DescRef)
  | raftEvict (r : DescRef)
  | copyPlaced (copy : Nat)
  | raftLoadWaitExpiry (r : DescRef)
  | itemCommit (r : DescRef) (item : Nat)
  | runEnd (r : DescRef)
  | suFault (su : Nat) (check : SuCheck)
  | remapGo (p : Path) (bank : Nat)
  | remapApply (bank row : Nat)
  -- training state (08)
  | optStep (r : DescRef)
  | norm (r : DescRef)
  | tsMerge (r : DescRef)
  | snapOpen (r : DescRef)
  | snapPoint (bank slot : Nat)
  | snapTileCopied (bank slot item tile : Nat)
  | snapItemDone (bank slot item : Nat)
  | snapSeal (r : DescRef)
  | snapDrop (r : DescRef)
  -- Purser (09)
  | purserDefine (r : DescRef)
  | purserFree (r : DescRef)
  | purserSwitch (r : DescRef)
  | purserVersionDrained (bank slot : Nat)
  | gather (r : DescRef)
  | update (r : DescRef)
  | migrate (r : DescRef)
  | rowLockGrant (bank : Nat)
  | rowUpdateDone (bank lock : Nat)
  | migrateFlip (bank lock : Nat)
  -- Sounding (10)
  | soundDefine (r : DescRef)
  | soundFree (r : DescRef)
  | query (r : DescRef)
  | combine (r : DescRef)
  | combineCountersReady (r : DescRef)
  | soundCombineWaitExpiry (r : DescRef)
  | append (r : DescRef)
  | sideRecordWritten (bank slot seq : Nat)
  | soundMerge (r : DescRef)
  | soundMergeSwitch (bank slot : Nat)
  | soundVersionDrained (bank slot : Nat)
  | pqScan (r : DescRef)
  | puntScanDone (channel : Nat)
  -- Landings and the Wharf (11)
  | flitRx (ld : Nat) (flit : List Byte) (fecOk : Bool) (corrected : List Nat)
  | landAckTimeout (ld : Nat)
  | laneLockLoss (ld lane : Nat)
  | laneErrLimit (ld lane : Nat)
  | landRetrain (p : Path) (ld : Nat)
  | retrainDone (ld : Nat) (good : BitVec 4)
  | landEnable (p : Path) (ld : Nat) (on : Bool)
  | linkDown (ld : Nat)
  | trainingAttempt (ld : Nat) (offer : PartnerOffer) (good : BitVec 4)
  | linkUp (ld : Nat)
  | foghornTx (ld : Nat)
  | foghornRx (ld : Nat) (senderId : BitVec 32)
  | foghornMiss (ld : Nat)
  | frameAdmit (bank input output cls : Nat)
  | frameAged (bank : Nat) (frame : Nat)
  | landingFrameSend (ld : Nat)
  | wharfGminWrite (p : Path) (bank : Nat) (v : BitVec 32)
  | wharfEpBaseWrite (p : Path) (bank : Nat) (v : BitVec 32)
  -- scheduling, policing, metering (12)
  | fmCfgWrite (p : Path) (v : BitVec 32)
  | ttArm (p : Path) (bank : Nat)
  | ttDisarm (p : Path) (bank : Nat)
  | ttSwitch (ld : Nat)
  | gateEntryChange (ld : Nat)
  | ttEntryWrite (p : Path) (bank : Nat) (v : BitVec 64)
  | meterSnap (p : Path) (bank : Nat)
  -- PCIe, CXL and management interfaces (13, 15)
  | pcieMemoryRead (port fn : Nat) (off len : Nat)
  | pciePostedWrite (port fn : Nat) (off : Nat) (d : List Byte)
  | pcieAtomicop (port fn : Nat) (off : Nat) (op : PcieAtomic) (bytes : Nat) (d : List Byte)
  | cxlMemrd (port : Nat) (dpa : Nat)
  | cxlMemwr (port : Nat) (dpa : Nat) (d : List Byte)
  | hdmDecoderCommit (port decoder ways : Nat)
  | identifyMemoryDevice (port : Nat)
  | getHealthInfo (port : Nat)
  | getEventRecords (port : Nat)
  | clearEventRecords (port : Nat) (count : Nat)
  | getSupportedLogs (port : Nat)
  | getLog (port : Nat) (off len : Nat)
  | pcieCplTimeout (port id : Nat)
  | hostCompletion (port id : Nat) (a : HostAnswer)
  | pciePortReset (port : Nat)
  | functionLevelReset (port fn : Nat)
  | pcieRetrain (p : Path) (port : Nat)
  | pcieFnWinWrite (p : Path) (port : Nat) (v : BitVec 64)
  | msixUnmask (port fn vec : Nat)
  | entdaa (addr : BitVec 7)
  | mctpControlMessage (msgType : BitVec 8) (bytes : List Byte)
  | read32 (bytes : List Byte)
  | write32 (bytes : List Byte)
  | read64 (bytes : List Byte)
  | write64 (bytes : List Byte)
  | getVersion (t : SpdmPort) (bytes : List Byte)
  | getCapabilities (t : SpdmPort) (bytes : List Byte)
  | negotiateAlgorithms (t : SpdmPort) (bytes : List Byte)
  | getDigests (t : SpdmPort) (bytes : List Byte)
  | getCertificate (t : SpdmPort) (bytes : List Byte)
  | challenge (t : SpdmPort) (bytes : List Byte)
  | getMeasurements (t : SpdmPort) (bytes : List Byte)
  | chunkSend (t : SpdmPort) (bytes : List Byte)
  | chunkGet (t : SpdmPort) (bytes : List Byte)
  | consoleInputLine (line : List Byte) (readsOnly : Bool)
  | jtagInstruction (tap : Nat) (ir : BitVec 8) (isPrivate : Bool)
  -- Customs (15)
  | custKeyLoad (p : Path) (slot : BitVec 12) (job : BitVec 12)
  | custKeyClear (p : Path) (slot : BitVec 12)
  | custKeyQuery (p : Path) (slot : BitVec 12)
  | debugUnlock (p : Path)
  | fwStage (p : Path) (type : BitVec 8)
  | fwActivate (p : Path) (type : BitVec 8)
  | fwCommit (p : Path) (type : BitVec 8)
  | custPolicyWrite (p : Path) (v : BitVec 32)
  -- Salvage (14)
  | salvFence (p : Path) (bank : Nat)
  | salvIsolateExpiry
  | salvPeerTimeout (node : Nat)
  | peerProbe (node : Nat) (answeredOk : Bool)
  | peerResyncDone (node : Nat)
  | salvRebuild (p : Path) (bank : Nat)
  | salvLost (p : Path) (bank : Nat)
  | salvCopy (p : Path) (bank : Nat)
  | peerRebuildDone
  | salvConvoyApply (p : Path) (bank : Nat)
  -- start, power and resets (16)
  | powerOn (straps : BitVec 13)
  | powerLoss
  | emergencyOff (cause : OffCause)
  | latchClear
  | powerSample (watts vin : Nat)
  | dutyStepDown
  | dutyStepUp
  | pwrOver
  | tempSample (at_ : TempPoint) (celsius : Nat)
  | clockFailure
  | phyPllLoss (phy : Phy)
  | pinReset
  | rstGo (p : Path)
  | rstCancel (p : Path)
  | rstNow (p : Path)
  | watchdogReset
  | testPortReset
  | rstNoticeExpiry
  | quiesceEnd
  | coreResetEnd (straps : BitVec 13)
  | startStepDone (detail : Nat) (e : UnitEnd)
  | pcieLinkUp (port rate width : Nat) (proto : PcieProto)
  | busMasterEnable (port : Nat) (on : Bool)
  | msixVectorMask (port fn vec : Nat)
  | hdrTraffic
  | hdrExitPattern
  | recoveryImageReceived (type : BitVec 8) (image : List Byte)
  deriving DecidableEq, Repr

end Sys2Proof
end

