-- ==== Sys2Proof/Config.lean ====
section
/-! DEFINITION. What one module fixes, and the free values: constants with no body, about which nothing can be proved.
Each is named in the assumption log. `Config.free` is taken at a counter of the state, a fresh argument each time. -/

namespace Sys2Proof.Config

/-- A fresh value where the spec states none (log 2). Taken at `State.fresh`, which the step advances. -/
opaque free : Nat → BitVec 64

/-- Results of FUNC that 07 R245 fixes only to within 2 units in the last place: the function code (2 reciprocal
square root, 3 base-2 exponential, 4 base-2 logarithm; 0 and 1 under stochastic rounding), the operand's format code
and bits, and the result's format code (log 10). -/
opaque func : Nat → Nat → Nat → Nat → Nat

/-- The set a Toll table BASE hashes to (02 R46 names "a hash of BASE" and does not give it), below 130,560 after the
modulo that the rule gives (log 11). -/
opaque tollHash : Nat → Nat

/-- The unique device secret fused at manufacture, 32 bytes by number (15 R463; log 9). -/
opaque udsByte : Nat → BitVec 8

/-- Bytes of the boot ROM's digest, M2's companion for index 1 (15 R469; log 9). -/
opaque romDigestByte : Nat → BitVec 8

/-- The vendor key digests in the fuses: key 0 to 3, byte 0 to 31 (15 R466; log 9). -/
opaque keyDigestByte : Nat → Nat → BitVec 8

/-- The fused 57-byte debug public key (15 R477; log 9). -/
opaque debugKeyByte : Nat → BitVec 8

/-- The certificates of the chain that the vendor issues: 0 vendor root, 1 vendor intermediate, 2 DeviceID, by the public key it
carries as a number (15 R463, R464; log 9). -/
opaque cert : Nat → Nat → List (BitVec 8)

/-- The TBSCertificate of a certificate that the module forms: 3 Alias1, 4 Alias2, by the public key it carries as a number. The spec names
X.509 v3 and not the names, serial numbers and dates (15 R462; log 9). -/
opaque certBody : Nat → Nat → List (BitVec 8)

/-- The image that a bank of a TYPE holds when the module is made, its security version below 65 and the vendor key that has signed it
(15 R466; log 9). -/
opaque factoryImage : Nat → Bool → List (BitVec 8)

opaque factorySvn : Nat → Bool → Fin 65

opaque factoryKey : Nat → Bool → Fin 4

/-- The built-in image held by the Pilot is whole: its stage arrangement is not seen by software (08 R254); only its
tag and footprint are fixed. CHECK of a built-in image by tag (log 12). -/
opaque builtinCheck : Nat → Nat

/-- Where the flash controller has put the page that holds a tile, by the tile's flash cell: a number taken modulo the
berth's channel list. The page map cannot be seen by software (03 R96; log 16). -/
opaque flashPage : Nat → Nat

/-- The data rate in MT/s at which a flash channel runs, set by the packages fitted (13 R419; log 39). -/
opaque flashRate : Nat → Nat

/-- The order in which DOT, MATVEC, ACC_ITEM and SCATTER_ADD add the products of one group, "fixed by its format and GROUP"
(07 R236) and not given: a sort key by format, GROUP and index in the group (log 24). -/
opaque sumOrder : Nat → Nat → Nat → Nat

/-- Which element of its scratch range an operand port with source "scratch" takes for element i, of n in the range (06
R189 names the source and does not say; log 25). -/
opaque scratchIndex : Nat → Nat → Nat

/-- The scale that a stage reads for a block that reaches it unscaled although it takes block-scaled operands: no rule
states it (log 26). -/
opaque missingScale : Nat → Nat

/-- The order in which the contributions of one descriptor to one row are added, which "is not fixed" (09 R297): a sort key by
descriptor index, row and item (log 28). -/
opaque mergeOrder : Nat → Nat → Nat → Nat

/-- The order of additions within one score, "fixed by DIM and M" (10 R317) and not given: a sort key by DIM, M and index
(log 29). -/
opaque scoreOrder : Nat → Nat → Nat → Nat

/-- Bits that share a byte with the first or last element of an element run and belong to no element of it, by address
(log 27). -/
opaque padByte : Nat → BitVec 8

/-- CTExponent, DataTransferSize and MaxSPDMmsgSize that the module states in CAPABILITIES: 15 R468 does not give them (log 41). -/
opaque spdmTiming : BitVec 8

opaque spdmTransfer : BitVec 32

opaque spdmLargest : BitVec 32

/-- The DMTF value type of a measurement index, below the raw bit stream bit: 15 R469 does not give it (log 42). -/
opaque measureType : Nat → BitVec 7

/-- The row of a stack channel that a stripe address lies in: software cannot see the mapping (03 R85; log 124). -/
opaque stackRow : Nat → Nat

/-- The hash of slot, table and row that divides the distinct rows of an UPDATE among its copies (09 R297 does not give it; log 131). -/
opaque rowHash : Nat → Bool → Nat → Nat

/-- Spare rows of a channel of a stack site beyond its first, by site × 32 + channel: the spec gives no number (03 R93; log 124). -/
opaque stackSpareRows : Nat → Nat

end Sys2Proof.Config
end

