-- ==== Sys2Proof/Machine/Map.lean ====
section
/-! DEFINITION. Sparse maps: a list of (key, value) pairs in one canonical form, the keys strictly rising and no entry
equal to what an unlisted key reads as. Memory, the register store and every table of the block are such maps. -/

namespace Sys2Proof

/-- A sparse map from numbers. -/
abbrev NMap (α : Type) := List (Nat × α)

namespace NMap

/-- What key `k` holds; an unlisted key holds `d`. -/
def get {α : Type} (d : α) : NMap α → Nat → α
  | [], _ => d
  | (j, v) :: m, k => if j = k then v else if k < j then d else get d m k

/-- `m` with `v` at key `k`. Writing the value an unlisted key holds removes the entry. -/
def set {α : Type} [DecidableEq α] (d : α) : NMap α → Nat → α → NMap α
  | [], k, v => if v = d then [] else [(k, v)]
  | (j, w) :: m, k, v =>
    if j < k then (j, w) :: set d m k v
    else if j = k then (if v = d then m else (k, v) :: m)
    else if v = d then (j, w) :: m else (k, v) :: (j, w) :: m

/-- The keys of `m` rise strictly from above `lo`, and no entry holds `d`. -/
def wfFrom {α : Type} [DecidableEq α] (d : α) : Nat → NMap α → Bool
  | _, [] => true
  | lo, (j, v) :: m => decide (lo ≤ j) && decide (v ≠ d) && wfFrom d (j + 1) m

/-- The canonical form. -/
def wf {α : Type} [DecidableEq α] (d : α) (m : NMap α) : Bool := wfFrom d 0 m

/-- Drop every entry whose key fails `p`. -/
def keep {α : Type} (p : Nat → Bool) : NMap α → NMap α
  | [] => []
  | (j, v) :: m => if p j then (j, v) :: keep p m else keep p m

end NMap

/-- A set of numbers, rising, without repeats. -/
abbrev NSet := List Nat

namespace NSet

/-- Whether `k` is in the set. -/
def mem : NSet → Nat → Bool
  | [], _ => false
  | j :: m, k => if j = k then true else if k < j then false else mem m k

/-- The set with `k`. -/
def add : NSet → Nat → NSet
  | [], k => [k]
  | j :: m, k => if j < k then j :: add m k else if j = k then j :: m else k :: j :: m

/-- The elements rise strictly from `lo` on. -/
def wfFrom : Nat → NSet → Bool
  | _, [] => true
  | lo, j :: m => decide (lo ≤ j) && wfFrom (j + 1) m

/-- The canonical form of a set. -/
def wf (m : NSet) : Bool := wfFrom 0 m

/-- The set without `k`. -/
def del : NSet → Nat → NSet
  | [], _ => []
  | j :: m, k => if j < k then j :: del m k else if j = k then m else j :: m

end NSet

end Sys2Proof
end

