-- ==== Sys2Proof/Machine/State.lean ====
section
/-! DEFINITION. Everything the spec gives the block, as plain data, the queue of commands that wait, and the state
right after a power-on reset. Numbers that software never sees as words are natural numbers. -/

namespace Sys2Proof.Machine

open Sys2Proof

/-! ## How a command can stop -/

/-- No rule of the spec ends the block's run with a fault: a refused request is answered with its status code
(00 R18). This type has no constructor, so no meaning can answer with one. -/
inductive Fault
  deriving DecidableEq, Repr

/-- Why a command has no meaning. -/
inductive Refusal where
  /-- Raised by an arm of `exec` whose command has no meaning yet. Safe: the model stops. -/
  | notModelled (mnemonic : String)
  deriving DecidableEq, Repr

/-! ## Toll: jobs, extents, commands (02, 17) -/

/-- A job table entry (02 R43, 17 R533). -/
structure Job where
  valid : Bool := false
  pool : Nat := 0
  tide : Nat := 0
  /-- Up to four (base, count) ranges of end points. -/
  ranges : List (Nat × Nat) := []
  deriving DecidableEq, Repr

/-- The ferry token's states (02 R56). -/
inductive Token where
  | owned | offered | draining
  deriving DecidableEq, Repr

/-- Tiers, by TIER code (02 R44). -/
inductive Tier where
  | near | stack | flash | host
  deriving DecidableEq, Repr

/-- The software-written part of a Toll table entry (02 R44). -/
structure Entry where
  size : Nat := 0
  moored : Bool := false
  prot : Nat := 0
  tier : Tier := .near
  ownerWr : Bool := false
  ownerJob : Nat := 0
  guestJob : Nat := 0
  guestRights : Nat := 0
  berth : Nat := 0
  zero : Bool := false
  /-- OFFSET[47:21] of the first byte. -/
  base : Nat := 0
  /-- LOCAL_BASE, in 2 MiB units. -/
  localBase : Nat := 0
  keySlot : Nat := 0
  encrypt : Bool := false
  partner : Nat := 0
  convoy : Nat := 0
  deriving DecidableEq, Repr

/-- An extent of the Toll table: its entry, its token and what the block keeps about it. -/
structure Extent where
  e : Entry := {}
  /-- STATE revoking (02 R53). -/
  revoking : Bool := false
  token : Token := .owned
  receiver : Nat := 0
  /-- LTC of the OFFER (02 R58). -/
  offeredAt : Nat := 0
  /-- STATE tier move in progress (03 R106). -/
  moving : Bool := false
  /-- Requests that reach test 4 are held (03 R106 step 3, 08 R275 step 2). -/
  held : Bool := false
  /-- Range of the moored window, in 2 MiB units (05 R149). -/
  window : Nat := 0
  /-- Tiles of a ZERO extent written since the insert, by tile number in the extent (02 R44). -/
  written : NSet := []
  /-- The copy of a mirror, registered by COPY (14 R443, R459). -/
  isCopy : Bool := false
  /-- REBUILD runs: tiles from this number on are missing (14 R452), but for those in `filled`. -/
  rebuildFrom : Option Nat := none
  filled : NSet := []
  deriving DecidableEq, Repr

/-- A revocation slot (02 R54, 17 R534). -/
structure RvkSlot where
  busy : Bool := false
  handover : Bool := false
  base : Nat := 0
  /-- LTC of the take-effect point, and whether DRAIN_WARN was raised (17 R535). -/
  since : Nat := 0
  warned : Bool := false
  deriving DecidableEq, Repr

/-- The Toll commands (02 R73). -/
inductive TollOp where
  | insert | modify | revoke | offer | accept | cancel | read | jobWrite
  deriving DecidableEq, Repr

/-- A Toll command between its write and its take-effect point. -/
structure TollPending where
  op : TollOp
  job : Nat
  d0 : Word
  d1 : Word
  d2 : Word
  d3 : Word
  deriving DecidableEq, Repr

/-- The Toll (02). -/
structure Toll where
  jobs : NMap Job := []
  extents : List Extent := []
  slots : List RvkSlot := List.replicate 16 {}
  pending : Option TollPending := none
  /-- A REVOKE waits for a tier move (02 R55), or a MODIFY for its walk (05 R175). -/
  walkWait : Bool := false
  /-- Lines a MODIFY's walk has still to cover, and the requests that passed before it (05 R175). -/
  walkLines : NSet := []
  walkIds : List Nat := []
  done : Bool := false
  lost : Bool := false
  result : Nat := 0
  slot : Nat := 0
  /-- Spare Toll cache entries in use, East and West (17 R525). -/
  spareEast : Nat := 0
  spareWest : Nat := 0
  deriving DecidableEq, Repr

/-! ## Crossing map and rings (02, 03, 17) -/

/-- A berth entry (02 R60, 17 R538). -/
structure Berth where
  clusters : BitVec 64 := 0
  nearQuota : Nat := 0
  stackCh : BitVec 32 := 0
  stackQuota : Nat := 0
  flashCh : BitVec 16 := 0
  flashQuota : Nat := 0
  landings : BitVec 16 := 0
  rings : Nat := 0
  qsets : Nat := 0
  deriving DecidableEq, Repr

/-- One run of a stack segment on a channel: first index of the data sequence and its length (03 R84, R86). -/
structure Run where
  berth : Nat
  seg : Nat
  chan : Nat
  first : Nat
  len : Nat
  deriving DecidableEq, Repr

/-- A Crossing map: the berth entries and the places of their segments (03 R79, R84, R86). -/
structure XMapCfg where
  berths : NMap Berth := []
  /-- Near segment places: (berth × 128 + segment of the berth, bank segment). -/
  nearSegs : NMap Nat := []
  runs : List Run := []
  deriving DecidableEq, Repr

/-- A commit that waits for its take-effect point (17 R537). -/
structure CommitPending where
  map : XMapCfg
  commitAt : Nat
  setEpoch : Option Nat
  deriving DecidableEq, Repr

/-- Request opcodes (11 R353) that reach the Toll. -/
inductive Op where
  | rd | wr | atomic | eadd | acquire | flush | publish
  | rdShared | rdOwn | upgrade | wb | evictClean | rdComb
  | mgmtRd | mgmtWr
  deriving DecidableEq, Repr

/-- A request the device has sent to another node, by request ID (11 R357). -/
structure OutReq where
  reqId : Nat
  /-- Berth whose Landings it leaves through (11 R363), and the Landing it was last queued for. -/
  berth : Nat
  landing : Nat
  node : Nat
  offset : Nat
  len : Nat
  op : Op
  attempt : Nat := 0
  h : Hdr
  data : List Byte
  /-- Item of the descriptor it belongs to. -/
  item : Nat := 0
  /-- It waits for a home credit at its node (05 R164). -/
  waits : Bool := false
  deriving DecidableEq, Repr

/-- A Manifest ring (02 R67, R71; 17 R539, R541). -/
structure Ring where
  descBase : Nat := 0
  log2Size : Nat := 0
  cplBase : Nat := 0
  job : Nat := 0
  enable : Bool := false
  svBase : Nat := 0
  svLen : Nat := 0
  notifyAddr : Word := 0
  producer : Nat := 0
  consumer : Nat := 0
  /-- Next index to fetch; records written out of order wait in `recorded`. -/
  fetched : Nat := 0
  recorded : NSet := []
  stopped : Bool := false
  dbBad : Bool := false
  cfgRefused : Bool := false
  notifyFail : Bool := false
  code : Nat := 0
  slot : Nat := 0
  /-- Notification stores to other nodes not yet answered (02 R72). -/
  notes : List OutReq := []
  /-- Configurations applied before this one: descriptors are told apart by index + 2^32 × this number (02 R71; log 94). -/
  gen : Nat := 0
  deriving DecidableEq, Repr

/-- An earlier map whose epoch still resolves: its epoch, the LTC at which the next one took effect, and its berth entries
(02 R63, R65). -/
structure OldMap where
  epoch : Nat
  since : Nat
  berths : NMap Berth := []
  deriving DecidableEq, Repr

/-- The Crossing map (02 R60-R66, 17 R536-R541). -/
structure XMap where
  node : Nat := 0
  nodeValid : Bool := false
  staged : NMap Berth := []
  current : XMapCfg := {}
  pending : Option CommitPending := none
  done : Bool := false
  lost : Bool := false
  result : Nat := 0
  epoch : Nat := 0
  /-- Earlier maps whose epochs resolve, newest first. -/
  old : List OldMap := []
  /-- Rings by berth × 64 + ring. -/
  rings : NMap Ring := []
  /-- Staged ring configurations (the four words) by berth × 64 + ring. -/
  stagedRings : NMap (Word × Word × Word × Word) := []
  deriving DecidableEq, Repr

/-! ## Requests and messages (11) -/

/-- How a constituent of an RD_COMB stands (11 R358): it is to be checked and read, its original is in progress (04 R135), or it has
its code. -/
inductive PartIs where
  | fresh | original | answered (code : Nat)
  deriving DecidableEq, Repr

/-- What a request of the Tow does for a snapshot (08 R276): it reads a source or a bounce tile, writes the tile's image or its bounce's
contents on to the destination, or the bitmap. -/
inductive SnapPart where
  | source | bounce | image | final | bit
  deriving DecidableEq, Repr

/-- Where a request entered, which says where its answer goes. -/
inductive Origin where
  /-- A Landing. -/
  | landing (n : Nat)
  /-- Piece `piece` of TLP `tlp` of a PCIe port's function. -/
  | pcie (port fn tlp piece : Nat)
  /-- The constituents of an RD_COMB on a Landing (11 R358): (source, request ID, how it stands). Its request's data are those of
  a constituent that the loss list answers with OK. -/
  | comb (n : Nat) (parts : List (Nat × Nat × PartIs))
  /-- The device's own write of returned lines and of an eddy accumulator's sums to a protected extent (14 R445). -/
  | internal
  /-- An item of a descriptor: an engine's write to a protected extent (14 R445). -/
  | engine (r : DescRef) (item : Nat)
  /-- A read of an image that Customs stages (15 R467). -/
  | customs
  /-- An access of the Tow for a snapshot's slot: its item and tile (08 R276). -/
  | snap (slot item tile : Nat) (part : SnapPart)
  deriving DecidableEq, Repr

/-- A request inside the block. -/
structure Req where
  op : Op
  /-- A home atomic: ATOMIC on classes 0 and 1 (04 R142). -/
  home : Bool := false
  origin : Origin
  h : Hdr
  data : List Byte := []
  /-- Fare meter colour yellow (12 R390). -/
  yellow : Bool := false
  /-- An entry of the Quay's request table is held (05 R164). -/
  table : Bool := false
  deriving DecidableEq, Repr

/-- Snoops (05, Messages). -/
inductive SnoopKind where
  | inv | recall | recallShare
  deriving DecidableEq, Repr

/-- What a frame carries. -/
inductive Msg where
  /-- A response (11 R352): OP, request ID, DST, STATUS, CRED, GRANT, the data, and the byte of the first data slot at which they
  start (11 R354). -/
  | rsp (op reqId dst status cred grant lead : Nat) (data : List Byte)
  /-- RSP_COMB (11 R359). -/
  | comb (reqId dst status cred lead : Nat) (codes : List Nat) (data : List Byte)
  /-- A snoop (11 R351). -/
  | snoop (kind : SnoopKind) (id src dst job node offset epoch : Nat)
  /-- A request of the device to another node. -/
  | req (op : Op) (h : Hdr) (data : List Byte)
  deriving DecidableEq, Repr

/-- A frame inside a Wharf (11 R365-R369). -/
structure Frame where
  id : Nat
  bank : Nat
  input : Nat
  output : Nat
  cls : Nat
  slots : Nat
  /-- LTC at which the input received it whole. -/
  stamp : Nat
  /-- Berth it is charged to, and its queue set (8 for the default queue set) (12 R381, R382). -/
  berth : Option Nat := none
  qset : Nat := 8
  /-- Queue sets that the descriptor it belongs to has held since it was admitted (02 R62). -/
  qsets : Nat := 0
  job : Nat := 0
  yellow : Bool := false
  /-- In the output buffer, with its guaranteed and shared cells. -/
  admitted : Bool := false
  cellsG : Nat := 0
  cellsS : Nat := 0
  /-- Finish tag (12 R385), once queued at a Landing output. -/
  tag : Nat := 0
  /-- An AGED report, which is never aged (11 R369). -/
  report : Bool := false
  /-- Multicast frames share a group above 0; the copies left behind form a residue (11 R368). -/
  group : Nat := 0
  residue : Bool := false
  /-- Address of the request a response answers, which the hash of 11 R364 takes (log 13). -/
  off : Nat := 0
  msg : Msg
  deriving DecidableEq, Repr

/-- Where a request that has passed the Toll waits. -/
inductive Wait where
  /-- Performed; waits for STORE_ACK. The code and data it will be answered with. -/
  | ack (status : Nat) (data : List Byte)
  /-- In the Tow's wait table since this LTC; counted late or not (03 R112, R113). -/
  | tier (since : Nat) (late : Bool)
  /-- In the queue of a line, a set, or behind an eddy write-back: the home has it. -/
  | quay
  /-- Held before test 4 at a move's switch or a snapshot's hold, since this LTC (03 R107, 08 R275). -/
  | hold (since : Nat)
  /-- Waits while a snapshot copies the tile ahead (08 R276), since this LTC; and the LTC since which that copy has waited for room
  in the flash staging area, with it. -/
  | snap (since : Nat) (full : Option Nat)
  /-- In the Tow's wait table for room in the flash staging area, since this LTC; counted late or not (03 R97, R112, R113). -/
  | stage (since : Nat) (late : Bool)
  /-- Waits for protection traffic (14 R445): request IDs not yet answered, and when it was sent. -/
  | protect (ids : List Nat) (since : Nat)
  /-- A marked request that waits for a loss list (04 R135), or whose original is in progress. -/
  | lossList
  | original (reqId src : Nat)
  /-- Behind another request in flight to the same tile, or while its tile is reconstructed from peers. -/
  | behind (id : Nat)
  /-- Behind an earlier request of its source on its privileged class (04 R142). -/
  | turn
  /-- Not sent yet: its source, one of the device's own, has no home credit left (05 R164). -/
  | credit
  deriving DecidableEq, Repr

/-- A request in flight. -/
structure Flying where
  id : Nat
  q : Req
  /-- Bank where it entered, and its home bank. -/
  entry : Nat
  homeBank : Nat
  /-- BASE of its extent (0 where it names none). -/
  base : Nat
  wait : Wait
  /-- Counted in EDDY_FORCED_WB (05 R169). -/
  forced : Bool := false
  /-- A WB whose line has been freed, or whose data answer a recall, and which waits to be written (05 R158; 08 R276; 14 R445). -/
  taken : Bool := false
  deriving DecidableEq, Repr

/-! ## Quay and eddy buffers (05) -/

/-- An agent slot (05 R152, R178). -/
structure Agent where
  endPoint : Nat := 0
  job : Nat := 0
  valid : Bool := false
  stranded : Bool := false
  deriving DecidableEq, Repr

/-- What a directory way holds (05 R155); transient states are those of the line's open transaction. -/
inductive LineState where
  | shared | owned
  deriving DecidableEq, Repr

/-- A directory entry. -/
structure DirEntry where
  bank : Nat
  line : Nat
  way : Nat
  st : LineState
  coarse : Bool := false
  /-- Exact: the agent slots. Coarse: the groups of 128 slots whose bit is set. -/
  sharers : NSet := []
  /-- Order of use, for the victim (05 R160). -/
  used : Nat := 0
  deriving DecidableEq, Repr

/-- A snoop that waits for its answer (05 R157). -/
structure Snoop where
  id : Nat
  kind : SnoopKind
  agent : Nat
  /-- End point and job of the agent it was sent to. -/
  endPoint : Nat := 0
  job : Nat := 0
  /-- LTC of the first sending, and the Landing it was last sent on. -/
  sent : Nat
  via : Option Nat := none
  deriving DecidableEq, Repr

/-- Why a line's transaction is open (05 R158, STATE codes 0b100 to 0b111; 14 R437 for a sweep). -/
inductive TransKind where
  | invalidating | recallShare | recalling | evicting | walk | sweep
  deriving DecidableEq, Repr

/-- An open transaction of a line. -/
structure Trans where
  bank : Nat
  line : Nat
  kind : TransKind
  snoops : List Snoop
  /-- Ids (in `flying`) of the request that caused it and of those that wait in the line's queue, in order. -/
  waiters : List Nat
  /-- Ids of the writes of what its snoops have returned, which end before it closes (05 R158, R160; 14 R445). -/
  writes : List Nat := []
  deriving DecidableEq, Repr

/-- The formats of eddy additions (05 R167). -/
inductive EddyFmt where
  | fp32 | bf16 | int32
  deriving DecidableEq, Repr

/-- An open accumulator (05 R167, R168). -/
structure Accum where
  bank : Nat
  /-- OFFSET of the granule. -/
  offset : Nat
  fmt : EddyFmt
  /-- The accumulated elements, as bits of the accumulator format (FP64, FP32 or 64-bit integer). -/
  elems : List Nat
  /-- EADDs added since it was opened. -/
  count : Nat := 1
  /-- LTC of the last EADD, and its place in the order of additions. -/
  lastAdd : Nat
  order : Nat := 0
  writingBack : Bool := false
  /-- Id of the write of its sums, which ends before it closes, and the code that write has ended with (05 R169). -/
  write : Option Nat := none
  wrote : Option Nat := none
  /-- Ids of requests that wait for the write-back, in order. -/
  waiters : List Nat := []
  deriving DecidableEq, Repr

/-- A read-side cache entry (04 R124): one granule of a drift tile, of one job. -/
structure CacheGran where
  bank : Nat
  job : Nat
  offset : Nat
  data : List Byte
  deriving DecidableEq, Repr

/-- A loss-list entry (04 R134, R135). `outcome` is the answer where the original has been answered. -/
structure LossEntry where
  landing : Nat
  src : Nat
  reqId : Nat
  outcome : Option Msg
  /-- LTC of the link-down. -/
  since : Nat
  /-- Which banks' lists had room for it (04 R136). -/
  inEast : Bool := true
  inWest : Bool := true
  deriving DecidableEq, Repr

/-- A Landing's loss: the sources it had, in which banks it exceeded the list (04 R136), whether its list is being built. -/
structure Loss where
  landing : Nat
  since : Nat
  building : Bool
  ovfEast : Bool
  ovfWest : Bool
  sources : List Nat
  deriving DecidableEq, Repr

/-- A FLUSH that waits (04 R126): its id, and the granules whose accumulators are open. -/
structure FlushWait where
  id : Nat
  granules : NSet := []
  deriving DecidableEq, Repr

/-- The Quay of both banks. -/
structure Quay where
  agents : NMap Agent := []
  dir : List DirEntry := []
  /-- Ways retired without a spare, by bank × 2^22 + set × 16 + way, and spare ways in use per bank (14 R437). -/
  retired : NSet := []
  spareEast : Nat := 0
  spareWest : Nat := 0
  trans : List Trans := []
  /-- Requests that wait for a way of a set (05 R160): (bank × 2^18 + set, flying id), in order. -/
  setWait : List (Nat × Nat) := []
  /-- Sets being swept (14 R437). -/
  sweeps : List (Nat × Nat) := []
  nextSnoop : Nat := 0
  useCount : Nat := 0
  /-- Home credits held above what is known: (bank × 2^18 + source) → credits (05 R164); unlisted: the floor, 1. -/
  credits : NMap Nat := []
  /-- Sources that have sent requests to a bank's table, whose floor credits count too: bank × 2^18 + source. -/
  credSrcs : NSet := []
  /-- Home credits that a berth's ring sequencer holds at another node, by berth × 2^14 + node; one each where none is listed
  (05 R164). -/
  remote : NMap Nat := []
  accums : List Accum := []
  /-- EADDs that wait for the first accumulator of their bank to close (05 R168): (bank, flying id), in order. -/
  accumWait : List (Nat × Nat) := []
  flushes : List FlushWait := []
  cache : List CacheGran := []
  lossList : List LossEntry := []
  losses : List Loss := []
  deriving DecidableEq, Repr

/-! ## Tiers (03, 14) -/

/-- Roles of a stack site (03 R116). -/
inductive SiteRole where
  | member | spare | retired | target
  deriving DecidableEq, Repr

/-- A stack site. -/
structure Site where
  role : SiteRole
  position : Nat
  loan : BitVec 32 := 0
  down : BitVec 32 := 0
  /-- The site has failed whole (03 R95). -/
  failed : Bool := false
  /-- Events of rows since they were last replaced, rows replaced, and rows whose replacement has been made permanent, by
  channel × 2^32 + row; spare rows in use, by channel (03 R93). -/
  rowEvents : NMap Nat := []
  rowsReplaced : NSet := []
  rowsPermanent : NSet := []
  rowSpares : NMap Nat := []
  deriving DecidableEq, Repr

/-- The rebuild of a position onto the spare stack (14 R438). -/
structure StackRebuild where
  position : Nat
  /-- The spare has been brought out of idle. -/
  ready : Bool
  /-- The rebuild cursor: channel × 12,582,912 + stripe; what lies below it is rebuilt. -/
  cursor : Nat := 0
  deriving DecidableEq, Repr

/-- A flash channel (03 R99, 13 R419). -/
structure FlashChan where
  down : Bool := false
  inService : Bool := false
  deriving DecidableEq, Repr

/-- A bank's flash group (14 R439). -/
structure FlashGroup where
  /-- The channel the group runs without, once rebuilt on 15. -/
  gone : Option Nat := none
  rebuilding : Option Nat := none
  sparePct : Nat := 100
  /-- Tiles written since the channel that is being rebuilt failed: their stripes have no page on it. -/
  moved : NSet := []
  /-- A second channel failed before the rebuild was done: the stripes that had a page on both stay as they are. -/
  stuck : Bool := false
  deriving DecidableEq, Repr

/-- A staged flash tile (03 R97): its flash cell address and its 256 bytes. -/
structure StagedTile where
  bank : Nat
  addr : Nat
  data : List Byte
  deriving DecidableEq, Repr

/-- A MOVE item at the Tow (03 R106, R109, R111). -/
inductive MovePhase where
  | queued | pinWait (since : Nat) | copy | recopy (pass : Nat) | switching
  deriving DecidableEq, Repr

/-- One MOVE item. -/
structure MoveItem where
  r : DescRef
  item : Nat
  bank : Nat
  base : Nat
  job : Nat
  destTier : Tier
  destBase : Nat
  pin : Bool
  waitPins : Bool
  phase : MovePhase
  /-- Tiles marked for copying again. -/
  marked : NSet := []
  /-- From the host tier: the first tile the copy phase has not asked for, the marked tiles it has still to ask for again, and
  the tiles whose reads are outstanding (03 R100, R106). -/
  asked : Nat := 0
  again : NSet := []
  reading : NSet := []
  deriving DecidableEq, Repr

/-- A PERSIST item that waits for its extent's staged tiles (03 R105). -/
structure PersistItem where
  r : DescRef
  item : Nat
  base : Nat
  deriving DecidableEq, Repr

/-- A pin count of a job on an extent (03 R110). -/
structure Pin where
  bank : Nat
  job : Nat
  base : Nat
  count : Nat
  deriving DecidableEq, Repr

/-- A snapshot item (08 R273-R277). -/
structure SnapItem where
  src : Nat
  bounce : Nat
  dest : Nat
  tiles : Nat
  status : Nat := 0
  /-- Tiles copied out of the source, and tiles copied on out of the bounce extent. -/
  copied : NSet := []
  drained : NSet := []
  failed : Bool := false
  done : Bool := false
  deriving DecidableEq, Repr

/-- A tile that the Tow has read for a snapshot: its item and number, the code of the read and the bytes. -/
structure SnapGot where
  item : Nat
  tile : Nat
  status : Nat
  data : List Byte
  deriving DecidableEq, Repr

/-- States of a snapshot slot (08 R281). -/
inductive SnapState where
  | free | holding | copying | draining | done
  deriving DecidableEq, Repr

/-- A snapshot slot. -/
structure SnapSlot where
  st : SnapState := .free
  job : Nat := 0
  berth : Nat := 0
  bitmap : Nat := 0
  since : Nat := 0
  items : List SnapItem := []
  /-- Tiles that writes wait for, by item, in the order asked for, and the copy that waits for room in the flash staging area: its
  item, its tile, and the LTC since which it has waited (08 R276). -/
  ahead : List (Nat × Nat) := []
  full : Option (Nat × Nat × Nat) := none
  /-- Tiles read and not yet written on (08 R276). -/
  formed : List SnapGot := []
  /-- The SNAP_OPEN that waits for the point, the SNAP_SEAL that waits for the end, and the SNAP_DROP that waits for copies in
  flight (08 R278). -/
  opener : Option DescRef := none
  sealer : Option DescRef := none
  dropper : Option DescRef := none
  deriving DecidableEq, Repr

/-- Tiers, Tow and snapshots. -/
structure Tiers where
  /-- Bytes by cell address (see Operands.lean); an unlisted cell reads as zero. -/
  mem : NMap Byte := []
  /-- Granule cells that are poisoned (03 R80), and granule cells whose stored data cannot be corrected. -/
  poison : NSet := []
  faults : NSet := []
  staged : List StagedTile := []
  /-- Queued deltas, oldest first: channel, stripe, first byte in the unit, the XOR of old and new (03 R87). -/
  deltas : List (Nat × Nat × Nat × List Byte) := []
  /-- Stripe dirty log entries, by bank: channel × 2^24 + stripe (03 R89, R90), and the channels whose every stripe is marked
  for recomputation after an overflow (03 R90) or the loss of a vault (14 R436). -/
  dirtyEast : NSet := []
  dirtyWest : NSet := []
  ovfEast : BitVec 32 := 0
  ovfWest : BitVec 32 := 0
  sites : List Site := []
  rebuild : Option StackRebuild := none
  vaultsDown : NSet := []
  /-- Spare rows in use, by vault (14 R436). -/
  nearSpares : NMap Nat := []
  /-- Near-store rows that are remapped to a spare row, as the Pilot has saved them: vault × 2^32 + row (14 R436). -/
  nearRows : NSet := []
  /-- LTCs at which granules of a vault in service proved uncorrectable, the latest 64 at most (14 R436). -/
  vaultUes : NMap (List Nat) := []
  flash : List FlashChan := List.replicate 32 {}
  groups : List FlashGroup := List.replicate 2 {}
  moves : List MoveItem := []
  persists : List PersistItem := []
  pins : List Pin := []
  /-- Stall counts and cycles by berth × 8 + cause (03 R115). -/
  stallCnt : NMap Nat := []
  stallCyc : NMap Nat := []
  snaps : List SnapSlot := List.replicate 32 {}
  deriving DecidableEq, Repr

/-! ## Descriptors (02) and engines -/

/-- An answer to a read that has come, kept until the item it belongs to is done. -/
structure Inbound where
  item : Nat
  node : Nat
  off : Nat
  status : Nat
  data : List Byte
  deriving DecidableEq, Repr

/-- What a punt has returned of a scan (10 R330): the tiles, the best pairs as FP32 bits and IDs, the entries it scored, whether an
operation raised an exception, and the first tile that failed with its code. -/
structure Found where
  item : Nat
  tiles : List Nat
  best : List (Nat × Nat)
  entries : Nat
  raised : Bool
  bad : Option (Nat × Nat)
  deriving DecidableEq, Repr

/-- Where a descriptor stands. -/
inductive DescPhase where
  /-- Its 64 bytes are being read. -/
  | fetching
  /-- Admitted; its engine has not begun. -/
  | admitted
  /-- Its engine has begun and it waits: for copies, for the Tow, for a drain, for answers. -/
  | running
  /-- Every item has completed or failed. -/
  | finished
  deriving DecidableEq, Repr

/-- A descriptor held by its ring's sequencer (02 R68). -/
structure Desc where
  r : DescRef
  id : Nat
  engine : Nat
  opcode : Nat
  job : Nat
  sv : Bool
  notify : Bool
  order : Bool
  count : Nat
  svRef : Nat
  tide : Nat
  epoch : Nat
  /-- Queue sets of its berth as it was admitted (02 R62), and its ring's configuration where another one has been applied since
  (02 R71). -/
  qsets : Nat := 0
  cfg : Option Ring := none
  /-- The 64 bytes as fetched. -/
  raw : List Byte
  phase : DescPhase := .admitted
  /-- The codes for which its fetch found it refusable, while its engine may find one that comes first; the code it is refused whole
  with (00 R21). -/
  pre : List Nat := []
  refused : Option Nat := none
  /-- Units of work in order (items; bags of a GATHER) and the next one that nothing has taken yet. -/
  units : Option Nat := none
  nextItem : Nat := 0
  /-- Status codes by item; an unlisted item holds 0, OK. Keys from 2^40 on are the sequencer's own writes. -/
  statuses : NMap Nat := []
  /-- How far its completion is: 0 nothing written, 1 the status vector, 2 the record (02 R70, R71). -/
  stage : Nat := 0
  /-- Remote requests not yet answered, and reads that have been answered. -/
  out : List OutReq := []
  inbox : List Inbound := []
  /-- Copies the descriptor holds, by copy number, and LTC at which it began to wait. -/
  copies : List Nat := []
  since : Nat := 0
  /-- It waits for a copy of a built-in image (08 R254). -/
  needCopy : Bool := false
  /-- Tables an engine has read once for the descriptor: an image or a stream table, a parameter block. -/
  table : List Byte := []
  params : List Byte := []
  /-- Tainted units that wait for a copy, and how often each has been run again (06 R214). -/
  redo : List Nat := []
  retries : NMap Nat := []
  /-- What an engine has noted of its items, and what punts have returned for them. -/
  marks : NMap Nat := []
  found : List Found := []
  deriving DecidableEq, Repr

/-- A copy of an image (06 R196). -/
structure Copy where
  id : Nat
  bank : Nat
  berth : Nat
  job : Nat
  tag : Nat
  check : Nat
  /-- First row, first cluster column, footprint, context. -/
  row : Nat
  col : Nat
  w : Nat
  h : Nat
  ctx : Nat
  /-- The image's bytes; empty for a built-in image. -/
  image : List Byte := []
  /-- Entries and preloads have been written (06 R198). -/
  placed : Bool := false
  /-- Takes no new descriptor and is evicted when its descriptor completes (06 R194, R199). -/
  stale : Bool := false
  /-- A cluster of it is faulted (06 R215). -/
  retired : Bool := false
  /-- The descriptor it has been granted to; whether its clusters run it, which they do one context at a time (06 R197, R198). -/
  holder : Option DescRef := none
  on : Bool := false
  /-- Units of its descriptor in hand, the first of them in work (06 R204; 10 R312), and the committed one whose writes are not
  acknowledged (06 R206). -/
  hand : List Nat := []
  writing : Option Nat := none
  /-- LOAD descriptor and item that wait for the placing. -/
  loader : Option (DescRef × Nat) := none
  lastUse : Nat := 0
  /-- Constants K0 and K1 written from the parameter block, by entry × 2 + k (06 R204). -/
  consts : NMap Nat := []
  /-- Running values by entry × 2^18 + element (06 R187), as accumulator bits. -/
  running : NMap Nat := []
  /-- Rounding generator of each entry (07 R239). -/
  gens : NMap Nat := []
  committed : NSet := []
  deriving DecidableEq, Repr

/-- A row's remap (06 R217, R222). -/
structure RowMap where
  skip0 : Nat := 63
  skip1 : Nat := 63
  /-- Physical columns that pending remaps will skip, oldest first; those that were pending at a reset, applied during start-up
  (06 R218). -/
  pends : List Nat := []
  saved : List Nat := []
  /-- New work on the row is stopped: AUTO or GO (06 R218). -/
  stopped : Bool := false
  extra : Bool := false
  deriving DecidableEq, Repr

/-- The Raft of both banks. -/
structure Raft where
  /-- Active context of each cluster, by bank × 64 + cluster. -/
  ctx : NMap Nat := []
  /-- Rows by bank × 16 + row. -/
  rows : List RowMap := List.replicate 32 {}
  /-- SUs out of service, by row × 34 + physical column. -/
  failed : NSet := []
  copies : List Copy := []
  /-- Numbers copies, and their uses. -/
  nextCopy : Nat := 0
  /-- Last failure of an SU's residue and link checks, by (row × 34 + physical column) × 2 + (0 or 1): LTC + 1 (06 R213). -/
  lastFail : NMap Nat := []
  deriving DecidableEq, Repr

/-- States of a table or index slot (09 R310, 10 R333). -/
inductive SlotState where
  | free | defined | draining | freeing
  deriving DecidableEq, Repr

/-- A Purser table slot (09 R285, R286). The record is its 64 bytes. -/
structure TableSlot where
  st : SlotState := .free
  job : Nat := 0
  record : List Byte := []
  version : Nat := 0
  /-- The old version that drains (0: none) and its record; the SWITCH and the FREE that wait. -/
  oldVersion : Nat := 0
  oldRec : List Byte := []
  switcher : Option DescRef := none
  freer : Option DescRef := none
  deriving DecidableEq, Repr

/-- A row of a table version: SUB names the remainder table (09 R299, R305). -/
structure RowKey where
  bank : Nat
  slot : Nat
  version : Nat
  sub : Bool
  row : Nat
  deriving DecidableEq, Repr

/-- A forwarding entry (09 R305). -/
structure Fwd where
  key : RowKey
  loc : Nat
  deriving DecidableEq, Repr

/-- What holds or waits for a row lock (09 R299, R306). -/
structure LockUse where
  r : DescRef
  migrate : Bool
  /-- MIGRATE: the item; UPDATE: the items that contributed. -/
  items : List Nat
  /-- UPDATE: the copy that its row belongs to (09 R297), and the merged gradient as FP32 bits; MIGRATE: DEST. -/
  copy : Nat := 0
  gm : List Nat := []
  dest : Nat := 0
  /-- LTC at which the wait began. -/
  since : Nat := 0
  /-- The row has been read and its writes have been issued, or it has failed with the code. -/
  acted : Bool := false
  status : Nat := 0
  deriving DecidableEq, Repr

/-- A row lock, and a waiter for one. -/
structure RowLock where
  id : Nat
  key : RowKey
  holder : LockUse
  deriving DecidableEq, Repr

structure LockWait where
  key : RowKey
  use : LockUse
  deriving DecidableEq, Repr

/-- A descriptor bound to a slot's version (09 R301, 10 R319). -/
structure Bound where
  r : DescRef
  bank : Nat
  slot : Nat
  version : Nat
  deriving DecidableEq, Repr

/-- An item's contribution to a row, as FP32 bits (09 R297). -/
structure Share where
  r : DescRef
  item : Nat
  key : RowKey
  vals : List Nat
  deriving DecidableEq, Repr

/-- The Purser of both banks. -/
structure Purser where
  /-- Slots by bank × 1,024 + slot. -/
  slots : NMap TableSlot := []
  fwd : List Fwd := []
  locks : List RowLock := []
  waits : List LockWait := []
  bound : List Bound := []
  nextLock : Nat := 0
  /-- What the items of UPDATEs have contributed to rows that are not merged yet (09 R297). -/
  shares : List Share := []
  deriving DecidableEq, Repr

/-- A Sounding index slot (10 R314, R318, R328, R329). The record is its 64 bytes, DIR and MSEQ as they are now. -/
structure IndexSlot where
  st : SlotState := .free
  job : Nat := 0
  record : List Byte := []
  version : Nat := 0
  mseq : Nat := 0
  vseq : Nat := 0
  /-- Highest sequence assigned. -/
  lastSeq : Nat := 0
  voids : NSet := []
  /-- Sequences whose write is not yet acknowledged: (sequence, descriptor, item). -/
  open_ : List (Nat × DescRef × Nat) := []
  /-- Sequences written, above the visible sequence. -/
  written : NSet := []
  /-- The old version that drains (0: none). -/
  oldVersion : Nat := 0
  /-- The MERGE that writes: destination directory and snapshot; the MERGE and the FREE that wait for a drain. -/
  merging : Option (DescRef × Nat × Nat) := none
  merger : Option DescRef := none
  freer : Option DescRef := none
  deriving DecidableEq, Repr

/-- A scan queued at a punt (10 R330): its descriptor and item, the list it is of, the tiles of it on the punt's channel (place among
the item's tiles, offset, entries), M, K, the distance table as FP32 bits, and the side-list filter. -/
structure Scan where
  r : DescRef
  item : Nat
  list : Nat
  tiles : List (Nat × Nat × Nat)
  m : Nat
  k : Nat
  table : List Nat
  filter : List Nat
  deriving DecidableEq, Repr

/-- A punt: the distance table that it holds and its scans, the first in work. -/
structure Punt where
  table : List Nat := []
  scans : List Scan := []
  deriving DecidableEq, Repr

/-- What a QUERY, APPEND or MERGE has bound: version (0 for an APPEND), directory, merge sequence, snapshot, void sequences
(10 R319). -/
structure QBound where
  b : Bound
  dir : Nat
  mseq : Nat
  snap : Nat
  voids : NSet
  deriving DecidableEq, Repr

/-- Sounding of both banks and the punts. -/
structure Sounding where
  slots : NMap IndexSlot := []
  bound : List QBound := []
  /-- Punts by channel. -/
  punts : List Punt := List.replicate 32 {}
  deriving DecidableEq, Repr

/-! ## Landings, Wharf, scheduler (11, 12) -/

/-- Link states (11 R374). -/
inductive LinkState where
  | disabled | down | training | up | retraining
  deriving DecidableEq, Repr

/-- A traffic flit in a replay buffer (11 R342). -/
structure ReplayFlit where
  seq : Nat
  resends : Nat := 0
  /-- Its SLOT_START and the bytes of its slots. -/
  start : Nat := 0
  slots : List Byte := []
  /-- The frame whose message ends in this flit, if one does. -/
  frame : Option Frame
  deriving DecidableEq, Repr

/-- The first word of a flit (11 R338). -/
structure FlitHead where
  seq : Nat := 0
  ack : Nat := 0
  ackV : Bool := false
  nak : Bool := false
  /-- 0 idle, 1 traffic, 2 control. -/
  kind : Nat := 0
  resend : Bool := false
  start : Nat := 0
  credClass : Nat := 0
  cred : Nat := 0
  deriving DecidableEq, Repr

/-- A memory request a Landing accepted: number of its last flit, source, request ID, and its answer (04 R134). -/
structure Accepted where
  flit : Nat
  src : Nat
  reqId : Nat
  outcome : Option Msg := none
  deriving DecidableEq, Repr

/-- A Foghorn frame (11 R371). -/
structure Foghorn where
  port : Nat
  node : Nat
  nodeValid : Bool
  up : Nat
  epoch : Nat
  seq : Nat
  health : Nat
  width : Nat
  deriving DecidableEq, Repr

/-- A Landing (11). -/
structure Landing where
  st : LinkState := .down
  gen2 : Bool := false
  width : Nat := 1
  /-- Lanes it may train at in this start (16 R499, LANDINGS). -/
  cap : Nat := 4
  laneOk : BitVec 4 := 0
  /-- The last training or retrain left it down for want of good lanes (14 R434). -/
  lanesBad : Bool := false
  partnerEf2 : Bool := false
  /-- The last training attempt has found a generation and a width (11 R337, R347). -/
  trained : Bool := false
  /-- The retrain that runs was asked for by software, and may widen the link (11 R347). -/
  swRetrain : Bool := false
  /-- Corrected FEC symbols of each lane in the window of 1 ms that began at `fecSince` (11 R346). -/
  fecErrs : List Nat := [0, 0, 0, 0]
  fecSince : Nat := 0
  txNext : Nat := 0
  replay : List ReplayFlit := []
  lastAck : Nat := 0
  rxNext : Nat := 0
  nakOwed : Bool := false
  rxFlits : Nat := 0
  /-- Per class: slots of credit held by this sender, partner's running count last seen, slots freed here. -/
  credit : List Nat := List.replicate 8 2048
  credSeen : List Nat := List.replicate 8 0
  freed : List Nat := List.replicate 8 0
  /-- Class whose credit the next flit returns; flits sent since the last control flit (11 R338, R341). -/
  credNext : Nat := 0
  sinceCtl : Nat := 0
  /-- The stream into the RS encoder (11 R339): 10-bit symbols of the codeword that is being filled, and the bits after them that
  are no whole symbol yet. -/
  fecWord : List Nat := []
  fecBits : List Bool := []
  /-- Bytes of the message whose slots are arriving (11 R354). -/
  rxMsg : List Byte := []
  fogSeq : Nat := 0
  fogLastTx : Nat := 0
  fogLastRx : Nat := 0
  fogMissedNow : Nat := 0
  /-- LTC at which the link went down, or of its last training attempt; none before the first attempt (11 R349). -/
  downAt : Option Nat := none
  /-- Memory requests of the last 512 received flits (04 R134). -/
  accepted : List Accepted := []
  /-- Last Foghorn frame sent (11 R371). -/
  fogSent : Option Foghorn := none
  /-- Scheduler: virtual time, last tags by queue key, priority bucket in quarter bytes and its LTC (12 R384, R385). -/
  vtime : Nat := 0
  last : NMap Nat := []
  prioLast : Nat := 0
  /-- Where the tag of the priority path's head starts while its bucket is short and it waits (12 R384, R386). -/
  prioWoke : Option Nat := none
  bucket : Nat := 16384 * 4
  bucketAt : Nat := 0
  deriving DecidableEq, Repr

/-- The Wharf of both banks. -/
structure Wharf where
  frames : List Frame := []
  nextFrame : Nat := 0
  nextGroup : Nat := 1
  /-- Cells held by (bank × 512 + output × 8 + class): guaranteed and shared. -/
  gused : NMap Nat := []
  sheld : NMap Nat := []
  gmin : NMap Nat := []
  /-- Shared pool in use, East and West. -/
  shusedEast : Nat := 0
  shusedWest : Nat := 0
  epBase : Nat := 0
  epValid : Bool := false
  deriving DecidableEq, Repr

/-- A Timetable entry (12 R403), as its 64-bit word. -/
abbrev GateEntry := Word

/-- A Landing's Timetable (12 R392-R395). -/
structure Timetable where
  active : List GateEntry
  activeN : Nat := 1
  shadow : List GateEntry
  shadowN : Nat := 1
  base : Nat := 0
  nextBase : Nat := 0
  armed : Bool := false
  reason : Nat := 0
  deriving DecidableEq, Repr

/-- A job's marker (12 R389). -/
structure FareJob where
  enable : Bool := false
  aware : Bool := false
  pre : Nat := 0
  cir : Nat := 0
  cbs : Nat := 0
  pir : Nat := 0
  pbs : Nat := 0
  tc : Nat := 0
  tp : Nat := 0
  seen : Nat := 0
  greenReq : Nat := 0
  greenBytes : Nat := 0
  yellowReq : Nat := 0
  yellowBytes : Nat := 0
  redReq : Nat := 0
  redBytes : Nat := 0
  deriving DecidableEq, Repr

/-- Metering of a berth (12 R396): integrals as of `at_`, and bytes. -/
structure Meter where
  ints : List Nat := List.replicate 8 0
  at_ : Nat := 0
  tx : Nat := 0
  rx : Nat := 0
  deriving DecidableEq, Repr

/-- A metering snapshot (12 R398). -/
structure MeterSnap where
  ltc : Nat := 0
  vals : List Nat := List.replicate 10 0
  deriving DecidableEq, Repr

/-- Scheduling, policing, metering of the device. -/
structure Sched where
  jobqs : NMap Nat := []
  /-- Queue weights by (berth × 8 + queue set) × 8 + class; unlisted: 1,024. -/
  weights : NMap Nat := []
  fare : NMap FareJob := []
  tts : List Timetable
  meters : NMap Meter := []
  snapEast : MeterSnap := {}
  snapWest : MeterSnap := {}
  deriving DecidableEq, Repr

/-! ## PCIe, CXL, management (13) -/

/-- A memory function (13 R407, R430, R431). -/
structure PcieFn where
  endPoint : Nat := 0
  job : Nat := 0
  valid : Bool := false
  log2 : Nat := 0
  /-- LOG2 in effect since the function's last reset (13 R431). -/
  log2Now : Nat := 0
  base : Nat := 0
  /-- What the host has put into BAR0/1 and BAR2/3 (13 R406). -/
  bar01 : Nat := 0
  bar23 : Nat := 0
  deriving DecidableEq, Repr

/-- An MSI-X vector, by function × 4096 + vector (13 R406, R413): masked, pending, and its table entry's address and data. -/
structure Vector_ where
  masked : Bool := true
  pending : Bool := false
  addr : Nat := 0
  data : Nat := 0
  deriving DecidableEq, Repr

/-- A piece of a TLP: one memory request, how often it was sent again, and its answer: status and data. -/
structure Piece where
  off : Nat
  bytes : Nat
  data : List Byte := []
  attempts : Nat := 0
  answer : Option (Nat × List Byte) := none
  deriving DecidableEq, Repr

/-- A TLP whose pieces are not all answered (13 R408-R411). -/
structure Tlp where
  id : Nat
  port : Nat
  fn : Nat
  /-- 0 memory read, 1 posted write, 2 AtomicOp, 3 CXL MemRd, 4 CXL MemWr. -/
  kind : Nat
  /-- Pieces in address order. -/
  pieces : List Piece
  bytes : Nat := 0
  op : Option PcieAtomic := none
  /-- End point and job of its function as it was received (13 R430). -/
  endPoint : Nat := 0
  job : Nat := 0
  /-- Completion discarded after a port or function reset (13 R414). -/
  drop : Bool := false
  deriving DecidableEq, Repr

/-- What a read of host memory is for: a request in flight, or a tile of a MOVE whose source is the host tier. -/
inductive HostUse where
  | request (flying : Nat)
  | move (base tile : Nat)
  deriving DecidableEq, Repr

/-- A read the port has sent to the host (03 R100, 13 R412): id, what waits for it, LTC of issue. -/
structure HostRead where
  id : Nat
  port : Nat
  use : HostUse
  /-- Host address and length, and the LTC of its issue; one that finds 1,024 outstanding waits (13 R404). -/
  addr : Nat := 0
  len : Nat := 0
  since : Nat
  sent : Bool := true
  deriving DecidableEq, Repr

/-- A PCIe port. -/
structure Port where
  up : Bool := false
  training : Bool := false
  rate : Nat := 0
  width : Nat := 0
  proto : PcieProto := .pcie
  /-- PCIE_CTL as the last training began with it (13 R405, R427). -/
  ctl : Nat := 0
  bme : Bool := false
  fns : List PcieFn := List.replicate 8 {}
  vectors : NMap Vector_ := []
  hdm : List Bool := [false, false, false, false]
  tlps : List Tlp := []
  nextTlp : Nat := 0
  hostReads : List HostRead := []
  /-- Its PHY has left service for this start (16 R499, CLOCKS). -/
  off : Bool := false
  deriving DecidableEq, Repr

/-- A step's entry in the Logbook (16 R502). -/
structure LogEntry where
  step : Nat
  outcome : Nat
  detail : Nat
  start : Nat
  elapsed : Nat
  cause : Nat
  deriving DecidableEq, Repr

/-- What a piece of console output reports (13 R426): a Logbook entry, an event by its page and bit, the answer to an input
line. The spec gives none of the text. -/
inductive ConText where
  | step (e : LogEntry)
  | event (page bit : Nat)
  | answer (line : List Byte)
  deriving DecidableEq, Repr

/-- What the block has sent on its PCIe and low-speed interfaces, in order. -/
inductive Out where
  /-- The answer of a control-space access: path, status, value. -/
  | ctl (p : Path) (status : Nat) (value : Word)
  /-- A PCIe completion: port, function, status (0 success, 1 UR, 4 CA), poisoned, data. -/
  | cpl (port fn status : Nat) (ep : Bool) (data : List Byte)
  /-- An Unsupported Request reported through Advanced Error Reporting (13 R411): port and function. -/
  | aer (port fn : Nat)
  /-- CXL answers: MemData with its poison bit, and Cmp. -/
  | memData (port : Nat) (poison : Bool) (data : List Byte)
  | cmp (port : Nat)
  /-- An MSI-X message. -/
  | msix (port fn vec : Nat)
  /-- A memory read or posted write to the host: port, host address, length or data. -/
  | hostRead (port id addr len : Nat)
  | hostWrite (port addr : Nat) (data : List Byte)
  /-- A flit of a Landing: its first word, the bytes of its 15 slots and its CHECK (11 R338). -/
  | flit (ld : Nat) (head : FlitHead) (slots : List Byte) (check : Nat)
  /-- An I3C in-band interrupt. -/
  | ibi
  /-- MCTP and SPDM messages, CXL mailbox answers: the bytes; a text written to the console's buffer (13 R426). -/
  | mctp (bytes : List Byte)
  | spdm (t : SpdmPort) (bytes : List Byte)
  | mailbox (port : Nat) (ret : Nat) (bytes : List Byte)
  | console (t : ConText)
  deriving DecidableEq, Repr

/-- A large SPDM message being received or sent in chunks: its handle, its bytes, its size, the next chunk and the bytes already
sent. -/
structure Chunks where
  handle : Nat := 0
  bytes : List Byte := []
  size : Nat := 0
  seq : Nat := 0
  at_ : Nat := 0
  deriving DecidableEq, Repr

/-- The connection state of an SPDM transport (13 R424). -/
structure Spdm where
  /-- 0 none, 1 after version, 2 after capabilities, 3 negotiated. -/
  stage : Nat := 0
  version : Nat := 0
  /-- The requester's DataTransferSize, and whether it has CHUNK_CAP. -/
  peerSize : Nat := 0
  peerChunks : Bool := false
  /-- Messages of the connection so far: GET_VERSION to ALGORITHMS; the digests and certificates after them; the
  measurements after them. -/
  vca : List Byte := []
  certs : List Byte := []
  meas : List Byte := []
  chunkIn : Option Chunks := none
  chunkOut : Option Chunks := none
  /-- Handle of the next large response. -/
  nextHandle : Nat := 0
  deriving DecidableEq, Repr

/-- The low-speed management interfaces. -/
structure Mgmt where
  i3cAddr : Nat := 0
  i3cValid : Bool := false
  eid : Nat := 0
  hdr : Bool := false
  spdmMctp : Spdm := {}
  spdmDoe0 : Spdm := {}
  spdmDoe1 : Spdm := {}
  /-- Instruction registers of the two TAPs (log 7). -/
  tapEast : Nat := 2
  tapWest : Nat := 2
  /-- Console output (13 R426): what of `tx` has entered the buffer, the characters left of each text in it, oldest first, and the LTC
  at which its first character began (log 45). -/
  conSeen : Nat := 0
  conBuf : List Nat := []
  conAt : Nat := 0
  deriving DecidableEq, Repr

/-! ## Customs (15) -/

/-- A key slot (15 R471, R472). -/
structure KeySlot where
  loaded : Bool := false
  job : Nat := 0
  data : List Byte := []
  tweak : List Byte := []
  refs : Nat := 0
  deriving DecidableEq, Repr

/-- The image banks of one TYPE (15 R466, R467). An empty bank stands for the image it was made with (log 9). -/
structure ImageBanks where
  a : List Byte := []
  b : List Byte := []
  activeB : Bool := false
  /-- An accepted image has been staged in the inactive bank. -/
  staged : Bool := false
  /-- The inactive bank is marked for trial at the next start; it runs now. -/
  trial : Bool := false
  trialRuns : Bool := false
  /-- What runs: bank, and bytes (empty: the image the bank was made with). -/
  runsB : Bool := false
  running : List Byte := []
  /-- An accepted image received in recovery in this start (16 R498). -/
  received : List Byte := []
  deriving DecidableEq, Repr

/-- A STAGE that runs (15 R467): its TYPE, CUST_FW_SRC as it stood, the bytes read so far, whether a read is outstanding, and the
answer of one that has come. -/
structure FwRun where
  type : Nat
  src : Nat
  got : List Byte := []
  asked : Bool := false
  answer : Option (Nat × List Byte) := none
  deriving DecidableEq, Repr

/-- Customs. -/
structure Customs where
  debugUnlocked : Bool := false
  keys : NMap KeySlot := []
  keyData : List Word := List.replicate 16 0
  keyDone : Bool := false
  keyLoadedBit : Bool := false
  keyResult : Nat := 0
  keyJob : Nat := 0
  keyRefs : Nat := 0
  fwDone : Bool := false
  /-- The last TYPE that a command named (15 R482). -/
  fwType : Nat := 0
  fwResult : Nat := 0
  fwReason : Nat := 0
  /-- The STAGE that runs: BUSY of CUST_FW_STAT. -/
  fw : Option FwRun := none
  /-- Image banks by TYPE 1 to 4. -/
  banks : List ImageBanks := List.replicate 4 {}
  /-- Numbers drawn at this start (15 R470): where in `Config.free` they stand. -/
  wrapAt : Nat := 0
  nonceAt : Nat := 7
  /-- The security state at the boot step, 16 bytes (15 R463, R469). -/
  bootState : List Byte := []
  deriving DecidableEq, Repr

/-! ## Salvage (14) -/

/-- Member states (14 R443, R460). -/
inductive MemberState where
  | current | unreachable | stale | rebuilding
  deriving DecidableEq, Repr

/-- A peer table entry (14 R460). -/
structure Peer where
  node : Nat := 0
  epBase : Nat := 0
  valid : Bool := false
  st : MemberState := .current
  tide : Nat := 0
  deriving DecidableEq, Repr

/-- A convoy table entry (14 R461). -/
structure Convoy where
  n : Nat := 0
  self : Nat := 0
  valid : Bool := false
  tide : Nat := 0
  nodes : List Nat := List.replicate 18 0
  states : List MemberState := List.replicate 18 .current
  deriving DecidableEq, Repr

/-- Protection traffic sent and not yet answered (14 R445). -/
structure Protect where
  out : OutReq
  flying : Nat
  node : Nat
  since : Nat
  deriving DecidableEq, Repr

/-- A tile being reconstructed from peers (14 R449, R452): the extent's BASE, the tile's OFFSET, reads not yet answered
(member, request ID), members' tiles read, the requests that wait for it. Member 31 stands for a mirror's partner. -/
structure Recon where
  base : Nat
  off : Nat
  need : List (Nat × Nat)
  got : List (Nat × List Byte) := []
  waiters : List Nat := []
  deriving DecidableEq, Repr

/-- A logged tile (14 R448): bank, extent base, tile, node of the member left out. -/
structure PeerDirty where
  bank : Nat
  base : Nat
  tile : Nat
  node : Nat
  deriving DecidableEq, Repr

/-- Salvage. -/
structure Salvage where
  peers : NMap Peer := []
  convoys : NMap Convoy := []
  /-- Staged words of a convoy entry, as written, until an APPLY takes them. -/
  stage : NMap (List Nat) := []
  protect : List Protect := []
  recons : List Recon := []
  dirty : List PeerDirty := []
  /-- Extents whose every tile is marked for a member, its tile having found the log full: bank, BASE, node (14 R448). -/
  marked : List (Nat × Nat × Nat) := []
  fencedOut : Bool := false
  /-- LTC since which every link is down (14 R442). -/
  isolatedSince : Option Nat := none
  /-- A Landing or a PCIe link has been up since the reset. -/
  wasUp : Bool := false
  /-- Units out of service or spares in use (14 R434). -/
  degraded : Bool := false
  /-- SALV_CMD_STAT of each bank's page: DONE and RESULT. -/
  cmds : List (Bool × Nat) := [(false, 0), (false, 0)]
  nextReq : Nat := 0
  deriving DecidableEq, Repr

/-! ## Causeway (01), clock, reset and power (16) -/

/-- A frame in a sender's replay buffer (01 R25): what crosses between which blocks, its class, its sequence, and the lane group it
was last sent on. -/
structure CwFrame where
  pair : CwPair
  cls : Nat
  seq : Nat
  group : Nat
  deriving DecidableEq, Repr

/-- A direction of the Causeway (01 R24-R26). -/
structure CwDir where
  /-- Groups in service, groups retired, spares in use. -/
  inService : NSet := []
  retired : NSet := []
  spares : Nat := 0
  /-- Check failures per group in the window, and the window's start (01 R26). -/
  errs : NMap Nat := []
  window : Nat := 0
  /-- The sender's frames not yet acknowledged, oldest first; per pair × 8 + class the sequence of its next frame, and the one that the
  receiver delivers next (01 R25). -/
  replay : List CwFrame := []
  txNext : NMap Nat := []
  rxNext : NMap Nat := []
  deriving DecidableEq, Repr

/-- The Causeway. -/
structure Causeway where
  toWest : CwDir := {}
  toEast : CwDir := {}
  deriving DecidableEq, Repr

/-- Whether the module has power (16 R484, R486). -/
inductive Power where
  | off | on | latched
  deriving DecidableEq, Repr

/-- Phases of a reset with power applied (16 R494). -/
inductive ResetPhase where
  | none | notice | quiesce | links
  deriving DecidableEq, Repr

/-- Kinds of reset (16 R502, DETAIL of BEGIN). -/
inductive ResetKind where
  | powerOn | pin | software | watchdog
  deriving DecidableEq, Repr

/-- Straps (16 R498, R507). -/
structure Straps where
  boot : Nat := 0
  efgen : Nat := 1
  pciegen : Nat := 0
  spare : Nat := 1
  nodehint : Nat := 0
  debug : Nat := 0
  deriving DecidableEq, Repr

/-- Clocks, resets, power and the Logbook. -/
structure Sys where
  ltc : Nat := 0
  power : Power := .on
  phase : ResetPhase := .none
  kind : ResetKind := .powerOn
  /-- LTC at which the phase began. -/
  phaseAt : Nat := 0
  /-- Step of the start (16 R499), 0x12 once in service, the unit it works on, and whether that unit's alternative is being
  tried: 1 for a failure in this start, 2 for one in the start before; the hold (16 R501). -/
  step : Nat := 0
  unit : Nat := 0
  alt : Nat := 0
  hold : Bool := false
  fails : Nat := 0
  failStep : Nat := 0
  zeroing : Bool := true
  nearDone : Bool := false
  stacksDone : Bool := false
  /-- Units whose last entry in the previous start is failed or started: step × 65,536 + unit (16 R500). -/
  open_ : NSet := []
  lastCause : Nat := 2
  startNo : Nat := 1
  /-- µs of this start before LTC 0, as far as the Logbook's entries have counted them (16 R502; log 31). -/
  startUs : Nat := 0
  /-- Newest first. -/
  logbook : List LogEntry := [{ step := 0, outcome := 0, detail := 0, start := 1, elapsed := 0, cause := 2 }]
  straps : Straps := {}
  ready : Bool := false
  faultN : Bool := true
  thermN : Bool := true
  duty : Nat := 16
  halfRate : Bool := false
  hot : Bool := false
  /-- Samples of the input power, newest first, at most the 100 of 1 ms, and VIN in 0.1 V (16 R487, R508). -/
  samples : List Nat := []
  vin : Nat := 0
  /-- LTC of the last duty change. -/
  dutyAt : Nat := 0
  /-- LTC up to which the ARITH cycles withheld are in the counters (16 R487). -/
  countedAt : Nat := 0
  dieTemp : NMap Nat := []
  stackTemp : NMap Nat := []
  flashTemp : NMap Nat := []
  westHeld : Bool := false
  cwLost : Bool := false
  deriving DecidableEq, Repr

/-! ## The whole state -/

/-- Everything but the one-time fuses and the queue. -/
structure Dev where
  sys : Sys := {}
  cw : Causeway := {}
  /-- Stored registers, counters, event bits and first-error records, by control-space offset, as numbers below 2^64. Each listed value
  differs from the reset value of Regs.lean. -/
  regs : NMap Nat := []
  /-- Read captures (00 R16) and held low halves (17 R515), per path: offset of the register and the half. -/
  shadow : NMap (Option (Nat × Nat)) := []
  lowHeld : NMap (Option (Nat × Nat)) := []
  toll : Toll := {}
  xmap : XMap := {}
  flying : List Flying := []
  nextFlying : Nat := 0
  quay : Quay := {}
  tiers : Tiers := {}
  descs : List Desc := []
  raft : Raft := {}
  purser : Purser := {}
  sound : Sounding := {}
  lands : List Landing := List.replicate 16 {}
  wharf : Wharf := {}
  sched : Sched
  ports : List Port := List.replicate 2 {}
  mgmt : Mgmt := {}
  cust : Customs := {}
  salv : Salvage := {}
  tx : List Out := []
  /-- The model's own: free values taken so far. -/
  fresh : Nat := 0
  deriving DecidableEq, Repr

/-- What is burnt once: the security version fuses of TYPE 1 to 4, and the vendor keys revoked (15 R466, R467). -/
structure Fuses where
  svn : List Nat := [0, 0, 0, 0]
  revoked : List Bool := [false, false, false, false]
  deriving DecidableEq, Repr

/-- The whole state of the block. -/
structure State where
  dev : Dev
  fuses : Fuses := {}
  /-- The model's own: the commands that wait, first in first out. -/
  pending : List Instr := []
  deriving DecidableEq, Repr

/-- A new module's ten sites: site s serves position s, site 9 is the hot spare stack (03 R116). -/
def newSites : List Site :=
  (List.range 9).map (fun p => { role := .member, position := p }) ++ [{ role := .spare, position := 15 }]

/-- The reset entry of a Timetable: every gate open, DURATION 0xFFFF_FFFF (12 R392, R403). -/
def openEntry : GateEntry := 0x0001_FFFF_FFFF_FFFF

/-- The reset Timetable of a Landing (12 R392). -/
def resetTimetable : Timetable :=
  { active := [openEntry], shadow := [openEntry] }

/-- The device right after a power-on reset with every strap unconnected (16 R493, R498): the LTC is 0 and the
start stands at its first step. -/
def Dev.reset : Dev :=
  { tiers := { sites := newSites }
    sched := { tts := List.replicate 16 resetTimetable }
    cust := { wrapAt := 0, nonceAt := 7 }
    fresh := 8 }

/-- The machine right after reset: no fuse burnt, no command waiting. -/
def State.reset : State :=
  { dev := Dev.reset }

end Sys2Proof.Machine
end

