-- ==== Sys2Proof/Machine/Util.lean ====
section
/-! DEFINITION. Helpers over numbers, byte strings and lists that every family uses: bit fields, little-endian byte
strings (00 R7), updates of one list element. -/

namespace Sys2Proof.Machine

open Sys2Proof

/-! ## Bit fields of numbers -/

/-- Bits [lo + w - 1 : lo] of `n`. -/
def fld (n lo w : Nat) : Nat := n / 2 ^ lo % 2 ^ w

/-- Bit `i` of `n`. -/
def bit (n i : Nat) : Bool := n / 2 ^ i % 2 == 1

/-- A Boolean as a bit. -/
def b2n (b : Bool) : Nat := if b then 1 else 0

/-- `n` with `v` in bits [lo + w - 1 : lo]. -/
def setFld (n lo w v : Nat) : Nat :=
  n % 2 ^ lo + (v % 2 ^ w) * 2 ^ lo + n / 2 ^ (lo + w) * 2 ^ (lo + w)

/-- `old` where `mask` is 0 and `new` where it is 1 (numbers below 2^64). -/
def blend (old new mask : Nat) : Nat :=
  ((BitVec.ofNat 64 old &&& ~~~(BitVec.ofNat 64 mask)) ||| (BitVec.ofNat 64 new &&& BitVec.ofNat 64 mask)).toNat

/-- Bitwise operations of numbers below 2^64. -/
def land64 (a b : Nat) : Nat := (BitVec.ofNat 64 a &&& BitVec.ofNat 64 b).toNat

def lor64 (a b : Nat) : Nat := (BitVec.ofNat 64 a ||| BitVec.ofNat 64 b).toNat

/-- `a` without the bits of `b`. -/
def clr64 (a b : Nat) : Nat := (BitVec.ofNat 64 a &&& ~~~(BitVec.ofNat 64 b)).toNat

/-- Number of ones among the lowest `w` bits. -/
def popcount : Nat → Nat → Nat
  | 0, _ => 0
  | w + 1, n => n % 2 + popcount w (n / 2)

/-- The indices below `w` whose bit of `n` is one, rising. -/
def bitsOf (w n : Nat) : List Nat := (List.range w).filter (bit n)

/-- The number whose ones are the bits listed. -/
def ofBits : List Nat → Nat
  | [] => 0
  | i :: l => lor64 (2 ^ i) (ofBits l)

/-- `a` divided by `b`, rounded up. -/
def ceilDiv (a b : Nat) : Nat := (a + b - 1) / b

/-! ## Byte strings -/

/-- The byte of a number's lowest eight bits. -/
def byte (n : Nat) : Byte := BitVec.ofNat 8 n

/-- `n` as `k` bytes, the lowest first (00 R7). -/
def leBytes : Nat → Nat → List Byte
  | 0, _ => []
  | k + 1, n => byte n :: leBytes k (n / 256)

/-- The number a little-endian byte string holds. -/
def leNat : List Byte → Nat
  | [] => 0
  | b :: l => b.toNat + 256 * leNat l

/-- Bytes `[o, o + k)` of a string; past its end, zero. -/
def sub (l : List Byte) (o k : Nat) : List Byte :=
  let m := (l.drop o).take k
  m ++ List.replicate (k - m.length) 0

/-- The little-endian number of `k` bytes at `o`. -/
def leAt (l : List Byte) (o k : Nat) : Nat := leNat (sub l o k)

/-- `l` with the bytes `v` at `o` (within its length). -/
def putAt (l : List Byte) (o : Nat) (v : List Byte) : List Byte :=
  l.take o ++ v ++ l.drop (o + v.length)

/-- Bytewise exclusive or. -/
def xorBytes (a b : List Byte) : List Byte := List.zipWith (· ^^^ ·) a b

/-- Whether every byte is zero. -/
def allZero (l : List Byte) : Bool := l.all (· == 0)

/-- The string cut into pieces of `k` bytes (fuel: the number of pieces). -/
def chunks {α : Type} : Nat → Nat → List α → List (List α)
  | 0, _, _ => []
  | n + 1, k, l => l.take k :: chunks n k (l.drop k)

/-! ## Lists -/

/-- `l` with `f` applied to element `i`. -/
def modAt {α : Type} (f : α → α) : List α → Nat → List α
  | [], _ => []
  | a :: l, 0 => f a :: l
  | a :: l, i + 1 => a :: modAt f l i

/-- `l` with `f` applied to the first element that satisfies `p`. -/
def modFirst {α : Type} (p : α → Bool) (f : α → α) : List α → List α
  | [] => []
  | a :: l => if p a then f a :: l else a :: modFirst p f l

/-- `l` without the first element that satisfies `p`. -/
def delFirst {α : Type} (p : α → Bool) : List α → List α
  | [] => []
  | a :: l => if p a then l else a :: delFirst p l

/-- The least number below `n` that satisfies `p`. -/
def findBelow (n : Nat) (p : Nat → Bool) : Option Nat := (List.range n).find? p

/-- The sum of a list of numbers. -/
def total : List Nat → Nat
  | [] => 0
  | a :: l => a + total l

/-- Insert by a key, keeping rising order, after equal keys. -/
def insertBy {α : Type} (key : α → Nat) (a : α) : List α → List α
  | [] => [a]
  | b :: l => if key b ≤ key a then b :: insertBy key a l else a :: b :: l

/-- Sort by a key, keeping the order of equal keys. -/
def sortBy {α : Type} (key : α → Nat) : List α → List α
  | [] => []
  | a :: l =>
    let rest := sortBy key l
    match rest with
    | [] => [a]
    | b :: m => if key a ≤ key b then a :: rest else b :: insertFront key a m
where
  /-- Insert before equal keys. -/
  insertFront (key : α → Nat) (a : α) : List α → List α
    | [] => [a]
    | b :: l => if key a ≤ key b then a :: b :: l else b :: insertFront key a l

end Sys2Proof.Machine
end

