-- ==== Sys2Proof/Machine/Crypto.lean ====
section
/-! DEFINITION. Cyclic checks (11 R340, R360) and the AES-256 algorithms of 15 R462: the block cipher (FIPS 197), XTS
for memory (IEEE 1619) and key wrap (RFC 3394). Bytes are numbers below 256. -/

namespace Sys2Proof.Machine

open Sys2Proof

/-! ## Cyclic checks -/

/-- One step of a reflected cyclic check register of width below 64 bits with reflected polynomial `poly`. -/
def crcBit (poly r : Nat) : Nat := if r % 2 == 1 then (r / 2) ^^^ poly else r / 2

/-- Eight steps. -/
def crcByte (poly r b : Nat) : Nat :=
  let r := r ^^^ b
  crcBit poly (crcBit poly (crcBit poly (crcBit poly (crcBit poly (crcBit poly (crcBit poly (crcBit poly r)))))))

/-- CRC-32C of a byte string: reflected polynomial 0x82F6_3B78, all ones in, complemented out (11 R360). -/
def crc32c (l : List Byte) : Nat := (l.foldl (fun r b => crcByte 0x82F63B78 r b.toNat) 0xFFFFFFFF) ^^^ 0xFFFFFFFF

/-- CRC-64 of 11 R340: ECMA-182 polynomial, least significant bit first, all ones in, complemented out. -/
def crc64 (l : List Byte) : Nat :=
  (l.foldl (fun r b => crcByte 0xC96C5795D7870F42 r b.toNat) 0xFFFFFFFFFFFFFFFF) ^^^ 0xFFFFFFFFFFFFFFFF

/-! ## AES-256 -/

/-- The S-box (FIPS 197). -/
def sbox : List Nat :=
  [99, 124, 119, 123, 242, 107, 111, 197, 48, 1, 103, 43, 254, 215, 171, 118] ++
  [202, 130, 201, 125, 250, 89, 71, 240, 173, 212, 162, 175, 156, 164, 114, 192] ++
  [183, 253, 147, 38, 54, 63, 247, 204, 52, 165, 229, 241, 113, 216, 49, 21] ++
  [4, 199, 35, 195, 24, 150, 5, 154, 7, 18, 128, 226, 235, 39, 178, 117] ++
  [9, 131, 44, 26, 27, 110, 90, 160, 82, 59, 214, 179, 41, 227, 47, 132] ++
  [83, 209, 0, 237, 32, 252, 177, 91, 106, 203, 190, 57, 74, 76, 88, 207] ++
  [208, 239, 170, 251, 67, 77, 51, 133, 69, 249, 2, 127, 80, 60, 159, 168] ++
  [81, 163, 64, 143, 146, 157, 56, 245, 188, 182, 218, 33, 16, 255, 243, 210] ++
  [205, 12, 19, 236, 95, 151, 68, 23, 196, 167, 126, 61, 100, 93, 25, 115] ++
  [96, 129, 79, 220, 34, 42, 144, 136, 70, 238, 184, 20, 222, 94, 11, 219] ++
  [224, 50, 58, 10, 73, 6, 36, 92, 194, 211, 172, 98, 145, 149, 228, 121] ++
  [231, 200, 55, 109, 141, 213, 78, 169, 108, 86, 244, 234, 101, 122, 174, 8] ++
  [186, 120, 37, 46, 28, 166, 180, 198, 232, 221, 116, 31, 75, 189, 139, 138] ++
  [112, 62, 181, 102, 72, 3, 246, 14, 97, 53, 87, 185, 134, 193, 29, 158] ++
  [225, 248, 152, 17, 105, 217, 142, 148, 155, 30, 135, 233, 206, 85, 40, 223] ++
  [140, 161, 137, 13, 191, 230, 66, 104, 65, 153, 45, 15, 176, 84, 187, 22]

/-- Its inverse. -/
def sboxInv : List Nat :=
  [82, 9, 106, 213, 48, 54, 165, 56, 191, 64, 163, 158, 129, 243, 215, 251] ++
  [124, 227, 57, 130, 155, 47, 255, 135, 52, 142, 67, 68, 196, 222, 233, 203] ++
  [84, 123, 148, 50, 166, 194, 35, 61, 238, 76, 149, 11, 66, 250, 195, 78] ++
  [8, 46, 161, 102, 40, 217, 36, 178, 118, 91, 162, 73, 109, 139, 209, 37] ++
  [114, 248, 246, 100, 134, 104, 152, 22, 212, 164, 92, 204, 93, 101, 182, 146] ++
  [108, 112, 72, 80, 253, 237, 185, 218, 94, 21, 70, 87, 167, 141, 157, 132] ++
  [144, 216, 171, 0, 140, 188, 211, 10, 247, 228, 88, 5, 184, 179, 69, 6] ++
  [208, 44, 30, 143, 202, 63, 15, 2, 193, 175, 189, 3, 1, 19, 138, 107] ++
  [58, 145, 17, 65, 79, 103, 220, 234, 151, 242, 207, 206, 240, 180, 230, 115] ++
  [150, 172, 116, 34, 231, 173, 53, 133, 226, 249, 55, 232, 28, 117, 223, 110] ++
  [71, 241, 26, 113, 29, 41, 197, 137, 111, 183, 98, 14, 170, 24, 190, 27] ++
  [252, 86, 62, 75, 198, 210, 121, 32, 154, 219, 192, 254, 120, 205, 90, 244] ++
  [31, 221, 168, 51, 136, 7, 199, 49, 177, 18, 16, 89, 39, 128, 236, 95] ++
  [96, 81, 127, 169, 25, 181, 74, 13, 45, 229, 122, 159, 147, 201, 156, 239] ++
  [160, 224, 59, 77, 174, 42, 245, 176, 200, 235, 187, 60, 131, 83, 153, 97] ++
  [23, 43, 4, 126, 186, 119, 214, 38, 225, 105, 20, 99, 85, 33, 12, 125]

/-- Multiplication by x in GF(2⁸) modulo x⁸ + x⁴ + x³ + x + 1. -/
def xtime (a : Nat) : Nat := if a < 128 then 2 * a else (2 * a) % 256 ^^^ 0x1B

/-- Multiplication in that field by a constant below 16. -/
def gmul (k a : Nat) : Nat :=
  let a2 := xtime a
  let a4 := xtime a2
  let a8 := xtime a4
  (if k % 2 == 1 then a else 0) ^^^ (if k / 2 % 2 == 1 then a2 else 0) ^^^ (if k / 4 % 2 == 1 then a4 else 0) ^^^
    (if k / 8 % 2 == 1 then a8 else 0)

def subB (a : Nat) : Nat := sbox.getD a 0

def invB (a : Nat) : Nat := sboxInv.getD a 0

def xorL (a b : List Nat) : List Nat := List.zipWith (· ^^^ ·) a b

/-- Next key words: from the last eight words, word `i` onward, `n` words more (FIPS 197, 5.2). -/
def expandKey : Nat → Nat → Nat → List (List Nat) → List (List Nat)
  | 0, _, _, ws => ws
  | n + 1, i, rcon, ws =>
    let prev := ws.getD (ws.length - 1) []
    let back := ws.getD (ws.length - 8) []
    let t := if i % 8 == 0 then
        (match prev with
         | [a, b, c, e] => [subB b ^^^ rcon, subB c, subB e, subB a]
         | _ => prev)
      else if i % 8 == 4 then prev.map subB else prev
    expandKey n (i + 1) (if i % 8 == 0 then xtime rcon else rcon) (ws ++ [xorL back t])

/-- The fifteen round keys of a 32-byte key, as 16 bytes each. -/
def roundKeys (key : List Nat) : List (List Nat) :=
  let w0 := (List.range 8).map (fun i => (key.drop (4 * i)).take 4)
  let ws := expandKey 52 8 1 w0
  (List.range 15).map (fun r => ((ws.drop (4 * r)).take 4).flatten)

/-- ShiftRows and its inverse, on the 16 bytes in column order. -/
def shiftRows (s : List Nat) : List Nat :=
  [0, 5, 10, 15, 4, 9, 14, 3, 8, 13, 2, 7, 12, 1, 6, 11].map (fun i => s.getD i 0)

def invShiftRows (s : List Nat) : List Nat :=
  [0, 13, 10, 7, 4, 1, 14, 11, 8, 5, 2, 15, 12, 9, 6, 3].map (fun i => s.getD i 0)

/-- MixColumns with the given column of constants. -/
def mixCols (c0 c1 c2 c3 : Nat) : List Nat → List Nat
  | a :: b :: c :: e :: s =>
    (gmul c0 a ^^^ gmul c1 b ^^^ gmul c2 c ^^^ gmul c3 e) :: (gmul c3 a ^^^ gmul c0 b ^^^ gmul c1 c ^^^ gmul c2 e) ::
    (gmul c2 a ^^^ gmul c3 b ^^^ gmul c0 c ^^^ gmul c1 e) :: (gmul c1 a ^^^ gmul c2 b ^^^ gmul c3 c ^^^ gmul c0 e) ::
    mixCols c0 c1 c2 c3 s
  | _ => []

/-- Rounds of encryption over the remaining round keys; the last has no MixColumns. -/
def encRounds : List (List Nat) → List Nat → List Nat
  | [], s => s
  | [k], s => xorL (shiftRows (s.map subB)) k
  | k :: ks, s => encRounds ks (xorL (mixCols 2 3 1 1 (shiftRows (s.map subB))) k)

/-- AES-256 encryption of a 16-byte block under round keys. -/
def aesEnc (rk : List (List Nat)) (b : List Nat) : List Nat :=
  match rk with
  | [] => b
  | k :: ks => encRounds ks (xorL b k)

/-- Rounds of decryption over the reversed round keys after the first. -/
def decRounds : List (List Nat) → List Nat → List Nat
  | [], s => s
  | [k], s => xorL ((invShiftRows s).map invB) k
  | k :: ks, s => decRounds ks (mixCols 14 11 13 9 (xorL ((invShiftRows s).map invB) k))

/-- AES-256 decryption of a 16-byte block under round keys. -/
def aesDec (rk : List (List Nat)) (b : List Nat) : List Nat :=
  match rk.reverse with
  | [] => b
  | k :: ks => decRounds ks (xorL b k)

/-- The next tweak of XTS: multiplication by x of the little-endian block. -/
def xtsNext (t : List Nat) : List Nat :=
  let n := t.foldr (fun b acc => b + 256 * acc) 0
  let m := if n < 2 ^ 127 then 2 * n else (2 * n) % 2 ^ 128 ^^^ 0x87
  (List.range 16).map (fun i => m / 256 ^ i % 256)

/-- XTS over the blocks of a tile: `enc` says which way. -/
def xtsBlocks (enc : Bool) (rk : List (List Nat)) : Nat → List Nat → List Nat → List Nat
  | 0, _, _ => []
  | n + 1, t, l =>
    let b := l.take 16
    (if enc then xorL (aesEnc rk (xorL b t)) t else xorL (aesDec rk (xorL b t)) t) ++
      xtsBlocks enc rk n (xtsNext t) (l.drop 16)

/-- AES-256-XTS of a 256-byte tile whose number is `tile`, under a data key and a tweak key (15 R474). -/
def xtsTile (enc : Bool) (dataKey tweakKey : List Byte) (tile : Nat) (l : List Byte) : List Byte :=
  let t0 := aesEnc (roundKeys (tweakKey.map BitVec.toNat)) ((List.range 16).map (fun i => tile / 256 ^ i % 256))
  (xtsBlocks enc (roundKeys (dataKey.map BitVec.toNat)) 16 t0 (l.map BitVec.toNat)).map byte

/-- One pass of the key unwrap of RFC 3394 over registers `n`, `n - 1`, …, 1; `t` counts down with them. -/
def unwrapPass (rk : List (List Nat)) : Nat → Nat → List Nat → List (List Nat) → List Nat × List (List Nat)
  | 0, _, a, rs => (a, rs)
  | i + 1, t, a, rs =>
    let tb := (List.range 8).map (fun k => t / 256 ^ (7 - k) % 256)
    let b := aesDec rk (xorL a tb ++ rs.getD i [])
    unwrapPass rk i (t - 1) (b.take 8) (rs.set i (b.drop 8))

/-- Six passes. -/
def unwrapAll (rk : List (List Nat)) (n : Nat) : Nat → List Nat → List (List Nat) → List Nat × List (List Nat)
  | 0, a, rs => (a, rs)
  | j + 1, a, rs =>
    let p := unwrapPass rk n (n * (j + 1)) a rs
    unwrapAll rk n j p.1 p.2

/-- AES-256 key unwrap (RFC 3394): the plaintext, where the integrity value is right. -/
def keyUnwrap (kek : List Byte) (c : List Byte) : Option (List Byte) :=
  let l := c.map BitVec.toNat
  let n := l.length / 8 - 1
  let rs := (List.range n).map (fun i => (l.drop (8 + 8 * i)).take 8)
  let p := unwrapAll (roundKeys (kek.map BitVec.toNat)) n 6 (l.take 8) rs
  if p.1 == List.replicate 8 0xA6 then some (p.2.flatten.map byte) else none

end Sys2Proof.Machine
end

