-- ==== Sys2Proof/Machine/Regs.lean ====
section
/-! DEFINITION. The map of the control space (17 R510), the registers of every page with their widths and kinds
(17 R514, R526-R532), their reset values and the values a write of each may hold. A register that only mirrors other
state, or whose write is a command, is `special`: Mirrors.lean reads it and Control.lean writes it. -/

namespace Sys2Proof.Machine

open Sys2Proof

/-! ## Pages -/

/-- A block type: its code, REGION, pages per bank and whether it stands in the East bank only (17 R510). -/
structure BlockType where
  code : Nat
  region : Nat
  perBank : Nat
  eastOnly : Bool
  deriving DecidableEq, Repr

/-- The block types (17 R510). -/
def blockTypes : List BlockType :=
  [⟨0x01, 0x001000, 1, true⟩, ⟨0x02, 0x002000, 1, true⟩, ⟨0x03, 0x003000, 1, true⟩, ⟨0x80, 0x004000, 1, true⟩,
   ⟨0x71, 0x005000, 1, true⟩, ⟨0x10, 0x010000, 1, false⟩, ⟨0x11, 0x020000, 8, false⟩, ⟨0x12, 0x030000, 1, false⟩,
   ⟨0x20, 0x040000, 1, false⟩, ⟨0x21, 0x050000, 1, false⟩, ⟨0x30, 0x060000, 1, false⟩, ⟨0x31, 0x070000, 5, false⟩,
   ⟨0x32, 0x080000, 1, false⟩, ⟨0x33, 0x090000, 1, false⟩, ⟨0x34, 0x0A0000, 1, false⟩, ⟨0x40, 0x0B0000, 1, false⟩,
   ⟨0x41, 0x0C0000, 1, false⟩, ⟨0x50, 0x0D0000, 1, false⟩, ⟨0x60, 0x0E0000, 1, false⟩, ⟨0x61, 0x0F0000, 1, false⟩,
   ⟨0x51, 0x100000, 64, false⟩, ⟨0x62, 0x140000, 16, false⟩, ⟨0x70, 0x150000, 1, false⟩, ⟨0x72, 0x160000, 1, false⟩]

/-- A page of the control space: its type, bank and instance within the bank. -/
structure PageId where
  code : Nat
  bank : Nat
  loc : Nat
  deriving DecidableEq, Repr

/-- REGION of a type code. -/
def regionOf (code : Nat) : Nat :=
  match blockTypes.find? (fun b => b.code == code) with
  | some b => b.region
  | none => 0

/-- First offset of a page (17 R510). -/
def pageBase (p : PageId) : Nat := p.bank * 0x800000 + regionOf p.code + p.loc * 0x1000

/-- Offset of the page of `code` in `bank`, instance `loc`. -/
def pg (code bank : Nat) (loc : Nat := 0) : Nat := pageBase ⟨code, bank, loc⟩

/-- The page that holds an offset, if one does (17 R510, R511). -/
def pageAt (off : Nat) : Option PageId :=
  let bank := off / 0x800000
  let o := off % 0x800000
  if bank ≤ 1 then
    match blockTypes.find? (fun b => decide (b.region ≤ o) && decide (o < b.region + b.perBank * 0x1000)) with
    | some b => if b.eastOnly && bank == 1 then none else some ⟨b.code, bank, (o - b.region) / 0x1000⟩
    | none => none
  else none

/-- The global instance number of a page (17 R510). -/
def pageInstance (p : PageId) : Nat :=
  match blockTypes.find? (fun b => b.code == p.code) with
  | some b => p.loc + p.bank * b.perBank
  | none => 0

/-- Page of a block whose instances are numbered over the module: Landing, stack site, cluster, punt. -/
def pgI (code perBank inst : Nat) : Nat := pg code (inst / perBank) (inst % perBank)

/-! ## Registers -/

/-- Kinds of registers. `stored` keeps what is written to the bits of `mask` and has a reset value; `special` is read
and written by functions of its own; `counter` is a wrapping counter (00 R16). -/
inductive RegKind where
  | stored (mask reset : Nat)
  | special
  | counter
  deriving DecidableEq, Repr

/-- `n` registers of one kind at `off`, `off + 8`, …. -/
structure RegRow where
  off : Nat
  n : Nat
  wide : Bool
  kind : RegKind
  deriving DecidableEq, Repr

/-- The common page but for the registers that share a slot (17 R514): BLK_CTL, BLK_STAT, EVT_EN, the first-error
record and SPARE_MAP. -/
def commonRows : List RegRow :=
  [⟨0x010, 1, false, .special⟩, ⟨0x018, 1, false, .special⟩, ⟨0x028, 1, false, .special⟩, ⟨0x040, 1, true, .special⟩,
   ⟨0x048, 1, true, .special⟩, ⟨0x050, 1, false, .special⟩, ⟨0x058, 1, false, .special⟩, ⟨0x060, 1, true, .special⟩,
   ⟨0x080, 1, false, .special⟩]

/-- A 32-bit limit register. -/
def lim (off reset : Nat) : RegRow := ⟨off, 1, false, .stored 0xFFFFFFFF reset⟩

/-- The block-specific registers by type (17 R526-R532). -/
def rowsOf : Nat → List RegRow
  | 0x01 => [⟨0x100, 1, false, .special⟩, ⟨0x108, 1, false, .stored 0x3 0⟩, ⟨0x200, 8, true, .special⟩,
      ⟨0x800, 3, true, .counter⟩]
  | 0x02 => [⟨0x100, 1, false, .special⟩, ⟨0x108, 1, false, .special⟩, ⟨0x110, 1, false, .special⟩,
      ⟨0x118, 1, true, .special⟩, ⟨0x140, 16, true, .special⟩, ⟨0x200, 7, true, .special⟩, ⟨0x238, 1, true, .special⟩,
      ⟨0x300, 1, true, .stored 0x0FFFFFFFFFFFFFFF 0⟩, ⟨0x308, 1, false, .special⟩, ⟨0x310, 1, false, .special⟩,
      ⟨0x800, 5, true, .counter⟩]
  | 0x03 => [⟨0x100, 1, false, .special⟩, ⟨0x108, 1, false, .special⟩, lim 0x110 80000, lim 0x118 800000,
      ⟨0x120, 1, false, .special⟩, lim 0x128 1500, ⟨0x130, 1, false, .special⟩, lim 0x138 95, ⟨0x140, 1, false, .special⟩,
      lim 0x148 64, lim 0x150 800000, ⟨0x158, 1, false, .special⟩, ⟨0x800, 4, true, .counter⟩]
  | 0x80 => [⟨0x100, 1, false, .stored 0x1FFF 0⟩, ⟨0x108, 2, true, .special⟩, ⟨0x118, 1, false, .special⟩,
      ⟨0x800, 1, true, .counter⟩]
  | 0x10 => [lim 0x100 400000, lim 0x108 3, lim 0x110 16, ⟨0x118, 1, false, .stored 0x1FF 0⟩, ⟨0x120, 1, false, .special⟩,
      ⟨0x128, 2, false, .special⟩, ⟨0x138, 1, false, .special⟩,
      ⟨0x140, 1, true, .stored 0x8000001FFFFFFFFF 0x8000001000000000⟩, ⟨0x148, 3, true, .stored 0x8000001FFFFFFFFF 0⟩,
      ⟨0x800, 9, true, .counter⟩]
  | 0x11 => [⟨0x100, 1, false, .special⟩, ⟨0x108, 1, false, .special⟩, lim 0x110 1600, lim 0x118 4, lim 0x120 100000,
      lim 0x128 4, ⟨0x130, 1, false, .special⟩, ⟨0x800, 11, true, .counter⟩]
  | 0x12 => [⟨0x100, 1, false, .special⟩, ⟨0x108, 1, false, .special⟩, ⟨0x110, 1, false, .stored 0x7 0⟩,
      ⟨0x118, 2, true, .special⟩, ⟨0x128, 1, true, .stored 0xFFFFFFFFFFFFFFFF 0⟩, ⟨0x130, 1, true, .stored 0xFFFFFFFFFFFFFFFF 0⟩,
      ⟨0x138, 1, true, .stored 0xFFFFFFFFFFFFFFFF 0⟩, ⟨0x140, 1, true, .stored 0xFFFFFFFFFFFFFFFF 0⟩,
      ⟨0x148, 1, true, .stored 0xFFFFFFFFFFFFFFFF 40000000⟩, ⟨0x150, 1, true, .stored 0xFFFFFFFFFFFFFFFF 4⟩,
      ⟨0x800, 7, true, .counter⟩]
  | 0x20 => [⟨0x100, 4, true, .stored 0xFFFFFFFFFFFFFFFF 0⟩, ⟨0x120, 1, false, .special⟩, ⟨0x128, 1, false, .special⟩,
      lim 0x140 8000000, lim 0x148 80000000, ⟨0x200, 16, true, .special⟩, ⟨0x800, 1, true, .counter⟩]
  | 0x21 => [⟨0x100, 1, false, .special⟩, ⟨0x108, 1, false, .special⟩, ⟨0x110, 1, true, .stored 0xFFFFFFFFFFFFFFFF 0⟩,
      lim 0x118 781, ⟨0x120, 1, false, .special⟩, ⟨0x128, 1, false, .special⟩, ⟨0x130, 1, false, .stored 0x1FF 0⟩,
      ⟨0x138, 1, false, .special⟩, ⟨0x140, 4, true, .special⟩, ⟨0x160, 1, false, .stored 0x3FFF 0⟩,
      ⟨0x168, 4, true, .special⟩, ⟨0x188, 1, true, .special⟩, ⟨0x800, 1, true, .counter⟩]
  | 0x30 => [⟨0x100, 1, false, .special⟩, ⟨0x800, 3, true, .counter⟩]
  | 0x31 => [⟨0x110, 2, false, .special⟩, lim 0x120 16, ⟨0x128, 1, false, .special⟩, ⟨0x800, 4, true, .counter⟩]
  | 0x32 => [⟨0x100, 1, false, .special⟩, lim 0x108 8, ⟨0x110, 1, false, .special⟩, ⟨0x118, 1, false, .stored 0xF 0⟩,
      ⟨0x120, 1, false, .special⟩, ⟨0x800, 4, true, .counter⟩]
  | 0x33 => [lim 0x100 200, lim 0x108 160000, lim 0x110 80000000, lim 0x118 8000000, lim 0x120 2,
      ⟨0x180, 1, false, .stored 0xFF 0⟩, ⟨0x1C0, 16, true, .special⟩, lim 0x300 1000, ⟨0x340, 16, true, .special⟩,
      ⟨0x800, 12, true, .counter⟩]
  | 0x34 => [lim 0x100 400, lim 0x108 2, lim 0x110 50, lim 0x118 800000, lim 0x120 12800000, ⟨0x128, 1, false, .special⟩,
      ⟨0x130, 1, false, .special⟩, ⟨0x138, 1, false, .special⟩, ⟨0x140, 1, true, .stored 0x0000FFFFFFE00000 0⟩,
      ⟨0x148, 1, false, .special⟩, ⟨0x180, 1, false, .stored 0xFF 0⟩, ⟨0x188, 1, true, .special⟩,
      ⟨0x1C0, 1, false, .stored 0xFFF 0⟩, ⟨0x1C8, 6, true, .special⟩, ⟨0x1F8, 1, false, .special⟩,
      ⟨0x800, 10, true, .counter⟩]
  | 0x40 => [lim 0x100 800000, lim 0x108 16, ⟨0x110, 1, false, .stored 0xFFF 0⟩, ⟨0x118, 1, true, .special⟩,
      ⟨0x120, 2, false, .special⟩, lim 0x400 3907, ⟨0x408, 1, false, .special⟩, ⟨0x800, 10, true, .counter⟩,
      ⟨0x900, 3, true, .counter⟩]
  | 0x41 => [lim 0x100 8000, ⟨0x108, 1, false, .special⟩, ⟨0x800, 6, true, .counter⟩]
  | 0x50 => [lim 0x100 800000, lim 0x108 1, lim 0x110 2, ⟨0x118, 1, false, .special⟩, ⟨0x200, 16, false, .special⟩,
      ⟨0x800, 12, true, .counter⟩]
  | 0x51 => [⟨0x100, 3, true, .special⟩, ⟨0x800, 6, true, .counter⟩]
  | 0x60 => [⟨0x100, 1, false, .stored 0x3FF 0⟩, ⟨0x108, 9, true, .special⟩, ⟨0x150, 2, false, .special⟩,
      ⟨0x800, 10, true, .counter⟩]
  | 0x61 => [⟨0x100, 1, false, .stored 0xFF 0⟩, ⟨0x108, 11, true, .special⟩, lim 0x160 800000, ⟨0x800, 8, true, .counter⟩]
  | 0x62 => [⟨0x100, 1, false, .special⟩, ⟨0x800, 4, true, .counter⟩]
  | 0x70 => [lim 0x100 10, lim 0x108 4096, lim 0x110 1024, ⟨0x118, 1, false, .stored 0x3FFF 0⟩, ⟨0x120, 1, false, .special⟩,
      ⟨0x128, 1, false, .stored 0xFFF 0⟩, ⟨0x130, 1, false, .special⟩, ⟨0x200, 1, false, .stored 0x7 0⟩,
      ⟨0x208, 1, false, .special⟩, ⟨0x210, 1, true, .special⟩, ⟨0x218, 1, false, .special⟩,
      ⟨0x220, 1, false, .stored 0x1FF 0⟩, ⟨0x228, 1, true, .special⟩, ⟨0x800, 1, true, .special⟩,
      ⟨0x808, 4, true, .counter⟩]
  | 0x71 => [⟨0x100, 1, false, .stored 0xFFF 0⟩, ⟨0x108, 1, false, .special⟩, lim 0x110 0, lim 0x118 0, lim 0x120 0,
      lim 0x128 0, lim 0x130 32768, ⟨0x200, 6, true, .special⟩, ⟨0x800, 1, true, .counter⟩]
  | 0x72 => [⟨0x100, 1, false, .stored 0xFF 0⟩, ⟨0x108, 1, false, .special⟩, ⟨0x110, 1, true, .special⟩,
      ⟨0x180, 10, true, .special⟩, ⟨0x800, 1, true, .counter⟩]
  | _ => []

/-- The row that holds the 8-byte slot at `o` of a page of type `code`. -/
def rowAt (code o : Nat) : Option RegRow :=
  (commonRows ++ rowsOf code).find? (fun r => decide (r.off ≤ o) && decide (o < r.off + 8 * r.n) && (o - r.off) % 8 == 0)

/-! ## Device-wide registers (17 R528; 11 Registers; 12 R383, Registers) -/

/-- Where the value of a register is kept: a device-wide register is kept under its East page, whichever page was
named. -/
def canon (off : Nat) : Nat :=
  match pageAt off with
  | none => off
  | some p =>
    let o := off % 0x1000
    let east := off % 0x800000
    if decide (0x100 ≤ o) && decide (o < 0x800) && (p.code == 0x20 || p.code == 0x21) then east
    else if p.code == 0x10 && decide (0x138 ≤ o) && decide (o < 0x160) then east
    else if p.code == 0x70 && o == 0x110 then east
    else if p.code == 0x34 && (o == 0x120 || o == 0x128) then east
    else off

/-! ## Stored values -/

/-- The reset value of the stored register at a canonical offset: common control, block-specific rows, and 0 for
counters, event bits and first-error records (log 4). -/
def regReset (off : Nat) : Nat :=
  match pageAt off with
  | none => 0
  | some p =>
    let o := off % 0x1000
    if o == 0x10 then 1
    else match rowAt p.code o with
      | some ⟨_, _, _, .stored _ r⟩ => r
      | _ => if p.code == 0x11 && o == 0x100 then 0b110
             else if p.code == 0x12 && o == 0x100 then 0b100
             else if p.code == 0x02 && o == 0x108 then 0xAA
             else if p.code == 0x34 && o == 0x128 then 0b10
             else if p.code == 0x50 && o == 0x118 then 1
             else 0

/-- The stored value at an offset. -/
def reg (d : Dev) (off : Nat) : Nat := NMap.get (regReset (canon off)) d.regs (canon off)

/-- `d` with `v` stored at an offset, modulo 2^64. -/
def setReg (d : Dev) (off v : Nat) : Dev :=
  { d with regs := NMap.set (regReset (canon off)) d.regs (canon off) (v % 2 ^ 64) }

/-- Add to a register modulo 2^64. -/
def bumpReg (d : Dev) (off k : Nat) : Dev := setReg d off (reg d off + k)

/-! ## Accepted values -/

/-- Whether a write may leave `v` in the limit register at offset `o` of a page of type `code` (01-16, the tables named
in 17 R526-R532). `d` supplies the registers that bound each other. -/
def accepts (d : Dev) (base code o v : Nat) : Bool :=
  let within (lo hi : Nat) : Bool := decide (lo ≤ v) && decide (v ≤ hi)
  match code, o with
  | 0x03, 0x110 => within 0 800000000
  | 0x03, 0x118 => within 8000 80000000
  | 0x03, 0x128 => within 600 1500
  | 0x03, 0x138 => within 70 105
  | 0x03, 0x148 => within 1 65535
  | 0x03, 0x150 => within 8000 800000000
  | 0x10, 0x100 => within 800 800000000
  | 0x10, 0x108 => within 0 15
  | 0x10, 0x110 => within 1 64
  | 0x11, 0x110 => within 80 80000
  | 0x11, 0x118 => within 1 16
  | 0x11, 0x120 => within 1000 10000000
  | 0x11, 0x128 => within 2 64
  | 0x12, 0x148 => within 40000 800000000
  | 0x12, 0x150 => within 0 15
  | 0x20, 0x140 => decide (1 ≤ v)
  | 0x20, 0x148 => within 8000 800000000
  | 0x21, 0x118 => within 8 781250
  | 0x31, 0x120 => decide (1 ≤ v)
  | 0x32, 0x108 => within 0 32
  | 0x33, 0x100 => within 1 2000
  | 0x33, 0x108 => within 800 80000000 && decide (v < reg d (base + 0x110))
  | 0x33, 0x110 => within 8000 800000000 && decide (reg d (base + 0x108) < v)
  | 0x33, 0x118 => within 0 800000000
  | 0x33, 0x120 => within 0 8
  | 0x33, 0x300 => within 1 2000
  | 0x34, 0x100 => within 50 2000
  | 0x34, 0x108 => within 1 14
  | 0x34, 0x110 => within 1 100
  | 0x34, 0x118 => within 8000 80000000
  | 0x34, 0x120 => within 800000 800000000
  | 0x40, 0x100 => within 8000 80000000
  | 0x40, 0x108 => within 1 256
  | 0x40, 0x400 => within 79 781250
  | 0x41, 0x100 => within 80 8000000
  | 0x50, 0x100 => within 0 80000000
  | 0x50, 0x108 => within 0 3
  | 0x50, 0x110 => within 0 7
  | 0x61, 0x160 => within 800 800000000
  | 0x70, 0x100 => within 1 100
  | 0x70, 0x108 => within 1 65535
  | 0x70, 0x110 => within 1 65535
  | 0x71, 0x110 => within 0 200000
  | 0x71, 0x118 => within 0 1073741824
  | 0x71, 0x120 => within 0 200000
  | 0x71, 0x128 => within 0 1073741824
  | 0x71, 0x130 => within 0 262144
  | _, _ => true

/-- The value a stored register takes from a write (00 R8): reserved bits stay 0, and a field given a code outside its
range keeps its previous value (COUNT of 11 R378, above 262,144). -/
def storedValue (code o mask old v : Nat) : Nat :=
  let w := land64 v mask
  if code == 0x10 && decide (0x140 ≤ o) && decide (0x40000 < fld w 18 19) then setFld w 18 19 (fld old 18 19)
  else w

end Sys2Proof.Machine
end

