-- ==== Sys2Proof/Machine/Ops.lean ====
section
/-! DEFINITION. The operations every family shares: which blocks run, counters, events and first-error records
(00 R14-R16, 17 R519-R524), the device interrupt (17 R521), messages sent, free values, and how a meaning answers. -/

namespace Sys2Proof.Machine

open Sys2Proof

/-! ## Status codes (00 R18) -/

def cOK : Nat := 0x00
def cPARTIAL : Nat := 0x01
def cAGED : Nat := 0x02
def cFENCED : Nat := 0x03
def cDENIED : Nat := 0x04
def cREVOKED : Nat := 0x05
def cPOISON : Nat := 0x06
def cLENGTH : Nat := 0x07
def cVERSION : Nat := 0x08
def cSTALE : Nat := 0x09
def cTIER : Nat := 0x0A
def cUNCORR : Nat := 0x0B
def cBUSY : Nat := 0x0C
def cUNSUP : Nat := 0x0D
def cDEGRADED : Nat := 0x0E
def cABORTED : Nat := 0x0F

/-! ## Which blocks run -/

/-- The core of the module runs: power is on, no core reset, no start-failed hold, the CLOCKS step has released it
(16 R494, R499, R501). -/
def live (d : Dev) : Bool :=
  d.sys.power == .on && d.sys.phase != .links && !d.sys.hold && decide (7 ≤ d.sys.step)

/-- The blocks of a bank run (01 R27). -/
def bankLive (d : Dev) (bank : Nat) : Bool := live d && !(bank == 1 && d.sys.westHeld)

/-- A page reads 0, discards writes and raises nothing (17 R511; 16 R501 in the start-failed hold; before the CLOCKS
step only the blocks of the MGMT domain run). -/
def pageDead (d : Dev) (p : PageId) : Bool :=
  d.sys.power != .on || d.sys.phase == .links || (p.bank == 1 && d.sys.westHeld) ||
  (if d.sys.hold then !(p.code == 0x01 || p.code == 0x03 || p.code == 0x80)
   else decide (d.sys.step ≤ 6) && !(p.code == 0x01 || p.code == 0x02 || p.code == 0x03 || p.code == 0x80))

/-- The page at a base offset is dead. -/
def deadAt (d : Dev) (page : Nat) : Bool :=
  match pageAt page with
  | some p => pageDead d p
  | none => true

/-! ## Counters, events, first-error records -/

/-- Send a message on a low-speed or PCIe interface. -/
def emit (d : Dev) (o : Out) : Dev := { d with tx := d.tx ++ [o] }

/-- A page's counters hold their values: they are frozen (17 R519), or their bank is held. -/
def frozen (d : Dev) (page : Nat) : Bool := deadAt d page || bit (reg d (page + 0x10)) 1

/-- Add `k` to the counter at `page + off`, unless the page's counters are frozen (17 R519). -/
def count (d : Dev) (page off : Nat) (k : Nat := 1) : Dev := if frozen d page then d else bumpReg d (page + off) k

/-- Set event bit `b` of a page (17 R523), and report it on the console (13 R426). -/
def raise (d : Dev) (page b : Nat) : Dev :=
  if deadAt d page then d
  else emit (setReg d (page + 0x20) (lor64 (reg d (page + 0x20)) (2 ^ b))) (.console (.event page b))

/-- What a first-error record takes (17 R524). -/
structure Fe where
  unit : Bool
  addr : Nat
  src : Nat := 0
  job : Nat := 0
  reqId : Nat := 0
  code : Nat := 0
  deriving DecidableEq, Repr

/-- The record of a unit number. -/
def feUnit (n : Nat) (code : Nat := 0) : Fe := { unit := true, addr := n, code := code }

/-- Capture a recording event into the first-error record while VALID is 0, and count it (17 R524). -/
def recordFe (d : Dev) (page b : Nat) (f : Fe) : Dev :=
  if deadAt d page then d else
  let d := if bit (reg d (page + 0x50)) 31 then d else
    setReg (setReg (setReg (setReg d (page + 0x40) f.addr)
      (page + 0x48) (f.src % 2 ^ 18 + f.job % 2 ^ 12 * 2 ^ 18 + f.reqId % 2 ^ 16 * 2 ^ 32))
      (page + 0x50) (f.code % 256 + b % 32 * 2 ^ 8 + b2n f.unit * 2 ^ 13 + 2 ^ 31))
      (page + 0x60) d.sys.ltc
  setReg d (page + 0x58) (min (reg d (page + 0x58) + 1) 0xFFFFFFFF)

/-- Raise a recording event. -/
def raiseFe (d : Dev) (page b : Nat) (f : Fe) : Dev := recordFe (raise d page b) page b f

/-! ## Messages sent and the device interrupt -/

/-- A PCIe port. -/
def port (d : Dev) (n : Nat) : Port := d.ports.getD n {}

/-- Change a PCIe port. -/
def onPort (d : Dev) (n : Nat) (f : Port → Port) : Dev := { d with ports := modAt f d.ports n }

/-- An MSI-X vector's configuration. -/
def vectorOf (d : Dev) (n fn vec : Nat) : Vector_ := NMap.get {} (port d n).vectors (fn * 4096 + vec)

/-- Set an MSI-X vector's configuration. -/
def setVector (d : Dev) (n fn vec : Nat) (v : Vector_) : Dev :=
  onPort d n (fun p => { p with vectors := NMap.set {} p.vectors (fn * 4096 + vec) v })

/-- A vector of a function is present: 64 of function 0, 2,048 of each memory function (13 R406). -/
def vectorThere (fn vec : Nat) : Bool := if fn == 0 then decide (vec < 64) else decide (fn < 8) && decide (vec < 2048)

/-- Send an MSI-X message, or hold it as a pending bit where the vector is masked (13 R413) or Bus Master Enable is clear, as on a
link that is down (13 R412). -/
def sendMsix (d : Dev) (n fn vec : Nat) : Dev :=
  let v := vectorOf d n fn vec
  if v.masked || !((port d n).up && (port d n).bme) then setVector d n fn vec { v with pending := true }
  else emit d (.msix n fn vec)

/-- A page's block interrupt is asserted (17 R521). -/
def blockInt (d : Dev) (page : Nat) : Bool :=
  !deadAt d page && bit (reg d (page + 0x10)) 0 && land64 (reg d (page + 0x20)) (reg d (page + 0x28)) != 0

/-- The device interrupt is asserted (17 R521). A page with no stored EVT_STAT asserts nothing. -/
def deviceInt (d : Dev) : Bool :=
  d.regs.any (fun e => e.1 % 0x1000 == 0x20 && blockInt d (e.1 - 0x20))

/-- Announce the device interrupt: function 0 vector 0 on both ports and an I3C in-band interrupt (17 R521, 13 R421). -/
def announce (d : Dev) : Dev := emit (sendMsix (sendMsix d 0 0 0) 1 0 0) .ibi

/-- What follows every command: a device interrupt that has gone from 0 to 1 is announced (17 R521). -/
def settle (before after : Dev) : Dev :=
  if !deviceInt before && deviceInt after then announce after else after

/-- The answer of a command whose effect on the device is `f`. -/
def State.run (f : Dev → Dev) (s : State) : Host.Outcome State Fault Refusal :=
  .next { s with dev := settle s.dev (f s.dev) }

/-- The answer of a command that also works on the fuses. -/
def State.runFuses (f : Dev → Fuses → Dev × Fuses) (s : State) : Host.Outcome State Fault Refusal :=
  let r := f s.dev s.fuses
  .next { s with dev := settle s.dev r.1, fuses := r.2 }

/-! ## Free values, time -/

/-- A free 64-bit value (log 2). -/
def freeVal (d : Dev) : Nat × Dev := ((Config.free d.fresh).toNat, { d with fresh := d.fresh + 1 })

/-- `k` free bytes. -/
def freeBytes : Nat → Dev → List Byte × Dev
  | 0, d => ([], d)
  | k + 1, d =>
    let (v, d) := freeVal d
    let (l, d) := freeBytes k d
    (byte v :: l, d)

/-- Move the LTC up to a deadline, if it is earlier (log 1). -/
def advanceTo (d : Dev) (t : Nat) : Dev := { d with sys := { d.sys with ltc := max d.sys.ltc t } }

/-! ## Access to tables of the state -/

def land (d : Dev) (n : Nat) : Landing := d.lands.getD n {}

def onLand (d : Dev) (n : Nat) (f : Landing → Landing) : Dev := { d with lands := modAt f d.lands n }

def site (d : Dev) (n : Nat) : Site := d.tiers.sites.getD n { role := .retired, position := 15 }

def onSite (d : Dev) (n : Nat) (f : Site → Site) : Dev :=
  { d with tiers := { d.tiers with sites := modAt f d.tiers.sites n } }

def berthOf (d : Dev) (b : Nat) : Berth := NMap.get {} d.xmap.current.berths b

def jobOf (d : Dev) (j : Nat) : Job := NMap.get {} d.toll.jobs j

def ringOf (d : Dev) (berth ring : Nat) : Ring := NMap.get {} d.xmap.rings (berth * 64 + ring)

def setRing (d : Dev) (berth ring : Nat) (r : Ring) : Dev :=
  { d with xmap := { d.xmap with rings := NMap.set {} d.xmap.rings (berth * 64 + ring) r } }

/-- The module is degraded (14 R434): a unit is out of service or a spare in use, a link runs narrowed or is down for want of lanes, or a peer is not
current. -/
def degradedNow (d : Dev) : Bool :=
  d.salv.degraded ||
  d.lands.any (fun l => ((l.st == .up || l.st == .retraining) && decide (l.width < 4)) || l.lanesBad) ||
  d.salv.peers.any (fun p => p.2.valid && p.2.st != .current) ||
  d.salv.convoys.any (fun c => c.2.valid && (c.2.states.take c.2.n).any (fun st => st != .current))

/-- A new fault of a bank raises DEGRADED on its Salvage page (14 R434). -/
def raiseDegraded (d : Dev) (bank : Nat) : Dev := raise d (pg 0x34 bank) 0

/-- A unit of a bank leaves service, or its spare comes into use: the module stays degraded (14 R434). -/
def degrade (d : Dev) (bank : Nat) : Dev := raiseDegraded { d with salv.degraded := true } bank

/-- The bank of a berth (01 R29). -/
def bankOfBerth (b : Nat) : Nat := if b < 128 then 0 else 1

end Sys2Proof.Machine
end

