-- ==== Sys2Proof/Machine/Flit.lean ====
section
/-! DEFINITION. The layouts on a Landing's wire (11 R338-R341, R351-R354, R358-R359, R371): request and response headers,
messages in slots of 16 bytes, Foghorn frames, and flits with their first word and CHECK. -/

namespace Sys2Proof.Machine

open Sys2Proof

/-- Opcode of a request (11 R353). -/
def opCode : Op → Nat
  | .rd => 0x01 | .wr => 0x02 | .atomic => 0x03 | .eadd => 0x04 | .acquire => 0x05 | .flush => 0x06 | .publish => 0x07
  | .rdShared => 0x08 | .rdOwn => 0x09 | .upgrade => 0x0A | .wb => 0x0B | .evictClean => 0x0C | .rdComb => 0x18
  | .mgmtRd => 0x20 | .mgmtWr => 0x21

/-- Opcode of a snoop (11 R353). -/
def snoopCode : SnoopKind → Nat
  | .inv => 0x10 | .recall => 0x11 | .recallShare => 0x12

/-- Slots of the data that follow a header: the 16-byte units from OFFSET to OFFSET + LEN (11 R354). -/
def spanSlots (offset bytes : Nat) : Nat := if bytes == 0 then 0 else (offset + bytes - 1) / 16 - offset / 16 + 1

/-! ## Headers -/

/-- The four words of a request header (11 R351). -/
def hdrBytes (op : Nat) (h : Hdr) : List Byte :=
  leBytes 8 (op + h.tc.toNat * 2 ^ 6 + b2n h.mark * 2 ^ 9 + b2n h.acq * 2 ^ 10 + b2n h.rel * 2 ^ 11 + h.scope.toNat * 2 ^ 12 +
    h.reqId.toNat * 2 ^ 16 + h.src.toNat * 2 ^ 32 + h.job.toNat * 2 ^ 50) ++
  leBytes 8 (h.offset.toNat + h.node.toNat * 2 ^ 48) ++
  leBytes 8 (h.tide.toNat + h.epoch.toNat * 2 ^ 32 + h.len.toNat * 2 ^ 48 + h.fmt.toNat * 2 ^ 56 + h.trial.toNat * 2 ^ 60) ++
  leBytes 8 (h.tchk.toNat + h.aux.toNat * 2 ^ 32 + h.range.toNat * 2 ^ 40)

/-- The request header that 32 bytes hold; `rsvd`: some bit that is not listed is set. -/
def hdrOf (l : List Byte) : Hdr :=
  let w0 := leAt l 0 8
  let w1 := leAt l 8 8
  let w2 := leAt l 16 8
  let w3 := leAt l 24 8
  { tc := .ofNat 3 (fld w0 6 3), mark := bit w0 9, acq := bit w0 10, rel := bit w0 11, scope := .ofNat 2 (fld w0 12 2),
    reqId := .ofNat 16 (fld w0 16 16), src := .ofNat 18 (fld w0 32 18), job := .ofNat 12 (fld w0 50 12),
    offset := .ofNat 48 (fld w1 0 48), node := .ofNat 14 (fld w1 48 14), tide := .ofNat 32 (fld w2 0 32),
    epoch := .ofNat 16 (fld w2 32 16), len := .ofNat 8 (fld w2 48 8), fmt := .ofNat 4 (fld w2 56 4),
    trial := .ofNat 4 (fld w2 60 4), tchk := .ofNat 32 (fld w3 0 32), aux := .ofNat 8 (fld w3 32 8),
    range := .ofNat 24 (fld w3 40 24), rsvd := fld w0 14 2 != 0 || fld w0 62 2 != 0 || fld w1 62 2 != 0 }

/-- A snoop's header (11 R351): DST in place of TIDE, LEN 63. -/
def snoopBytes (kind : SnoopKind) (id src dst job node offset epoch : Nat) : List Byte :=
  leBytes 8 (snoopCode kind + 2 * 2 ^ 6 + id * 2 ^ 16 + src * 2 ^ 32 + job * 2 ^ 50) ++ leBytes 8 (offset + node * 2 ^ 48) ++
  leBytes 8 (dst + epoch * 2 ^ 32 + 63 * 2 ^ 48) ++ leBytes 8 0

/-- A response header (11 R352): the data carried are counted in DLEN and covered by TCHK (11 R360, R362). -/
def rspBytes (op id dst status cred grant : Nat) (data : List Byte) : List Byte :=
  leBytes 8 (op + 3 * 2 ^ 6 + id * 2 ^ 16 + dst * 2 ^ 32 + status * 2 ^ 50) ++
  leBytes 8 (cred + grant * 2 ^ 8 + (data.length - 1) * 2 ^ 12 + (if data.isEmpty then 0 else crc32c data) * 2 ^ 32)

/-- The response header that 16 bytes hold. -/
def rspHdrOf (l : List Byte) : RspHdr :=
  let w0 := leAt l 0 8
  let w1 := leAt l 8 8
  { op := .ofNat 6 (fld w0 0 6), tc := .ofNat 3 (fld w0 6 3), reqId := .ofNat 16 (fld w0 16 16), dst := .ofNat 18 (fld w0 32 18),
    status := .ofNat 8 (fld w0 50 8), cred := .ofNat 8 (fld w1 0 8), grant := .ofNat 2 (fld w1 8 2), dlen := .ofNat 8 (fld w1 12 8),
    tchk := .ofNat 32 (fld w1 32 32) }

/-! ## Messages -/

/-- Zero bytes. -/
def zeros (n : Nat) : List Byte := List.replicate n 0

/-- Data in whole slots, from byte `lead` of the first one (11 R354); bytes that no operand names are sent as zero. -/
def slotBytes (lead : Nat) (l : List Byte) : List Byte := sub (zeros lead ++ l) 0 (16 * spanSlots lead l.length)

/-- Where the data of a message start in their first slot: packed operands at its byte 0 (11 R354). -/
def leadOf (op : Op) (off : Nat) : Nat := if op == .atomic || op == .publish then 0 else off % 16

/-- The bytes of a message, in whole slots. -/
def msgBytes : Msg → List Byte
  | .rsp op id dst status cred grant lead data => rspBytes op id dst status cred grant data ++ slotBytes lead data
  | .comb id dst status cred lead codes data =>
    rspBytes 0x33 id dst status cred 0 data ++ sub (codes.map byte) 0 16 ++ slotBytes lead data
  | .snoop kind id src dst job node offset epoch => snoopBytes kind id src dst job node offset epoch
  | .req op h data => hdrBytes (opCode op) h ++ slotBytes (leadOf op h.offset.toNat) data

/-- Slots of a message. -/
def msgSlots : Msg → Nat
  | .rsp _ _ _ _ _ _ lead data => 1 + spanSlots lead data.length
  | .comb _ _ _ _ lead _ data => 2 + spanSlots lead data.length
  | .snoop .. => 2
  | .req op h data => 2 + spanSlots (leadOf op h.offset.toNat) data.length

/-! ## Foghorn frames and flits -/

/-- A Foghorn frame (11 R371); its SENDER_ID is the node number. -/
def fogBytes (f : Foghorn) : List Byte :=
  leBytes 8 (1 + f.port * 2 ^ 8 + f.node * 2 ^ 16 + b2n f.nodeValid * 2 ^ 30 + f.up * 2 ^ 32 + f.epoch * 2 ^ 48) ++
  leBytes 8 (f.seq + f.health * 2 ^ 24 + f.width * 2 ^ 26 + f.node * 2 ^ 32)

/-- The first word of a flit (11 R338). -/
def headWord (h : FlitHead) : Nat :=
  h.seq + h.ack * 2 ^ 12 + b2n h.ackV * 2 ^ 24 + b2n h.nak * 2 ^ 25 + h.kind * 2 ^ 26 + b2n h.resend * 2 ^ 28 + h.start * 2 ^ 32 +
  h.credClass * 2 ^ 47 + h.cred * 2 ^ 50

/-- The first word that a flit's first eight bytes hold. -/
def headOf (w : Nat) : FlitHead :=
  { seq := fld w 0 12, ack := fld w 12 12, ackV := bit w 24, nak := bit w 25, kind := fld w 26 2, resend := bit w 28,
    start := fld w 32 15, credClass := fld w 47 3, cred := fld w 50 14 }

/-- Bytes 0x00 to 0xF7 of a flit, which CHECK covers (11 R340). -/
def flitBody (h : FlitHead) (slots : List Byte) : List Byte := leBytes 8 (headWord h) ++ sub slots 0 240

/-! ## The stream into the RS encoder (11 R336, R339) -/

/-- The bits of bytes in ascending byte order, the least significant first. -/
def streamBits (l : List Byte) : List Bool := l.flatMap (fun b => (List.range 8).map (bit b.toNat))

/-- A 10-bit symbol of ten bits of the stream, its first bit the least significant. -/
def symbolOf (l : List Bool) : Nat := l.foldr (fun b n => b2n b + 2 * n) 0

/-- The bytes of a flit enter the encoder: the whole symbols they complete join the codeword of 514 that is being filled (log 148). -/
def feedFec (l : Landing) (flit : List Byte) : Landing :=
  let all := l.fecBits ++ streamBits flit
  let n := all.length / 10
  let word := l.fecWord ++ (chunks n 10 all).map symbolOf
  { l with fecWord := word.drop (word.length / 514 * 514), fecBits := all.drop (10 * n) }

/-- Put a flit on a Landing's wire. It carries the latest ACK, the NAK that is owed, and the credit of one class, the classes
in turn (11 R338, R341, R343, R345; log 14). -/
def putFlit (d : Dev) (n kind seq start : Nat) (resend : Bool) (slots : List Byte) : Dev :=
  let l := land d n
  let h : FlitHead :=
    { seq := seq, ack := (l.rxNext + 4095) % 4096, ackV := decide (0 < l.rxFlits), nak := l.nakOwed, kind := kind,
      resend := resend, start := start, credClass := l.credNext, cred := l.freed.getD l.credNext 0 }
  let check := crc64 (flitBody h slots)
  emit (onLand d n (fun l => feedFec { l with
      credNext := (l.credNext + 1) % 8, sinceCtl := if kind == 2 then 0 else l.sinceCtl + 1 } (flitBody h slots ++ leBytes 8 check)))
    (.flit n h (sub slots 0 240) check)

/-- A flit slot of a Landing: the 257th after a control flit is one again (11 R341). -/
def sendFlit (d : Dev) (n kind seq start : Nat) (resend : Bool) (slots : List Byte) : Dev :=
  putFlit (if 256 ≤ (land d n).sinceCtl then putFlit d n 2 0 0 false [] else d) n kind seq start resend slots

end Sys2Proof.Machine
end

