-- ==== Sys2Proof/Machine/Wharf.lean ====
section
/-! DEFINITION. The Wharf (11 R363-R370) and the output scheduler of a Landing (12 R381-R387, R392-R393): where a message
leaves, how a frame waits, is admitted to its output buffer, queued, and sent. -/

namespace Sys2Proof.Machine

open Sys2Proof

/-! ## Paths -/

/-- The member of a list of `n` that an address is routed to (02 R63). -/
def route (n address : Nat) : Nat :=
  let tile := address / 256
  ((tile ^^^ (tile / 2 ^ 11) ^^^ (tile / 2 ^ 23)) % 65536) * n / 65536

/-- A Landing's link is up (11 R374): a retraining link is still the link. -/
def linkUp (d : Dev) (n : Nat) : Bool := (land d n).st == .up || (land d n).st == .retraining

/-- Landings of the device whose link is up, rising. -/
def upLands (d : Dev) : List Nat := (List.range 16).filter (linkUp d)

/-- Landings of a berth whose link is up, rising (02 R63). -/
def berthLands (d : Dev) (b : Nat) : List Nat :=
  (List.range 16).filter (fun n => linkUp d n && bit (berthOf d b).landings.toNat n)

/-- The same under the map of an epoch that resolves (02 R63, R65). -/
def epochLands (d : Dev) (epoch b : Nat) : List Nat :=
  match d.xmap.old.find? (fun m => m.epoch == epoch) with
  | some m =>
    if epoch == d.xmap.epoch then berthLands d b
    else (List.range 16).filter (fun n => linkUp d n && bit (NMap.get {} m.berths b).landings.toNat n)
  | none => berthLands d b

/-- The Landing that the hash names over a list. -/
def pickLand (l : List Nat) (address : Nat) : Option Nat := l[route l.length address]?

/-- The Landing a snoop leaves through: one of the home berth's, else one of the device's (11 R363). -/
def snoopLand (d : Dev) (berth offset : Nat) : Option Nat :=
  match berthLands d berth with
  | [] => pickLand (upLands d) offset
  | l => pickLand l offset

/-- The Landing a response leaves through: the one its request came in on while its link is up; otherwise the one the
hash names over the berth's Landings that are up, or over the device's where it is charged to no berth (11 R363, R364;
log 13). -/
def rspLand (d : Dev) (n : Nat) (berth : Option Nat) (address : Nat) : Option Nat :=
  if linkUp d n then some n
  else match berth with
    | some b => pickLand (berthLands d b) address
    | none => pickLand (upLands d) address

/-! ## Sizes -/


/-- Cells of a frame (11 R366). -/
def cellsOf (slots : Nat) : Nat := ceilDiv (slots * 16) 128

/-! ## Frames across the Causeway (01 R25) -/

def cwDir (d : Dev) (toWest : Bool) : CwDir := if toWest then d.cw.toWest else d.cw.toEast

def onCw (d : Dev) (toWest : Bool) (f : CwDir → CwDir) : Dev :=
  if toWest then { d with cw.toWest := f d.cw.toWest } else { d with cw.toEast := f d.cw.toEast }

/-- Key of the frames of one class between one sending and one receiving block. -/
def cwKey (p : CwPair) (cls : Nat) : Nat :=
  (match p with | .request => 0 | .answer => 8 | .frame => 16 | .delta => 24 | .doorbell => 32 | .update => 40) + cls

/-- A message crosses: its frame enters the sender's replay buffer. Frames take the groups in service in turn (log 127). -/
def sendCw (d : Dev) (toWest : Bool) (p : CwPair) (cls : Nat) : Dev :=
  let c := cwDir d toWest
  let n := NMap.get 0 c.txNext (cwKey p cls)
  match c.inService[n % c.inService.length]? with
  | none => d
  | some g => onCw d toWest (fun c => { c with
      replay := c.replay ++ [{ pair := p, cls := cls, seq := n, group := g }], txNext := NMap.set 0 c.txNext (cwKey p cls) (n + 1) })

/-- What one bank sends another crosses; within a bank nothing does. -/
def cross (d : Dev) (a b : Nat) (p : CwPair) (cls : Nat) : Dev := if a == b then d else sendCw d (b == 1) p cls

/-! ## Frames -/

/-- A frame arrives whole at an input (11 R369); input 9 is the Causeway's. -/
def pushFrame (d : Dev) (f : Frame) : Dev :=
  { d with
    cw := if f.input == 9 then (sendCw d (f.bank == 1) .frame f.cls).cw else d.cw
    wharf := { d.wharf with
      frames := d.wharf.frames ++ [{ f with id := d.wharf.nextFrame, stamp := d.sys.ltc }]
      nextFrame := d.wharf.nextFrame + 1 } }

/-- Queue set of a frame charged to berth `b` for job `j`; 8 is the default queue set (12 R382). `held`: queue sets that stay with
the frame's descriptor (02 R62). -/
def qsetOf (d : Dev) (b : Option Nat) (j held : Nat) : Nat :=
  match b with
  | none => 8
  | some b => let i := NMap.get 0 d.sched.jobqs j
              if i < max held (berthOf d b).qsets then i else 8

/-- Queue of a frame at a Landing output, by berth, queue set and class; default queues come last (12 R382, R385). -/
def queueKey (f : Frame) : Nat :=
  match f.berth with
  | some b => if f.qset < 8 then (b * 8 + f.qset) * 8 + f.cls else 256 * 64 + f.cls
  | none => 256 * 64 + f.cls

/-- Weight of a queue (12 R383). -/
def weightOf (d : Dev) (key : Nat) : Nat :=
  if 256 * 64 ≤ key then reg d (pg 0x70 0 + 0x110) else NMap.get 1024 d.sched.weights key

/-- The guaranteed minimum of a pair (11 R376). -/
def gminOf (d : Dev) (bank out cls : Nat) : Nat := NMap.get 32 d.wharf.gmin (bank * 512 + out * 8 + cls)

/-- The sum of a bank's minimums: 400 pairs of 32 cells, and what the listed ones add or take away. -/
def gminSum (d : Dev) (bank : Nat) : Nat :=
  let l := d.wharf.gmin.filter (fun e => e.1 / 512 == bank)
  12800 + total (l.map Prod.snd) - 32 * l.length

/-- Size of a bank's shared pool (11 R376). -/
def sharedSize (d : Dev) (bank : Nat) : Nat := 393216 - gminSum d bank

/-- Shared pool in use. -/
def sharedUsed (d : Dev) (bank : Nat) : Nat := if bank == 0 then d.wharf.shusedEast else d.wharf.shusedWest

def setSharedUsed (d : Dev) (bank v : Nat) : Dev :=
  if bank == 0 then { d with wharf := { d.wharf with shusedEast := v } }
  else { d with wharf := { d.wharf with shusedWest := v } }

/-- The cells (guaranteed, shared) a frame is admitted with, or none where it waits (11 R366; 12 R390 for yellow). -/
def admission (d : Dev) (f : Frame) : Option (Nat × Nat) :=
  let k := f.bank * 512 + f.output * 8 + f.cls
  let need := cellsOf f.slots
  let g := min need (gminOf d f.bank f.output f.cls - NMap.get 0 d.wharf.gused k)
  let s := need - g
  let free := sharedSize d f.bank - sharedUsed d f.bank
  let alpha := reg d (pg 0x10 f.bank + 0x110)
  let room := s == 0 || (decide (s ≤ free) && decide ((NMap.get 0 d.wharf.sheld k + s) * 8 ≤ alpha * (free - s)))
  let reserve := s == 0 || !f.yellow || decide (reg d (pg 0x71 0 + 0x130) ≤ free - s)
  if room && reserve then some (g, s) else none

/-- Whether a frame is over the age limit of its bank (11 R369). -/
def overAge (d : Dev) (f : Frame) : Bool :=
  !f.report && decide (f.stamp + reg d (pg 0x10 f.bank + 0x100) < d.sys.ltc)

/-- Change the frame of an id. -/
def onFrame (d : Dev) (id : Nat) (g : Frame → Frame) : Dev :=
  { d with wharf := { d.wharf with frames := modFirst (fun f => f.id == id) g d.wharf.frames } }

/-- Admitted frames of a Landing's output, in order of arrival. -/
def queued (d : Dev) (ld : Nat) : List Frame :=
  d.wharf.frames.filter (fun f => f.admitted && f.bank == ld / 8 && f.output == ld % 8)

/-- `a` is before `b`: the sign of the 64-bit difference (12 R385). -/
def tagBefore (a b : Nat) : Bool := decide (2 ^ 63 ≤ (a + 2 ^ 64 - b) % 2 ^ 64)

/-- The later of two tags, by the sign of their 64-bit difference (12 R385). -/
def laterTag (a b : Nat) : Nat := if tagBefore a b then b else a

/-- The finish tag of a frame that enters its queue (12 R385, R386). -/
def tagFor (d : Dev) (ld : Nat) (f : Frame) : Nat :=
  let key := queueKey f
  let l := land d ld
  let start := match (queued d ld).filter (fun g => decide (3 ≤ g.cls) && queueKey g == key) |>.getLast? with
    | some t => t.tag
    | none => laterTag l.vtime (NMap.get 0 l.last key)
  (start + f.slots * 65536 / weightOf d key) % 2 ^ 64

/-- Take a frame into its output buffer with its cells; at a Landing it gets its queue and its tag. -/
def takeIn (d : Dev) (f : Frame) (gs : Nat × Nat) : Dev :=
  let k := f.bank * 512 + f.output * 8 + f.cls
  let f1 := { f with admitted := true, cellsG := gs.1, cellsS := gs.2, qset := qsetOf d f.berth f.job f.qsets }
  let landing := decide (f.output < 8)
  let ld := f.bank * 8 + f.output
  let tag := if landing && decide (3 ≤ f.cls) then tagFor d ld f1 else 0
  let d1 := { d with wharf := { d.wharf with
      gused := NMap.set 0 d.wharf.gused k (NMap.get 0 d.wharf.gused k + gs.1)
      sheld := NMap.set 0 d.wharf.sheld k (NMap.get 0 d.wharf.sheld k + gs.2) } }
  let d2 := setSharedUsed d1 f.bank (sharedUsed d1 f.bank + gs.2)
  -- the frame stands behind those admitted before it
  let d3 := { d2 with wharf := { d2.wharf with
      frames := (d2.wharf.frames.filter (fun g => g.id != f.id)) ++ [{ f1 with tag := tag }] } }
  if landing && decide (3 ≤ f.cls) then onLand d3 ld (fun l => { l with last := NMap.set 0 l.last (queueKey f1) tag })
  else d3

/-- Give a frame's cells back: to the shared pool first, then to the guarantee (11 R366). -/
def freeCells (d : Dev) (f : Frame) : Dev :=
  if !f.admitted then d else
  let k := f.bank * 512 + f.output * 8 + f.cls
  let n := f.cellsG + f.cellsS
  let held := NMap.get 0 d.wharf.sheld k
  let s := min n held
  let d1 := { d with wharf := { d.wharf with
      sheld := NMap.set 0 d.wharf.sheld k (held - s)
      gused := NMap.set 0 d.wharf.gused k (NMap.get 0 d.wharf.gused k - (n - s)) } }
  setSharedUsed d1 f.bank (sharedUsed d1 f.bank - s)

/-- A frame leaves the Wharf. -/
def dropFrame (d : Dev) (f : Frame) : Dev :=
  let d := freeCells d f
  { d with wharf := { d.wharf with frames := d.wharf.frames.filter (fun g => g.id != f.id) } }

/-- The frame first in line of an input's queue for an output and class (11 R365). -/
def inputHead (d : Dev) (bank input output cls : Nat) : Option Frame :=
  d.wharf.frames.find? (fun f => !f.admitted && f.bank == bank && f.input == input && f.output == output && f.cls == cls)

/-- Try to admit one frame: admitted or not. -/
def tryAdmit (d : Dev) (f : Frame) : Bool × Dev :=
  if overAge d f then (false, d)
  else match admission d f with
    | some gs => (true, takeIn d f gs)
    | none => (false, count d (pg 0x10 f.bank) 0x818)

/-- Try the copies of a multicast frame in turn; each must be first in its own queue (11 R368). The first result says whether some
copy is left. -/
def tryCopies (d : Dev) : List Frame → Bool × Dev
  | [] => (false, d)
  | f :: rest =>
    let first := match inputHead d f.bank f.input f.output f.cls with
      | some h => h.id == f.id
      | none => false
    let r := if first then tryAdmit d f else (false, d)
    let t := tryCopies r.2 rest
    (!r.1 || t.1, t.2)

/-- FRAME_ADMIT on the head of a queue: alone, or with the other copies of its multicast frame; a frame that leaves a
residue is counted once (11 R366, R368). -/
def admitHead (d : Dev) (bank input output cls : Nat) : Dev :=
  match inputHead d bank input output cls with
  | none => d
  | some f =>
    if f.group == 0 then (tryAdmit d f).2
    else
      let copies := d.wharf.frames.filter (fun g => !g.admitted && g.group == f.group && g.bank == f.bank)
      let r := tryCopies d copies
      if r.1 && !f.residue then
        let d1 := count r.2 (pg 0x10 bank) 0x810
        { d1 with
          wharf.frames := d1.wharf.frames.map (fun g => if g.group == f.group then { g with residue := true } else g) }
      else r.2

/-! ## Timetables (12 R392, R393) -/

/-- DURATION of a gate entry. -/
def durOf (e : GateEntry) : Nat := fld e.toNat 0 32

/-- Whether the entry opens a class and, for classes 3 to 7, a queue set. -/
def opens (e : GateEntry) (cls qset : Nat) : Bool :=
  bit e.toNat (32 + cls) && (decide (cls < 3) || bit e.toNat (40 + qset))

/-- The first `n` entries of a list. -/
def entriesOf (l : List GateEntry) (n : Nat) : List GateEntry := l.take n

/-- Where a running list stands `t` cycles into its cycle: entry and cycles left in it. -/
def standAt : List GateEntry → Nat → Nat → Nat × Nat
  | [], i, _ => (i, 0)
  | e :: l, i, t => if t < durOf e then (i, durOf e - t) else standAt l (i + 1) (t - durOf e)

/-- The entry of the active list that runs now, and its cycles left (12 R392). -/
def gateNow (tt : Timetable) (now : Nat) : Nat × Nat :=
  let l := entriesOf tt.active tt.activeN
  let cycle := total (l.map durOf)
  if cycle == 0 || now < tt.base then (0, tt.base - now) else standAt l 0 ((now - tt.base) % cycle)

/-- Whether the gates stay open for `need` cycles from an entry with `left` cycles left (12 R393). -/
def staysOpen (l : List GateEntry) (cls qset : Nat) : Nat → Nat → Nat → Nat → Bool
  | 0, _, _, _ => true
  | k + 1, i, left, need =>
    match l[i]? with
    | none => false
    | some e =>
      opens e cls qset && (decide (need ≤ left) ||
        (let j := if i + 1 < l.length then i + 1 else 0
         match l[j]? with
         | some e' => staysOpen l cls qset k j (durOf e') (need - left)
         | none => false))

/-- A frame of a class and queue set may start now on a Landing and take `need` cycles. An armed list that starts
meanwhile must keep the gates open as well. -/
def gateOpen (d : Dev) (ld cls qset need : Nat) : Bool :=
  match d.sched.tts[ld]? with
  | none => true
  | some tt =>
    let l := entriesOf tt.active tt.activeN
    let now := d.sys.ltc
    let g := gateNow tt now
    if tt.armed && decide (tt.nextBase < now + need) then
      staysOpen l cls qset (l.length + 1) g.1 g.2 (min need (tt.nextBase - now)) &&
        (let s := entriesOf tt.shadow tt.shadowN
         staysOpen s cls qset (s.length + 1) 0 (durOf (s.getD 0 0)) (now + need - tt.nextBase))
    else staysOpen l cls qset (l.length + 1) g.1 g.2 need

/-- Transmission time of a frame, in LTC cycles (12 R393). -/
def sendTime (l : Landing) (slots : Nat) : Nat :=
  let eighths := (if l.gen2 then 1000 else 500) * l.width / 4
  ceilDiv (slots * 16 * 8) eighths

/-! ## The scheduler (12 R384-R387) -/

/-- A Landing may start a message of a class: its credit covers every slot (11 R345). -/
def creditFor (l : Landing) (cls slots : Nat) : Bool := decide (slots ≤ l.credit.getD cls 0)

/-- The priority bucket brought up to now, in quarter bytes (12 R384). -/
def bucketNow (d : Dev) (ld : Nat) : Nat :=
  let l := land d ld
  min (16384 * 4) (l.bucket + 5 * reg d (pg 0x70 (ld / 8) + 0x100) * (d.sys.ltc - l.bucketAt))

/-- The heads of the queues of classes 3 to 7: the first frame of each queue. -/
def queueHeads : List Frame → List Nat → List Frame
  | [], _ => []
  | f :: l, seen =>
    if decide (f.cls < 3) || seen.contains (queueKey f) then queueHeads l seen
    else f :: queueHeads l (queueKey f :: seen)

/-- The head of the priority path: class 2, then 0, then 1 (12 R384). -/
def prioHead (l : List Frame) : Option Frame :=
  match l.find? (fun f => f.cls == 2) with
  | some f => some f
  | none => match l.find? (fun f => f.cls == 0) with
    | some f => some f
    | none => l.find? (fun f => f.cls == 1)

/-- A frame may start now on a Landing: gates, credit, age. -/
def mayStart (d : Dev) (ld : Nat) (f : Frame) : Bool :=
  gateOpen d ld f.cls f.qset (sendTime (land d ld) f.slots) && creditFor (land d ld) f.cls f.slots && !overAge d f

/-- The priority frame served next: the first of the class order that may start. -/
def prioNext (d : Dev) (ld : Nat) (l : List Frame) : Option Frame :=
  let ok (k : Nat) : Option Frame := (l.find? (fun f => f.cls == k)).bind (fun f => if mayStart d ld f then some f else none)
  match ok 2 with
  | some f => some f
  | none => match ok 0 with
    | some f => some f
    | none => ok 1

/-- The better of two candidates (tag, queue key, frame): the smaller tag, then the lower key. -/
def better (a b : Nat × Nat × Frame) : Nat × Nat × Frame :=
  if tagBefore b.1 a.1 || (a.1 == b.1 && decide (b.2.1 < a.2.1)) then b else a

/-- Where the tag of the priority path's head starts: where that of a queue that woke when the bucket was found short, or that has
been served since, starts (12 R384-R386). -/
def prioStart (l : Landing) : Nat := l.prioWoke.getD (laterTag l.vtime l.prioLast)

/-- The frame a Landing sends next, the tag it is chosen with, and whether the priority path served it from the bucket.
A priority frame with the bucket short competes as one queue of weight SCHED_PRIO_W, keyed after the others. -/
def chooseFrame (d : Dev) (ld : Nat) : Option (Frame × Nat × Bool) :=
  let l := queued d ld
  let lnd := land d ld
  let prio := prioNext d ld l
  match prio with
  | some p =>
    if p.slots * 16 * 4 ≤ bucketNow d ld then some (p, 0, true)
    else
      let w := reg d (pg 0x70 (ld / 8) + 0x108)
      let t := (prioStart lnd + p.slots * 65536 / w) % 2 ^ 64
      let c := ((queueHeads l []).filter (mayStart d ld)).foldl
        (fun acc f => better acc (f.tag, queueKey f, f)) (t, 256 * 64 + 8, p)
      some (c.2.2, c.1, false)
  | none =>
    match (queueHeads l []).filter (mayStart d ld) with
    | [] => none
    | f :: fs =>
      let c := fs.foldl (fun acc g => better acc (g.tag, queueKey g, g)) (f.tag, queueKey f, f)
      some (c.2.2, c.1, false)

/-- Flits of a message's slots. -/
def flitsOf (slots : Nat) : Nat := ceilDiv slots 15

/-- Send the flits of a message on a Landing: each takes a sequence number, a place in the replay buffer and is put on
the wire; the last carries the end of the message (11 R342). A message starts a new flit, in its slot 0 (log 14). -/
def sendFlits (ld : Nat) (f : Frame) : Nat → Dev → Dev
  | 0, d => d
  | k + 1, d =>
    let l := land d ld
    let i := flitsOf f.slots - (k + 1)
    let r : ReplayFlit := { seq := l.txNext, start := if i == 0 then 1 else 0, slots := sub (msgBytes f.msg) (240 * i) 240,
                            frame := if k == 0 then some f else none }
    let d1 := onLand d ld (fun l => { l with
      replay := l.replay ++ [r]
      lastAck := if l.replay.isEmpty then d.sys.ltc else l.lastAck
      txNext := (l.txNext + 1) % 4096 })
    sendFlits ld f k (count (sendFlit d1 ld 1 r.seq r.start false r.slots) (pgI 0x11 8 ld) 0x800)

/-- Add sent bytes to a berth's meter (12 R396). -/
def meterTx (d : Dev) (b : Option Nat) (bytes : Nat) : Dev :=
  match b with
  | none => d
  | some b => let m := NMap.get {} d.sched.meters b
              { d with sched := { d.sched with
                  meters := NMap.set {} d.sched.meters b { m with tx := (m.tx + bytes) % 2 ^ 64 } } }

/-- Add received bytes to a berth's meter (12 R396; log 133). -/
def meterRx (d : Dev) (b : Option Nat) (bytes : Nat) : Dev :=
  match b with
  | none => d
  | some b => let m := NMap.get {} d.sched.meters b
              { d with sched := { d.sched with
                  meters := NMap.set {} d.sched.meters b { m with rx := (m.rx + bytes) % 2 ^ 64 } } }

/-- With nothing left at a Landing, its virtual time and last tags return to 0 (12 R387). -/
def idleTags (d : Dev) (ld : Nat) : Dev :=
  if (queued d ld).isEmpty then onLand d ld (fun l => { l with vtime := 0, last := [], prioLast := 0, prioWoke := none }) else d

/-- Heads that a closed gate holds (12 R393), for SCHED_GATE_WAIT (log 15). -/
def gateHeld (d : Dev) (ld : Nat) : Nat :=
  let l := queued d ld
  let heads := queueHeads l [] ++ (prioHead l).toList
  (heads.filter (fun f => !gateOpen d ld f.cls f.qset (sendTime (land d ld) f.slots))).length

/-- Send one frame of a Landing's output (12 R384, R385; 11 R342, R345); where none may start, an idle flit (11 R341, R342). -/
def sendNext (d : Dev) (ld : Nat) : Dev :=
  let d := count d (pg 0x70 (ld / 8)) 0x810 (gateHeld d ld)
  match chooseFrame d ld with
  | none => sendFlit d ld 0 0 0 false []
  | some (f, tag, prio) =>
    if 512 < (land d ld).replay.length + flitsOf f.slots then sendFlit d ld 0 0 0 false []
    else
      let d1 := if prio then
          let b := bucketNow d ld
          count (onLand d ld (fun l => { l with bucket := b - f.slots * 64, bucketAt := d.sys.ltc, prioWoke := none }))
            (pg 0x70 (ld / 8)) 0x808
        else onLand d ld (fun l => { l with
          vtime := tag, prioLast := if f.cls < 3 then tag else l.prioLast
          prioWoke := if f.cls < 3 then none else if (prioNext d ld (queued d ld)).isSome then some (prioStart l) else l.prioWoke })
      let d2 := onLand d1 ld (fun l => { l with credit := modAt (fun c => c - f.slots) l.credit f.cls })
      let d3 := sendFlits ld f (flitsOf f.slots) (dropFrame d2 f)
      idleTags (meterTx d3 f.berth (f.slots * 16)) ld

end Sys2Proof.Machine
end

