-- ==== Sys2Proof/Machine/Operands.lean ====
section
/-! DEFINITION. Where a location lies: extents, local addresses and cells (02 R44, R49; 03 R79, R84, R85). Memory is one
map of bytes by cell: near store at bank × 2^35 + vault × 2^30 + byte; the stacks at 2^40 + ((position × 32 + channel) ×
12,582,912 + stripe) × 256 + byte, parity units included; flash at 2^50 + berth × 2^46 + local address; a host window at
2^60 + port × 2^58 + host physical address. -/

namespace Sys2Proof.Machine

open Sys2Proof

/-! ## Extents -/

/-- Bytes of a SIZE code (02 R44). -/
def sizeBytes (s : Nat) : Nat := if s == 0 then 2 ^ 21 else if s == 1 then 2 ^ 30 else 2 ^ 36

/-- First byte of an extent. -/
def extBase (x : Extent) : Nat := x.e.base * 2 ^ 21

def extBytes (x : Extent) : Nat := sizeBytes x.e.size

/-- An offset lies in an extent. -/
def covers (x : Extent) (off : Nat) : Bool := decide (extBase x ≤ off) && decide (off < extBase x + extBytes x)

/-- The extent that covers an offset. -/
def extAt (d : Dev) (off : Nat) : Option Extent := d.toll.extents.find? (fun x => covers x off)

/-- The extent that starts at a BASE, in 2 MiB units. -/
def extOf (d : Dev) (base : Nat) : Option Extent := d.toll.extents.find? (fun x => x.e.base == base)

/-- Change the extent at a BASE. -/
def onExt (d : Dev) (base : Nat) (f : Extent → Extent) : Dev :=
  { d with toll.extents := modFirst (fun x => x.e.base == base) f d.toll.extents }

/-- Home bank of an extent: its berth's (01 R29). -/
def extBank (x : Extent) : Nat := bankOfBerth x.e.berth

/-- Local address of a byte of an extent, in its berth's capacity of the tier (02 R49). -/
def localAddr (x : Extent) (off : Nat) : Nat := x.e.localBase * 2 ^ 21 + (off - extBase x)

/-- Two ranges overlap. -/
def overlap (a la b lb : Nat) : Bool := decide (a < b + lb) && decide (b < a + la)

/-- Bytes of the local capacity of a berth in a tier; of a host window, its size. -/
def capacity (d : Dev) (t : Tier) (b : Nat) : Nat :=
  let m := berthOf d b
  match t with
  | .near => m.nearQuota * 2 ^ 28
  | .stack => m.stackQuota * 2 ^ 30
  | .flash => m.flashQuota * 2 ^ 36
  | .host => reg d (pg 0x12 (bankOfBerth b) + 0x130)

/-- The device's own end points (11 R357). -/
def epOf (d : Dev) (role : Nat) : Nat := d.wharf.epBase * 512 + role

/-! ## Cells -/

/-- The place of a tile on a channel list: the hash's lowest 16 bits (02 R63). -/
def hash16 (addr : Nat) : Nat :=
  let tile := addr / 256
  (tile ^^^ (tile / 2 ^ 11) ^^^ (tile / 2 ^ 23)) % 65536

/-- Cell of a near-store local address (03 R79). -/
def nearCell (m : XMapCfg) (berth addr : Nat) : Nat :=
  let seg := addr / 2 ^ 28
  let tile := addr / 256
  let h16 := hash16 addr
  let segbase := NMap.get 0 m.nearSegs (berth * 128 + seg)
  bankOfBerth berth * 2 ^ 35 + h16 / 2 ^ 11 * 2 ^ 30 +
    (segbase * 8388608 + tile / 2 ^ 16 % 16 * 524288 + h16 % 2048 * 256 + addr % 256)

/-- Positions of a bank, rising (03 R81). -/
def positionsOf (bank : Nat) : List Nat := if bank == 0 then [0, 1, 2, 3, 4] else [5, 6, 7, 8]

/-- The data units of nine consecutive stripe addresses of a bank on channel `c`, in the order of the data sequence
(03 R82, R83): (stripe address, position). -/
def nineStripes (bank c : Nat) : List (Nat × Nat) :=
  ((List.range 9).map (fun a => ((positionsOf bank).filter (fun p => p != (a + c) % 9)).map (fun p => (a, p)))).flatten

/-- Stripe address and position of a data-sequence index (03 R85). -/
def walkIndex (bank c index : Nat) : Nat × Nat :=
  let per := if bank == 0 then 40 else 32
  let u := (nineStripes bank c).getD (index % per) (0, 0)
  (index / per * 9 + u.1, u.2)

/-- Cell of a byte of a stack unit. -/
def stackCell (pos chan stripe byte_ : Nat) : Nat := 2 ^ 40 + ((pos * 32 + chan) * 12582912 + stripe) * 256 + byte_

/-- Channel list of a berth. -/
def stackChans (m : XMapCfg) (berth : Nat) : List Nat := bitsOf 32 (NMap.get {} m.berths berth).stackCh.toNat

/-- Cell of a stack local address (03 R84). -/
def stackAddrCell (m : XMapCfg) (berth addr : Nat) : Nat :=
  let l := stackChans m berth
  let n := l.length
  let seg := addr / 2 ^ 30
  let tile := addr / 256
  let h16 := hash16 addr
  let k := h16 * n / 65536
  let chan := l.getD k 0
  let start := (k * 65536 + n - 1) / n
  let run := (65536 + n - 1) / n
  let first := match m.runs.find? (fun r => r.berth == berth && r.seg == seg && r.chan == chan) with
    | some r => r.first
    | none => 0
  let index := first + tile / 2 ^ 16 % 64 * run + (h16 - start)
  let u := walkIndex (bankOfBerth berth) chan index
  stackCell u.2 chan u.1 (addr % 256)

/-- First cell of flash, and of the host windows. -/
def flashBase : Nat := 2 ^ 50

def hostBase : Nat := 2 ^ 60

/-- Cell of a local address of a berth in a tier. -/
def cellOf (d : Dev) (tier : Tier) (berth addr : Nat) : Nat :=
  match tier with
  | .near => nearCell d.xmap.current berth addr
  | .stack => stackAddrCell d.xmap.current berth addr
  | .flash => flashBase + berth * 2 ^ 46 + addr
  | .host => hostBase + bankOfBerth berth * 2 ^ 58 + reg d (pg 0x12 (bankOfBerth berth) + 0x128) + addr

/-- Cell of a byte of an extent. -/
def extCell (d : Dev) (x : Extent) (off : Nat) : Nat := cellOf d x.e.tier x.e.berth (localAddr x off)

/-- What a stack cell names: position, channel, stripe, byte of the unit. -/
structure StackAt where
  pos : Nat
  chan : Nat
  stripe : Nat
  byte_ : Nat
  deriving DecidableEq, Repr

/-- The unit of a stack cell. -/
def stackAt (cell : Nat) : StackAt :=
  let c := cell - 2 ^ 40
  let u := c / 256
  { pos := u / 12582912 / 32, chan := u / 12582912 % 32, stripe := u % 12582912, byte_ := c % 256 }

/-- Tier of a cell. -/
def tierOfCell (cell : Nat) : Tier :=
  if hostBase ≤ cell then .host else if flashBase ≤ cell then .flash else if 2 ^ 40 ≤ cell then .stack else .near

/-- The bytes of `n` cells from `cell`. -/
def memBytes (d : Dev) (cell n : Nat) : List Byte := (List.range n).map (fun i => NMap.get 0 d.tiers.mem (cell + i))

/-- A map with bytes stored from `cell` on. -/
def putBytes : NMap Byte → Nat → List Byte → NMap Byte
  | m, _, [] => m
  | m, cell, b :: l => putBytes (NMap.set 0 m cell b) (cell + 1) l

/-- The canonical form of memory: cells rising, and no entry equal to 0, which an unlisted cell reads as. -/
def Memory.wf (m : NMap Byte) : Bool := NMap.wf 0 m

/-- Store bytes from `cell` on. -/
def setMem (d : Dev) (cell : Nat) (l : List Byte) : Dev := { d with tiers.mem := putBytes d.tiers.mem cell l }

end Sys2Proof.Machine
end

