-- ==== Sys2Proof/Machine/Stacks.lean ====
section
/-! DEFINITION. The stacks (03 R81-R95): which site serves a unit, parity and its queued deltas, reconstruction, the stripe dirty
log, and rows, channels and sites that leave service. -/

namespace Sys2Proof.Machine

open Sys2Proof

/-! ## Poison and stored errors, by granule cell -/

def poisoned (d : Dev) (g : Nat) : Bool := NSet.mem d.tiers.poison g

def faulty (d : Dev) (g : Nat) : Bool := NSet.mem d.tiers.faults g

def addPoison (d : Dev) (g : Nat) : Dev := { d with tiers.poison := NSet.add d.tiers.poison g }

/-- A granule is stored whole: neither poisoned nor faulty any longer. -/
def cleanGranule (d : Dev) (g : Nat) : Dev :=
  { d with tiers.poison := NSet.del d.tiers.poison g, tiers.faults := NSet.del d.tiers.faults g }

/-! ## Units and stripes -/

/-- Set or clear a bit of a channel mask. -/
def maskOn (m : BitVec 32) (c : Nat) : BitVec 32 := m ||| BitVec.ofNat 32 (2 ^ c)

def maskOff (m : BitVec 32) (c : Nat) : BitVec 32 := m &&& ~~~(BitVec.ofNat 32 (2 ^ c))

/-- How a stack unit is served: by a site, by reconstruction, or not at all while its site is withheld (03 R91). -/
inductive UnitState where
  | up (s : Nat) | missing | withheld
  deriving DecidableEq, Repr

/-- The site that has a position (03 R81, R116). -/
def siteOf (d : Dev) (pos : Nat) : Option Nat :=
  findBelow 10 (fun s => (site d s).role == .member && (site d s).position == pos)

/-- The site that lends channels: the hot spare stack of a new module, of which there is never another (03 R94, R116). -/
def spareSite : Nat := 9

/-- A site of a bank held in reset (03 R91). -/
def withheldSite (d : Dev) (s : Nat) : Bool := d.sys.westHeld && decide (5 ≤ s)

/-- Stripe addresses of a channel (14 R438). -/
def stripesPerChan : Nat := 12582912

/-- A unit that the spare serves as the rebuild target: its stripe lies below the cursor, and the spare's channel is up and not lent
(14 R438). -/
def belowCursor (d : Dev) (pos chan stripe : Nat) : Bool :=
  match d.tiers.rebuild with
  | some r =>
    r.ready && r.position == pos && decide (chan * stripesPerChan + stripe < r.cursor) &&
      !bit (site d spareSite).loan.toNat chan && !bit (site d spareSite).down.toNat chan
  | none => false

/-- The site that holds, or held, a unit: the spare where its channel is lent for it or it has been rebuilt there (03 R94; 14 R438). -/
def holderOf (d : Dev) (pos chan stripe : Nat) : Nat :=
  match siteOf d pos with
  | some s => if s != spareSite && (bit (site d s).loan.toNat chan || belowCursor d pos chan stripe) then spareSite else s
  | none => pos

/-- How the unit of a position, channel and stripe is served now (03 R89, R91, R93-R95; 14 R438). A channel that the spare has lent does
not serve a position the spare was rebuilt for. -/
def unitState (d : Dev) (pos chan stripe : Nat) : UnitState :=
  match siteOf d pos with
  | none => .missing
  | some s =>
    let st := site d s
    let h := holderOf d pos chan stripe
    if withheldSite d h then .withheld
    else if h != s then .up h
    else if st.failed || bit st.down.toNat chan || (s == spareSite && bit st.loan.toNat chan) then .missing
    else .up s

/-- The parity position of a stripe (03 R82). -/
def parityPos (chan stripe : Nat) : Nat := (stripe + chan) % 9

/-- Apply one queued delta to the parity unit, and count it on the page of the site that holds the unit (03 R87). -/
def applyDelta (d : Dev) (x : Nat × Nat × Nat × List Byte) : Dev :=
  let (chan, stripe, o, l) := x
  let cell := stackCell (parityPos chan stripe) chan stripe o
  let d1 := setMem d cell (xorBytes (memBytes d cell l.length) l)
  match unitState d (parityPos chan stripe) chan stripe with
  | .up s => count d1 (pgI 0x31 5 s) 0x818
  | _ => d1

/-- Apply every delta queued for a stripe, oldest first (03 R88). -/
def applyStripe (d : Dev) (chan stripe : Nat) : Dev :=
  let p (x : Nat × Nat × Nat × List Byte) : Bool := x.1 == chan && x.2.1 == stripe
  let d1 := (d.tiers.deltas.filter p).foldl applyDelta d
  { d1 with tiers.deltas := d1.tiers.deltas.filter (fun x => !p x) }

/-- A granule of a unit can be read as stored. -/
def storedOk (d : Dev) (pos chan stripe o : Nat) : Bool :=
  let g := stackCell pos chan stripe o
  (match unitState d pos chan stripe with | .up _ => true | _ => false) && !faulty d g && !poisoned d g

/-- The XOR of the granule at `o` over the positions listed. -/
def xorUnits (d : Dev) (chan stripe o : Nat) (ps : List Nat) : List Byte :=
  ps.foldl (fun acc p => xorBytes acc (memBytes d (stackCell p chan stripe o) 64)) (List.replicate 64 0)

/-- The granule of a unit from the other eight units of its stripe, where all can be read (03 R89). Queued deltas of
the stripe have been applied. -/
def reconstruct (d : Dev) (pos chan stripe o : Nat) : Option (List Byte) :=
  let others := (List.range 9).filter (fun p => p != pos)
  if others.all (fun p => storedOk d p chan stripe o) then some (xorUnits d chan stripe o others) else none

/-- A bank's stripe dirty log gets a stripe. On overflow every stripe of its channel is marked for recomputation (03 R90). -/
def logStripe (d : Dev) (bank chan stripe : Nat) : Dev :=
  let k := chan * 2 ^ 24 + stripe
  let l := if bank == 0 then d.tiers.dirtyEast else d.tiers.dirtyWest
  if NSet.mem l k then d
  else if l.length < 1048576 then
    if bank == 0 then { d with tiers.dirtyEast := NSet.add l k } else { d with tiers.dirtyWest := NSet.add l k }
  else
    let d := (List.range 5).foldl (fun d i => raise d (pg 0x31 bank i) 5) d
    if bank == 0 then { d with tiers.ovfEast := maskOn d.tiers.ovfEast chan }
    else { d with tiers.ovfWest := maskOn d.tiers.ovfWest chan }

/-- Bank of a stack site, and of a position. -/
def bankOfSite (s : Nat) : Nat := if s < 5 then 0 else 1

/-! ## Failures (03 R93-R95, 14 R438) -/

/-- The channels that the spare has lent go out of service with it. -/
def endLoans (d : Dev) (chans : List Nat) : Dev :=
  let put (t : Site) : Site := chans.foldl (fun t c =>
    if bit t.loan.toNat c then { t with loan := maskOff t.loan c, down := maskOn t.down c } else t) t
  { d with tiers.sites := d.tiers.sites.map put }

/-- A rebuild ends before its last stripe: the channels rebuilt keep serving, as channels that the spare lends for the position; the others
stay served by reconstruction (14 R438). -/
def endRebuild (d : Dev) : Dev :=
  match d.tiers.rebuild with
  | none => d
  | some r =>
    let whole := (List.range 32).filter (fun c => belowCursor d r.position c (stripesPerChan - 1))
    let lend (t : Site) : Site := whole.foldl (fun t c => { t with loan := maskOn t.loan c, down := maskOff t.down c }) t
    let take (t : Site) : Site :=
      let u := whole.foldl (fun t c => { t with loan := maskOn t.loan c }) t
      if u.role == .target then { u with role := .spare } else u
    let put (k : Nat × Site) : Site :=
      if k.1 == spareSite then (if k.2.failed then { k.2 with role := .spare } else take k.2)
      else if k.2.role == .member && k.2.position == r.position && !(site d spareSite).failed then lend k.2 else k.2
    { d with tiers.rebuild := none, tiers.sites := (d.tiers.sites.zipIdx).map (fun k => put (k.2, k.1)) }

/-- A whole site fails: its position is served by reconstruction at once, and Salvage starts bringing the hot spare out of
idle. A failure during a rebuild ends the rebuild (03 R95, 14 R438). -/
def siteFail (d : Dev) (s : Nat) : Dev :=
  let t := site d s
  if 10 ≤ s || t.failed || t.role == .retired then d
  else
    let page := pgI 0x31 5 s
    let d1 := onSite d s (fun t => { t with failed := true, down := ~~~t.loan })
    let d2 := if s == spareSite then endLoans d1 (List.range 32) else d1
    let d3 := degrade (raiseFe d2 page 4 (feUnit 0)) (bankOfSite s)
    match d3.tiers.rebuild with
    | some _ => endRebuild d3
    | none =>
      if t.role == .member && (site d3 spareSite).role == .spare && !(site d3 spareSite).failed then
        { d3 with tiers.rebuild := some { position := t.position, ready := false } }
      else d3

/-- STACK_CHANNEL_DOWN (03 R93): a site whose channels have all left service fails. -/
def channelDown (d : Dev) (s chan : Nat) : Dev :=
  if 10 ≤ s || 32 ≤ chan || bit (site d s).down.toNat chan then d
  else
    let d0 := if s == spareSite then endLoans d [chan] else d
    let d1 := onSite d0 s (fun t => { t with down := maskOn t.down chan })
    let page := pgI 0x31 5 s
    let d2 := degrade (raiseFe d1 page 3 (feUnit chan)) (bankOfSite s)
    let t := site d2 s
    if t.role == .member && (t.down ||| t.loan) == BitVec.allOnes 32 then siteFail d2 s else d2

/-- The spare can take a member site's channel that is out of service: Salvage rebuilds it there (03 R94). A site that has failed whole, or a
channel index already lent, is not rebuilt so. -/
def channelRebuilds (d : Dev) (s chan : Nat) : Bool :=
  let t := site d s
  let sp := site d spareSite
  decide (s < 10) && s != spareSite && decide (chan < 32) && t.role == .member && !t.failed && bit t.down.toNat chan &&
    sp.role == .spare && !sp.failed && !bit sp.loan.toNat chan && !bit sp.down.toNat chan && !withheldSite d spareSite

/-! ## Rows (03 R93) -/

/-- The row of a channel that holds a stripe address, which software cannot see (03 R85; log 124). -/
def rowOf (chan stripe : Nat) : Nat := chan * 2 ^ 32 + Config.stackRow stripe % 2 ^ 32

/-- A row moves to a spare row of its channel; a channel with none left goes out of service (03 R93). -/
def rowReplace (d : Dev) (s chan row : Nat) : Dev :=
  if 10 ≤ s || 32 ≤ chan then d
  else
    let used := NMap.get 0 (site d s).rowSpares chan
    if Config.stackSpareRows (s * 32 + chan) < used then channelDown d s chan
    else
      let page := pgI 0x31 5 s
      let k := chan * 2 ^ 32 + row % 2 ^ 32
      let d1 := onSite d s (fun t => { t with
        rowEvents := NMap.set 0 t.rowEvents k 0
        rowsReplaced := NSet.add t.rowsReplaced k
        rowsPermanent := NSet.del t.rowsPermanent k
        rowSpares := NMap.set 0 t.rowSpares chan (used + 1) })
      degrade (count (raise d1 page 2) page 0x810) (bankOfSite s)

/-- An error event of a row that a site serves: at STACK_ROW_LIMIT events the row is replaced (03 R93). -/
def rowEvent (d : Dev) (s chan stripe : Nat) : Dev :=
  let k := rowOf chan stripe
  let n := NMap.get 0 (site d s).rowEvents k + 1
  if reg d (pgI 0x31 5 s + 0x120) ≤ n then rowReplace d s chan (k % 2 ^ 32)
  else onSite d s (fun t => { t with rowEvents := NMap.set 0 t.rowEvents k n })

/-- Count a reconstruction on the holder's page (03 R92); it is an event of the unit's row where a site serves the unit
(03 R93). -/
def noteRecon (d : Dev) (pos chan stripe : Nat) : Dev :=
  let page := pgI 0x31 5 (holderOf d pos chan stripe)
  let d1 := raise (count d page 0x808) page 1
  match unitState d pos chan stripe with
  | .up s => rowEvent d1 s chan stripe
  | _ => d1

end Sys2Proof.Machine
end

