-- ==== Sys2Proof/Machine/Tier.lean ====
section
/-! DEFINITION. Reading and writing a tile of an extent at its tier: stored granules, their errors and poison (03 R80,
R92), stack parity and reconstruction (03 R87-R92), the flash staging area (03 R97), host memory (03 R100), encryption
(15 R474) and the zero of ZERO (02 R44). -/

namespace Sys2Proof.Machine

open Sys2Proof

/-- What an access tells a first-error record and a stall counter. -/
structure Acc where
  off : Nat
  job : Nat := 0
  src : Nat := 0
  reqId : Nat := 0
  berth : Nat := 0
  deriving DecidableEq, Repr

/-- The record of an access at byte `o` (17 R524). -/
def feAcc (d : Dev) (a : Acc) (o code : Nat) : Fe :=
  { unit := false, addr := d.xmap.node * 2 ^ 48 + o, src := a.src, job := a.job, reqId := a.reqId, code := code }

/-- Count a stall of a berth and its cycles (03 R115), unless the page's counters are frozen (17 R519). -/
def stall (d : Dev) (berth cause cyc : Nat) : Dev :=
  let k := berth * 8 + cause
  let page := pg 0x33 (bankOfBerth berth)
  let d := count d page (0x800 + 8 * cause)
  if frozen d page then d else { d with
    tiers.stallCnt := NMap.set 0 d.tiers.stallCnt k ((NMap.get 0 d.tiers.stallCnt k + 1) % 2 ^ 64)
    tiers.stallCyc := NMap.set 0 d.tiers.stallCyc k ((NMap.get 0 d.tiers.stallCyc k + cyc) % 2 ^ 64) }

/-- Add cycles to a stall of a berth that has been counted (03 R115). -/
def stallTime (d : Dev) (berth cause cyc : Nat) : Dev :=
  let k := berth * 8 + cause
  if frozen d (pg 0x33 (bankOfBerth berth)) then d else { d with tiers.stallCyc := NMap.set 0 d.tiers.stallCyc k ((NMap.get 0 d.tiers.stallCyc k + cyc) % 2 ^ 64) }

/-! ## Flash channels -/

/-- Bank of a flash cell. -/
def flashBank (g : Nat) : Nat := bankOfBerth ((g - flashBase) / 2 ^ 46)

/-- The channel without which the stripe of a flash cell lies: the one its group runs without, or, for what has been written since, the
one being rebuilt (14 R439). -/
def goneChan (d : Dev) (g : Nat) : Option Nat :=
  let s := d.tiers.groups.getD (flashBank g) {}
  let fresh := NSet.mem s.moved (g / 256 * 256)
  match s.gone with
  | some c => if s.stuck && !fresh then none else some c
  | none => if fresh then s.rebuilding else none

/-- A flash channel is down, and the stripe of a cell has a page on it. -/
def flashLost (d : Dev) (g c : Nat) : Bool := (d.tiers.flash.getD c {}).down && goneChan d g != some c

/-- The channel that holds a flash cell: one of its berth's list, but for the one its stripe lies without (03 R96; log 16). -/
def flashChanOf (d : Dev) (g : Nat) : Nat :=
  let berth := (g - flashBase) / 2 ^ 46
  let bank := bankOfBerth berth
  let chans := ((bitsOf 16 (berthOf d berth).flashCh.toNat).map (fun c => bank * 16 + c)).filter (fun c => goneChan d g != some c)
  chans.getD (Config.flashPage (g / 256 * 256) % chans.length) (bank * 16)

/-- Positions of a channel index that no site serves. -/
def missingAt (d : Dev) (chan : Nat) : Nat :=
  ((List.range 9).filter (fun p => match unitState d p chan stripesPerChan with | .missing => true | _ => false)).length

/-- A fault for which requests are refused with DEGRADED_REFUSED (14 R434, R436; 03 R89; 01 R27). -/
def refusing (d : Dev) : Bool :=
  !d.tiers.vaultsDown.isEmpty || d.sys.westHeld || (List.range 32).any (fun c => decide (2 ≤ missingAt d c))

/-- RESTORED of a bank's Salvage page, once no fault is left for which requests are refused (14 R434). -/
def restored (d : Dev) (bank : Nat) : Dev := if refusing d then d else raise d (pg 0x34 bank) 1

/-! ## One granule -/

/-- The granule of a unit whose site is withheld (03 R91). -/
def withheldCell (d : Dev) (g : Nat) : Bool :=
  tierOfCell g == .stack && unitState d (stackAt g).pos (stackAt g).chan (stackAt g).stripe == .withheld

/-- A near-store vault fails: it leaves service, and the bank's stack stripes are marked for recomputation (14 R436). -/
def vaultFail (d : Dev) (v : Nat) : Dev :=
  if 64 ≤ v || NSet.mem d.tiers.vaultsDown v then d
  else
    let bank := v / 32
    let d1 := { d with tiers.vaultsDown := NSet.add d.tiers.vaultsDown v }
    let d2 := if bank == 0 then { d1 with tiers.ovfEast := BitVec.allOnes 32 } else { d1 with tiers.ovfWest := BitVec.allOnes 32 }
    degrade (raiseFe d2 (pg 0x30 bank) 2 (feUnit (v % 32))) bank

/-- One granule more of a vault has proved uncorrectable: with 64 in a second, 800,000,000 cycles, the vault fails (14 R436). -/
def vaultUe (d : Dev) (v : Nat) : Dev :=
  if NSet.mem d.tiers.vaultsDown v then d
  else
    let ts := (NMap.get [] d.tiers.vaultUes v).filter (fun t => decide (d.sys.ltc < t + 800000000)) ++ [d.sys.ltc]
    if 64 ≤ ts.length then vaultFail { d with tiers.vaultUes := NMap.set [] d.tiers.vaultUes v [] } v
    else { d with tiers.vaultUes := NMap.set [] d.tiers.vaultUes v ts }

/-- A near-store granule, one of the flash staging area too, cannot be corrected: it is poisoned (03 R80). -/
def nearUe (d : Dev) (a : Acc) (bank g : Nat) : Dev :=
  let page := pg 0x30 bank
  let d1 := addPoison (raiseFe (count d page 0x808) page 0 (feAcc d a a.off cUNCORR)) g
  if tierOfCell g == .near then vaultUe d1 (bank * 32 + g % 2 ^ 35 / 2 ^ 30) else d1

/-- Pages of the stripe of a flash cell that lie on channels out of service. -/
def flashDown (d : Dev) (g : Nat) : Nat := ((List.range 16).filter (fun c => flashLost d g (flashBank g * 16 + c))).length

/-- A staged tile is written to flash, on a stripe without a channel that has failed (03 R97; 14 R439). -/
def toFlash (d : Dev) (t : StagedTile) : Dev :=
  let put (g : FlashGroup) : FlashGroup := if g.rebuilding.isSome || g.stuck then { g with moved := NSet.add g.moved t.addr } else g
  setMem { d with tiers.groups := modAt put d.tiers.groups (flashBank t.addr) } t.addr t.data

/-- A flash granule whose codeword fails LDPC decoding, or whose channel is lost, can be rebuilt from the other 15 pages of its
stripe (03 R99). -/
def flashRebuilds (d : Dev) (g : Nat) : Bool :=
  decide (flashDown d g ≤ (if flashLost d g (flashChanOf d g) then 1 else 0))

/-- The stall cause of a read that is served by rebuilding: 5 on the stacks, 1 on flash (03 R115). -/
def rebuilt (d : Dev) (g : Nat) : Option Nat :=
  match tierOfCell g with
  | .stack =>
    match unitState d (stackAt g).pos (stackAt g).chan (stackAt g).stripe with
    | .up _ => if faulty d g then some 5 else none
    | .missing => some 5
    | .withheld => none
  | .flash =>
    if d.tiers.staged.any (fun t => t.addr == g / 256 * 256) then none
    else if flashLost d g (flashChanOf d g) || faulty d g then some 1 else none
  | _ => none

/-- Read the 64 stored bytes of a granule: status code and bytes (03 R80, R91, R92, R99; 14 R436). `a` names the access. FLASH_RETRY and
FLASH_RECON count for each granule read (DESIGN CHOICE, log 157). -/
def readGranule (d : Dev) (a : Acc) (g : Nat) : Nat × List Byte × Dev :=
  if withheldCell d g then (cDEGRADED, [], d)
  else if poisoned d g then (cPOISON, [], d)
  else match tierOfCell g with
  | .near =>
    let bank := g / 2 ^ 35
    if NSet.mem d.tiers.vaultsDown (bank * 32 + g % 2 ^ 35 / 2 ^ 30) || faulty d g then (cUNCORR, [], nearUe d a bank g)
    else (cOK, memBytes d g 64, d)
  | .stack =>
    let u := stackAt g
    match unitState d u.pos u.chan u.stripe with
    | .withheld => (cDEGRADED, [], d)
    | .up s =>
      if !faulty d g then (cOK, memBytes d g 64, d)
      else
        let d := applyStripe d u.chan u.stripe
        match reconstruct d u.pos u.chan u.stripe u.byte_ with
        | some l => (cOK, l, cleanGranule (setMem (noteRecon d u.pos u.chan u.stripe) g l) g)
        | none =>
          let page := pgI 0x31 5 s
          (cUNCORR, [], addPoison (raiseFe d page 0 (feAcc d a a.off cUNCORR)) g)
    | .missing =>
      let d := applyStripe d u.chan u.stripe
      match reconstruct d u.pos u.chan u.stripe u.byte_ with
      | some l => (cOK, l, noteRecon d u.pos u.chan u.stripe)
      | none =>
        let page := pgI 0x31 5 (holderOf d u.pos u.chan u.stripe)
        (cUNCORR, [], addPoison (raiseFe d page 0 (feAcc d a a.off cUNCORR)) g)
  | .flash =>
    let bank := bankOfBerth ((g - flashBase) / 2 ^ 46)
    let tile := g / 256 * 256
    match d.tiers.staged.find? (fun t => t.addr == tile) with
    | some t => if faulty d g then (cUNCORR, [], nearUe d a bank g) else (cOK, sub t.data (g - tile) 64, d)
    | none =>
      let page := pg 0x32 bank
      let lost := flashLost d g (flashChanOf d g)
      if !lost && !faulty d g then (cOK, memBytes d g 64, d)
      else
        -- a codeword that fails is read again FLASH_RETRY_MAX times before it is rebuilt
        let d := if lost then d else count d page 0x808 (reg d (page + 0x108))
        if flashRebuilds d g then (cOK, memBytes d g 64, count d page 0x810)
        else
          -- the whole tile is poisoned (03 R99)
          (cUNCORR, [], [0, 64, 128, 192].foldl (fun d o => addPoison d (tile + o)) (raiseFe (count d page 0x818) page 0 (feAcc d a a.off cUNCORR)))
  | .host => (cOK, memBytes d g 64, d)

/-- A read served by rebuilding is one stall of its berth, however many granules were rebuilt (03 R115). -/
def stallRebuilt (before after : Dev) (berth : Nat) (gs : List Nat) : Dev :=
  match gs.findSome? (rebuilt before) with
  | some cause => stall after berth cause 0
  | none => after

/-- Read granules in rising order: the code of the lowest-addressed one that fails, and the bytes (04 R122). -/
def readGranules (a : Acc) : List Nat → Dev → Nat × List Byte × Dev
  | [], d => (cOK, [], d)
  | g :: gs, d =>
    let r := readGranule d a g
    let t := readGranules a gs r.2.2
    if r.1 == cOK then (t.1, (if t.1 == cOK then r.2.1 ++ t.2.1 else []), t.2.2) else (r.1, [], t.2.2)

/-! ## Extents: plain bytes -/

/-- The keys of an encrypted extent whose slot is loaded; a cleared slot serves ciphertext as plaintext (15 R474, R477). -/
def keysOf (d : Dev) (x : Extent) : Option KeySlot :=
  if x.e.encrypt then
    let k := NMap.get {} d.cust.keys x.e.keySlot
    if k.loaded then some k else none
  else none

/-- Tile number of an offset within its extent. -/
def tileIn (x : Extent) (off : Nat) : Nat := (off - extBase x) / 256

/-- A tile of a ZERO extent not yet written reads as zero (02 R44). -/
def zeroTile (x : Extent) (off : Nat) : Bool := x.e.zero && !NSet.mem x.written (tileIn x off)

/-- Granule cells of a tile cell touched by bytes [o, o + n) of the tile. -/
def granulesIn (tile o n : Nat) : List Nat :=
  ((List.range 4).filter (fun i => decide (o < 64 * i + 64) && decide (64 * i < o + n))).map (fun i => tile + 64 * i)

/-- Decrypt stored bytes that begin at granule `o` of a tile, by placing them in a tile. -/
def decryptAt (k : KeySlot) (tileNo o : Nat) (l : List Byte) : List Byte :=
  sub (xtsTile false k.data k.tweak tileNo (putAt (List.replicate 256 0) o l)) o l.length

/-- Read `n` plain bytes at an offset, within one tile (02 R48; 03; 15 R474). -/
def readPlain (d : Dev) (x : Extent) (a : Acc) (off n : Nat) : Nat × List Byte × Dev :=
  if zeroTile x off then (cOK, List.replicate n 0, d)
  else
    let tile := extCell d x (off / 256 * 256)
    let o := off % 256
    let r := readGranules a (granulesIn tile o n) d
    if r.1 == cOK then
      let first := o / 64 * 64
      let l := match keysOf d x with
        | some k => decryptAt k (off / 256) first r.2.1
        | none => r.2.1
      (cOK, sub l (o - first) n, stallRebuilt d r.2.2 a.berth (granulesIn tile o n))
    else (r.1, [], r.2.2)

/-! ## Writing -/

/-- Whether the write of a granule covers it whole. -/
def wholeIn (tile g o n : Nat) : Bool := decide (o ≤ g - tile) && decide (g - tile + 64 ≤ o + n)

/-- Whether a whole-granule write can be performed where its unit is not served (03 R89, R91; 14 R436). -/
def wholeCheck (d : Dev) (g : Nat) : Nat :=
  match tierOfCell g with
  | .near => if NSet.mem d.tiers.vaultsDown (g / 2 ^ 35 * 32 + g % 2 ^ 35 / 2 ^ 30) then cDEGRADED else cOK
  | .stack =>
    let u := stackAt g
    match unitState d u.pos u.chan u.stripe with
    | .withheld => cDEGRADED
    | .missing =>
      -- the parity unit is there, and the other seven data units can be read to form it (03 R89)
      let pp := parityPos u.chan u.stripe
      let others := (List.range 9).filter (fun p => p != u.pos && p != pp)
      if (match unitState d pp u.chan u.stripe with | .up _ => true | _ => false) &&
        others.all (fun p => storedOk d p u.chan u.stripe u.byte_) then cOK else cDEGRADED
    | .up _ => cOK
  | _ => cOK

/-- Check the granules a write covers, in rising order: those covered in part are read for merging. The code of the
lowest-addressed one that fails, and the old bytes of each (zero where the write covers it whole) (04 R122). -/
def checkGranules (a : Acc) (tile o n : Nat) : List Nat → Dev → Nat × List Byte × Dev
  | [], d => (cOK, [], d)
  | g :: gs, d =>
    let w := wholeCheck d g
    let r : Nat × List Byte × Dev :=
      if wholeIn tile g o n then (w, List.replicate 64 0, d)
      else if tierOfCell g == .stack && w != cOK then (w, [], d)
      else
        let r := readGranule d a g
        if r.1 == cOK && w != cOK then (w, [], r.2.2) else r
    let t := checkGranules a tile o n gs r.2.2
    if r.1 == cOK then (t.1, (if t.1 == cOK then r.2.1 ++ t.2.1 else []), t.2.2) else (r.1, [], t.2.2)

/-- Store a granule on the stacks: the unit and its delta (03 R87), or parity alone where the unit is missing (R89). A stripe whose parity
unit is unavailable goes into the dirty log of the bank of the data unit's position (DESIGN CHOICE, log 156). -/
def storeStack (d : Dev) (g : Nat) (new : List Byte) : Dev :=
  let u := stackAt g
  let pp := parityPos u.chan u.stripe
  let others := (List.range 9).filter (fun p => p != u.pos && p != pp)
  let bank := if u.pos < 5 then 0 else 1
  -- parity formed anew is whole, but for a stripe of which another unit cannot be read: that unit is then lost
  let formParity (d : Dev) : Dev :=
    let d := applyStripe d u.chan u.stripe
    let p := stackCell pp u.chan u.stripe u.byte_
    let d1 := cleanGranule (setMem d p (xorBytes (xorUnits d u.chan u.stripe u.byte_ others) new)) p
    if others.all (fun q => storedOk d q u.chan u.stripe u.byte_) then d1
    else { d1 with tiers.faults := NSet.add d1.tiers.faults p }
  match unitState d u.pos u.chan u.stripe with
  | .up _ =>
    let d1 := if faulty d g || poisoned d g then applyStripe d u.chan u.stripe else d
    -- old data that cannot be read is reconstructed, or parity is formed anew (03 R92)
    let old := if faulty d g || poisoned d g then reconstruct d1 u.pos u.chan u.stripe u.byte_ else some (memBytes d g 64)
    match unitState d pp u.chan u.stripe with
    | .up _ =>
      match old with
      | some l =>
        let d0 := if faulty d g && !poisoned d g then noteRecon d1 u.pos u.chan u.stripe else d1
        let d2 := cleanGranule (setMem d0 g new) g
        cross { d2 with tiers.deltas := d2.tiers.deltas ++ [(u.chan, u.stripe, u.byte_, xorBytes l new)] }
          (bankOfSite (holderOf d u.pos u.chan u.stripe)) (bankOfSite (holderOf d pp u.chan u.stripe)) .delta 3
      | none => cleanGranule (setMem (formParity d1) g new) g
    | _ => logStripe (cleanGranule (setMem d1 g new) g) bank u.chan u.stripe
  | _ => cleanGranule (formParity d) g

/-- Mark the tile of a store for copying again by a move that copies its extent (03 R106). -/
def markMove (d : Dev) (base tileNo : Nat) : Dev :=
  { d with tiers.moves := d.tiers.moves.map (fun m =>
      if m.base == base && (match m.phase with | .copy => true | .recopy _ => true | .switching => true | _ => false)
      then { m with marked := NSet.add m.marked tileNo } else m) }

/-- Store a tile's granules (list of cell and 64 new bytes) at their tier. -/
def storeGranules : List (Nat × List Byte) → Dev → Dev
  | [], d => d
  | (g, l) :: rest, d =>
    let d1 := match tierOfCell g with
      | .near => cleanGranule (setMem d g l) g
      | .stack => storeStack d g l
      | .flash => cleanGranule (setMem { d with tiers.staged := d.tiers.staged.filter (fun t => t.addr != g / 256 * 256) } g l) g
      | .host => cleanGranule (setMem d g l) g
    storeGranules rest d1

/-- Stage a flash tile (03 R97): the tile as the staging area now holds it. The granules `gs` that the store covers hold good
data; the others keep the errors of the staging area, and those of flash are behind a tile that is staged now. -/
def stageTile (d : Dev) (bank tile : Nat) (gs : List Nat) (l : List Byte) : Dev :=
  if d.tiers.staged.any (fun t => t.addr == tile) then
    let d := gs.foldl cleanGranule d
    { d with tiers.staged := modFirst (fun t => t.addr == tile) (fun t => { t with data := l }) d.tiers.staged }
  else
    let d := gs.foldl cleanGranule { d with tiers.faults := d.tiers.faults.filter (fun g => g / 256 * 256 != tile) }
    { d with tiers.staged := d.tiers.staged ++ [{ bank := bank, addr := tile, data := l }] }

/-- Tiles staged in a bank. -/
def stagedIn (d : Dev) (bank : Nat) : Nat := (d.tiers.staged.filter (fun t => t.bank == bank)).length

/-- The granules of a stored tile that a write touches, with their bytes. -/
def touched (tile o n : Nat) (stored : List Byte) : List (Nat × List Byte) :=
  (granulesIn tile o n).map (fun g => (g, sub stored (g - tile) 64))

/-- The read-side cache entries of the tile get the bytes stored through this bank by the job (04 R124). -/
def updateCache (d : Dev) (bank job off : Nat) (l : List Byte) : Dev :=
  { d with quay.cache := d.quay.cache.map (fun c =>
      if c.bank == bank && c.job == job && c.offset / 256 == off / 256 then
        { c with data := (List.range 64).map (fun i =>
            let p := c.offset + i
            if off ≤ p && p < off + l.length then l.getD (p - off) 0 else c.data.getD i 0) }
      else c) }

/-- The granules of an encrypted tile that a write leaves are read and written again with it (15 R474): those that can be read, with their
stored bytes. One that cannot keeps its error, which the write does not meet (04 R122; log 147). -/
def readRest (a : Acc) : List Nat → Dev → List (Nat × List Byte) × Dev
  | [], d => ([], d)
  | g :: gs, d =>
    let r := readGranule d a g
    let t := readRest a gs r.2.2
    (if r.1 == cOK then (g, r.2.1) :: t.1 else t.1, t.2)

/-- Write plain bytes at an offset, within one tile: the code, and the device (03, 04 R122, 15 R474). A tile of a ZERO
extent not yet written is written whole, zero around the bytes. -/
def writePlain (d : Dev) (x : Extent) (a : Acc) (off : Nat) (l : List Byte) : Nat × Dev :=
  let tile := extCell d x (off / 256 * 256)
  let z := zeroTile x off
  let o := if z then 0 else off % 256
  let n := if z then 256 else l.length
  let l1 := if z then putAt (List.replicate 256 0) (off % 256) l else l
  let gs := granulesIn tile o n
  let r := checkGranules a tile o n gs d
  if r.1 != cOK then (r.1, r.2.2)
  else
    let first := o / 64 * 64
    let span := 64 * gs.length
    let old := match keysOf d x with
      | some k => decryptAt k (off / 256) first r.2.1
      | none => r.2.1
    let plain := putAt old (o - first) l1
    let stored := match keysOf d x with
      | some k => sub (xtsTile true k.data k.tweak (off / 256) (putAt (List.replicate 256 0) first plain)) first span
      | none => plain
    let tileBuf := putAt (List.replicate 256 0) first stored
    let d1 := r.2.2
    let done (d : Dev) : Dev :=
      markMove (if x.e.zero then onExt d x.e.base (fun x => { x with written := NSet.add x.written (tileIn x off) }) else d)
        x.e.base (tileIn x off)
    match x.e.tier with
    | .flash =>
      -- the staging area holds whole tiles: the rest of the tile comes from where it is now, poisoned where it cannot be read
      let all := granulesIn tile 0 256
      let held := d1.tiers.staged.find? (fun t => t.addr == tile)
      let rest := readGranules a (all.filter (fun g => !gs.contains g)) d1
      let cur := match held with
        | some t => t.data
        | none => memBytes d1 tile 256
      let d2 := if z || held.isSome then d1 else stallRebuilt d rest.2.2 a.berth (all.filter (fun g => !wholeIn tile g o n))
      (cOK, done (stageTile d2 (extBank x) tile gs (putAt cur first stored)))
    | .host =>
      let p := extBank x
      let pt := port d1 p
      if pt.up && pt.bme then
        let d2 := storeGranules (touched tile o n tileBuf) d1
        -- an encrypted tile is written whole (15 R474)
        let w := if (keysOf d1 x).isSome then (0, memBytes d2 tile 256) else (o, sub tileBuf o n)
        (cOK, done (emit d2 (.hostWrite p (tile + w.1 - (hostBase + p * 2 ^ 58)) w.2)))
      else (cTIER, stall d1 x.e.berth 3 0)
    | _ =>
      let rest := if (keysOf d x).isSome then readRest a ((granulesIn tile 0 256).filter (fun g => !gs.contains g)) d1 else ([], d1)
      (cOK, done (storeGranules (touched tile o n tileBuf ++ rest.1) rest.2))

/-- Poison the stored granule of an offset. The rest of a tile not yet written reads on as zero: its zeros are stored. -/
def poisonAt (d : Dev) (x : Extent) (off : Nat) : Dev :=
  let d1 := if zeroTile x off then (writePlain d x { off := off, berth := x.e.berth } off []).2 else d
  addPoison d1 (extCell d x (off / 64 * 64))

end Sys2Proof.Machine
end

