-- ==== Sys2Proof/Machine/Answer.lean ====
section
/-! DEFINITION. Answering a request: the response frame (11 R352, R359, R361), the outcome kept for the loss list
(04 R134, R135), home credits (05 R164) and the pieces of a PCIe transaction (13 R408-R411). -/

namespace Sys2Proof.Machine

open Sys2Proof

/-! ## Response frames -/

/-- Attachment of a tier in a bank's Wharf (11, The Wharf): the input its responses come from. -/
def tierInput (t : Tier) (cell : Nat) : Nat :=
  match t with
  | .near => 10
  | .stack => 11 + (stackAt cell).pos % 5
  | .flash => 16
  | .host => 8

/-- Queue a message to leave on a Landing. -/
def sendOn (d : Dev) (ld input cls slots : Nat) (berth : Option Nat) (job : Nat) (yellow report : Bool) (m : Msg) (off : Nat := 0)
    (qsets : Nat := 0) : Dev :=
  pushFrame d { off := off, qsets := qsets, id := 0, bank := ld / 8, input := input, output := ld % 8, cls := cls, slots := slots, stamp := 0,
                berth := berth, job := job, yellow := yellow, report := report, msg := m }

/-- Queue a response for the Landing its request came in on, or where R364 moves it, counted; with no Landing up it waits
there. -/
def sendRsp (d : Dev) (n input : Nat) (berth : Option Nat) (job off : Nat) (yellow : Bool) (m : Msg) : Dev :=
  let k := (rspLand d n berth off).getD n
  let d1 := if k == n then d else count d (pg 0x10 (k / 8)) 0x838
  sendOn d1 k input 3 (msgSlots m) berth job yellow false m off


/-- Keep the answer of a request accepted from a Landing, in the Landing's record of its last flits and in the loss
list (04 R134). -/
def noteOutcome (d : Dev) (src reqId : Nat) (m : Msg) : Dev :=
  { d with
    lands := d.lands.map (fun l => { l with accepted := l.accepted.map (fun e =>
      if e.src == src && e.reqId == reqId && e.outcome == none then { e with outcome := some m } else e) })
    quay.lossList := d.quay.lossList.map (fun e =>
      if e.src == src && e.reqId == reqId && e.outcome == none then { e with outcome := some m } else e) }


/-- The status and data of a response. -/
def rspOf : Msg → Nat × List Byte
  | .rsp _ _ _ st _ _ _ data => (st, data)
  | _ => (0, [])

/-- An answer of a loss-list entry, taken over by a constituent of an RD_COMB that stands as `as_` (04 R135). -/
def takeAnswer (q : Req) (src reqId : Nat) (as_ : PartIs) (m : Msg) : Req :=
  match q.origin with
  | .comb n parts =>
    let r := rspOf m
    let mine (c : Nat × Nat × PartIs) : Bool := c == (src, reqId, as_)
    if parts.any mine then
      { q with origin := .comb n (parts.map (fun c => if mine c then (c.1, c.2.1, .answered r.1) else c)),
               data := if r.1 == cOK then r.2 else q.data }
    else q
  | _ => q

/-- Duplicates that wait for an original are answered with its response (04 R135); a constituent of an RD_COMB takes it over. -/
def answerDuplicates (d : Dev) (src reqId : Nat) (m : Msg) : Dev :=
  let isComb (f : Flying) : Bool := match f.q.origin with | .comb _ _ => true | _ => false
  let mine (f : Flying) : Bool := f.wait == .original reqId src && !isComb f
  let d1 := (d.flying.filter mine).foldl (fun d f =>
    match f.q.origin with
    | .landing n => sendRsp d n (n % 8) none f.q.h.job.toNat f.q.h.offset.toNat false m
    | _ => d) d
  let take (f : Flying) : Flying :=
    match f.wait with
    | .original _ _ => { f with q := takeAnswer f.q src reqId .original m }
    | _ => f
  { d1 with flying := (d1.flying.filter (fun f => !mine f)).map take }

/-! ## PCIe pieces -/

/-- Record the answer of a piece of a TLP (13 R408). -/
def setPiece (d : Dev) (p tlp piece status : Nat) (data : List Byte) : Dev :=
  let put (t : Tlp) : Tlp := { t with pieces := modAt (fun e => { e with answer := some (status, data) }) t.pieces piece }
  onPort d p (fun pt => { pt with tlps := modFirst (fun t => t.id == tlp) put pt.tlps })

/-! ## Descriptors -/

def onDesc (d : Dev) (r : DescRef) (f : Desc → Desc) : Dev := { d with descs := modFirst (fun x => x.r == r) f d.descs }

/-- The Wharf input of an item's requests: the West row edge of the first row of the copy that works on it, since nothing says which
edge bus a SOURCE or a SINK takes (06 R184; 11, "Attachments"; log 141); the engine port for what no copy sends. -/
def engPort (d : Dev) (r : DescRef) (item : Nat) : Nat :=
  match d.raft.copies.find? (fun c => c.holder == some r &&
    (c.hand.head? == some item || c.writing == some item || NSet.mem c.committed item)) with
  | some c => 18 + 2 * c.row
  | none => 17

/-- Set a descriptor's item status, where it has none yet: the first failure stands (06 R209). -/
def noteItem (d : Dev) (r : DescRef) (item status : Nat) : Dev :=
  let put (x : Desc) : Desc :=
    if NMap.get 0 x.statuses item == 0 then { x with statuses := NMap.set 0 x.statuses item status } else x
  { d with descs := modFirst (fun x => x.r == r) put d.descs }

/-- Item of a descriptor fetch, which passes by the read-side cache (04 R130), and of a notification store (02 R72). -/
def fetchKey : Nat := 2 ^ 40

def notifyKey : Nat := 2 ^ 46

/-- A notification store is answered: any code but OK is a failure, which does not stop the ring (02 R72; 17 R523). -/
def notifyDone (d : Dev) (berth ring status : Nat) : Dev :=
  if status == cOK then d
  else raiseFe (setRing d berth ring { ringOf d berth ring with notifyFail := true }) (pg 0x21 (bankOfBerth berth)) 5
    (feUnit (berth * 64 + ring) status)

/-- An engine's read of this node is answered: the answer waits for the engine. -/
def gotRead (d : Dev) (r : DescRef) (item : Nat) (q : Req) (status : Nat) (data : List Byte) : Dev :=
  let a : Inbound := { item := item, node := q.h.node.toNat, off := q.h.offset.toNat, status := status, data := data }
  let put (x : Desc) : Desc := { x with inbox := x.inbox ++ [a] }
  { d with descs := modFirst (fun x => x.r == r) put d.descs }

/-! ## Home credits (05 R164, R165) -/

/-- Requests in a bank's request table. -/
def tableUsed (d : Dev) (bank : Nat) : Nat := (d.flying.filter (fun f => f.q.table && f.homeBank == bank)).length

/-- Table requests of a source at a bank. -/
def tableOf (d : Dev) (bank src : Nat) : Nat :=
  (d.flying.filter (fun f => f.q.table && f.homeBank == bank && f.q.h.src.toNat == src)).length

/-- Credits a source holds at a bank; one floor credit always. -/
def creditsOf (d : Dev) (bank src : Nat) : Nat := NMap.get 1 d.quay.credits (bank * 2 ^ 18 + src)

/-- Credits held at a bank by every source that has sent requests to its table, floor credits included; a source whose holding
has been lowered below its outstanding requests counts as holding those (05 R164). -/
def creditsHeld (d : Dev) (bank : Nat) : Nat :=
  total ((d.quay.credSrcs.filter (fun k => k / 2 ^ 18 == bank)).map (fun k =>
    max (creditsOf d bank (k % 2 ^ 18)) (tableOf d bank (k % 2 ^ 18))))

/-- The holding a response states: one credit more while the table allows, at most QUAY_SRC_CREDITS; fewer, but the floor credit, while
the floors of new sources have carried the total past the table (05 R164; log 17). -/
def nextCredits (d : Dev) (bank src : Nat) : Nat :=
  let lim := reg d (pg 0x40 bank + 0x108)
  let cur := creditsOf d bank src
  if lim < cur then lim
  else if 65536 < creditsHeld d bank then max 1 (cur - (creditsHeld d bank - 65536))
  else if cur < lim && decide (creditsHeld d bank + 1 ≤ 65536) then cur + 1 else cur

/-- The response to a tabled request states the source's new holding. -/
def setCredits (d : Dev) (bank src cred : Nat) : Dev :=
  { d with quay.credits := NMap.set 1 d.quay.credits (bank * 2 ^ 18 + src) cred }

/-! ## Snapshots (08 R276, R277) -/

def onSnap (d : Dev) (slot : Nat) (f : SnapSlot → SnapSlot) : Dev := { d with tiers.snaps := modAt f d.tiers.snaps slot }

def onSnapItem (d : Dev) (slot item : Nat) (f : SnapItem → SnapItem) : Dev :=
  onSnap d slot (fun s => { s with items := modAt f s.items item })

/-- Poison every granule of a tile of an extent. -/
def poisonTile (d : Dev) (x : Extent) (tile : Nat) : Dev :=
  let off := extBase x + tile * 256
  let d := if x.e.zero then onExt d x.e.base (fun x => { x with written := NSet.add x.written tile }) else d
  (granulesIn (extCell d x off) 0 256).foldl addPoison d

/-- A tile of a snapshot is lost: its copy could not be read or written. The destination's tile is poisoned, and the item has
TIER_FAILED where flash failed and UNCORRECTABLE otherwise (08 R277; for a failed write a DESIGN CHOICE, log 142). -/
def snapLost (d : Dev) (slot item tile status : Nat) : Dev :=
  match (d.tiers.snaps.getD slot {}).items[item]? with
  | none => d
  | some i =>
    let d1 := match extOf d i.dest with
      | some x => poisonTile d x tile
      | none => d
    let code := if status == cTIER then cTIER else cUNCORR
    onSnapItem d1 slot item (fun i => { i with status := if i.status == 0 then code else i.status })

/-! ## Answers -/

/-- Answer a request: `berth` is the berth the response is charged to (12 R381), `input` the attachment it comes from. -/
def answerReq (d : Dev) (q : Req) (bank : Nat) (berth : Option Nat) (input status : Nat) (data : List Byte)
    (grant : Nat := 0) : Dev :=
  let src := q.h.src.toNat
  let id := q.h.reqId.toNat
  match q.origin with
  | .landing n =>
    let cred := if q.table then nextCredits d bank src else 0
    let d := if q.table then setCredits d bank src cred else d
    let off := q.h.offset.toNat
    let m : Msg := .rsp (if data.isEmpty then 0x30 else 0x31) id src status cred grant (leadOf q.op off) data
    answerDuplicates (noteOutcome (sendRsp d n input berth q.h.job.toNat off q.yellow m) src id m) src id m
  | .pcie p _ tlp piece =>
    setPiece (if q.table then setCredits d bank src (nextCredits d bank src) else d) p tlp piece status data
  | .comb n parts =>
    -- the constituents that passed share this answer; the data follow once (11 R359)
    let code (p : PartIs) : Nat := match p with | .answered c => c | _ => status
    let codes := parts.map (fun c => code c.2.2)
    let passed (p : PartIs) : Bool := p == .fresh || p == .answered cOK
    let st := if parts.any (fun c => passed c.2.2) then cOK else codes.getD 0 0
    let data := if parts.any (fun c => c.2.2 == .fresh) then data else q.data
    let off := q.h.offset.toNat
    let cred := if q.table then nextCredits d bank src else 0
    let d := if q.table then setCredits d bank src cred else d
    let d1 := sendRsp d n input berth q.h.job.toNat off q.yellow (.comb id src st cred (off % 16) codes data)
    parts.foldl (fun d c =>
      let l := if passed c.2.2 then data else []
      let m : Msg := .rsp (if l.isEmpty then 0x30 else 0x31) c.2.1 c.1 (code c.2.2) 0 0 (off % 16) l
      answerDuplicates (noteOutcome d c.1 c.2.1 m) c.1 c.2.1 m) d1
  | .internal => d
  | .engine r item =>
    let d := if q.table then setCredits d bank src (nextCredits d bank src) else d
    if q.op == .rd then gotRead d r item q status data
    else if item == notifyKey then notifyDone d r.berth r.ring status
    else noteItem d r item status
  | .customs => { d with cust.fw := d.cust.fw.map (fun w => { w with answer := some (status, data) }) }
  | .snap slot item tile part =>
    if q.op == .rd then onSnap d slot (fun s => { s with formed := s.formed ++ [{ item := item, tile := tile, status := status, data := data }] })
    else if status == cOK || part == .bit then d
    else snapLost d slot item tile status

/-- Attachment of a request's source: its Landing's own, or the ports' and engines'. -/
def ownInput (q : Req) : Nat :=
  match q.origin with
  | .landing n => n % 8
  | .comb n _ => n % 8
  | _ => 8

/-- Answer a refused request: charged to no berth (12 R381). `bank`: whose request table it was in, if in one. -/
def refuseReq (d : Dev) (q : Req) (status : Nat) (bank : Nat := 0) : Dev :=
  answerReq d q bank none (ownInput q) status []

/-- What a home turns away crosses back, in a Wharf frame where a Landing's request is answered (01 R25). -/
def crossBack (d : Dev) (q : Req) (entry bank : Nat) : Dev × Nat :=
  match q.origin with
  | .landing _ | .comb _ _ => (d, if entry == bank then ownInput q else 9)
  | _ => (cross d bank entry .answer 3, ownInput q)

/-- Refuse a request at its home. -/
def refuseHome (d : Dev) (q : Req) (entry bank status : Nat) : Dev :=
  let c := crossBack d q entry bank
  answerReq c.1 q bank none c.2 status []

/-- Answer E2E_NACK from a home (11 R361): nothing has been performed, and a duplicate gets that answer too (04 R135). A PCIe piece gets BUSY_RETRY in its place: the
port's own writes carry a right check. -/
def nackReq (d : Dev) (q : Req) (entry bank : Nat) : Dev :=
  let c := crossBack d q entry bank
  let d := c.1
  match q.origin with
  | .landing n =>
    let src := q.h.src.toNat
    let id := q.h.reqId.toNat
    let m : Msg := .rsp 0x34 id src 0 0 0 0 []
    answerDuplicates (noteOutcome (sendRsp d n c.2 none q.h.job.toNat q.h.offset.toNat q.yellow m) src id m) src id m
  | .comb _ _ => d
  | .internal => d
  | .engine _ _ => d
  | .customs => d
  | .snap _ _ _ _ => d
  | .pcie p _ tlp piece => setPiece d p tlp piece cBUSY []

/-! ## Requests in flight -/

/-- Add a request in flight; its id is the counter's value. -/
def addFlying (d : Dev) (f : Flying) : Dev :=
  { d with flying := d.flying ++ [{ f with id := d.nextFlying }], nextFlying := d.nextFlying + 1 }

/-- A request in flight has passed the Toll and has not been answered (02 R53, R65). -/
def passedToll (f : Flying) : Bool :=
  match f.wait with
  | .hold _ | .lossList | .original _ _ | .turn | .credit => false
  | _ => true

def flyingOf (d : Dev) (id : Nat) : Option Flying := d.flying.find? (fun f => f.id == id)

def setWait (d : Dev) (id : Nat) (w : Wait) : Dev :=
  { d with flying := modFirst (fun f => f.id == id) (fun f => { f with wait := w }) d.flying }

def dropFlying (d : Dev) (id : Nat) : Dev := { d with flying := d.flying.filter (fun f => f.id != id) }

/-- What the end of a request leaves to the blocks that wait for it: an accumulator has the code of the write of its sums (05 R169), and
a store that has not been performed drops the granules it has updated in the read-side cache of its bank (04 R124). -/
def noteEnd (d : Dev) (f : Flying) (status : Nat) : Dev :=
  match f.q.origin with
  | .internal =>
    let put (a : Accum) : Accum := if a.write == some f.id then { a with wrote := some status } else a
    { d with quay.accums := d.quay.accums.map put }
  | _ =>
    let off := f.q.h.offset.toNat
    let mine (c : CacheGran) : Bool :=
      c.bank == f.entry && c.job == f.q.h.job.toNat && decide (off / 64 * 64 ≤ c.offset) && decide (c.offset ≤ off + f.q.h.len.toNat)
    if f.q.op == .wr && status != cOK then { d with quay.cache := d.quay.cache.filter (fun c => !mine c) } else d

/-- Answer a request in flight and let it go. -/
def finishFlying (d : Dev) (f : Flying) (status : Nat) (data : List Byte) (grant : Nat := 0) : Dev :=
  let input := if f.homeBank == f.entry then 17 else 9
  let berth := (extOf d f.base).map (fun x => x.e.berth)
  let framed := match f.q.origin with
    | .landing _ | .comb _ _ => true
    | _ => false
  let d := if framed then d else cross d f.homeBank f.entry .answer 3
  dropFlying (answerReq (noteEnd d f status) f.q f.homeBank berth input status data grant) f.id

end Sys2Proof.Machine
end

