-- ==== Sys2Proof/Machine/Check.lean ====
section
/-! DEFINITION. What stands before the home: header checks (11 R355), the Toll check (02 R48, R56, R65; 14 R440, R441,
R446) and the Fare meter (12 R388-R390). -/

namespace Sys2Proof.Machine

open Sys2Proof

/-! ## Header checks (11 R353, R355) -/

/-- Whether a class may carry an opcode; `op` is the code of 11 R353. -/
def classCarries (op tc : Nat) : Bool :=
  if op == 0x01 || op == 0x02 || op == 0x03 then tc == 0 || tc == 1 || decide (4 ≤ tc)
  else if decide (0x04 ≤ op) && decide (op ≤ 0x06) then decide (4 ≤ tc)
  else if op == 0x07 then tc == 0 || tc == 1
  else if decide (0x08 ≤ op) && decide (op ≤ 0x0C) then decide (4 ≤ tc)
  else if op == 0x18 then decide (4 ≤ tc)
  else if op == 0x20 || op == 0x21 then tc == 0
  else false

/-- Whether an atomic's operation and width go together (04 R137). -/
def atopOk (atop w : Nat) : Bool :=
  if atop ≤ 1 then w == 4 || w == 8 || w == 16
  else decide (atop ≤ 0xA) && (w == 4 || w == 8)

/-- A header is refused before the Toll (11 R355). -/
def headerBad (op : Nat) (h : Hdr) : Bool :=
  let tc := h.tc.toNat
  let w := h.len.toNat + 1
  let fmt := h.fmt.toNat
  let atop := h.aux.toNat
  !classCarries op tc || h.rsvd || (decide (4 ≤ tc) && h.scope == 3) ||
  (if op == 0x04 then !(fmt == 1 || fmt == 2 || fmt == 9)
   else if op == 0x03 && atop == 3 then !((fmt == 1 && w == 4) || (fmt == 0 && w == 8))
   else fmt != 0) ||
  (if op == 0x03 then !atopOk atop w else if op == 0x18 then false else atop != 0) ||
  (if op == 0x06 then false else h.range != 0)

/-- A message of `slots` slots in class `tc` leaves the receive queue of a Landing: its slots are credit to return
(11 R345). -/
def freeSlots (d : Dev) (n tc slots : Nat) : Dev :=
  onLand d n (fun l => { l with freed := modAt (fun c => (c + slots) % 16384) l.freed tc })

/-- Slots of the data a request carries (11 R354). -/
def reqSlots (op : Op) (h : Hdr) : Nat :=
  let n := h.len.toNat + 1
  match op with
  | .wr | .eadd | .wb | .mgmtWr => 2 + spanSlots h.offset.toNat n
  | .atomic => 2 + ceilDiv (if h.aux == 1 then 2 * n else n) 16
  | .publish => 2 + ceilDiv (2 * n) 16
  | .rdComb => 2 + ceilDiv (h.aux.toNat - 1) 2
  | _ => 2

/-- A memory request arrives whole on a Landing: its slots and the record of the last 512 flits (04 R134). -/
def arrive (d : Dev) (n : Nat) (op : Op) (h : Hdr) : Dev :=
  let d := freeSlots d n h.tc.toNat (reqSlots op h)
  let e : Accepted := { flit := (land d n).rxFlits, src := h.src.toNat, reqId := h.reqId.toNat }
  onLand d n (fun l => { l with accepted := l.accepted ++ [e] })

/-! ## The Toll -/

/-- A job's entry accepts an end point (02 R43). -/
def acceptsEp (j : Job) (ep : Nat) : Bool :=
  j.valid && j.ranges.any (fun r => decide (r.1 ≤ ep) && decide (ep < r.1 + r.2))

/-- Whether an operation needs write rights (02 R48; 05 R153). -/
def needsWrite : Op → Bool
  | .wr | .atomic | .eadd | .publish | .rdOwn | .upgrade => true
  | _ => false

/-- Whether a job has the rights on an extent (02 R44). -/
def hasRights (x : Extent) (job : Nat) (w : Bool) : Bool :=
  (x.e.ownerJob == job && (!w || x.e.ownerWr)) ||
  (x.e.guestJob == job && (if w then x.e.guestRights == 3 else x.e.guestRights == 1 || x.e.guestRights == 3))

/-- A protection extent: a mirror's copy, or a parity member's extent (14 R446). -/
def isProtection (d : Dev) (x : Extent) : Bool :=
  x.isCopy || (x.e.prot == 2 &&
    (let c := NMap.get {} d.salv.convoys x.e.convoy
     c.valid && decide (c.n - 2 ≤ c.self)))

/-- Test 3 for a memory location: the extent, if the access is allowed. The receiver of a draining handover passes here
and waits at test 4 (02 R56). -/
def test3 (d : Dev) (op : Op) (h : Hdr) : Option Extent :=
  let off := h.offset.toNat
  let n := h.len.toNat + 1
  let job := h.job.toNat
  match extAt d off with
  | none => none
  | some x =>
    let rights := hasRights x job (needsWrite op) || (x.token == .draining && x.receiver == job)
    let span := if op == .flush then decide ((off / 256 + h.range.toNat + 1) * 256 ≤ extBase x + extBytes x)
                else decide (off % 256 + n ≤ 256)
    if rights && span && !isProtection d x then some x else none

/-- What test 4 answers (02 R53, R56): pass, a code, or held (03 R106, 08 R275). -/
inductive Test4 where
  | pass | refuse (code : Nat) | held
  deriving DecidableEq, Repr

def test4 (x : Extent) (job : Nat) : Test4 :=
  if x.revoking then .refuse cREVOKED
  else if x.token == .draining then
    (if x.receiver == job then .refuse cBUSY else .refuse cREVOKED)
  else if x.held then .held
  else .pass

/-- What test 5 finds of an epoch (02 R65). -/
inductive EpochIs where
  | resolvable | retired | unknown
  deriving DecidableEq, Repr

def epochIs (d : Dev) (e : Nat) : EpochIs :=
  if e == d.xmap.epoch || d.xmap.old.any (fun o => o.epoch == e) then .resolvable
  else
    let k := (e + 65536 - d.xmap.epoch) % 65536
    if decide (1 ≤ k) && decide (k ≤ 32767) then .unknown else .retired

/-- The record of a request (17 R524). -/
def feReq (d : Dev) (h : Hdr) (code : Nat) : Fe :=
  { unit := false, addr := h.node.toNat * 2 ^ 48 + h.offset.toNat, src := h.src.toNat, job := h.job.toNat,
    reqId := h.reqId.toNat, code := code }

/-- Test 5: the code, and EPOCH_UNKNOWN on the entry bank's page (02 R65; 17 R544). -/
def test5 (d : Dev) (bank : Nat) (h : Hdr) : Nat × Dev :=
  match epochIs d h.epoch.toNat with
  | .resolvable => (cOK, d)
  | .retired => (cSTALE, d)
  | .unknown => (cSTALE, raiseFe d (pg 0x21 bank) 2 (feReq d h cSTALE))

/-- What the Toll answers. -/
inductive TollSays where
  | pass (x : Option Extent) | refuse (code : Nat) | held (x : Extent)
  deriving DecidableEq, Repr

/-- End points and tide of a protection source: the member of a peer or convoy entry whose Tow end point it is, with
the tide of the pair or convoy (14 R446). -/
def protTide (d : Dev) (x : Extent) (src : Nat) : Option Nat :=
  let tow (base : Nat) : Bool := src == base * 512 + 258 || src == base * 512 + 259
  let peers := d.salv.peers.filter (fun p => p.2.valid && tow p.2.epBase)
  if x.e.prot == 1 then
    (peers.find? (fun p => p.2.node == x.e.partner && p.2.st != .unreachable)).map (fun p => p.2.tide)
  else if x.e.prot == 2 then
    let c := NMap.get {} d.salv.convoys x.e.convoy
    let members := (List.range c.n).filter (fun k => c.states.getD k .current != .unreachable)
    if c.valid && peers.any (fun p => members.any (fun k => c.nodes.getD k 0 == p.2.node)) then some c.tide else none
  else none

/-- Protection traffic of a member of the extent's pair or convoy: a load or store of its Tow to a protection extent, whatever the
request's job; or a load for a reconstruction (14 R446, R449), where the Tow's end point is not one that the job's own requests come
from (DESIGN CHOICE, log 144). -/
def memberOp (d : Dev) (x : Extent) (op : Op) (h : Hdr) : Bool :=
  (protTide d x h.src.toNat).isSome &&
    ((isProtection d x && (op == .rd || op == .wr)) || (op == .rd && !acceptsEp (jobOf d h.job.toNat) h.src.toNat))

/-- A load of a member: it is answered with the tile as it is stored (15 R475), and no read-side cache has part in it. -/
def memberRead (d : Dev) (x : Extent) (q : Req) : Bool := q.op == .rd && memberOp d x .rd q.h

/-- The Toll's tests for a request with an extent behind it; test 6 has passed. Tests 2 to 5 in order, with MAP_STALE
in place of BUSY_RETRY where test 5 fails as well (02 R48). -/
def tollTests (d : Dev) (bank : Nat) (op : Op) (h : Hdr) (engine : Bool) : TollSays × Dev :=
  let j := jobOf d h.job.toNat
  let nodeBad := h.node.toNat != d.xmap.node
  let d := if nodeBad then raiseFe (count d (pg 0x20 bank) 0x800) (pg 0x20 bank) 2 (feReq d h cDENIED) else d
  if nodeBad then (.refuse cDENIED, d)
  else
    match extAt d h.offset.toNat with
    | some x =>
      match protTide d x h.src.toNat with
      | some t =>
        if memberOp d x op h then
          if h.tide.toNat != t then (.refuse cFENCED, d)
          else
            let r := test5 d bank h
            if r.1 == cOK then (.pass (some x), r.2) else (.refuse r.1, r.2)
        else if !(j.valid && (engine || acceptsEp j h.src.toNat)) then (.refuse cDENIED, d)
        else jobTests d bank op h j
      | none => if !(j.valid && (engine || acceptsEp j h.src.toNat)) then (.refuse cDENIED, d) else jobTests d bank op h j
    | none => if !(j.valid && (engine || acceptsEp j h.src.toNat)) then (.refuse cDENIED, d) else jobTests d bank op h j
where
  /-- Tests 2 to 5 for a job's request. -/
  jobTests (d : Dev) (bank : Nat) (op : Op) (h : Hdr) (j : Job) : TollSays × Dev :=
    if h.tide.toNat != j.tide then (.refuse cFENCED, d)
    else if op == .acquire then
      let r := test5 d bank h
      if r.1 == cOK then (.pass none, r.2) else (.refuse r.1, r.2)
    else match test3 d op h with
      | none => (.refuse cDENIED, d)
      | some x =>
        match test4 x h.job.toNat with
        | .refuse c =>
          if c == cBUSY then
            let r := test5 d bank h
            if r.1 == cOK then (.refuse cBUSY, d) else (.refuse r.1, r.2)
          else (.refuse c, d)
        | .held => (.held x, d)
        | .pass =>
          let r := test5 d bank h
          if r.1 == cOK then (.pass (some x), r.2) else (.refuse r.1, r.2)

/-- A device fenced out answers every memory request but those of the management class with FENCED (14 R441). -/
def fencedFor (d : Dev) (h : Hdr) : Bool := d.salv.fencedOut && h.tc != 0

/-- The whole Toll check: test 6 first (02 R48); a fenced-out device answers FENCED (14 R441), before test 6 (DESIGN CHOICE,
log 134). -/
def tollCheck (d : Dev) (bank : Nat) (op : Op) (h : Hdr) (engine : Bool := false) : TollSays × Dev :=
  if fencedFor d h then (.refuse cFENCED, d)
  else if !d.xmap.nodeValid then (.refuse cBUSY, d)
  else tollTests d bank op h engine

/-! ## Fare meter (12 R388-R391) -/

/-- Colours. -/
inductive Colour where
  | green | yellow | red
  deriving DecidableEq, Repr

/-- Bytes a request is charged (12 R388). -/
def fareBytes (op : Op) (h : Hdr) : Nat :=
  match op with
  | .rd | .wr | .atomic | .eadd | .rdShared | .rdOwn | .publish | .rdComb => 32 + h.len.toNat + 1
  | _ => 32

/-- Colour a request of a job (12 R389): the colour and the job's marker. -/
def colourOf (f : FareJob) (now tc bytes : Nat) : Colour × FareJob :=
  let pre := if f.aware && decide (4 ≤ tc) then fld f.pre (2 * (tc - 4)) 2 else 0
  let dt := now - f.seen
  let tcn := min (f.cbs * 800) (f.tc + f.cir * dt)
  let tpn := min (f.pbs * 800) (f.tp + f.pir * dt)
  let b := bytes * 800
  let f1 := { f with seen := now, tc := tcn, tp := tpn }
  if pre == 2 || decide (tpn < b) then (.red, f1)
  else if pre == 1 || decide (tcn < b) then (.yellow, { f1 with tp := tpn - b })
  else (.green, { f1 with tp := tpn - b, tc := tcn - b })

/-- Count a colour in the job's counters (12 R390). -/
def countColour (f : FareJob) (c : Colour) (bytes : Nat) : FareJob :=
  match c with
  | .green => { f with greenReq := (f.greenReq + 1) % 2 ^ 64, greenBytes := (f.greenBytes + bytes) % 2 ^ 64 }
  | .yellow => { f with yellowReq := (f.yellowReq + 1) % 2 ^ 64, yellowBytes := (f.yellowBytes + bytes) % 2 ^ 64 }
  | .red => { f with redReq := (f.redReq + 1) % 2 ^ 64, redBytes := (f.redBytes + bytes) % 2 ^ 64 }

/-- The Fare meter colours a request that has passed the Toll (12 R388-R390): classes 0, 2 and 3 and WB are not
coloured; a job whose ENABLE is clear is green and keeps no buckets. -/
def farePass (d : Dev) (op : Op) (h : Hdr) : Colour × Dev :=
  let tc := h.tc.toNat
  if tc == 0 || tc == 2 || tc == 3 || op == .wb then (.green, d)
  else
    let j := h.job.toNat
    let f := NMap.get {} d.sched.fare j
    let bytes := fareBytes op h
    let r := if f.enable then colourOf f d.sys.ltc tc bytes else (.green, f)
    let d1 := { d with sched.fare := NMap.set {} d.sched.fare j (if frozen d (pg 0x71 0) then r.2 else countColour r.2 r.1 bytes) }
    if r.1 == .red then (.red, raiseFe (count d1 (pg 0x71 0) 0x800) (pg 0x71 0) 0 (feReq d1 h cBUSY)) else (r.1, d1)

/-- The Fare meter colours each constituent of an RD_COMB that has passed (12 R388; 11 R358): a red one is answered BUSY_RETRY. The
request is yellow where one of those that stay is. -/
def fareComb (d : Dev) (h : Hdr) : List (Nat × Nat × PartIs) → List (Nat × Nat × PartIs) × Bool × Dev
  | [] => ([], false, d)
  | c :: l =>
    if c.2.2 != .fresh then
      let t := fareComb d h l
      (c :: t.1, t.2)
    else
      let r := farePass d .rd { h with src := .ofNat 18 c.1, reqId := .ofNat 16 c.2.1 }
      let t := fareComb r.2 h l
      if r.1 == .red then ((c.1, c.2.1, .answered cBUSY) :: t.1, t.2) else (c :: t.1, t.2.1 || r.1 == .yellow, t.2.2)

/-- The Fare meter on a request of a Landing or a port, engine requests apart (12 R388): the request, whether it is refused as red,
and the device. -/
def fareOn (d : Dev) (q : Req) : Req × Bool × Dev :=
  match q.origin with
  | .landing _ | .pcie _ _ _ _ =>
    let c := farePass d q.op q.h
    ({ q with yellow := c.1 == .yellow }, c.1 == .red, c.2)
  | .comb n parts =>
    let c := fareComb d q.h parts
    ({ q with origin := .comb n c.1, yellow := c.2.1 }, !(c.1.any (fun p => p.2.2 == .fresh)), c.2.2)
  | .engine _ _ | .internal | .customs | .snap _ _ _ _ => (q, false, d)

/-- A passed request that came in on an EF2 link, on another Landing than the hash names under its epoch, is counted (02 R63;
11 R363). -/
def misroute (d : Dev) (n : Nat) (berth : Option Nat) (epoch off : Nat) : Dev :=
  match berth with
  | none => d
  | some b =>
    if !(land d n).gen2 then d
    else match pickLand (epochLands d epoch b) off with
      | some k => if k == n then d else count d (pg 0x21 (n / 8)) 0x800
      | none => d

end Sys2Proof.Machine
end

