-- ==== Sys2Proof/Machine/Numfmt.lean ====
section
/-! DEFINITION. Numbers as exact dyadic values, the formats of 07 R224, and rounding to a format. -/

namespace Sys2Proof.Machine

open Sys2Proof

/-- A value: NaN, an infinity, or ± m × 2^e. -/
inductive Val where
  | nan
  | inf (neg : Bool)
  | num (neg : Bool) (m : Nat) (e : Int)
  deriving DecidableEq, Repr

/-- A binary floating-point format: exponent and mantissa bits; `infs` says whether the top exponent holds infinities
and NaNs (IEEE), otherwise `nans` says whether its all-ones mantissa is the one NaN (E4M3) or none (FP6, FP4). -/
structure Fmt where
  eb : Nat
  mb : Nat
  infs : Bool
  nans : Bool
  deriving DecidableEq, Repr

def fp64 : Fmt := ⟨11, 52, true, true⟩
def fp32 : Fmt := ⟨8, 23, true, true⟩
def bf16 : Fmt := ⟨8, 7, true, true⟩
def fp16 : Fmt := ⟨5, 10, true, true⟩
def e4m3 : Fmt := ⟨4, 3, false, true⟩
def e5m2 : Fmt := ⟨5, 2, true, true⟩
def e3m2 : Fmt := ⟨3, 2, false, false⟩
def e2m3 : Fmt := ⟨2, 3, false, false⟩
def e2m1 : Fmt := ⟨2, 1, false, false⟩

/-- Exponent bias. -/
def Fmt.bias (f : Fmt) : Int := (2 ^ (f.eb - 1) : Nat) - 1

/-- The exponent of the least significant bit of subnormals. -/
def Fmt.minExp (f : Fmt) : Int := 1 - f.bias - f.mb

/-- The value of a bit pattern. -/
def Fmt.dec (f : Fmt) (bits : Nat) : Val :=
  let m := bits % 2 ^ f.mb
  let x := bits / 2 ^ f.mb % 2 ^ f.eb
  let s := bit bits (f.mb + f.eb)
  if f.infs && x == 2 ^ f.eb - 1 then (if m == 0 then .inf s else .nan)
  else if f.nans && !f.infs && x == 2 ^ f.eb - 1 && m == 2 ^ f.mb - 1 then .nan
  else if x == 0 then .num s m f.minExp
  else .num s (m + 2 ^ f.mb) ((x : Int) - 1 + f.minExp)

/-- The canonical NaN: quiet, positive, payload 0 (07 R240); for E4M3 its one NaN. -/
def Fmt.nanBits (f : Fmt) : Nat :=
  if f.infs then (2 ^ f.eb - 1) * 2 ^ f.mb + 2 ^ (f.mb - 1) else 2 ^ (f.eb + f.mb) - 1

def Fmt.infBits (f : Fmt) (neg : Bool) : Nat := b2n neg * 2 ^ (f.eb + f.mb) + (2 ^ f.eb - 1) * 2 ^ f.mb

/-- The largest finite magnitude's bits. -/
def Fmt.maxBits (f : Fmt) : Nat :=
  if f.infs then (2 ^ f.eb - 1) * 2 ^ f.mb - 1
  else if f.nans then 2 ^ (f.eb + f.mb) - 2 else 2 ^ (f.eb + f.mb) - 1

/-- Number of bits of `n`. -/
def bitLen (n : Nat) : Nat := if n == 0 then 0 else Nat.log2 n + 1

/-- Rounding modes of 07 R237: to nearest even, toward zero, and stochastic (R238)
with a given 16-bit draw. -/
inductive Rnd where
  | rne | rtz | stoch (r : Nat)
  deriving DecidableEq, Repr

/-- `m / 2^k` rounded to an integer. -/
def roundShift (r : Rnd) (_neg : Bool) (m k : Nat) : Nat :=
  let q := m / 2 ^ k
  let rem := m % 2 ^ k
  match r with
  | .rne => if 2 * rem > 2 ^ k || (2 * rem == 2 ^ k && q % 2 == 1) then q + 1 else q
  | .rtz => q
  | .stoch x => if 65536 ≤ rem * 65536 / 2 ^ k + x then q + 1 else q

/-- Round a magnitude m × 2^e to the format's grid: mantissa and exponent of the unit, before overflow. -/
def Fmt.quant (f : Fmt) (r : Rnd) (neg : Bool) (m : Nat) (e : Int) : Nat × Int :=
  let top : Int := e + bitLen m - 1 - f.mb
  let u : Int := if top < f.minExp then f.minExp else top
  if u ≤ e then (m * 2 ^ (e - u).toNat, u) else (roundShift r neg m (u - e).toNat, u)

/-- The bits of a quantised magnitude (a carry into the next binade is taken), or none where it is past the largest. -/
def Fmt.magBits (f : Fmt) (m : Nat) (u : Int) : Option Nat :=
  let (m, u) := if m == 2 ^ (f.mb + 1) then (2 ^ f.mb, u + 1) else (m, u)
  let b := if m < 2 ^ f.mb then m else ((u - f.minExp).toNat + 1) * 2 ^ f.mb + (m - 2 ^ f.mb)
  if b ≤ f.maxBits then some b else none

/-- Encode a value in an IEEE format, overflow to infinity, subnormals kept (07 R250). -/
def Fmt.enc (f : Fmt) (r : Rnd) (v : Val) : Nat :=
  match v with
  | .nan => f.nanBits
  | .inf s => f.infBits s
  | .num s m e =>
    if m == 0 then b2n s * 2 ^ (f.eb + f.mb)
    else
      let q := f.quant r s m e
      match f.magBits q.1 q.2 with
      | some b => b2n s * 2 ^ (f.eb + f.mb) + b
      | none => f.infBits s

/-- Signed mantissa. -/
def signed (neg : Bool) (m : Nat) : Int := if neg then -(m : Int) else m

/-- The exact sum; a zero sum of opposite signs is positive zero, as nearest-even rounding gives it. -/
def Val.add : Val → Val → Val
  | .nan, _ => .nan
  | _, .nan => .nan
  | .inf a, .inf b => if a == b then .inf a else .nan
  | .inf a, .num _ _ _ => .inf a
  | .num _ _ _, .inf b => .inf b
  | .num a m e, .num b n g =>
    let u : Int := if e ≤ g then e else g
    let t := signed a (m * 2 ^ (e - u).toNat) + signed b (n * 2 ^ (g - u).toNat)
    if t == 0 then .num (a && b) 0 u else .num (decide (t < 0)) t.natAbs u

def Val.neg : Val → Val
  | .nan => .nan
  | .inf a => .inf (!a)
  | .num a m e => .num (!a) m e

/-- The exact product. -/
def Val.mul : Val → Val → Val
  | .nan, _ => .nan
  | _, .nan => .nan
  | .inf a, .inf b => .inf (a != b)
  | .inf a, .num b n _ => if n == 0 then .nan else .inf (a != b)
  | .num a m _, .inf b => if m == 0 then .nan else .inf (a != b)
  | .num a m e, .num b n g => .num (a != b) (m * n) (e + g)

end Sys2Proof.Machine
end

