-- ==== Sys2Proof/Machine/Quay.lean ====
section
/-! DEFINITION. The Quay (05): agents, the directory, snoops and transactions of moored lines; and the eddy buffers:
accumulators, their additions and write-backs. -/

namespace Sys2Proof.Machine

open Sys2Proof

/-! ## Lines (05 R149, R155) -/

/-- Line number of a byte of a moored extent. -/
def lineOf (x : Extent) (off : Nat) : Nat := (x.window * 2 ^ 21 + (off - extBase x)) / 64

/-- The moored extent that holds a line, and the line's offset. -/
def offsetOfLine (d : Dev) (line : Nat) : Option (Extent × Nat) :=
  match d.toll.extents.find? (fun x => x.e.moored && decide (x.window * 2 ^ 21 ≤ line * 64) &&
      decide (line * 64 < x.window * 2 ^ 21 + extBytes x)) with
  | some x => some (x, extBase x + (line * 64 - x.window * 2 ^ 21))
  | none => none

/-- A line lies in an extent's range of the moored window (05 R149). -/
def inWindow (x : Extent) (line : Nat) : Bool :=
  x.e.moored && decide (x.window * 2 ^ 21 ≤ line * 64) && decide (line * 64 < x.window * 2 ^ 21 + extBytes x)

def tagOf (line : Nat) : Nat := line / 2 ^ 18

def setOfLine (line : Nat) : Nat := (line ^^^ (tagOf line * 64)) % 262144

/-! ## Agents (05 R152, R153) -/

def agentOf (d : Dev) (slot : Nat) : Agent := NMap.get {} d.quay.agents slot

/-- The valid slot of an end point. -/
def slotOf (d : Dev) (ep : Nat) : Option Nat :=
  (d.quay.agents.find? (fun e => e.2.valid && e.2.endPoint == ep)).map Prod.fst

/-- The slot that may be granted a copy: valid, not stranded, of the request's job (05 R153). -/
def grantSlot (d : Dev) (h : Hdr) : Option Nat :=
  match slotOf d h.src.toNat with
  | some s => if !(agentOf d s).stranded && (agentOf d s).job == h.job.toNat then some s else none
  | none => none

/-! ## Directory -/

def dirFind (d : Dev) (bank line : Nat) : Option DirEntry :=
  d.quay.dir.find? (fun e => e.bank == bank && e.line == line)

def dirDrop (d : Dev) (bank line : Nat) : Dev :=
  { d with quay.dir := d.quay.dir.filter (fun e => !(e.bank == bank && e.line == line)) }

def dirMod (d : Dev) (bank line : Nat) (f : DirEntry → DirEntry) : Dev :=
  { d with quay.dir := modFirst (fun e => e.bank == bank && e.line == line) f d.quay.dir }

/-- Ways retired in a set, without a spare in their place (14 R437). -/
def retiredIn (d : Dev) (bank set : Nat) : List Nat :=
  (List.range 16).filter (fun w => NSet.mem d.quay.retired (bank * 2 ^ 22 + set * 16 + w))

/-- Entries of a set. -/
def inSet (d : Dev) (bank set : Nat) : List DirEntry :=
  d.quay.dir.filter (fun e => e.bank == bank && setOfLine e.line == set)

/-- A free way of a set. -/
def freeWay (d : Dev) (bank set : Nat) : Option Nat :=
  let l := inSet d bank set
  findBelow 16 (fun w => !(retiredIn d bank set).contains w && !(l.any (fun e => e.way == w)))

/-- The set has a way at all (14 R437). -/
def hasWays (d : Dev) (bank set : Nat) : Bool := decide ((retiredIn d bank set).length < 16)

def transOf (d : Dev) (bank line : Nat) : Option Trans :=
  d.quay.trans.find? (fun t => t.bank == bank && t.line == line)

/-- The least recently used way of a set without an open transaction (05 R160). -/
def victimOf (d : Dev) (bank set : Nat) : Option DirEntry :=
  ((inSet d bank set).filter (fun e => (transOf d bank e.line).isNone)).foldl
    (fun acc e => match acc with
      | none => some e
      | some a => if e.used < a.used then some e else some a) none

/-- Take a way for a line, with one holder. -/
def dirTake (d : Dev) (bank line way slot : Nat) (st : LineState) : Dev :=
  { d with
    quay.dir := d.quay.dir ++ [{ bank := bank, line := line, way := way, st := st, sharers := [slot], used := d.quay.useCount }]
    quay.useCount := d.quay.useCount + 1 }

/-- Add a sharer: a fifth turns the entry coarse (05 R156). -/
def addSharer (e : DirEntry) (slot : Nat) : DirEntry :=
  if e.coarse then { e with sharers := NSet.add e.sharers (slot / 128) }
  else
    let l := NSet.add e.sharers slot
    if l.length ≤ 4 then { e with sharers := l }
    else { e with coarse := true, sharers := l.foldl (fun s k => NSet.add s (k / 128)) [] }

/-- Agent slots an entry points to (05 R156). -/
def pointees (d : Dev) (e : DirEntry) : List Nat :=
  if e.coarse then
    (d.quay.agents.filter (fun a => a.2.valid && NSet.mem e.sharers (a.1 / 128))).map Prod.fst
  else e.sharers

/-- Whether an entry points to a slot. -/
def pointsTo (e : DirEntry) (slot : Nat) : Bool :=
  if e.coarse then NSet.mem e.sharers (slot / 128) else NSet.mem e.sharers slot

/-! ## Snoops (05 R157; 11 R351, R363) -/

/-- Put a snoop on a Landing, where one is up; otherwise it waits with none named (11 R364). -/
def sendSnoop (d : Dev) (bank line : Nat) (s : Snoop) (group : Nat) : Dev × Snoop :=
  match offsetOfLine d line with
  | none => (d, s)
  | some (x, off) =>
    match snoopLand d x.e.berth off with
    | none => (d, { s with via := none })
    | some ld =>
      let m : Msg := .snoop s.kind s.id (d.wharf.epBase * 512 + 256 + bank) s.endPoint s.job d.xmap.node off d.xmap.epoch
      (pushFrame d { id := 0, bank := ld / 8, input := if ld / 8 == bank then 17 else 9, output := ld % 8, cls := 2,
                     slots := 2, stamp := 0, group := group, msg := m }, { s with via := some ld })

/-- Issue snoops of one kind to slots for a line; stranded agents get none (05 R163). IDs count up modulo 65,536 over both banks, and a
slot that was cleared is sent to the end point left in it (DESIGN CHOICE, log 161). -/
def sendSnoops (bank line : Nat) (kind : SnoopKind) (group : Nat) : List Nat → Dev → Dev × List Snoop
  | [], d => (d, [])
  | a :: l, d =>
    if (agentOf d a).stranded then sendSnoops bank line kind group l d
    else
      let s : Snoop := { id := d.quay.nextSnoop % 65536, kind := kind, agent := a, endPoint := (agentOf d a).endPoint,
                         job := (agentOf d a).job, sent := d.sys.ltc }
      let r := sendSnoop { d with quay.nextSnoop := d.quay.nextSnoop + 1 } bank line s group
      let t := sendSnoops bank line kind group l r.1
      (t.1, r.2 :: t.2)

/-- Poison a line (05 R161): its granule, QUAY_POISONED, and the event with the line's address and the agent. -/
def poisonLine (d : Dev) (bank line agent : Nat) : Dev :=
  match offsetOfLine d line with
  | none => d
  | some (x, off) =>
    let d := poisonAt d x off
    let page := pg 0x40 bank
    raiseFe (count d page 0x820) page 1
      { unit := false, addr := d.xmap.node * 2 ^ 48 + off, src := (agentOf d agent).endPoint, job := (agentOf d agent).job,
        code := cPOISON }

/-- Open a transaction on a line whose request (or cause) is `waiters`: snoops of `kind` to `slots`. Pointers to stranded
agents count as dropped at once: a recall then poisons the line (05 R163). The transaction stays open
only while a snoop is outstanding. -/
def openTrans (d : Dev) (bank line : Nat) (tk : TransKind) (kind : SnoopKind) (slots waiters : List Nat) : Dev :=
  let group := if kind == .inv && decide (1 < slots.length) then d.wharf.nextGroup else 0
  let d := if group == 0 then d else { d with wharf.nextGroup := group + 1 }
  let r := sendSnoops bank line kind group slots d
  let lost := slots.filter (fun a => (agentOf d a).stranded)
  let d1 := r.1
  let d2 := if kind == .inv then
      dirMod d1 bank line (fun e => if e.coarse then e else { e with sharers := e.sharers.filter (fun a => !lost.contains a) })
    else match lost with
      | [] => d1
      | a :: _ => dirDrop (if tk == .sweep then d1 else poisonLine d1 bank line a) bank line
  let d3 := if tk == .evicting then count (count d2 (pg 0x40 bank) 0x808) (pg 0x40 bank) 0x810 r.2.length else d2
  let t : Trans := { bank := bank, line := line, kind := tk, snoops := r.2, waiters := waiters }
  { d3 with quay.trans := d3.quay.trans ++ [t] }

/-- Recall-share of every owned line of an extent, as for a plain load of it (05 R158; 08 R275). -/
def recallOwned (d : Dev) (x : Extent) : Dev :=
  let bank := extBank x
  let owned := d.quay.dir.filter (fun e => e.bank == bank && e.st == .owned && inWindow x e.line && (transOf d bank e.line).isNone)
  if d.wharf.epValid then
    owned.foldl (fun d e => openTrans d bank e.line .recallShare .recallShare (pointees d e) []) d
  else d

/-- No line of an extent is owned or in a transaction, and no accumulator of it is open. -/
def extQuiet (d : Dev) (x : Extent) : Bool :=
  !(d.quay.accums.any (fun a => covers x a.offset)) && !d.quay.trans.any (fun t => inWindow x t.line) &&
  !d.quay.dir.any (fun e => e.st == .owned && inWindow x e.line)

/-- A request joins the queue of a line's open transaction. -/
def joinTrans (d : Dev) (bank line id : Nat) : Dev :=
  let mine (t : Trans) : Bool := t.bank == bank && t.line == line
  let join (t : Trans) : Trans := { t with waiters := t.waiters ++ [id] }
  { d with quay.trans := modFirst mine join d.quay.trans }

/-- A request joins the queue of a set (05 R160; 14 R437). -/
def joinSet (d : Dev) (bank set id : Nat) : Dev :=
  let d := count d (pg 0x40 bank) 0x800
  { d with quay.setWait := d.quay.setWait ++ [(bank * 2 ^ 18 + set, id)] }

/-- Whether a set is being swept. -/
def sweeping (d : Dev) (bank set : Nat) : Bool := d.quay.sweeps.contains (bank, set)

/-! ## What a request asks of its lines (05 R158) -/

/-- Kinds of access to a line. -/
inductive LineAsk where
  | load | conflict | shared (slot : Nat) | own (slot : Nat) | upgrade (slot : Nat)
  deriving DecidableEq, Repr

/-- What stands in the way of a request at a line. -/
inductive LineSays where
  /-- The request may be performed at this line. -/
  | go
  /-- It waits: the device has opened a transaction or queued it. -/
  | wait (d : Dev)
  /-- It is answered BUSY_RETRY: a snoop is needed and WHARF_EP_BASE is not valid (11 R357). -/
  | busy

/-- Open a transaction for request `id`, if the device may send snoops. -/
def mayOpen (d : Dev) (bank line : Nat) (tk : TransKind) (kind : SnoopKind) (slots : List Nat) (id : Nat) : LineSays :=
  if d.wharf.epValid then .wait (openTrans d bank line tk kind slots [id]) else .busy

/-- Take a way for a caching request: go on with a free one, else evict a victim or wait for the set (05 R160). -/
def needWay (d : Dev) (bank line id : Nat) : LineSays :=
  let set := setOfLine line
  match freeWay d bank set with
  | some _ => .go
  | none =>
    match victimOf d bank set with
    | none => .wait (joinSet d bank set id)
    | some v =>
      if v.st == .owned then mayOpen d bank v.line .evicting .recall (pointees d v) id
      else mayOpen d bank v.line .evicting .inv (pointees d v) id

/-- The line's answer to what request `id` asks (05 R158). -/
def askLine (d : Dev) (bank line id : Nat) (ask : LineAsk) : LineSays :=
  if sweeping d bank (setOfLine line) then .wait (joinSet d bank (setOfLine line) id)
  else match transOf d bank line with
  | some _ => .wait (joinTrans d bank line id)
  | none =>
    match dirFind d bank line with
    | none =>
      match ask with
      | .load => .go
      | .conflict => .go
      | .shared _ | .own _ | .upgrade _ => needWay d bank line id
    | some e =>
      match e.st, ask with
      | .shared, .load => .go
      | .shared, .shared _ => .go
      | .shared, .conflict => mayOpen d bank line .invalidating .inv (pointees d e) id
      | .shared, .own a | .shared, .upgrade a =>
        let others := (pointees d e).filter (fun s => s != a)
        if others.isEmpty && !e.coarse then .go else mayOpen d bank line .invalidating .inv others id
      | .owned, .load | .owned, .shared _ => mayOpen d bank line .recallShare .recallShare (pointees d e) id
      | .owned, .own _ => mayOpen d bank line .recalling .recall (pointees d e) id
      | .owned, .conflict => mayOpen d bank line .recalling .recall (pointees d e) id
      | .owned, .upgrade a => if pointsTo e a then .go else mayOpen d bank line .recalling .recall (pointees d e) id

/-- Ask the lines of a request one after the other: the first that stands in the way. -/
def askLines (d : Dev) (bank id : Nat) (ask : LineAsk) : List Nat → LineSays
  | [] => .go
  | l :: ls =>
    match askLine d bank l id ask with
    | .go => askLines d bank id ask ls
    | s => s

/-- Record the grant of a shared copy. -/
def grantShared (d : Dev) (bank line slot : Nat) : Dev :=
  match dirFind d bank line with
  | some _ =>
    let d := dirMod d bank line (fun e => { addSharer e slot with used := d.quay.useCount })
    { d with quay.useCount := d.quay.useCount + 1 }
  | none =>
    match freeWay d bank (setOfLine line) with
    | some w => dirTake d bank line w slot .shared
    | none => d

/-- Record the grant of the owned copy. -/
def grantOwned (d : Dev) (bank line slot : Nat) : Dev :=
  match dirFind d bank line with
  | some _ =>
    let d := dirMod d bank line
      (fun e => { e with st := .owned, coarse := false, sharers := [slot], used := d.quay.useCount })
    { d with quay.useCount := d.quay.useCount + 1 }
  | none =>
    match freeWay d bank (setOfLine line) with
    | some w => dirTake d bank line w slot .owned
    | none => d

/-- Lines covered by `n` bytes at an offset. -/
def linesOf (x : Extent) (off n : Nat) : List Nat :=
  let a := lineOf x off
  (List.range (lineOf x (off + n - 1) - a + 1)).map (fun i => a + i)

/-! ## Eddy buffers (05 R167-R171; 07 R250) -/

/-- Elements of a granule in a format, as numbers (05 R167). -/
def eddyWidth : EddyFmt → Nat
  | .fp32 => 4 | .bf16 => 2 | .int32 => 4

def elemsOf (w : Nat) (l : List Byte) : List Nat := (List.range (64 / w)).map (fun i => leAt l (w * i) w)

/-- Add one addend into an accumulated element. -/
def eddyAdd (f : EddyFmt) (acc add : Nat) : Nat :=
  match f with
  | .fp32 => fp64.enc .rne ((fp64.dec acc).add (fp32.dec add))
  | .bf16 => fp32.enc .rne ((fp32.dec acc).add (bf16.dec add))
  | .int32 => (acc + (if add < 2 ^ 31 then add else add + 2 ^ 64 - 2 ^ 32)) % 2 ^ 64

/-- The element written back: memory plus accumulator, computed in the accumulator's format, then rounded. -/
def eddyOut (f : EddyFmt) (mem acc : Nat) : Nat :=
  match f with
  | .fp32 => fp32.enc .rne (fp64.dec (fp64.enc .rne ((fp32.dec mem).add (fp64.dec acc))))
  | .bf16 => bf16.enc .rne (fp32.dec (fp32.enc .rne ((bf16.dec mem).add (fp32.dec acc))))
  | .int32 => (mem + acc) % 2 ^ 32

def accumAt (d : Dev) (bank g : Nat) : Option Accum := d.quay.accums.find? (fun a => a.bank == bank && a.offset == g)

def accumMod (d : Dev) (bank g : Nat) (f : Accum → Accum) : Dev :=
  { d with quay.accums := modFirst (fun a => a.bank == bank && a.offset == g) f d.quay.accums }

def accumDrop (d : Dev) (bank g : Nat) : Dev :=
  { d with quay.accums := d.quay.accums.filter (fun a => !(a.bank == bank && a.offset == g)) }

/-- Accumulators open in a bank (05 R168). -/
def accumsIn (d : Dev) (bank : Nat) : List Accum := d.quay.accums.filter (fun a => a.bank == bank)

/-- Start the write-back of an accumulator; request `id` waits for it. -/
def startWb (d : Dev) (bank g : Nat) (ids : List Nat) : Dev :=
  accumMod d bank g (fun a => { a with writingBack := true, waiters := a.waiters ++ ids })

/-- The accumulator to reuse: the least recently added-to that is not being written back (05 R168). -/
def reuseAccum (l : List Accum) : Option Accum :=
  (l.filter (fun a => !a.writingBack)).foldl (fun acc a => match acc with
      | none => some a
      | some b => if a.order < b.order then some a else some b) none

/-- The plain bytes of a granule with an accumulator's sums. -/
def sumGranule (a : Accum) (old : List Byte) : List Byte :=
  let w := eddyWidth a.fmt
  ((elemsOf w old).zip a.elems).flatMap (fun p => leBytes w (eddyOut a.fmt p.1 p.2))

/-- The sums of an accumulator are lost (05 R171): the granule is poisoned, EDDY_WB_LOST is raised. -/
def loseSums (d : Dev) (bank : Nat) (x : Extent) (g code : Nat) : Dev :=
  let page := pg 0x41 bank
  raiseFe (count (poisonAt d x g) page 0x820) page 0
    { unit := false, addr := d.xmap.node * 2 ^ 48 + g, code := code }

/-- Offsets of the granules that `n` bytes at an offset touch. -/
def granuleOffs (off n : Nat) : List Nat :=
  (List.range ((off + n - 1) / 64 - off / 64 + 1)).map (fun i => (off / 64 + i) * 64)

/-- Start the write-back of every accumulator of an extent (05 R169, case 6; 08 R275). -/
def startWbs (d : Dev) (x : Extent) : Dev :=
  (d.quay.accums.filter (fun a => covers x a.offset && !a.writingBack)).foldl (fun d a => startWb d a.bank a.offset []) d

/-- Granules of an extent that have an accumulator. -/
def accumsOfExt (d : Dev) (x : Extent) : List Accum := d.quay.accums.filter (fun a => covers x a.offset)

/-! ## Read-side cache (04 R124) -/

def cacheHit (d : Dev) (bank job g : Nat) : Option (List Byte) :=
  (d.quay.cache.find? (fun c => c.bank == bank && c.job == job && c.offset == g)).map (fun c => c.data)

/-- The bytes of a read from the cache, where every granule it needs is there. -/
def cacheRead (d : Dev) (bank job off n : Nat) : Option (List Byte) :=
  let gs := granuleOffs off n
  if gs.all (fun g => (cacheHit d bank job g).isSome) then
    some (sub (gs.flatMap (fun g => (cacheHit d bank job g).getD [])) (off % 64) n)
  else none

/-- Fill the cache with granules read at the home; the area holds 65,536 granules, the oldest leaving first (log 18). -/
def cacheFill (d : Dev) (bank job g : Nat) (l : List Byte) : Dev :=
  let rest := d.quay.cache.filter (fun c => !(c.bank == bank && c.job == job && c.offset == g))
  let mine := (rest.filter (fun c => c.bank == bank)).length
  let rest := if mine < 65536 then rest else delFirst (fun c => c.bank == bank) rest
  { d with quay.cache := rest ++ [{ bank := bank, job := job, offset := g, data := l }] }

/-- Drop the entries that satisfy `p`. -/
def cacheDrop (d : Dev) (p : CacheGran → Bool) : Dev :=
  { d with quay.cache := d.quay.cache.filter (fun c => !p c) }

end Sys2Proof.Machine
end

