-- ==== Sys2Proof/Machine/Protect.lean ====
section
/-! DEFINITION. Protection across devices (14 R443-R452): parity arithmetic, protection traffic, reconstruction of missing
tiles; and the tiles a snapshot copies (08 R275-R278). -/

namespace Sys2Proof.Machine

open Sys2Proof

/-! ## GF(2^8) with x^8 + x^4 + x^3 + x^2 + 1 and g = 2 (14 R444) -/

def gf2 (a : Nat) : Nat := if a < 128 then 2 * a else (2 * a) % 256 ^^^ 0x1D

/-- g to the power `k`, times `a`. -/
def gfScale : Nat → Nat → Nat
  | 0, a => a
  | k + 1, a => gfScale k (gf2 a)

/-- The product of two elements, over the bits of the second (fuel 8). -/
def gfMul : Nat → Nat → Nat → Nat
  | 0, _, _ => 0
  | k + 1, a, b => (if b % 2 == 1 then a else 0) ^^^ gfMul k (gf2 a) (b / 2)

/-- The inverse: the 254th power. -/
def gfInv (a : Nat) : Nat := (List.range 253).foldl (fun r _ => gfMul 8 r a) a

/-- g^k times each byte. -/
def scaleBytes (k : Nat) (l : List Byte) : List Byte := l.map (fun b => byte (gfScale k b.toNat))

/-- A factor times each byte. -/
def mulBytes (f : Nat) (l : List Byte) : List Byte := l.map (fun b => byte (gfMul 8 f b.toNat))

/-! ## Members -/

/-- A member that takes protection traffic for a write: its node, the power of g its delta is scaled by (none for a
mirror's copy, which takes the new data), and its state in this device's view. -/
structure Target where
  node : Nat
  scale : Option Nat
  st : MemberState
  deriving DecidableEq, Repr

def convoyOf (d : Dev) (x : Extent) : Convoy := NMap.get {} d.salv.convoys x.e.convoy

/-- The peer entry that names a node. -/
def peerOf (d : Dev) (node : Nat) : Option Peer :=
  (d.salv.peers.find? (fun p => p.2.valid && p.2.node == node)).map Prod.snd

/-- Members that take the traffic of a write to an extent (14 R445). A protection extent sends none. -/
def targetsOf (d : Dev) (x : Extent) : List Target :=
  if isProtection d x then []
  else if x.e.prot == 1 then
    match peerOf d x.e.partner with
    | some p => [{ node := p.node, scale := none, st := p.st }]
    | none => []
  else if x.e.prot == 2 then
    let c := convoyOf d x
    if c.valid then
      [{ node := c.nodes.getD (c.n - 2) 0, scale := some 0, st := c.states.getD (c.n - 2) .current },
       { node := c.nodes.getD (c.n - 1) 0, scale := some c.self, st := c.states.getD (c.n - 1) .current }]
    else []
  else []

/-- The peer or convoy entry of an extent, as a first-error record's unit (17 R523). -/
def entryUnit (d : Dev) (x : Extent) : Nat :=
  if x.e.prot == 1 then ((d.salv.peers.find? (fun p => p.2.valid && p.2.node == x.e.partner)).map Prod.fst).getD 0
  else x.e.convoy

/-- Tide number of an extent's pair or convoy. -/
def tideOf (d : Dev) (x : Extent) : Nat :=
  if x.e.prot == 1 then ((peerOf d x.e.partner).map (fun p => p.tide)).getD 0 else (convoyOf d x).tide

/-- The extent as its tiers store it: no decryption (15 R475). -/
def stored (x : Extent) : Extent := { x with e.encrypt := false }

/-- The header of a request of the bank's Tow to another node (14 R445; 11 R351, R357). -/
def towHdr (d : Dev) (bank node reqId off n tide job tchk : Nat) : Hdr :=
  { tc := 4, mark := false, acq := false, rel := false, scope := 0, reqId := .ofNat 16 reqId,
    src := .ofNat 18 (epOf d (258 + bank)), job := .ofNat 12 job, offset := .ofNat 48 off, node := .ofNat 14 node,
    tide := .ofNat 32 tide, epoch := .ofNat 16 d.xmap.epoch, len := .ofNat 8 (n - 1), fmt := 0, trial := 0,
    tchk := .ofNat 32 tchk, aux := 0, range := 0, rsvd := false }

/-- The Landing a request of the device to another node leaves on: the hash over the berth's Landings that are up; with
none up it waits at the lowest of the berth's (11 R363, R364). -/
def reqLand (d : Dev) (berth off : Nat) : Nat :=
  match pickLand (berthLands d berth) off with
  | some n => n
  | none => ((bitsOf 16 (berthOf d berth).landings.toNat).head?).getD 0

/-- Send one request of the Tow to a node; its request ID. -/
def sendTow (d : Dev) (x : Extent) (op : Op) (node off n : Nat) (data : List Byte) (flying job : Nat) : Dev × Nat :=
  let bank := extBank x
  let id := d.salv.nextReq % 65536
  let h := towHdr d bank node id off n (tideOf d x) job (if data.isEmpty then 0 else crc32c data)
  let ld := reqLand d x.e.berth off
  let slots := 2 + (if data.isEmpty then 0 else spanSlots off n)
  let d1 := sendOn d ld (if ld / 8 == bank then 18 else 9) 4 slots (some x.e.berth) job false false (.req op h data)
  let o : OutReq := { reqId := id, berth := x.e.berth, landing := ld, node := node, offset := off, len := n, op := op, h := h, data := data }
  let p : Protect := { out := o, flying := flying, node := node, since := d.sys.ltc }
  ({ d1 with salv.protect := d1.salv.protect ++ [p], salv.nextReq := d1.salv.nextReq + 1 }, id)

/-- Enter a tile in the peer dirty log, for a member left out (14 R448). -/
def logPeer (d : Dev) (x : Extent) (off node : Nat) : Dev :=
  let bank := extBank x
  let e : PeerDirty := { bank := bank, base := x.e.base, tile := tileIn x off, node := node }
  if d.salv.dirty.contains e then d
  else if (d.salv.dirty.filter (fun y => y.bank == bank)).length < 1048576 then
    count { d with salv.dirty := d.salv.dirty ++ [e] } (pg 0x34 bank) 0x848
  else if d.salv.marked.contains (bank, x.e.base, node) then d
  else { d with salv.marked := d.salv.marked ++ [(bank, x.e.base, node)] }

/-- Send a write's data or delta to the members: the request IDs of those whose acknowledgement it waits for, the
current ones (14 R445). Members unreachable or stale are left out and logged (14 R448). -/
def sendTargets (x : Extent) (off : Nat) (old new : List Byte) (flying job : Nat) : List Target → Dev → Dev × List Nat
  | [], d => (d, [])
  | t :: ts, d =>
    let data := match t.scale with
      | none => new
      | some k => scaleBytes k (xorBytes old new)
    if t.st == .current || t.st == .rebuilding then
      let r := sendTow d x .wr t.node off new.length data flying job
      let d1 := count r.1 (pg 0x34 (extBank x)) 0x828
      let rest := sendTargets x off old new flying job ts d1
      (rest.1, if t.st == .current then r.2 :: rest.2 else rest.2)
    else sendTargets x off old new flying job ts (logPeer d x off t.node)

/-- The whole granules that `n` bytes at an offset touch: first byte and number. -/
def granuleSpan (off n : Nat) : Nat × Nat := (off / 64 * 64, (off + n - 1) / 64 * 64 + 64 - off / 64 * 64)

/-- The stored bytes that a write of `n` bytes at an offset changes: those bytes, or, where the extent is encrypted, whole granules, and
the whole of a tile that ZERO had left unwritten (15 R474, R475): first byte and number. -/
def storedSpan (x : Extent) (off n : Nat) : Nat × Nat :=
  if !x.e.encrypt then (off, n) else if zeroTile x off then (off / 256 * 256, 256) else granuleSpan off n

/-- Stored bytes as they stand, whatever their errors. -/
def rawBytes (d : Dev) (x : Extent) (off n : Nat) : List Byte :=
  if zeroTile x off then List.replicate n 0
  else
    let cell := extCell d x (off / 256 * 256)
    match d.tiers.staged.find? (fun t => t.addr == cell && x.e.tier == .flash) with
    | some t => sub t.data (off % 256) n
    | none => memBytes d (cell + off % 256) n

/-! ## Reconstruction from peers (14 R449, R452) -/

/-- A tile that REBUILD has marked missing. -/
def missingTile (x : Extent) (off : Nat) : Bool :=
  match x.rebuildFrom with
  | some k => decide (k ≤ tileIn x off) && !NSet.mem x.filled (tileIn x off)
  | none => false

/-- A granule of a failed vault whose extent is protected (14 R436). -/
def vaultLost (d : Dev) (x : Extent) (off : Nat) : Bool :=
  x.e.tier == .near && x.e.prot != 0 &&
    (let c := extCell d x (off / 256 * 256); NSet.mem d.tiers.vaultsDown (c / 2 ^ 35 * 32 + c % 2 ^ 35 / 2 ^ 30))

/-- Member index that stands for a mirror's partner. -/
def mirrorMember : Nat := 31

/-- The members read to form this device's tile, or none where too few are current (14 R444, R449): the partner; or the
other data members and P, or Q where P is not current; or, one data member lacking, the rest with P and Q; for a parity
member, every data member, or all but one and the other parity. -/
def sourcesOf (d : Dev) (x : Extent) : Option (List Nat) :=
  if x.e.prot == 1 then
    match peerOf d x.e.partner with
    | some p => if p.st == .current then some [mirrorMember] else none
    | none => none
  else
    let c := convoyOf d x
    let cur (k : Nat) : Bool := c.states.getD k .current == .current
    let data := (List.range (c.n - 2)).filter (fun k => k != c.self)
    let have_ := data.filter cur
    let lack := data.length - have_.length
    let p := c.n - 2
    let q := c.n - 1
    if !c.valid then none
    else if p ≤ c.self then
      let other := if c.self == p then q else p
      if lack == 0 then some have_ else if lack == 1 && cur other then some (have_ ++ [other]) else none
    else if lack == 0 then
      if cur p then some (have_ ++ [p]) else if cur q then some (have_ ++ [q]) else none
    else if lack == 1 && cur p && cur q then some (have_ ++ [p, q])
    else none

/-- Form this device's tile from the tiles read (14 R444). -/
def formTile (d : Dev) (x : Extent) (got : List (Nat × List Byte)) : List Byte :=
  let zero : List Byte := List.replicate 256 0
  let of (k : Nat) : List Byte := ((got.find? (fun g => g.1 == k)).map Prod.snd).getD zero
  let has (k : Nat) : Bool := got.any (fun g => g.1 == k)
  if x.e.prot == 1 then of mirrorMember
  else
    let c := convoyOf d x
    let p := c.n - 2
    let q := c.n - 1
    let data := (List.range p).filter (fun k => k != c.self)
    let sumP := data.foldl (fun s k => xorBytes s (of k)) zero
    let sumQ := data.foldl (fun s k => xorBytes s (scaleBytes k (of k))) zero
    -- the data member `y` that lacks: its tile is Q' / g^y by Q, and P' by P
    if c.self == p then
      match data.find? (fun k => !has k) with
      | some y => xorBytes sumP (scaleBytes (255 - y) (xorBytes (of q) sumQ))
      | none => sumP
    else if c.self == q then
      match data.find? (fun k => !has k) with
      | some y => xorBytes sumQ (scaleBytes y (xorBytes (of p) sumP))
      | none => sumQ
    else if has p && has q then
      -- the data member `y` lacks as well: P' = Dx + Dy, Q' = g^x Dx + g^y Dy
      let y := (data.find? (fun k => !has k)).getD 0
      let pp := xorBytes (of p) sumP
      let qq := xorBytes (of q) sumQ
      let gx := gfScale c.self 1
      let gy := gfScale y 1
      mulBytes (gfInv (gx ^^^ gy)) (xorBytes qq (mulBytes gy pp))
    else if has p then xorBytes (of p) sumP
    else scaleBytes (255 - c.self) (xorBytes (of q) sumQ)

/-- Node of a member. -/
def memberNode (d : Dev) (x : Extent) (k : Nat) : Nat :=
  if k == mirrorMember then x.e.partner else (convoyOf d x).nodes.getD k 0

/-- Send the reads of a tile to members: (member, request ID) of each. -/
def sendReads (x : Extent) (off job : Nat) : List Nat → Dev → Dev × List (Nat × Nat)
  | [], d => (d, [])
  | k :: ks, d =>
    let r := sendTow d x .rd (memberNode d x k) off 256 [] 0 job
    let t := sendReads x off job ks r.1
    (t.1, (k, r.2) :: t.2)

/-- Start, or join, the reconstruction of a tile for a request; false where too few members are current. -/
def startRecon (d : Dev) (x : Extent) (off job : Nat) (waiters : List Nat) : Bool × Dev :=
  let tile := off / 256 * 256
  if d.salv.recons.any (fun r => r.off == tile) then
    (true, { d with salv.recons := d.salv.recons.map (fun r => if r.off == tile then { r with waiters := r.waiters ++ waiters } else r) })
  else match sourcesOf d x with
    | none => (false, d)
    | some ks =>
      let r := sendReads x tile job ks d
      let n : Recon := { base := x.e.base, off := tile, need := r.2, waiters := waiters }
      (true, count { r.1 with salv.recons := r.1.salv.recons ++ [n] } (pg 0x34 (extBank x)) 0x818)

/-! ## Snapshots (08 R275-R278) -/

/-- The open slot and item whose source tile at an offset is not copied yet. -/
def snapNeeds (d : Dev) (x : Extent) (off : Nat) : Option (Nat × Nat) :=
  let t := tileIn x off
  ((d.tiers.snaps.zipIdx).findSome? (fun s =>
    if s.1.st == .copying || s.1.st == .draining then
      (s.1.items.zipIdx).findSome? (fun i =>
        if i.1.src == x.e.base && !i.1.failed && !NSet.mem i.1.copied t then some (s.2, i.2) else none)
    else none))

/-- A bounce or destination of an open slot: a write to it is refused with BUSY_RETRY (08 R278). -/
def snapDest (d : Dev) (x : Extent) : Bool :=
  d.tiers.snaps.any (fun s => s.st != .free && s.items.any (fun i =>
    i.dest == x.e.base || (i.bounce != 0 && i.bounce == x.e.base)))

/-- An extent of an open slot. -/
def snapUses (d : Dev) (base : Nat) : Bool :=
  d.tiers.snaps.any (fun s => s.st != .free && s.items.any (fun i => i.src == base || i.dest == base || (i.bounce != 0 && i.bounce == base)))

/-- Write a whole tile of plain bytes to an extent. -/
def writeTile (d : Dev) (x : Extent) (tile : Nat) (l : List Byte) : Nat × Dev :=
  writePlain d x { off := extBase x + tile * 256, berth := x.e.berth } (extBase x + tile * 256) l

/-- Room in a bank's flash staging area for a tile at a cell (03 R97). -/
def stageRoom (d : Dev) (bank cell : Nat) : Bool :=
  d.tiers.staged.any (fun t => t.addr == cell) || decide (stagedIn d bank < 262144)

/-- A write to a tile that is not copied yet asks for its copy ahead of all others, which is counted once (08 R276). -/
def askAhead (d : Dev) (slot item tile : Nat) : Dev :=
  match d.tiers.snaps[slot]? with
  | none => d
  | some s =>
    if s.ahead.contains (item, tile) then d
    else count (onSnap d slot (fun s => { s with ahead := s.ahead ++ [(item, tile)] })) (pg 0x33 (slot / 16)) 0x840

/-- The lowest tile of an item whose bit is clear. -/
def clearTile (i : SnapItem) : Option Nat := if i.failed then none else findBelow i.tiles (fun t => !NSet.mem i.copied t)

/-- A snapshot slot. -/
def snapSlot (d : Dev) (n : Nat) : SnapSlot := d.tiers.snaps.getD n {}

/-- All tiles of an item have been copied out of its source. -/
def itemCopied (i : SnapItem) : Bool := i.failed || decide (i.tiles ≤ i.copied.length)

/-- A slot whose items have all been copied out of their sources drains (08 R276, R281). -/
def noteDraining (d : Dev) (n : Nat) : Dev :=
  if (snapSlot d n).st == .copying && (snapSlot d n).items.all itemCopied then onSnap d n (fun s => { s with st := .draining }) else d

/-- Whether a tile's copy comes next: a tile that writes wait for, else the first clear bit of the bitmap (08 R276). -/
def copyNext (s : SnapSlot) (item tile : Nat) : Bool :=
  if s.ahead.isEmpty then
    (s.items.zipIdx).findSome? (fun i => (clearTile i.1).map (fun t => (i.2, t))) == some (item, tile)
  else s.ahead.contains (item, tile)

end Sys2Proof.Machine
end

