-- ==== Sys2Proof/Machine/Serve.lean ====
section
/-! DEFINITION. How the home performs a request (03 R97-R115; 04 R120-R145; 05 R158-R173; 14 R445, R449, R452): what may
stand in its way, what it waits for, and its effect. A request in flight is attempted when it reaches the home and again
each time what it waits for has come about. -/

namespace Sys2Proof.Machine

open Sys2Proof

/-! ## Effects at the tier -/

/-- What an operation does at its tier: the status and data it is answered with, the bytes it writes (first OFFSET and
number) where it writes, and the device after it. -/
structure Effect where
  status : Nat
  data : List Byte := []
  span : Option (Nat × Nat) := none
  dev : Dev

/-- The record of a request's access. -/
def accOf (q : Req) (x : Extent) : Acc :=
  { off := q.h.offset.toNat, job := q.h.job.toNat, src := q.h.src.toNat, reqId := q.h.reqId.toNat, berth := x.e.berth }

/-- Bytes of a request. -/
def lenOf (h : Hdr) : Nat := h.len.toNat + 1

/-- A number of `w` bytes as a signed one. -/
def toSigned (w n : Nat) : Int := if n < 2 ^ (8 * w - 1) then (n : Int) else (n : Int) - 2 ^ (8 * w)

/-- The new value of an atomic, or none where a CAS does not match (04 R137; 07 R250). -/
def atomicNew (atop w old a b : Nat) : Option Nat :=
  if atop == 0 then some a
  else if atop == 1 then (if old == a then some b else none)
  else if atop == 2 then some ((old + a) % 2 ^ (8 * w))
  else if atop == 3 then
    let f := if w == 8 then fp64 else fp32
    some (f.enc .rne ((f.dec old).add (f.dec a)))
  else if atop == 4 then some (if toSigned w a < toSigned w old then a else old)
  else if atop == 5 then some (if toSigned w old < toSigned w a then a else old)
  else if atop == 6 then some (min old a)
  else if atop == 7 then some (max old a)
  else if atop == 8 then some (Nat.land old a)
  else if atop == 9 then some (Nat.lor old a)
  else some (Nat.xor old a)

/-- ATOMIC at the home: the old operand is returned (04 R137, R139). -/
def effAtomic (d : Dev) (q : Req) (x : Extent) : Effect :=
  let off := q.h.offset.toNat
  let w := lenOf q.h
  let r := readPlain d x (accOf q x) off w
  if r.1 != cOK then { status := r.1, dev := r.2.2 }
  else
    match atomicNew q.h.aux.toNat w (leNat r.2.1) (leAt q.data 0 w) (leAt q.data w w) with
    | none => { status := cOK, data := r.2.1, dev := r.2.2 }
    | some v =>
      let s := writePlain r.2.2 x (accOf q x) off (leBytes w v)
      if s.1 == cOK then { status := cOK, data := r.2.1, span := some (off, w), dev := s.2 }
      else { status := s.1, dev := s.2 }

/-- PUBLISH at the home (04 R144). -/
def effPublish (d : Dev) (q : Req) (x : Extent) : Effect :=
  let off := q.h.offset.toNat
  let r := readPlain d x (accOf q x) off 8
  if r.1 != cOK then { status := r.1, dev := r.2.2 }
  else if leNat r.2.1 != leAt q.data 0 8 then { status := cVERSION, data := r.2.1, dev := r.2.2 }
  else
    let s := writePlain r.2.2 x (accOf q x) off (sub q.data 8 8)
    { status := s.1, span := if s.1 == cOK then some (off, 8) else none, dev := s.2 }

/-- A store, a WB, a device's own write. -/
def effWrite (d : Dev) (q : Req) (x : Extent) : Effect :=
  let off := q.h.offset.toNat
  let s := writePlain d x (accOf q x) off (sub q.data 0 (lenOf q.h))
  { status := s.1, span := if s.1 == cOK then some (off, lenOf q.h) else none, dev := s.2 }

/-- Protection traffic at its member: a mirror's copy takes the data, a parity member the delta, in stored form (14 R445,
R447; 15 R475). A rebuilding parity member discards the deltas of tiles not yet rebuilt. -/
def effProtect (d : Dev) (q : Req) (x : Extent) : Effect :=
  let off := q.h.offset.toNat
  let n := lenOf q.h
  let y := stored x
  let d := count d (pg 0x34 (extBank x)) 0x830
  if x.e.prot == 2 && d.salv.recons.any (fun r => r.off / 256 == off / 256) then { status := cBUSY, dev := d }
  else if x.e.prot == 2 && missingTile x off then { status := cOK, dev := d }
  else
    let new := if x.e.prot == 2 then xorBytes (rawBytes d x off n) (sub q.data 0 n) else sub q.data 0 n
    let s := writePlain d y (accOf q x) off new
    { status := s.1, dev := s.2 }

/-! ## What an operation writes, and its kind -/

/-- Operations that write their location. -/
def isWrite : Op → Bool
  | .wr | .atomic | .publish | .wb => true
  | _ => false

/-- Caching requests (05). -/
def isCaching : Op → Bool
  | .rdShared | .rdOwn | .upgrade | .wb | .evictClean => true
  | _ => false

/-- The device's own writes. -/
def isOwn (q : Req) : Bool :=
  match q.origin with
  | .internal | .engine _ _ | .customs | .snap _ _ _ _ => true
  | _ => false

/-- The home's own writes, and the Tow's reads for a snapshot, which nothing at the home stands in the way of: a snapshot takes what
memory holds, and copies of the tile's lines stay (08 R276). -/
def isInternal (q : Req) : Bool :=
  match q.origin with
  | .internal => true
  | .snap _ _ _ _ => q.op == .rd
  | _ => false

/-- An access for a snapshot (08 R276). -/
def isSnap (q : Req) : Bool :=
  match q.origin with
  | .snap _ _ _ _ => true
  | _ => false

/-- A request of an engine, a ring's sequencer or the Tow, which never uses the read-side cache (04 R124, R130). -/
def isEngine (q : Req) : Bool :=
  match q.origin with
  | .engine _ _ | .customs | .snap _ _ _ _ => true
  | _ => false

/-- Requests that carry data whose TCHK the home verifies (11 R361): the bytes it covers. -/
def checkedData (q : Req) : Option (List Byte) :=
  let n := lenOf q.h
  match q.op with
  | .wr | .wb | .eadd => some (sub q.data 0 n)
  | .atomic => some (sub q.data 0 (if q.h.aux == 1 then 2 * n else n))
  | .publish => some (sub q.data 0 (2 * n))
  | _ => none

/-- The tiles a request and an earlier one share: both act on one granule. -/
def sameGranule (a b : Req) : Bool :=
  let la := a.h.offset.toNat / 64
  let ha := (a.h.offset.toNat + lenOf a.h - 1) / 64
  let lb := b.h.offset.toNat / 64
  let hb := (b.h.offset.toNat + lenOf b.h - 1) / 64
  decide (la ≤ hb) && decide (lb ≤ ha)

/-- Two requests that address granules, of one source and one traffic class (04 R123). -/
def sameStream (a b : Req) : Bool :=
  a.h.src == b.h.src && a.h.tc == b.h.tc && a.op != .flush && a.op != .acquire && b.op != .flush && b.op != .acquire

def waitsBehind (f : Flying) : Bool := match f.wait with | .behind _ => true | _ => false

/-- Whether a request in flight keeps another from its home: it waits for protection traffic or reconstruction and came before, or is
the home's own write of what the other waited for (14 R445; 05 R169); or it is an earlier one of the same source and class
(04 R123). The home's own write waits only for what has begun, and for its own earlier writes. -/
def blocks (g f : Flying) : Bool :=
  let before := decide (g.id < f.id)
  let own := isInternal f.q || f.taken
  if g.taken then before else
  match g.wait with
  | .protect _ _ => before || (isInternal g.q && !own)
  | .behind _ | .snap _ _ =>
    if own then before && isInternal g.q else (before && waitsBehind g) || isInternal g.q || (before && sameStream g.q f.q)
  | .tier _ _ | .stage _ _ | .quay => before && !own && sameStream g.q f.q
  | _ => false

/-- The request to the same granule that this one waits for. -/
def blocker (d : Dev) (f : Flying) : Option Flying :=
  d.flying.find? (fun g => g.base == f.base && sameGranule g.q f.q && blocks g f)

/-- A request of this bank's wait table (03 R112). -/
def inTable (bank : Nat) (f : Flying) : Bool :=
  f.homeBank == bank && (match f.wait with | .tier _ _ | .stage _ _ => true | _ => false)

/-! ## Commit: protection, then the local write -/

/-- A request is answered, or, being a store, waits for STORE_ACK (03 R87; 01 R35). -/
def settleReq (f : Flying) (e : Effect) (grant : Nat := 0) : Dev :=
  if f.q.op == .wr && e.status == cOK && !isOwn f.q then setWait e.dev f.id (.ack cOK [])
  else finishFlying e.dev f e.status e.data grant

/-- A DOMAIN atomic drops every read-side cache entry of its tile (04 R139). -/
def cacheAfter (d : Dev) (f : Flying) : Dev :=
  if f.q.op == .atomic && f.q.h.scope == 2 && !f.q.home then
    cacheDrop d (fun c => c.offset / 256 == f.q.h.offset.toNat / 256)
  else d

/-- Perform an effect. A write to a protected extent first sends its data or deltas, and waits while a current member has
not acknowledged (14 R445); `ready` says they all have. A DEVICE atomic is answered first (14 R450). A device fenced out sends no
protection traffic (14 R441). -/
def commit (d : Dev) (f : Flying) (x : Extent) (ready : Bool) (eff : Dev → Effect) (after : Dev → Dev) : Dev :=
  let e := eff d
  match e.span with
  | none => settleReq f (if e.status == cOK then { e with dev := after (cacheAfter e.dev f) } else e)
  | some (off, n) =>
    let ts := if ready then [] else targetsOf d x
    if ts.isEmpty then settleReq f { e with dev := after (cacheAfter e.dev f) }
    else if d.salv.fencedOut then finishFlying d f cFENCED []
    else if !d.wharf.epValid then finishFlying d f cBUSY []
    else
      let s := storedSpan x off n
      let r := sendTargets x s.1 (rawBytes d x s.1 s.2) (rawBytes e.dev ((extOf e.dev x.e.base).getD x) s.1 s.2) f.id f.q.h.job.toNat ts d
      let early := f.q.op == .atomic && !f.q.home && (f.q.h.scope == 1 || (x.e.moored && f.q.h.scope == 0))
      if r.2.isEmpty || early then
        let e := eff r.1
        settleReq f { e with dev := after (cacheAfter e.dev f) }
      else setWait r.1 f.id (.protect r.2 d.sys.ltc)

/-! ## Reads -/

/-- A drift tile that the read-side caches hold: read from the stacks across the Causeway or served by the Tow (04 R124). -/
def cacheable (x : Extent) (entry : Nat) : Bool :=
  !x.e.moored && (x.e.tier == .flash || x.e.tier == .host || (x.e.tier == .stack && extBank x != entry))

/-- Fill the cache with the granules a read covered, as read at the home. -/
def fillCache (d : Dev) (x : Extent) (bank job off n : Nat) : Dev :=
  if !cacheable x bank then d
  else (granuleOffs off n).foldl (fun d g =>
    let r := readPlain d x { off := g } g 64
    if r.1 == cOK then cacheFill d bank job g r.2.1 else d) d

/-- An acquire drops the read-side cache entries of its job in both banks, and is counted (04 R126). -/
def acquireDrop (d : Dev) (bank job : Nat) : Dev :=
  count (cacheDrop d (fun c => c.job == job)) (pg 0x40 bank) 0x910

/-- Answer a read from its tier. -/
def readNow (d : Dev) (f : Flying) (x : Extent) (y : Extent) (grant : Nat) : Dev :=
  let h := f.q.h
  let member := memberRead d x f.q
  let r := readPlain d (if member then stored y else y) (accOf f.q x) h.offset.toNat (lenOf h)
  let d1 := if h.acq then acquireDrop r.2.2 f.homeBank h.job.toNat
            else if r.1 == cOK && grant == 0 && (f.q.op == .rd || f.q.op == .rdComb) && !isEngine f.q && !member then
              fillCache r.2.2 x f.entry h.job.toNat h.offset.toNat (lenOf h)
            else r.2.2
  finishFlying d1 f r.1 r.2.1 grant

/-- The wait table takes a request, or answers BUSY_RETRY where it is full (03 R112). -/
def toTable (d : Dev) (f : Flying) (x : Extent) (w : Wait) : Dev :=
  if (d.flying.filter (inTable f.homeBank)).length < 16384 then setWait d f.id w
  else finishFlying (raise (stall d x.e.berth 7 0) (pg 0x33 f.homeBank) 2) f cBUSY []

/-- A request waits in the table for its tier. -/
def toTier (d : Dev) (f : Flying) (x : Extent) : Dev := toTable d f x (.tier d.sys.ltc false)

/-- A store waits in the table for room in the flash staging area (03 R97, R115); one that waits already goes on waiting. -/
def toStage (d : Dev) (f : Flying) (x : Extent) : Dev :=
  if inTable f.homeBank f then d
  else
    let d1 := toTable d f x (.stage d.sys.ltc false)
    if (flyingOf d1 f.id).isSome then stall d1 x.e.berth 4 0 else d1

/-- A port may have one non-posted request more outstanding (13 R404). -/
def hostTag (d : Dev) (p : Nat) : Bool := decide (((port d p).hostReads.filter (·.sent)).length < 1024)

/-- Send a memory read of host cells on a port (03 R100), or keep it until one of those outstanding is done. -/
def readHost (d : Dev) (p id : Nat) (use : HostUse) (cell len : Nat) : Dev :=
  let r : HostRead := { id := id, port := p, use := use, addr := cell - (hostBase + p * 2 ^ 58), len := len, since := d.sys.ltc,
                        sent := hostTag d p }
  let d1 := onPort d p (fun pt => { pt with hostReads := pt.hostReads ++ [r] })
  if r.sent then emit d1 (.hostRead p id r.addr len) else d1

/-- Reads that a port has kept are sent while it may have more outstanding and Bus Master Enable is set, at most `k` of them. -/
def sendKept (p : Nat) : Nat → Dev → Dev
  | 0, d => d
  | k + 1, d =>
    match (if hostTag d p && (port d p).bme then (port d p).hostReads.find? (fun r => !r.sent) else none) with
    | none => d
    | some r =>
      let put (s : HostRead) : HostRead := { s with sent := true, since := d.sys.ltc }
      sendKept p k (emit (onPort d p (fun pt => { pt with hostReads := modFirst (fun s => s.id == r.id) put pt.hostReads }))
        (.hostRead p r.id r.addr r.len))

/-- What both ports have kept goes out as far as it may. -/
def hostOn (d : Dev) : Dev :=
  let kept (d : Dev) (p : Nat) : Nat := ((port d p).hostReads.filter (fun r => !r.sent)).length
  let d1 := sendKept 0 (kept d 0) d
  sendKept 1 (kept d1 1) d1

/-- A store to an encrypted host-tier extent that covers less than a tile merges with what the host holds (15 R474). -/
def needsHost (d : Dev) (f : Flying) (x : Extent) : Bool :=
  x.e.tier == .host && (keysOf d x).isSome && decide (lenOf f.q.h < 256) && !zeroTile x f.q.h.offset.toNat

/-- What a request reads of its tile in host memory, whole granules: first byte and number. -/
def hostSpan (f : Flying) : Nat × Nat :=
  let off := f.q.h.offset.toNat
  if f.q.op == .wr then (off / 256 * 256, 256) else granuleSpan off (lenOf f.q.h)

/-- Send a memory read to the host for a request (03 R100). -/
def askHost (d : Dev) (f : Flying) (x : Extent) : Dev :=
  let p := extBank x
  let pt := port d p
  if !(pt.up && pt.bme) then finishFlying (stall d x.e.berth 3 0) f cTIER []
  else
    let d1 := toTier d f x
    if (flyingOf d1 f.id).isNone then d1
    else
      let sp := hostSpan f
      readHost d1 p f.id (.request f.id) (extCell d x sp.1) sp.2

/-- A read at its tier: near store and stacks answer at once, flash and the host later (03 R97, R100, R112). A tile of a ZERO extent not yet
written reads zero (02 R44) whether or not the link to its host is up (DESIGN CHOICE, log 158). -/
def readTier (d : Dev) (f : Flying) (x : Extent) (grant : Nat) : Dev :=
  let off := f.q.h.offset.toNat
  let cell := extCell d x (off / 256 * 256)
  if zeroTile x off then readNow d f x x grant
  else match x.e.tier with
    | .flash => if d.tiers.staged.any (fun t => t.addr == cell) then readNow d f x x grant else toTier d f x
    | .host => askHost d f x
    | _ => readNow d f x x grant

/-! ## Accumulators (05 R167-R171) -/

/-- The format an EADD names (11 R351). -/
def eddyFmtOf (fmt : Nat) : EddyFmt := if fmt == 1 then .fp32 else if fmt == 2 then .bf16 else .int32

/-- An EADD at its accumulator (05 R168, R169). -/
def performEadd (d : Dev) (f : Flying) (x : Extent) : Dev :=
  let g := f.q.h.offset.toNat
  let bank := f.homeBank
  let fmt := eddyFmtOf f.q.h.fmt.toNat
  let w := eddyWidth fmt
  let adds := elemsOf w (sub f.q.data 0 64)
  let page := pg 0x41 bank
  if !zeroTile x g && poisoned d (extCell d x g) then finishFlying d f cPOISON []
  else match accumAt d bank g with
    | some a =>
      if a.writingBack then setWait (startWb d bank g [f.id]) f.id .quay
      else if a.fmt == fmt then
        let d1 := accumMod d bank g (fun a => { a with
          elems := (a.elems.zip adds).map (fun p => eddyAdd fmt p.1 p.2), count := a.count + 1, lastAdd := d.sys.ltc,
          order := d.quay.useCount })
        finishFlying (count { d1 with quay.useCount := d1.quay.useCount + 1 } page 0x800) f cOK []
      else setWait (startWb d bank g [f.id]) f.id .quay
    | none =>
      let l := accumsIn d bank
      if l.length < 32768 then
        let a : Accum := { bank := bank, offset := g, fmt := fmt, elems := adds.map (fun v => eddyAdd fmt 0 v), lastAdd := d.sys.ltc,
                           order := d.quay.useCount }
        let d1 := { d with quay.accums := d.quay.accums ++ [a], quay.useCount := d.quay.useCount + 1 }
        finishFlying (count (count d1 page 0x808) page 0x800) f cOK []
      else match reuseAccum l with
        | some a => setWait (count (startWb d bank a.offset [f.id]) page 0x828) f.id .quay
        | none => setWait { count d page 0x828 with quay.accumWait := d.quay.accumWait ++ [(bank, f.id)] } f.id .quay

/-- Open accumulators of the granules a request touches. -/
def accumsUnder (d : Dev) (f : Flying) : List Accum :=
  let gs := granuleOffs f.q.h.offset.toNat (lenOf f.q.h)
  d.quay.accums.filter (fun a => a.bank == f.homeBank && gs.contains a.offset)

/-- Write back every accumulator under a request, which waits for the first; it is counted once (05 R169). -/
def forceWb (d : Dev) (f : Flying) (l : List Accum) : Dev :=
  let mark (d : Dev) : Dev := { d with flying := modFirst (fun g => g.id == f.id) (fun g => { g with forced := true }) d.flying }
  let d := if f.forced then d else mark (count d (pg 0x41 f.homeBank) 0x818)
  match l with
  | [] => d
  | a :: rest => setWait (rest.foldl (fun d b => startWb d b.bank b.offset []) (startWb d a.bank a.offset [f.id])) f.id .quay

/-- FLUSH: every accumulator of the range is written back (04 R126). -/
def performFlush (d : Dev) (f : Flying) : Dev :=
  let a := f.q.h.offset.toNat / 256 * 256
  let b := a + (f.q.h.range.toNat + 1) * 256
  let l := d.quay.accums.filter (fun c => c.bank == f.homeBank && decide (a ≤ c.offset) && decide (c.offset < b))
  if l.isEmpty then finishFlying d f cOK []
  else
    let d1 := l.foldl (fun d c => startWb d c.bank c.offset []) d
    let gs := l.foldl (fun s c => NSet.add s c.offset) []
    setWait { d1 with quay.flushes := d1.quay.flushes ++ [{ id := f.id, granules := gs }] } f.id .quay

/-! ## Caching requests (05 R153, R158, R163, R173) -/

/-- Answer a caching request with no copy: a read is served plain, an UPGRADE gets nothing (05 R153). -/
def noGrant (d : Dev) (f : Flying) (x : Extent) : Dev :=
  let d := count d (pg 0x40 f.homeBank) 0x828
  if f.q.op == .upgrade then finishFlying d f cOK [] else readTier d f x 0

/-- The line of a request that lies within one line. -/
def oneLine (f : Flying) (x : Extent) : Option Nat :=
  let o := f.q.h.offset.toNat
  if o / 64 == (o + lenOf f.q.h - 1) / 64 then some (lineOf x o) else none

/-- The slot and line for which a caching read or UPGRADE may be granted a copy (05 R153, 14 R437). -/
def grantable (d : Dev) (f : Flying) (x : Extent) : Option (Nat × Nat) :=
  match grantSlot d f.q.h, oneLine f x with
  | some s, some l => if hasWays d f.homeBank (setOfLine l) then some (s, l) else none
  | _, _ => none

/-- A granted copy is recorded and answered (05 R158): data for RD_SHARED, RD_OWN and an UPGRADE that is served as one. -/
def grantCopy (d : Dev) (f : Flying) (x : Extent) (slot line : Nat) : Dev :=
  let bank := f.homeBank
  let own := f.q.op != .rdShared
  let held := match dirFind d bank line with
    | some e => !e.coarse && pointsTo e slot
    | none => false
  let put (d : Dev) : Dev := if own then grantOwned d bank line slot else grantShared d bank line slot
  let g := if own then 2 else 1
  if f.q.op == .upgrade && held then finishFlying (put d) f cOK [] g
  else
    let off := if f.q.op == .upgrade then f.q.h.offset.toNat / 64 * 64 else f.q.h.offset.toNat
    let n := if f.q.op == .upgrade then 64 else lenOf f.q.h
    let r := readPlain d x (accOf f.q x) off n
    if r.1 == cOK then
      let d1 := if f.q.h.acq then acquireDrop (put r.2.2) bank f.q.h.job.toNat else put r.2.2
      finishFlying d1 f cOK r.2.1 g
    else finishFlying r.2.2 f r.1 []

/-- EVICT_CLEAN (05 R156, R158): a sharer's exact pointer is removed. -/
def performEvict (d : Dev) (f : Flying) (x : Extent) : Dev :=
  let bank := f.homeBank
  let line := lineOf x f.q.h.offset.toNat
  let d1 := match grantSlot d f.q.h, dirFind d bank line with
    | some s, some e =>
      if e.st == .shared && !e.coarse then
        let l := NSet.del e.sharers s
        if l.isEmpty then dirDrop d bank line else dirMod d bank line (fun e => { e with sharers := l })
      else d
    | _, _ => d
  finishFlying d1 f cOK []

/-- The slot that owns a line. -/
def ownsLine (d : Dev) (f : Flying) (line : Nat) : Bool :=
  match grantSlot d f.q.h, dirFind d f.homeBank line with
  | some s, some e => e.st == .owned && pointsTo e s
  | _, _ => false

/-! ## Snoop answers and the end of a transaction (05 R157-R161) -/

/-- Change a transaction. -/
def onTrans (d : Dev) (bank line : Nat) (g : Trans → Trans) : Dev :=
  { d with quay.trans := modFirst (fun t => t.bank == bank && t.line == line) g d.quay.trans }

/-- A request of the device's own at its home, attempted by the caller. -/
def ownReq (d : Dev) (x : Extent) (op : Op) (off n : Nat) (l : List Byte) (origin : Origin) (job : Nat) : Dev :=
  let bank := extBank x
  let h := towHdr d bank d.xmap.node 0 off n 0 job (if l.isEmpty then 0 else crc32c l)
  addFlying d { id := 0, q := { op := op, origin := origin, h := h, data := l }, entry := bank, homeBank := bank,
                base := x.e.base, wait := .quay }

/-- The device writes a line it has got back, or sums (05 R158; 14 R445). -/
def ownWrite (d : Dev) (x : Extent) (off : Nat) (l : List Byte) (origin : Origin) (job : Nat) : Dev :=
  ownReq d x .wr off l.length l origin job

/-- A snoop is outstanding no longer. -/
def endSnoop (d : Dev) (t : Trans) (s : Snoop) : Dev :=
  onTrans d t.bank t.line (fun t => { t with snoops := t.snoops.filter (fun u => u.id != s.id) })

/-- A transaction stays open until a write of returned data has ended (05 R158, R160; 14 R445). -/
def awaitWrite (d : Dev) (t : Trans) (id : Nat) : Dev := onTrans d t.bank t.line (fun t => { t with writes := t.writes ++ [id] })

/-- A recall has failed: the line is poisoned and its entry freed (05 R161). -/
def loseLine (d : Dev) (bank line agent : Nat) : Dev := dirDrop (poisonLine d bank line agent) bank line

/-- What an answered or dropped snoop does to its line; the device then no longer waits for it. The second result is the
id of the write of returned data, where one was made. -/
def snoopDone (d : Dev) (t : Trans) (s : Snoop) (a : SnoopAnswer) (data : List Byte) : Dev × Option Nat :=
  let d1 := endSnoop d t s
  if s.kind == .inv then
    (dirMod d1 t.bank t.line (fun e => if e.coarse then e else { e with sharers := NSet.del e.sharers s.agent }), none)
  else match a with
    | .data =>
      match offsetOfLine d t.line with
      | some (x, off) => (ownWrite (awaitWrite d1 t d1.nextFlying) x off (sub data 0 64) .internal 0, some d1.nextFlying)
      | none => (d1, none)
    | .clean => (d1, none)
    | _ => if t.kind == .sweep then (d1, none) else (loseLine d1 t.bank t.line s.agent, none)

/-- The directory after a transaction's last answer (05 R158). -/
def closeDir (d : Dev) (t : Trans) : Dev :=
  match t.kind with
  | .invalidating =>
    match dirFind d t.bank t.line with
    | some e => if e.coarse || e.sharers.isEmpty then dirDrop d t.bank t.line else d
    | none => d
  | .recallShare => dirMod d t.bank t.line (fun e => { e with st := .shared })
  | .recalling | .evicting | .walk | .sweep => dirDrop d t.bank t.line

/-- WB from the owner whose line is being recalled is its answer DATA (05 R158): the transaction and its snoop. -/
def wbAnswers (d : Dev) (f : Flying) (line : Nat) : Option (Trans × Snoop) :=
  match transOf d f.homeBank line, grantSlot d f.q.h with
  | some t, some a =>
    (t.snoops.find? (fun s => s.agent == a && s.kind != .inv)).map (fun s => (t, s))
  | _, _ => none

/-! ## Performing -/

/-- What a request asks of its moored lines. -/
def askOf (d : Dev) (f : Flying) (x : Extent) : LineAsk :=
  match f.q.op, grantable d f x with
  | .rdShared, some (s, _) => .shared s
  | .rdOwn, some (s, _) => .own s
  | .upgrade, some (s, _) => .upgrade s
  | .rd, _ | .rdComb, _ | .rdShared, _ | .rdOwn, _ | .upgrade, _ => .load
  | _, _ => .conflict

/-- Whether an opening of an accumulator or another access needs its lines free of copies now. -/
def needsLines (d : Dev) (f : Flying) (x : Extent) : Bool :=
  x.e.moored && !isInternal f.q &&
  (match f.q.op with
   | .eadd => (accumAt d f.homeBank f.q.h.offset.toNat).isNone
   | .wb | .evictClean | .flush | .acquire => false
   | .upgrade => (grantable d f x).isSome
   | _ => true)

/-- The owner's line comes back: its entry is freed, and the WB holds its data until it is written. -/
def takeLine (d : Dev) (f : Flying) (line : Nat) : Dev :=
  let d1 := dirDrop d f.homeBank line
  { d1 with flying := modFirst (fun g => g.id == f.id) (fun g => { g with taken := true }) d1.flying }

/-- A write, the device's own too, waits while a snapshot copies its tile ahead (08 R276). -/
def snapWait (d : Dev) (f : Flying) (x : Extent) : Option Dev :=
  if !(isWrite f.q.op) then none
  else match snapNeeds d x f.q.h.offset.toNat with
    | none => none
    | some (slot, item) =>
      let line := lineOf x f.q.h.offset.toNat
      if f.q.op == .wb && !f.taken && !ownsLine d f line then none
      else
        let d1 := if f.q.op == .wb && !f.taken then takeLine d f line else d
        some (setWait (askAhead d1 slot item (tileIn x f.q.h.offset.toNat)) f.id (.snap d.sys.ltc none))

/-- A write that covers a missing tile whole clears its mark (14 R452). -/
def fillMark (x : Extent) (off : Nat) (d : Dev) : Dev :=
  if missingTile x off then onExt d x.e.base (fun x => { x with filled := NSet.add x.filled (tileIn x off) }) else d

/-- A tile that cannot be reconstructed is counted and, where REBUILD had left it missing, poisoned and no longer missing
(14 R452). -/
def tileLost (d : Dev) (x : Extent) (off : Nat) : Dev :=
  let d1 := count d (pg 0x34 (extBank x)) 0x820
  if missingTile x off then fillMark x off (poisonTile d1 x (tileIn x off)) else d1

/-- A request to a missing tile, or to a failed vault of a protected extent, waits for the tile's reconstruction; a write
that covers the tile whole does not (14 R436, R452), nor does a delta, which the parity member discards (R447). -/
def reconWait (d : Dev) (f : Flying) (x : Extent) : Option Dev :=
  let off := f.q.h.offset.toNat
  let whole := f.q.op == .wr && ((off % 256 == 0 && lenOf f.q.h == 256) || (x.e.prot == 2 && isProtection d x))
  let read := f.q.op == .rd || f.q.op == .rdComb || f.q.op == .rdShared || f.q.op == .rdOwn
  if (missingTile x off && !whole && f.q.op != .flush && f.q.op != .evictClean) || (read && vaultLost d x off) then
    if !d.wharf.epValid then some (finishFlying d f cBUSY [])
    else
      let r := startRecon d x off f.q.h.job.toNat [f.id]
      if r.1 then some (setWait r.2 f.id (.protect [] d.sys.ltc)) else some (finishFlying (tileLost r.2 x off) f cUNCORR [])
  else none

/-- A store is performed. -/
def storeNow (d : Dev) (f : Flying) (x : Extent) (ready : Bool) : Dev :=
  let off := f.q.h.offset.toNat
  commit d f x ready (fun d => effWrite d f.q x) (fillMark x off)

/-- The effect of the operation itself, nothing standing in its way. -/
def performOp (d : Dev) (f : Flying) (x : Extent) (ready : Bool) : Dev :=
  let q := f.q
  let off := q.h.offset.toNat
  match q.op with
  | .rd | .rdComb => readTier d f x 0
  | .wr =>
    if x.e.tier == .flash && !stageRoom d f.homeBank (extCell d x (off / 256 * 256)) then toStage d f x
    else if isProtection d x then commit d f x true (fun d => effProtect d q x) (if x.e.prot == 2 then id else fillMark x off)
    else if !ready && needsHost d f x then askHost d f x
    else storeNow d f x ready
  | .wb =>
    let line := lineOf x off
    if f.taken || ready then commit d f x ready (fun d => effWrite d q x) id
    else if ownsLine d f line then
      commit (dirDrop d f.homeBank line) f x ready (fun d => effWrite d q x) id
    else finishFlying (count d (pg 0x40 f.homeBank) 0x840) f cOK []
  | .evictClean => performEvict d f x
  | .atomic => commit d f x ready (fun d => effAtomic d q x) id
  | .publish => commit d f x ready (fun d => effPublish d q x) id
  | .eadd => performEadd d f x
  | .flush => performFlush d f
  | .acquire => finishFlying d f cOK []
  | .mgmtRd | .mgmtWr => finishFlying d f cUNSUP []
  | .rdShared | .rdOwn | .upgrade =>
    match grantable d f x with
    | some (s, l) => if x.e.moored then grantCopy d f x s l else noGrant d f x
    | none => noGrant d f x

/-- Refusals at the home before anything waits: what no extent of its kind serves (03 R78; 04 R138, R145; 05 R163, R167,
R173; 08 R278; 11 R361). None where there is none. -/
def homeRefuses (d : Dev) (f : Flying) (x : Extent) : Option (Nat × Dev) :=
  let q := f.q
  let off := q.h.offset.toNat
  let n := lenOf q.h
  let low := x.e.tier == .flash || x.e.tier == .host
  let stranded := match slotOf d q.h.src.toNat with
    | some s => (agentOf d s).stranded
    | none => false
  if d.sys.westHeld && extBank x == 1 then some (cDEGRADED, d)
  else if x.e.moored && isCaching q.op && stranded && !f.taken then some (cDENIED, count d (pg 0x40 f.homeBank) 0x848)
  else if !x.e.moored && (q.op == .upgrade || q.op == .wb || q.op == .evictClean) then some (cUNSUP, d)
  else if q.op == .atomic && (low || off % n != 0) then some (cUNSUP, d)
  else if q.op == .publish && (low || off % 8 != 0 || n != 8) then some (cUNSUP, d)
  else if q.op == .eadd && (low || off % 64 != 0 || n != 64) then some (cUNSUP, d)
  else if (isWrite q.op || q.op == .eadd) && !isProtection d x && vaultLost d x off then some (cDEGRADED, d)
  else if isWrite q.op && !isInternal q && !isSnap q && snapDest d x then some (cBUSY, d)
  else if q.op == .eadd && snapDest d x then some (cBUSY, d)
  else if isCaching q.op && q.op != .wb && x.e.moored && !zeroTile x off &&
      (granulesIn (extCell d x (off / 256 * 256)) (off % 256) n).any (poisoned d) then some (cPOISON, d)
  else none

/-- A request that waits for no copy, accumulator or other request is performed, unless a snapshot or a missing tile holds it. -/
def performNow (d : Dev) (f : Flying) (x : Extent) : Dev :=
  match snapWait d f x with
  | some d1 => d1
  | none => match reconWait d f x with
    | some d1 => d1
    | none => performOp d f x false

/-- Attempt a write of returned data or of sums, the device's own or a WB's that has been taken: it asks for no copy back. -/
def attemptOwn (d : Dev) (id : Nat) : Dev :=
  match flyingOf d id with
  | none => d
  | some f =>
    match extOf d f.base with
    | none => finishFlying d f cREVOKED []
    | some x =>
      match homeRefuses d f x with
      | some (c, d) => finishFlying d f c []
      | none =>
        match blocker d f with
        | some g => setWait d id (.behind g.id)
        | none => performNow d f x

/-- An answered or dropped snoop, and the write of the data it returned. -/
def snoopEnd (d : Dev) (t : Trans) (s : Snoop) (a : SnoopAnswer) (data : List Byte) : Dev :=
  let r := snoopDone d t s a data
  match r.2 with
  | some w => attemptOwn r.1 w
  | none => r.1

/-- A WB answers the recall of its line (05 R158), and is acknowledged once its data are written (14 R445). -/
def takeAnswerWb (d : Dev) (f : Flying) (t : Trans) (s : Snoop) : Dev :=
  let d1 := awaitWrite (endSnoop d t s) t f.id
  attemptOwn { d1 with flying := modFirst (fun g => g.id == f.id) (fun g => { g with taken := true }) d1.flying } f.id

/-- A set of the lines of a request, or of the range of a FLUSH, is being swept (14 R437). -/
def sweptSet (d : Dev) (f : Flying) (x : Extent) : Option Nat :=
  let off := f.q.h.offset.toNat
  let ls := if f.q.op == .flush then linesOf x (off / 256 * 256) ((f.q.h.range.toNat + 1) * 256) else linesOf x off (lenOf f.q.h)
  if !x.e.moored || isInternal f.q || d.quay.sweeps.isEmpty then none
  else (ls.map setOfLine).find? (sweeping d f.homeBank)

/-- Attempt a request in flight at its home. `first`: it has just arrived; `ready`: every member has acknowledged its
protection traffic. -/
def attempt (d : Dev) (id : Nat) (first : Bool) (ready : Bool := false) : Dev :=
  match flyingOf d id with
  | none => d
  | some f =>
    match extOf d f.base with
    | none => finishFlying d f cREVOKED []
    | some x =>
      if ready then performOp d f x true
      else if f.taken then attemptOwn d id
      else match homeRefuses d f x with
      | some (c, d) => finishFlying d f c []
      | none =>
        let line := lineOf x f.q.h.offset.toNat
        match (if f.q.op == .wb then wbAnswers d f line else none) with
        | some (t, s) => takeAnswerWb d f t s
        | none =>
          match blocker d f with
          | some g => setWait d id (.behind g.id)
          | none =>
          match sweptSet d f x with
          | some set => setWait (joinSet d f.homeBank set id) id .quay
          | none =>
            let l := accumsUnder d f
            if f.q.op != .eadd && f.q.op != .flush && !isInternal f.q && !l.isEmpty then forceWb d f l
            else
              let ls := linesOf x f.q.h.offset.toNat (lenOf f.q.h)
              let waits := x.e.moored && (f.q.op == .wb || f.q.op == .evictClean) && ls.any (fun l => (transOf d f.homeBank l).isSome)
              if waits then setWait (joinTrans d f.homeBank ((ls.find? (fun l => (transOf d f.homeBank l).isSome)).getD line) id) id .quay
              else match (if needsLines d f x then askLines d f.homeBank id (askOf d f x) ls else .go) with
              | .wait d1 => setWait d1 id .quay
              | .busy => finishFlying d f cBUSY []
              | .go => performNow d f x

/-- Attempt a list of requests again, in order. -/
def retry (ids : List Nat) (d : Dev) : Dev := ids.foldl (fun d id => attempt d id false) d

/-- Requests that wait for a way of a set come again when a transaction of the set closes (05 R160). -/
def wakeSet (d : Dev) (bank set : Nat) : Dev :=
  let k := bank * 2 ^ 18 + set
  let ids := (d.quay.setWait.filter (fun e => e.1 == k)).map Prod.snd
  retry ids { d with quay.setWait := d.quay.setWait.filter (fun e => e.1 != k) }

/-- Close a transaction: the directory, then the requests of the line's queue in order, then those of the set. -/
def closeTrans (d : Dev) (t : Trans) : Dev :=
  let d1 := { d with quay.trans := d.quay.trans.filter (fun u => !(u.bank == t.bank && u.line == t.line)) }
  wakeSet (retry t.waiters (closeDir d1 t)) t.bank (setOfLine t.line)

/-- The accumulator of a granule has closed: a FLUSH waits for it no longer. -/
def flushedBy (d : Dev) (g : Nat) : Dev :=
  { d with quay.flushes := d.quay.flushes.map (fun e => { e with granules := NSet.del e.granules g }) }

/-- A FLUSH is acknowledged once every accumulator of its range has been written back (04 R126). -/
def flushOn (d : Dev) : Dev :=
  let done (e : FlushWait) : Bool := e.granules.isEmpty
  (d.quay.flushes.filter done).foldl (fun d e =>
    match flyingOf d e.id with
    | some f => finishFlying d f cOK []
    | none => d) { d with quay.flushes := d.quay.flushes.filter (fun e => !done e) }

/-- An accumulator has closed: the first EADD that waits for one in its bank comes again (05 R168). -/
def wakeAccum (d : Dev) (bank : Nat) : Dev :=
  match d.quay.accumWait.find? (fun e => e.1 == bank && (flyingOf d e.2).isSome) with
  | some e => attempt { d with quay.accumWait := delFirst (fun g => g == e) d.quay.accumWait } e.2 false
  | none => d

/-- An accumulator closes, and what waited for it comes again (05 R168, R169). -/
def closeAccum (d : Dev) (a : Accum) : Dev :=
  flushedBy (wakeAccum (retry a.waiters (accumDrop d a.bank a.offset)) a.bank) a.offset

/-- The write of an accumulator's sums has ended with a code: they are counted, or lost (05 R171). -/
def wroteSums (d : Dev) (a : Accum) (status : Nat) : Dev :=
  let d1 := if status == cOK then count d (pg 0x41 a.bank) 0x810
    else match extAt d a.offset with
      | some x => loseSums d a.bank x a.offset status
      | none => d
  closeAccum d1 a

/-- An accumulator is written back: its granule is read, and the sums are added and written; it closes once that write has ended
(05 R169, R171). -/
def finishWb (d : Dev) (bank g : Nat) : Dev :=
  match accumAt d bank g with
  | none => d
  | some a =>
    if a.write.isSome then d
    else match extAt d g with
    | none => closeAccum d a
    | some x =>
      let r := readPlain d x { off := g, berth := x.e.berth } g 64
      if r.1 != cOK then closeAccum (loseSums r.2.2 bank x g r.1) a
      else
        let id := r.2.2.nextFlying
        let d1 := accumMod r.2.2 bank g (fun a => { a with writingBack := true, write := some id })
        let d2 := attemptOwn (ownWrite d1 x g (sumGranule a r.2.1) .internal 0) id
        match accumAt d2 bank g with
        | some b => (match b.wrote with | some st => wroteSums d2 b st | none => d2)
        | none => d2

/-- The write of an accumulator's sums that has ended. -/
def wroteOne (d : Dev) : Option (Accum × Nat) := d.quay.accums.findSome? (fun a => a.wrote.map (fun st => (a, st)))

/-- What the device goes on with by itself after a command: transactions with nothing outstanding close, accumulators whose sums have
been written close, and requests behind one that is done come again. The number bounds how many of these follow one another. -/
def drain : Nat → Dev → Dev
  | 0, d => d
  | k + 1, d =>
    match d.quay.trans.find? (fun t => t.snoops.isEmpty && t.kind != .sweep && t.writes.all (fun w => (flyingOf d w).isNone)) with
    | some t => drain k (closeTrans d t)
    | none =>
      match wroteOne d with
      | some (a, st) => drain k (wroteSums d a st)
      | none =>
        match d.flying.find? (fun f => match f.wait with
            | .behind g => (match flyingOf d g with
              | none => true
              | some h => (match h.wait with | .ack _ _ => true | _ => false))
            | _ => false) with
        | some f => drain k (attempt d f.id false)
        | none => d

/-- As much as there is to go on with. -/
def drainAll (d : Dev) : Dev := flushOn (drain (d.flying.length + d.quay.trans.length + d.quay.accums.length + 64) d)

end Sys2Proof.Machine
end

