-- ==== Sys2Proof/Machine/Moves.lean ====
section
/-! DEFINITION. The queues of the Tow (03 R105, R109-R111): which MOVE item of an extent runs, what ends an item that waits,
and when a Tow descriptor has completed. -/

namespace Sys2Proof.Machine

open Sys2Proof

/-- Speed of a tier, the fastest first (03 R109). -/
def tierSpeed : Tier → Nat
  | .near => 0 | .stack => 1 | .host => 2 | .flash => 3

/-- A MOVE item runs. -/
def moveRuns (m : MoveItem) : Bool :=
  match m.phase with
  | .copy | .recopy _ | .switching => true
  | _ => false

/-- The item at the head of an extent's queue. -/
def moveHead (d : Dev) (base : Nat) : Option MoveItem := d.tiers.moves.find? (fun m => m.base == base)

/-- Some job holds a pin on an extent. -/
def pinned (d : Dev) (base : Nat) : Bool := d.tiers.pins.any (fun p => p.base == base)

/-- Change a MOVE item. -/
def onMove (d : Dev) (r : DescRef) (item : Nat) (f : MoveItem → MoveItem) : Dev :=
  { d with tiers.moves := modFirst (fun m => m.r == r && m.item == item) f d.tiers.moves }

/-- A MOVE item ends with a code. -/
def endMove (d : Dev) (m : MoveItem) (code : Nat) : Dev :=
  noteItem { d with tiers.moves := d.tiers.moves.filter (fun n => !(n.r == m.r && n.item == m.item)) } m.r m.item code

/-- The code a MOVE's destination is refused with, or OK (03 R78; 05 R150). -/
def destCode (d : Dev) (x : Extent) (tier : Tier) (destBase : Nat) : Nat :=
  let n := extBytes x
  let sameSpace (y : Extent) : Bool :=
    y.e.base != x.e.base && y.e.tier == tier &&
      (if tier == .host then bankOfBerth y.e.berth == bankOfBerth x.e.berth else y.e.berth == x.e.berth)
  let unsup := d.toll.extents.any (fun y => sameSpace y && overlap (destBase * 2 ^ 21) n (y.e.localBase * 2 ^ 21) (extBytes y)) ||
    (tier == .host && reg d (pg 0x12 (bankOfBerth x.e.berth) + 0x130) == 0) ||
    (x.e.moored && (tier == .flash || tier == .host))
  if unsup then cUNSUP
  else if capacity d tier x.e.berth < destBase * 2 ^ 21 + n then cLENGTH
  else cOK

/-! ## Pins (03 R110) -/

/-- The count of a job's pins on an extent. -/
def pinCount (d : Dev) (job base : Nat) : Nat :=
  match d.tiers.pins.find? (fun p => p.job == job && p.base == base) with
  | some p => p.count
  | none => 0

/-- Set it; a count of 0 leaves the table. -/
def setPin (d : Dev) (bank job base count : Nat) : Dev :=
  let rest := d.tiers.pins.filter (fun p => !(p.job == job && p.base == base))
  { d with tiers.pins := if count == 0 then rest else rest ++ [{ bank := bank, job := job, base := base, count := count }] }

/-- Add one pin: the code. -/
def addPin (d : Dev) (bank job base : Nat) : Dev × Nat :=
  let n := pinCount d job base
  if 65535 ≤ n then (d, cLENGTH)
  else if n == 0 && decide (65536 ≤ (d.tiers.pins.filter (fun p => p.bank == bank)).length) then (d, cBUSY)
  else (setPin d bank job base (n + 1), cOK)

/-- A MOVE item has completed OK: with PIN set the job takes a pin, where its count and the bank's table have room for one (03 R102;
log 126). -/
def movePin (d : Dev) (pin : Bool) (bank job base : Nat) : Dev := if pin then (addPin d bank job base).1 else d

/-! ## Which item runs -/

/-- Moves that run in a bank. -/
def runningMoves (d : Dev) (bank : Nat) : Nat := (d.tiers.moves.filter (fun m => m.bank == bank && moveRuns m)).length

/-- A tier of a bank can be reached: the host's while its port's link is up (03 R100). -/
def tierUp (d : Dev) (t : Tier) (bank : Nat) : Bool := t != .host || ((port d bank).up && (port d bank).bme)

/-- A move that cannot begin because the host's link is down is abandoned (03 R100, R108). -/
def moveDown (d : Dev) (m : MoveItem) (x : Extent) : Dev :=
  endMove (raiseFe d (pg 0x33 m.bank) 3
    { unit := false, addr := d.xmap.node * 2 ^ 48 + extBase x, job := m.job, code := cTIER }) m cTIER

/-- The copy's reads are plain loads: each open accumulator of the extent is written back before the read of its granule (05 R158, R169,
case 2). -/
def forceSums (d : Dev) (x : Extent) : Dev :=
  let l := d.quay.accums.filter (fun a => covers x a.offset && !a.writingBack)
  startWbs (count d (pg 0x41 (extBank x)) 0x818 l.length) x

/-- What becomes of an item at the head of its extent's queue that does not run yet; none where it stays. The checks of 03 R104 are made
again, since moves before it may have changed what they rest on. Where the refusal of an extent of an open snapshot slot (08 R278) stands
among the rows of R104 is open: here and as the item arrives it comes before row 4 (DESIGN CHOICE, log 159). -/
def moveStart (d : Dev) (m : MoveItem) : Option Dev :=
  match extOf d m.base with
  | none => some (endMove d m cREVOKED)
  | some x =>
    if x.revoking then some (endMove d m cREVOKED)
    else if snapUses d m.base then some (endMove d m cBUSY)
    else if x.e.tier == m.destTier then some (movePin (endMove d m cOK) m.pin m.bank m.job m.base)
    else if destCode d x m.destTier m.destBase != cOK then some (endMove d m (destCode d x m.destTier m.destBase))
    else if decide (tierSpeed x.e.tier < tierSpeed m.destTier) && pinned d m.base then
      match m.phase with
      | .queued =>
        if m.waitPins && reg d (pg 0x33 m.bank + 0x118) != 0 then
          some (onMove d m.r m.item (fun m => { m with phase := .pinWait d.sys.ltc }))
        else some (endMove d m cBUSY)
      | _ => none
    else if 64 ≤ runningMoves d m.bank then
      match m.phase with
      | .pinWait _ => some (onMove d m.r m.item (fun m => { m with phase := .queued }))
      | _ => none
    else if !(tierUp d x.e.tier m.bank && tierUp d m.destTier m.bank) then some (moveDown d m x)
    else
      let d1 := onMove (onExt d m.base (fun x => { x with moving := true })) m.r m.item (fun m => { m with phase := .copy })
      some (recallOwned (forceSums d1 x) x)

/-- The first queue head that can go on. -/
def nextMove (d : Dev) : List MoveItem → Option Dev
  | [] => none
  | m :: ms =>
    let first := match moveHead d m.base with
      | some h => h.r == m.r && h.item == m.item
      | none => false
    if first && !moveRuns m then
      match moveStart d m with
      | some d1 => some d1
      | none => nextMove d ms
    else nextMove d ms

/-- Start what can be started, at most `k` things. -/
def startMoves : Nat → Dev → Dev
  | 0, d => d
  | k + 1, d =>
    match nextMove d d.tiers.moves with
    | some d1 => startMoves k d1
    | none => d

/-! ## Reads of a source in host memory (03 R100, R106) -/

/-- Marked tiles are asked for again once no request that passed before the hold is left, or as a re-copy pass begins. -/
def nextTile (m : MoveItem) (tiles : Nat) : Option Nat :=
  if m.asked < tiles then some m.asked else m.again.head?

/-- Ask the host for tiles of a move's source, at most 32 at once and at most `k` now. -/
def askTiles : Nat → Dev → MoveItem → Extent → Dev
  | 0, d, _, _ => d
  | k + 1, d, m, x =>
    match nextTile m (extBytes x / 256) with
    | none => d
    | some t =>
      if 32 ≤ m.reading.length then d
      else if zeroTile x (extBase x + t * 256) then
        -- a tile that reads as zero is not read
        let m1 := if m.asked < extBytes x / 256 then { m with asked := m.asked + 1 } else { m with again := m.again.drop 1 }
        askTiles k (onMove d m.r m.item (fun _ => m1)) m1 x
      else
        let d1 := readHost d m.bank d.nextFlying (.move m.base t) (extCell d x (extBase x + t * 256)) 256
        let m1 := { m with
          asked := if m.asked < extBytes x / 256 then m.asked + 1 else m.asked
          again := if m.asked < extBytes x / 256 then m.again else m.again.drop 1
          reading := NSet.add m.reading t }
        askTiles k (onMove { d1 with nextFlying := d1.nextFlying + 1 } m.r m.item (fun _ => m1)) m1 x

/-- A move that switches, with no request from before the hold left, asks for what is still marked. -/
def takeMarked (d : Dev) (m : MoveItem) : MoveItem :=
  if m.phase == .switching && !(d.flying.any (fun f => f.base == m.base && passedToll f)) then
    { m with again := m.marked.foldl NSet.add m.again, marked := [] }
  else m

/-- The Tow reads on at the host for the moves whose source is there. -/
def hostCopies (d : Dev) : Dev :=
  (d.tiers.moves.filter moveRuns).foldl (fun d m =>
    match extOf d m.base with
    | some x =>
      if x.e.tier == .host && tierUp d .host m.bank then
        let m1 := takeMarked d m
        askTiles 32 (onMove d m.r m.item (fun _ => m1)) m1 x
      else d
    | none => d) d

/-- Every read of the pass that runs has been answered; of other tiers the copy is made at the switch. -/
def copyPassed (x : Extent) (m : MoveItem) : Bool :=
  x.e.tier != .host || (decide (extBytes x / 256 ≤ m.asked) && m.again.isEmpty && m.reading.isEmpty)

/-! ## The ends of items and descriptors -/

/-- A staged tile of an extent is not yet on flash. -/
def stagedTiles (d : Dev) (x : Extent) : Bool :=
  let first := extCell d x (extBase x)
  x.e.tier == .flash && d.tiers.staged.any (fun t => decide (first ≤ t.addr) && decide (t.addr < first + extBytes x))

/-- PERSIST items whose extent has no staged tile left complete with OK, and those of a revoked one with ACCESS_REVOKED. -/
def endPersists (d : Dev) : Dev :=
  let ends (p : PersistItem) : Option Nat :=
    match extOf d p.base with
    | none => some cREVOKED
    | some x => if x.revoking then some cREVOKED else if stagedTiles d x then none else some cOK
  let d1 := { d with tiers.persists := d.tiers.persists.filter (fun p => (ends p).isNone) }
  d.tiers.persists.foldl (fun d p => match ends p with
    | some c => noteItem d p.r p.item c
    | none => d) d1

/-- A Tow descriptor whose items have all been taken and none of whose items waits has completed. -/
def towFinish (d : Dev) : Dev :=
  let waits (r : DescRef) : Bool := d.tiers.moves.any (fun m => m.r == r) || d.tiers.persists.any (fun p => p.r == r)
  let put (x : Desc) : Desc :=
    if x.engine == 0x50 && x.phase == .running && decide (x.count ≤ x.nextItem) && !waits x.r then { x with phase := .finished } else x
  { d with descs := d.descs.map put }

/-- What the Tow goes on with after a command. -/
def towOn (d : Dev) : Dev :=
  if d.tiers.moves.isEmpty && d.tiers.persists.isEmpty then
    (if d.descs.any (fun x => x.engine == 0x50) then towFinish d else d)
  else towFinish (endPersists (hostCopies (startMoves (4 * d.tiers.moves.length) d)))

end Sys2Proof.Machine
end

