-- ==== Sys2Proof/Machine/Request.lean ====
section
/-! DEFINITION. The way of a request from where it enters to its home: the checks of the Landing (11 R355), the loss list
(04 R135, R136), the Toll (02 R48), doorbells (02 R67), the Fare meter (12 R390), home credits (05 R165), the end-to-end
check (11 R361); and the transactions of a PCIe port (13 R407-R411). -/

namespace Sys2Proof.Machine

open Sys2Proof

/-! ## Doorbells (02 R41, R67, R540) -/

def doorbellBase : Nat := 0xFFFFFFE00000

/-- Berth and ring of a doorbell offset, where it is the first byte of one. -/
def doorbellAt (off : Nat) : Option (Nat × Nat) :=
  let o := off - doorbellBase
  if doorbellBase ≤ off && o % 0x80 == 0 then some (o / 0x2000, o % 0x2000 / 0x80) else none

/-- The Toll for a request to the doorbell window: the ring stands in place of the extent (02 R67). -/
def doorbellToll (d : Dev) (bank : Nat) (op : Op) (h : Hdr) (engine : Bool) : TollSays × Dev :=
  let j := jobOf d h.job.toNat
  if fencedFor d h then (.refuse cFENCED, d)
  else if !d.xmap.nodeValid then (.refuse cBUSY, d)
  else if h.node.toNat != d.xmap.node then
    (.refuse cDENIED, raiseFe (count d (pg 0x20 bank) 0x800) (pg 0x20 bank) 2 (feReq d h cDENIED))
  else if !(j.valid && (engine || acceptsEp j h.src.toNat)) then (.refuse cDENIED, d)
  else if h.tide.toNat != j.tide then (.refuse cFENCED, d)
  else
    let ok := match doorbellAt h.offset.toNat with
      | some (b, r) => (op == .wr || op == .rd) && h.len == 7 && decide (r < (berthOf d b).rings) &&
          (ringOf d b r).job == h.job.toNat
      | none => false
    if !ok then (.refuse cDENIED, d)
    else
      let t := test5 d bank h
      if t.1 == cOK then (.pass none, t.2) else (.refuse t.1, t.2)

/-- A doorbell is refused its value: DB_BAD (02 R67, R540). -/
def doorbellBad (d : Dev) (b r : Nat) : Dev :=
  let d1 := setRing d b r { ringOf d b r with dbBad := true }
  raiseFe d1 (pg 0x21 (bankOfBerth b)) 0 (feUnit (b * 64 + r))

/-- A doorbell value reaches its ring (02 R67, R540). -/
def ringDoorbell (d : Dev) (b r v : Nat) : Dev :=
  let g := ringOf d b r
  let dist (x : Nat) : Nat := (x + 2 ^ 32 - g.consumer) % 2 ^ 32
  if v < 2 ^ 32 && g.enable && dist g.producer ≤ dist v && dist v ≤ 2 ^ g.log2Size then
    setRing d b r { g with producer := v }
  else doorbellBad d b r

/-! ## The end-to-end check (11 R361) -/

/-- What the home answers a request whose TCHK does not match, or none where it matches. -/
def tchkBad (q : Req) : Bool :=
  match checkedData q with
  | some l => crc32c l != q.h.tchk.toNat
  | none => false

/-- E2E_NACK, or UNCORRECTABLE once TRY has reached WHARF_E2E_RETRY, on the home bank's Wharf page. -/
def answerTchk (d : Dev) (q : Req) (entry bank : Nat) : Dev :=
  let page := pg 0x10 bank
  if q.h.trial.toNat < reg d (page + 0x108) then nackReq (count d page 0x820) q entry bank
  else refuseHome (raiseFe (count d page 0x828) page 4 (feReq d q.h cUNCORR)) q entry bank cUNCORR

/-! ## From the Toll to the home -/

/-- Requests that the Quay's request table holds (05 R164). -/
def tabled (q : Req) (x : Extent) : Bool :=
  x.e.moored || isCaching q.op || q.op == .eadd || q.op == .publish || (q.op == .atomic && q.home)

/-- A request's credit at its home bank (05 R165): the code and device where it is turned away. -/
def overCredit (d : Dev) (q : Req) (bank : Nat) : Option Dev :=
  let src := q.h.src.toNat
  let page := pg 0x40 bank
  if creditsOf d bank src ≤ tableOf d bank src then some (count d page 0x838)
  else if 65536 ≤ tableUsed d bank then some (count d page 0x830)
  else none

/-- Landing a request came in on. -/
def landOf (q : Req) : Option Nat :=
  match q.origin with
  | .landing n => some n
  | .comb n _ => some n
  | _ => none

/-- A request that passed the Toll, the Fare meter and the credits reaches its home. -/
def toHome (d : Dev) (q : Req) (entry : Nat) (x : Extent) : Dev :=
  let h := q.h
  let job := h.job.toNat
  let off := h.offset.toNat
  let n := lenOf h
  if tchkBad q then answerTchk (cross d entry (extBank x) .request h.tc.toNat) q entry (extBank x)
  else
    let hit := if (q.op == .rd || q.op == .rdComb) && !h.acq && cacheable x entry && !isEngine q && !memberRead d x q then cacheRead d entry job off n else none
    match hit with
    | some l => answerReq d q entry (some x.e.berth) (entry % 2 + 17) cOK l
    | none =>
      let id := d.nextFlying
      -- a store that passes the Toll updates its job's entries of this bank (04 R124)
      let d := if q.op == .wr then updateCache d entry job off (sub q.data 0 n) else d
      attempt (addFlying (cross d entry (extBank x) .request h.tc.toNat) { id := 0, q := q, entry := entry, homeBank := extBank x, base := x.e.base, wait := .quay }) id true

/-- A read, of one source or of several. -/
def isRead (op : Op) : Bool := op == .rd || op == .rdComb

/-- A request that passed the Toll: colour, count, credit (12 R390; 02 R63; 12 R396; 05 R164, R165). -/
def passed (d : Dev) (q : Req) (entry : Nat) (x : Option Extent) : Dev :=
  let c := fareOn d q
  let q := c.1
  if c.2.1 then refuseReq c.2.2 q cBUSY
  else
    let d1 := match landOf q with
      | some n =>
        let off := q.h.offset.toNat
        let b := match x with
          | some x => some x.e.berth
          | none => if q.op == .acquire then none else (doorbellAt off).map Prod.fst
        meterRx (misroute c.2.2 n b q.h.epoch.toNat off) b (reqSlots q.op q.h * 16)
      | none => c.2.2
    match x with
    | none =>
      if q.op == .acquire then answerReq (acquireDrop d1 entry q.h.job.toNat) q entry none 17 cOK []
      else match doorbellAt q.h.offset.toNat with
        | none => refuseReq d1 q cDENIED
        | some (b, r) =>
          let bank := bankOfBerth b
          if d.sys.westHeld && bank == 1 then refuseReq d1 q cDEGRADED
          else
            let d2 := cross d1 entry bank .doorbell q.h.tc.toNat
            let back (d : Dev) (data : List Byte) : Dev :=
              let c := crossBack d q entry bank
              answerReq c.1 q bank none (if entry == bank then 17 else c.2) cOK data
            if isRead q.op then back (if q.h.acq then acquireDrop d2 entry q.h.job.toNat else d2) (leBytes 8 (ringOf d1 b r).consumer)
            else if tchkBad q then answerTchk d2 q entry bank
            else back (ringDoorbell d2 b r (leAt q.data 0 8)) []
    | some x =>
      if d1.sys.westHeld && extBank x == 1 then refuseReq d1 q cDEGRADED
      else
        let t := tabled q x
        match (if t then overCredit d1 q (extBank x) else none) with
        | some d2 => refuseHome (cross d2 entry (extBank x) .request q.h.tc.toNat) q entry (extBank x) cBUSY
        | none =>
          let d2 := if t then { d1 with quay.credSrcs := NSet.add d1.quay.credSrcs (extBank x * 2 ^ 18 + q.h.src.toNat) } else d1
          toHome d2 { q with table := t } entry x

/-- A request of one of the device's own sources, an engine or a port's function, that its source may not send yet: it has no
home credit left at the home bank, or an earlier one waits for it (05 R164). The answer is that bank. -/
def lacksCredit (d : Dev) (q : Req) : Option Nat :=
  match q.origin, extAt d q.h.offset.toNat with
  | .engine _ _, some x | .pcie _ _ _ _, some x | .customs, some x =>
    let bank := extBank x
    let src := q.h.src
    let before := d.flying.any (fun f => f.wait == .credit && f.homeBank == bank && f.q.h.src == src)
    if q.h.node.toNat == d.xmap.node && tabled q x && (before || decide (creditsOf d bank src.toNat ≤ tableOf d bank src.toNat))
    then some bank else none
  | _, _ => none

/-- The Toll of a request: a doorbell's ring or an extent (02 R48, R67). -/
def tollFor (d : Dev) (entry : Nat) (op : Op) (h : Hdr) (engine : Bool) : TollSays × Dev :=
  if doorbellBase ≤ h.offset.toNat && op != .acquire then doorbellToll d entry op h engine else tollCheck d entry op h engine

/-- The Toll for the constituents of an RD_COMB, each as a request of its own source (11 R358): a refused one has its code. The
second result is what the Toll said of one that it did not refuse. -/
def combToll (d : Dev) (entry : Nat) (h : Hdr) :
    List (Nat × Nat × PartIs) → List (Nat × Nat × PartIs) × Option TollSays × Dev
  | [] => ([], none, d)
  | c :: l =>
    if c.2.2 != .fresh then
      let t := combToll d entry h l
      (c :: t.1, t.2)
    else
      let r := tollFor d entry .rd { h with src := .ofNat 18 c.1, reqId := .ofNat 16 c.2.1 } false
      let t := combToll r.2 entry h l
      match r.1 with
      | .refuse code => ((c.1, c.2.1, .answered code) :: t.1, t.2)
      | s => (c :: t.1, some s, t.2.2)

/-- What the Toll says of a request: for an RD_COMB, of the constituents that it does not refuse. -/
def tollOf (d : Dev) (q : Req) (entry : Nat) : Req × TollSays × Dev :=
  match q.origin with
  | .comb n parts =>
    let r := combToll d entry q.h parts
    ({ q with origin := .comb n r.1 }, r.2.1.getD (.refuse cOK), r.2.2)
  | .engine _ _ | .customs => (q, tollFor d entry q.op q.h true)
  | _ => (q, tollFor d entry q.op q.h false)

/-- The Toll and what follows it, for a request that its source sends into a bank. -/
def enterNow (d : Dev) (q : Req) (entry : Nat) : Dev :=
  let r := tollOf d q entry
  match r.2.1 with
  | .refuse c => refuseReq r.2.2 r.1 c
  | .pass x => passed r.2.2 r.1 entry x
  | .held x =>
    let d1 := if x.moving then stall r.2.2 x.e.berth 6 0 else r.2.2
    addFlying d1 { id := 0, q := r.1, entry := entry, homeBank := extBank x, base := x.e.base, wait := .hold d1.sys.ltc }

/-- A request enters a bank, or waits at its source for a home credit. -/
def enter (d : Dev) (q : Req) (entry : Nat) : Dev :=
  match lacksCredit d q with
  | some bank => addFlying d { id := 0, q := q, entry := entry, homeBank := bank, base := 0, wait := .credit }
  | none => enterNow d q entry

/-- Requests that wait for a home credit are sent while their sources have one, at most `k` of them. -/
def sendCredited : Nat → Dev → Dev
  | 0, d => d
  | k + 1, d =>
    let free (f : Flying) : Bool :=
      f.wait == .credit && decide (tableOf d f.homeBank f.q.h.src.toNat < creditsOf d f.homeBank f.q.h.src.toNat)
    match d.flying.find? free with
    | none => d
    | some f => sendCredited k (drainAll (enterNow (dropFlying d f.id) f.q f.entry))

/-- Requests held before test 4 on an extent come again, in order (03 R106; 08 R275). -/
def releaseHeld (d : Dev) (base : Nat) : Dev :=
  let mine (f : Flying) : Bool := f.base == base && (match f.wait with | .hold _ => true | _ => false)
  let l := d.flying.filter mine
  l.foldl (fun d f => enter d f.q f.entry) { d with flying := d.flying.filter (fun f => !mine f) }

/-! ## Marked requests (04 R133-R136) -/

/-- LTC at which a loss's copies expire in a bank (04 R134, R147). -/
def lossEnd (d : Dev) (bank since : Nat) : Nat := since + 1024 * reg d (pg 0x40 bank + 0x400)

/-- The entries of a bank's loss list that have not expired (04 R134). -/
def lossesIn (d : Dev) (bank : Nat) : List LossEntry :=
  d.quay.lossList.filter (fun e => (if bank == 0 then e.inEast else e.inWest) && decide (d.sys.ltc < lossEnd d bank e.since))

/-- The loss-list entry of a source and request ID in a bank: the latest, since a source may have used the ID again. -/
def lossMatch (d : Dev) (bank src id : Nat) : Option LossEntry :=
  (lossesIn d bank).reverse.find? (fun e => e.src == src && e.reqId == id)

/-- A marked request that matches nothing comes from a Landing whose loss did not fit (04 R136). -/
def lossOverflow (d : Dev) (bank src : Nat) : Bool :=
  d.quay.losses.any (fun l => (if bank == 0 then l.ovfEast else l.ovfWest) && l.sources.contains src &&
    decide (d.sys.ltc < lossEnd d bank l.since))

/-! ## The privileged classes (04 R142; 11 R356) -/

/-- Some valid range of WHARF_MGMT_RANGE0 to 3 holds an end point (11 R356, R378). -/
def mgmtAdmits (d : Dev) (ep : Nat) : Bool :=
  (List.range 4).any (fun i =>
    let v := reg d (pg 0x10 0 + 0x140 + 8 * i)
    bit v 63 && decide (fld v 0 18 ≤ ep) && decide (ep < fld v 0 18 + fld v 18 19))

/-- A management-class request from outside the ranges (11 R356). -/
def mgmtRefuse (d : Dev) (n : Nat) (q : Req) : Dev :=
  let page := pg 0x10 (n / 8)
  refuseReq (raiseFe (count d page 0x830) page 3 (feReq d q.h cDENIED)) q cDENIED


/-- Two requests of one source on one privileged class: the first is performed first (04 R142). -/
def sameTurn (q r : Req) : Bool :=
  (landOf q).isSome && (landOf r).isSome && q.h.tc == r.h.tc && decide (q.h.tc.toNat < 2) && q.h.src == r.h.src

/-- A request in flight has not been performed, and is neither re-sent nor a duplicate. -/
def unperformed (f : Flying) : Bool :=
  match f.wait with
  | .ack _ _ => false | .lossList => false | .original _ _ => false
  | _ => true

/-- An earlier request stands before one in its turn. -/
def turnTaken (d : Dev) (q : Req) : Bool := d.flying.any (fun f => sameTurn f.q q && unperformed f)

/-- A request goes to the Toll in its turn. -/
def enterTurn (d : Dev) (q : Req) (entry : Nat) : Dev :=
  if turnTaken d q then addFlying d { id := 0, q := q, entry := entry, homeBank := entry, base := 0, wait := .turn }
  else enter d q entry

def isMgmt (op : Op) : Bool := op == .mgmtRd || op == .mgmtWr

/-- The first request whose turn has come, of those that satisfy `p`: none before it in line waits, and none of its source
and class is under way. -/
def nextTurn (d : Dev) (p : Req → Bool) : Option Flying :=
  let line := d.flying.filter (fun f => f.wait == .turn)
  let first (f : Flying) : Bool := (line.find? (fun g => sameTurn g.q f.q)).any (fun g => g.id == f.id)
  line.find? (fun f => p f.q && first f && !(d.flying.any (fun g => g.wait != .turn && sameTurn g.q f.q && unperformed g)))

/-- Memory requests whose turn has come enter, at most `k` of them. -/
def takeTurns : Nat → Dev → Dev
  | 0, d => d
  | k + 1, d =>
    match nextTurn d (fun q => !isMgmt q.op) with
    | none => d
    | some f => takeTurns k (drainAll (enter (dropFlying d f.id) f.q f.entry))

/-- The constituents of an RD_COMB whose originals are still in progress. -/
def openParts (q : Req) : List (Nat × Nat × PartIs) :=
  match q.origin with
  | .comb _ parts => parts.filter (fun c => c.2.2 == .original)
  | _ => []

/-- An RD_COMB waits while an original of a constituent is in progress (04 R135), and then goes on to the Toll. -/
def combNext (d : Dev) (q : Req) (bank : Nat) : Dev :=
  match openParts q with
  | c :: _ => addFlying d { id := 0, q := q, entry := bank, homeBank := bank, base := 0, wait := .original c.2.1 c.1 }
  | [] => enterTurn d q bank

/-- An RD_COMB that has waited for originals goes on. -/
def combOn (d : Dev) : Dev :=
  let ready (f : Flying) : Bool := (openParts f.q).isEmpty && (match f.q.origin, f.wait with
    | .comb _ _, .original _ _ => true
    | _, _ => false)
  (d.flying.filter ready).foldl (fun d f => combNext d f.q f.entry) { d with flying := d.flying.filter (fun f => !ready f) }

/-- A constituent of a marked RD_COMB against the loss list (04 R135, R136; 11 R358). -/
def combMatch (bank : Nat) (s : Dev × Req) (c : Nat × Nat × PartIs) : Dev × Req :=
  let page := pg 0x40 bank
  let as_ (p : PartIs) : Req := match s.2.origin with
    | .comb n parts => { s.2 with origin := .comb n (parts.map (fun e => if e == c then (c.1, c.2.1, p) else e)) }
    | _ => s.2
  match lossMatch s.1 bank c.1 c.2.1 with
  | some e => (count s.1 page 0x900, match e.outcome with
    | some m => takeAnswer s.2 c.1 c.2.1 .fresh m
    | none => as_ .original)
  | none => if lossOverflow s.1 bank c.1 then (count s.1 page 0x908, as_ (.answered cABORTED)) else s

/-- A request that has passed the header checks of a Landing. -/
def fromLanding (d : Dev) (n : Nat) (q : Req) : Dev :=
  let bank := n / 8
  let src := q.h.src.toNat
  let id := q.h.reqId.toNat
  if !q.h.mark then enterTurn d q bank
  else if d.quay.losses.any (fun l => l.building) then
    addFlying d { id := 0, q := q, entry := bank, homeBank := bank, base := 0, wait := .lossList }
  else match q.origin with
  | .comb _ parts =>
    let r := parts.foldl (combMatch bank) (d, q)
    combNext r.1 r.2 bank
  | _ => match lossMatch d bank src id with
    | some e =>
      let d1 := count d (pg 0x40 bank) 0x900
      match e.outcome with
      | some m => noteOutcome (sendRsp d1 n (n % 8) none q.h.job.toNat q.h.offset.toNat false m) src id m
      | none => addFlying d1 { id := 0, q := q, entry := bank, homeBank := bank, base := 0, wait := .original id src }
    | none =>
      if lossOverflow d bank src then refuseReq (count d (pg 0x40 bank) 0x908) q cABORTED
      else enterTurn d q bank

/-! ## Requests on a Landing -/

/-- Whether requests arrive on a Landing: its bank runs and its link is up. -/
def landOpen (d : Dev) (n : Nat) : Bool := bankLive d (n / 8) && linkUp d n

/-- The device answers what reaches it with ABORTED while it is quiet (16 R494). -/
def quiet (d : Dev) : Bool := d.sys.phase == .quiesce

/-- A memory request arrives whole on a Landing (11 R355; 16 R494). -/
def landRequest (d : Dev) (n : Nat) (op : Op) (home : Bool) (h : Hdr) (data : List Byte) : Dev :=
  if !landOpen d n then d
  else
    let q : Req := { op := op, home := home, origin := .landing n, h := h, data := data }
    let d1 := arrive d n op h
    if quiet d1 then refuseReq (count d1 (pg 0x03 0) 0x818) q cABORTED
    else if headerBad (opCode op) h then refuseReq (count d1 (pgI 0x11 8 n) 0x850) q cUNSUP
    else if h.tc == 0 && !mgmtAdmits d1 h.src.toNat then mgmtRefuse d1 n q
    else fromLanding d1 n q

/-! ## PCIe transactions (13 R407-R411) -/

/-- A piece's request: job and end point of its TLP's function, with the job's tide and the epoch, stamped by the port (13 R407). -/
def pieceReq (d : Dev) (p : Nat) (t : Tlp) (i : Nat) (e : Piece) : Req :=
  let job := jobOf d t.job
  let op : Op := match t.kind with
    | 0 => .rd | 3 => .rd | 2 => .atomic | _ => .wr
  let aux : Nat := match t.op with
    | some .fetchAdd => 2 | some .swap => 0 | some .cas => 1 | none => 0
  let h : Hdr := {
    tc := 4, mark := false, acq := false, rel := false, scope := if t.kind == 2 then 1 else 0, reqId := .ofNat 16 t.id,
    src := .ofNat 18 t.endPoint, job := .ofNat 12 t.job, offset := .ofNat 48 e.off, node := .ofNat 14 d.xmap.node,
    tide := .ofNat 32 job.tide, epoch := .ofNat 16 d.xmap.epoch, len := .ofNat 8 (e.bytes - 1), fmt := 0, trial := 0,
    tchk := .ofNat 32 (if e.data.isEmpty then 0 else crc32c e.data), aux := .ofNat 8 aux, range := 0, rsvd := false }
  { op := op, origin := .pcie p t.fn t.id i, h := h, data := e.data }

/-- A posted write TLP, or a CXL write. -/
def isPosted (t : Tlp) : Bool := t.kind == 1

/-- A piece is answered for good, or not yet issued, or in flight. -/
inductive PieceIs where
  | fresh | flying | again | done (code : Nat)
  deriving DecidableEq, Repr

def pieceIs (d : Dev) (p : Nat) (t : Tlp) (e : Piece) : PieceIs :=
  match e.answer with
  | none => if e.attempts == 0 then .fresh else .flying
  | some (c, _) =>
    if !t.drop && (c == cBUSY || (c == cAGED && t.kind != 2)) && e.attempts ≤ reg d (pg 0x12 p + 0x150) then .again else .done c

/-- A piece may be issued: a read or AtomicOp after every earlier posted write of its function, a write after the earlier
writes of its tile (13 R409). `earlier`: the TLPs received before its own. -/
def mayIssue (t : Tlp) (earlier : List Tlp) (before : List Piece) (e : Piece) : Bool :=
  let writes := earlier.filter (fun u => isPosted u && u.fn == t.fn && u.kind < 3 && t.kind < 3)
  let sameTile (x : Piece) : Bool := x.off / 256 == e.off / 256 && x.answer.isNone
  if isPosted t then !(writes.any (fun u => u.pieces.any sameTile)) && !(before.any sameTile)
  else writes.isEmpty

/-- The first piece of a TLP to issue now. -/
def nextPiece (d : Dev) (p : Nat) (t : Tlp) (earlier : List Tlp) : List Piece → List Piece → Nat → Option Nat
  | _, [], _ => none
  | before, e :: es, i =>
    let go := match pieceIs d p t e with
      | .fresh => mayIssue t earlier before e
      | .again => true
      | _ => false
    if go then some i else nextPiece d p t earlier (before ++ [e]) es (i + 1)

/-- The first TLP of a port with a piece to issue, and the piece. -/
def nextIssue (d : Dev) (p : Nat) : List Tlp → List Tlp → Option (Tlp × Nat)
  | _, [] => none
  | earlier, t :: ts =>
    match nextPiece d p t earlier [] t.pieces 0 with
    | some i => some (t, i)
    | none => nextIssue d p (earlier ++ [t]) ts

/-- Issue one piece (13 R408, R411). -/
def issuePiece (d : Dev) (p : Nat) (t : Tlp) (i : Nat) : Dev :=
  match t.pieces[i]? with
  | none => d
  | some e =>
    let e1 := { e with attempts := e.attempts + 1, answer := none }
    let put (u : Tlp) : Tlp := { u with pieces := modAt (fun _ => e1) u.pieces i }
    let d1 := onPort d p (fun pt => { pt with tlps := modFirst (fun u => u.id == t.id) put pt.tlps })
    enter d1 (pieceReq d1 p t i e1) p

/-- The TLP has its last answer; one of no bytes waits for the earlier posted writes of its function (13 R409). -/
def tlpDone (d : Dev) (p : Nat) (t : Tlp) : Bool :=
  t.pieces.all (fun e => match pieceIs d p t e with | .done _ => true | _ => false) &&
  (!t.pieces.isEmpty || isPosted t ||
    ((port d p).tlps.takeWhile (fun u => u.id != t.id)).all (fun u => !(isPosted u && u.fn == t.fn)))

/-- Class of a final code (13 R411): 0 success, 1 poison, 2 Unsupported Request, 3 Completer Abort. -/
def codeClass (c : Nat) : Nat :=
  if c == cOK then 0 else if c == cPOISON then 1
  else if c == cDENIED || c == cREVOKED || c == cFENCED || c == cSTALE || c == cUNSUP || c == cLENGTH then 2 else 3

/-- Report an Unsupported Request of a posted write through AER (13 R411). -/
def reportUr (d : Dev) (p fn : Nat) : Dev := if (port d p).up then emit d (.aer p fn) else d

/-- Log a failed posted piece (13 R411). -/
def logPiece (d : Dev) (p : Nat) (t : Tlp) (e : Piece) (c : Nat) : Dev :=
  let page := pg 0x12 p
  raiseFe (count d page 0x820) page 2
    { unit := false, addr := d.xmap.node * 2 ^ 48 + e.off, src := t.endPoint, job := t.job, reqId := t.id, code := c }

/-- Completions of a read's bytes in address order, split at read completion boundaries of 128 bytes; `at_`: address of the first
(13 R408). -/
def cplParts (at_ : Nat) (l : List Byte) : List (List Byte) :=
  let first := 128 - at_ % 128
  l.take first :: chunks (ceilDiv (l.length - first) 128) 128 (l.drop first)

/-- Send a completion and count its status (13 R408, R411). -/
def complete (d : Dev) (p fn cls : Nat) (n : Nat) (data : List Byte) (at_ : Nat := 0) : Dev :=
  let page := pg 0x12 p
  if cls == 0 then (cplParts at_ data).foldl (fun d l => emit d (.cpl p fn 0 false l)) d
  else if cls == 1 then
    let r := freeBytes n d
    (cplParts at_ r.1).foldl (fun d l => emit d (.cpl p fn 0 true l)) r.2
  else if cls == 2 then emit (count d page 0x810) (.cpl p fn 1 false [])
  else emit (count d page 0x818) (.cpl p fn 4 false [])

/-- Answer a CXL access (13 R417): poison where its request did not complete with OK. -/
def completeCxl (d : Dev) (p kind : Nat) (c : Nat) (data : List Byte) : Dev :=
  if kind == 4 then emit d (.cmp p)
  else if c == cOK then emit d (.memData p false data)
  else emit (count d (pg 0x12 p) 0x828) (.memData p true (List.replicate 64 0))

/-- Answer a TLP from its pieces' final codes, and let it go. -/
def finishTlp (d : Dev) (p : Nat) (t : Tlp) : Dev :=
  let codes := t.pieces.map (fun e => match e.answer with | some (c, _) => c | none => cBUSY)
  let data := t.pieces.flatMap (fun e => match e.answer with | some (_, l) => l | none => [])
  let c := (codes.find? (fun c => c != cOK)).getD cOK
  let d1 := onPort d p (fun pt => { pt with tlps := pt.tlps.filter (fun u => u.id != t.id) })
  if isPosted t then
    (t.pieces.zip codes).foldl (fun d e =>
      if e.2 == cOK then d
      else
        let d2 := logPiece d p t e.1 e.2
        if codeClass e.2 == 2 then reportUr d2 p t.fn else d2) d1
  else if t.drop then d1
  else if 3 ≤ t.kind then
    let d2 := if t.kind == 4 then
        (t.pieces.zip codes).foldl (fun d e => if e.2 == cOK then d else logPiece d p t e.1 e.2) d1
      else d1
    completeCxl d2 p t.kind c data
  else complete d1 p t.fn (codeClass c) (total (t.pieces.map (fun e => e.bytes))) data (((t.pieces.map (·.off)).head?).getD 0)

/-- One thing a port has to do: answer a TLP, or issue a piece. -/
def portStep (d : Dev) (p : Nat) : Option Dev :=
  match (port d p).tlps.find? (tlpDone d p) with
  | some t => some (finishTlp d p t)
  | none =>
    match nextIssue d p [] (port d p).tlps with
    | some (t, i) => some (issuePiece d p t i)
    | none => none

/-- What both ports go on with, at most `k` things. -/
def pump : Nat → Dev → Dev
  | 0, d => d
  | k + 1, d =>
    match portStep d 0 with
    | some d1 => pump k (drainAll d1)
    | none => match portStep d 1 with
      | some d1 => pump k (drainAll d1)
      | none => d

/-- Things the ports may still do: a piece is issued at most once more than PCIE_RETRY_MAX, 15 at most. -/
def pumpFuel (d : Dev) : Nat :=
  total (d.ports.map (fun p => total (p.tlps.map (fun t => 1 + 17 * t.pieces.length))))


/-- The walk over one line: INV to its sharers, or RECALL to its owner (02 R53). -/
def walkLine (bank : Nat) (d : Dev) (line : Nat) : Dev :=
  match dirFind d bank line with
  | none => d
  | some e =>
    if d.wharf.epValid then openTrans d bank line .walk (if e.st == .owned then .recall else .inv) (pointees d e) [] else d

/-- The extent of a MODIFY whose walk runs. -/
def walkExt (d : Dev) : Option Extent :=
  if d.toll.walkWait then d.toll.pending.bind (fun p => extOf d (fld p.d1.toNat 21 27)) else none

/-- The walk of a MODIFY goes on over the lines that are free: no transaction of theirs is open, and no request that passed
before the take-effect point still asks for them (05 R175). -/
def walkOn (d : Dev) : Dev :=
  match walkExt d with
  | none => d
  | some x =>
    let bank := extBank x
    let asks (l : Nat) : Bool := d.flying.any (fun f => d.toll.walkIds.contains f.id && lineOf x f.q.h.offset.toNat == l)
    let busy (l : Nat) : Bool := (transOf d bank l).isSome || asks l
    let free := d.toll.walkLines.filter (fun l => !busy l)
    free.foldl (walkLine bank) { d with toll.walkLines := d.toll.walkLines.filter busy }

/-- A MODIFY whose walk has had its last answer is DONE (05 R175). -/
def walkEnd (d : Dev) : Dev :=
  match walkExt d with
  | none => d
  | some x =>
    if d.toll.walkLines.isEmpty && !(d.quay.trans.any (fun t => t.kind == .walk && inWindow x t.line)) then
      { d with toll.pending := none, toll.walkWait := false, toll.walkIds := [], toll.done := true, toll.result := cOK }
    else d

/-- While an extent is held at a move's switch or a snapshot's hold, its owned lines are recalled and its accumulators written
back, those too that requests before the hold have left (03 R106; 05 R158, R169; 08 R275). -/
def quietHeld (d : Dev) : Dev :=
  (d.toll.extents.filter (fun x => x.held)).foldl (fun d x => recallOwned (startWbs d x) x) d

/-- What the device goes on with by itself after a command: closed transactions, the ports, requests that have a credit again, the
walks and recalls of extents, then the Tow's queues. -/
def goOn (d : Dev) : Dev :=
  let d1 := drainAll (combOn (drainAll d))
  let d2 := takeTurns (d1.flying.filter (fun f => f.wait == .turn)).length d1
  let d3 := pump (pumpFuel d2) d2
  let d4 := sendCredited (d3.flying.filter (fun f => f.wait == .credit)).length d3
  hostOn (towOn (walkEnd (drainAll (quietHeld (walkOn d4)))))

/-- A command on requests: its effect, and what the device goes on with. -/
def State.runReq (f : Dev → Dev) (s : State) : Host.Outcome State Fault Refusal := s.run (fun d => goOn (f d))

end Sys2Proof.Machine
end

