-- ==== Sys2Proof/Machine/Memory.lean ====
section
/-! DEFINITION. The commands of the memory requests (04, 05, 11), of the home's own work (store acknowledgements, stack
deltas, eddy write-backs), of snoop answers and time-outs, and of errors in the Quay's and the Toll's arrays. -/

namespace Sys2Proof.Machine

open Sys2Proof

/-! ## Requests on a Landing -/

/-- RD (02 R48). -/
def execRd (ld : Nat) (h : Hdr) (s : State) : Host.Outcome State Fault Refusal :=
  s.runReq (fun d => landRequest d ld .rd false h [])

/-- WR (02 R48; 01 R35). -/
def execWr (ld : Nat) (h : Hdr) (l : List Byte) (s : State) : Host.Outcome State Fault Refusal :=
  s.runReq (fun d => landRequest d ld .wr false h l)

/-- ATOMIC (04 R137-R141): on classes 0 and 1 it is a home atomic. -/
def execAtomic (ld : Nat) (h : Hdr) (l : List Byte) (s : State) : Host.Outcome State Fault Refusal :=
  s.runReq (fun d => landRequest d ld .atomic (decide (h.tc.toNat < 4)) h l)

/-- A home atomic (04 R142). -/
def execHomeAtomic (ld : Nat) (h : Hdr) (l : List Byte) (s : State) : Host.Outcome State Fault Refusal :=
  s.runReq (fun d => landRequest d ld .atomic (decide (h.tc.toNat < 4)) h l)

/-- PUBLISH (04 R144). -/
def execPublish (ld : Nat) (h : Hdr) (l : List Byte) (s : State) : Host.Outcome State Fault Refusal :=
  s.runReq (fun d => landRequest d ld .publish true h l)

/-- ACQUIRE (04 R126). -/
def execAcquire (ld : Nat) (h : Hdr) (s : State) : Host.Outcome State Fault Refusal :=
  s.runReq (fun d => landRequest d ld .acquire false h [])

/-- FLUSH (04 R126). -/
def execFlush (ld : Nat) (h : Hdr) (s : State) : Host.Outcome State Fault Refusal :=
  s.runReq (fun d => landRequest d ld .flush false h [])

/-- EADD (05 R167, R168). -/
def execEadd (ld : Nat) (h : Hdr) (l : List Byte) (s : State) : Host.Outcome State Fault Refusal :=
  s.runReq (fun d => landRequest d ld .eadd false h l)

/-- RD_SHARED (05 R158). -/
def execRdShared (ld : Nat) (h : Hdr) (s : State) : Host.Outcome State Fault Refusal :=
  s.runReq (fun d => landRequest d ld .rdShared false h [])

/-- RD_OWN (05 R158). -/
def execRdOwn (ld : Nat) (h : Hdr) (s : State) : Host.Outcome State Fault Refusal :=
  s.runReq (fun d => landRequest d ld .rdOwn false h [])

/-- UPGRADE (05 R158). -/
def execUpgrade (ld : Nat) (h : Hdr) (s : State) : Host.Outcome State Fault Refusal :=
  s.runReq (fun d => landRequest d ld .upgrade false h [])

/-- WB (05 R158). -/
def execWb (ld : Nat) (h : Hdr) (l : List Byte) (s : State) : Host.Outcome State Fault Refusal :=
  s.runReq (fun d => landRequest d ld .wb false h l)

/-- EVICT_CLEAN (05 R158). -/
def execEvictClean (ld : Nat) (h : Hdr) (s : State) : Host.Outcome State Fault Refusal :=
  s.runReq (fun d => landRequest d ld .evictClean false h [])

/-- A store to a doorbell (02 R67): a WR whose OFFSET lies in the doorbell window. -/
def execDoorbellStore (ld : Nat) (h : Hdr) (l : List Byte) (s : State) : Host.Outcome State Fault Refusal :=
  s.runReq (fun d => landRequest d ld .wr false h l)

/-! ## RD_COMB (11 R358, R359) -/

/-- Whether two constituents share a source. -/
def sharesSrc : List (Nat × Nat) → Bool
  | [] => false
  | a :: l => l.any (fun b => b.1 == a.1) || sharesSrc l

/-- RD_COMB on a Landing (11 R358). -/
def combArrive (d : Dev) (n : Nat) (h : Hdr) (others : List (BitVec 18 × BitVec 16)) (rsvd : Bool) : Dev :=
  if !landOpen d n then d
  else
    let bank := n / 8
    let parts := (h.src.toNat, h.reqId.toNat) :: others.map (fun o => (o.1.toNat, o.2.toNat))
    let d1 := count (arrive d n .rdComb h) (pgI 0x11 8 n) 0x848
    let d2 := others.foldl (fun d o => onLand d n (fun l => { l with
      accepted := l.accepted ++ [{ flit := l.rxFlits, src := o.1.toNat, reqId := o.2.toNat }] })) d1
    let q (p : PartIs) : Req := { op := .rdComb, origin := .comb n (parts.map (fun c => (c.1, c.2, p))), h := h }
    if quiet d2 then refuseReq (count d2 (pg 0x03 0) 0x818) (q (.answered cABORTED)) cABORTED
    else if headerBad 0x18 h || rsvd || (land d n).gen2 || h.aux.toNat < 2 || 8 < h.aux.toNat ||
        parts.length != h.aux.toNat || sharesSrc parts then
      refuseReq (count d2 (pgI 0x11 8 n) 0x850) (q (.answered cUNSUP)) cUNSUP
    else fromLanding d2 n (q .fresh)

/-- RD_COMB (11 R358). -/
def execRdComb (ld : Nat) (h : Hdr) (others : List (BitVec 18 × BitVec 16)) (rsvd : Bool) (s : State) :
    Host.Outcome State Fault Refusal :=
  s.runReq (fun d => combArrive d ld h others rsvd)

/-! ## The home's own work -/

/-- STORE_ACK (01 R35): a performed store is acknowledged. -/
def storeAcked (d : Dev) (id : Nat) : Dev :=
  match flyingOf d id with
  | some f => match f.wait with
    | .ack st l => finishFlying d f st l
    | _ => d
  | none => d

def execStoreAck (id : Nat) (s : State) : Host.Outcome State Fault Refusal :=
  s.runReq (fun d => storeAcked d id)

/-- STACK_DELTA_APPLY (03 R87, R88, R90): the oldest delta queued for a stripe is applied to its parity unit; where that
unit is not served, the stripe is logged, in the bank of the parity unit's position (DESIGN CHOICE, log 156). -/
def deltaApply (d : Dev) (chan stripe : Nat) : Dev :=
  let mine (x : Nat × Nat × Nat × List Byte) : Bool := x.1 == chan && x.2.1 == stripe
  match d.tiers.deltas.find? mine with
  | none => d
  | some x =>
    let d1 := { d with tiers.deltas := delFirst mine d.tiers.deltas }
    let pp := parityPos chan stripe
    match unitState d pp chan stripe with
    | .up _ => applyDelta d1 x
    | _ => logStripe d1 (if pp < 5 then 0 else 1) chan stripe

def execStackDeltaApply (chan stripe : Nat) (s : State) : Host.Outcome State Fault Refusal :=
  s.runReq (fun d => deltaApply d chan stripe)

/-- EDDY_WRITEBACK_DONE (05 R169). -/
def execEddyWritebackDone (bank offset : Nat) (s : State) : Host.Outcome State Fault Refusal :=
  s.runReq (fun d => match accumAt d bank offset with
    | some a => if a.writingBack then finishWb d bank offset else d
    | none => d)

/-- EDDY_IDLE_EXPIRY (05 R169, case 4): no EADD for EDDY_IDLE cycles. -/
def execEddyIdleExpiry (bank offset : Nat) (s : State) : Host.Outcome State Fault Refusal :=
  s.runReq (fun d => match accumAt d bank offset with
    | some a =>
      if a.writingBack then d
      else startWb (advanceTo d (a.lastAdd + reg d (pg 0x41 bank + 0x100))) bank offset []
    | none => d)

/-! ## Snoops (05 R157-R163) -/

/-- The transaction and snoop of a snoop ID. -/
def snoopOf (d : Dev) (id : Nat) : Option (Trans × Snoop) :=
  d.quay.trans.findSome? (fun t => (t.snoops.find? (fun s => s.id == id)).map (fun s => (t, s)))

/-- Whether an answer answers a kind of snoop (05, Messages). -/
def answers (k : SnoopKind) (a : SnoopAnswer) : Bool :=
  match k, a with
  | .inv, .invAck => true
  | .inv, .notHeld => true
  | .inv, _ => false
  | _, .invAck => false
  | _, _ => true

/-- SNOOP_ANS (05 R157): the first answer of each snoop counts, later ones are discarded; a late DATA is counted. -/
def snoopAnswered (d : Dev) (n : Nat) (id agent : Nat) (a : SnoopAnswer) (tchk : Nat) (data : List Byte) : Dev :=
  if !landOpen d n then d
  else
    let d1 := freeSlots d n 2 (1 + (if a == .data then 4 else 0))
    match snoopOf d1 id with
    | some (t, s) =>
      if s.endPoint != agent || !answers s.kind a then d1
      else if a == .data && crc32c (sub data 0 64) != tchk then
        sendRsp (count d1 (pg 0x10 t.bank) 0x820) n (n % 8) none 0 0 false (.rsp 0x34 id agent 0 0 0 0 [])
      else snoopEnd d1 t s a data
    | none => if a == .data then count d1 (pg 0x40 (n / 8)) 0x840 else d1

def execSnoopAns (ld : Nat) (snoopId : BitVec 16) (agent : BitVec 18) (a : SnoopAnswer) (tchk : BitVec 32)
    (data : List Byte) (s : State) : Host.Outcome State Fault Refusal :=
  s.runReq (fun d => snoopAnswered d ld snoopId.toNat agent.toNat a tchk.toNat data)

/-- QUAY_HOME_TIMEOUT (05 R161): the agent is stranded; an INV counts as answered, a recall poisons the line. -/
def homeTimeout (d : Dev) (id : Nat) : Dev :=
  match snoopOf d id with
  | none => d
  | some (t, s) =>
    let page := pg 0x40 t.bank
    let d1 := advanceTo d (s.sent + reg d (page + 0x100))
    let a := agentOf d1 s.agent
    let d2 := { d1 with quay.agents := NMap.set {} d1.quay.agents s.agent { a with stranded := true } }
    let off := match offsetOfLine d2 t.line with
      | some (_, o) => o
      | none => 0
    let d3 := raiseFe (count d2 page 0x818) page 0
      { unit := false, addr := d2.xmap.node * 2 ^ 48 + off, src := a.endPoint, job := a.job }
    let d4 := snoopEnd d3 t s .notHeld []
    if s.kind != .inv && t.kind == .sweep then loseLine d4 t.bank t.line s.agent else d4

def execQuayHomeTimeout (snoopId : BitVec 16) (s : State) : Host.Outcome State Fault Refusal :=
  s.runReq (fun d => homeTimeout d snoopId.toNat)

/-! ## Errors in the Quay's directory and the Toll cache (14 R437) -/

/-- Lines of moored extents homed in a bank that map to a set: one per tag. -/
def linesOfSet (d : Dev) (bank set : Nat) : List Nat :=
  ((List.range 4096).map (fun t => t * 2 ^ 18 + (set ^^^ (t * 64)) % 262144)).filter (fun l =>
    match offsetOfLine d l with
    | some (x, _) => extBank x == bank
    | none => false)

/-- The slots of valid agents. -/
def validAgents (d : Dev) : List Nat := (d.quay.agents.filter (fun a => a.2.valid)).map Prod.fst

/-- The transaction of a line whose entry is lost goes on as the line's sweep: RECALL to every valid agent that it has not asked for its
copy. -/
def sweepTrans (d : Dev) (t : Trans) : Dev :=
  let asked (a : Nat) : Bool := t.snoops.any (fun s => s.agent == a && s.kind != .recallShare)
  let r := sendSnoops t.bank t.line .recall 0 ((validAgents d).filter (fun a => !asked a)) d
  onTrans r.1 t.bank t.line (fun t => { t with kind := .sweep, snoops := t.snoops ++ r.2 })

/-- DIRECTORY_ECC_ERROR: the way is replaced from the spare pool or retired, and the set is swept. -/
def directoryError (d : Dev) (bank set way : Nat) : Dev :=
  let spare := if bank == 0 then d.quay.spareEast else d.quay.spareWest
  let d1 := if spare < 512 then
      (if bank == 0 then { d with quay.spareEast := spare + 1 } else { d with quay.spareWest := spare + 1 })
    else { d with quay.retired := NSet.add d.quay.retired (bank * 2 ^ 22 + set * 16 + way) }
  let d2 := { d1 with
    quay.dir := d1.quay.dir.filter (fun e => !(e.bank == bank && setOfLine e.line == set && e.way == way))
    quay.sweeps := if d1.quay.sweeps.contains (bank, set) then d1.quay.sweeps else d1.quay.sweeps ++ [(bank, set)] }
  let d3 := raise (degrade d2 bank) (pg 0x40 bank) 4
  if !d3.wharf.epValid then d3
  else (linesOfSet d3 bank set).foldl (fun d l =>
    if (dirFind d bank l).isSome then d
    else match transOf d bank l with
      | some t => sweepTrans d t
      | none => openTrans d bank l .sweep .recall (validAgents d) []) d3

def execDirectoryEccError (bank set way : Nat) (s : State) : Host.Outcome State Fault Refusal :=
  s.runReq (fun d => if bankLive d bank then directoryError d bank set way else d)

/-- DIRECTORY_SWEEP_DONE: every recall of the sweep has been answered; what waited for the set comes again. -/
def sweepDone (d : Dev) (bank set : Nat) : Dev :=
  let mine (t : Trans) : Bool := t.kind == .sweep && t.bank == bank && setOfLine t.line == set
  let busy (t : Trans) : Bool := !t.snoops.isEmpty || t.writes.any (fun w => (flyingOf d w).isSome)
  if !d.quay.sweeps.contains (bank, set) || d.quay.trans.any (fun t => mine t && busy t) then d
  else
    let ids := (d.quay.trans.filter mine).flatMap (fun t => t.waiters)
    let d1 := { d with
      quay.sweeps := d.quay.sweeps.filter (fun e => e != (bank, set))
      quay.trans := d.quay.trans.filter (fun t => !mine t) }
    wakeSet (retry ids d1) bank set

def execDirectorySweepDone (bank set : Nat) (s : State) : Host.Outcome State Fault Refusal :=
  s.runReq (fun d => sweepDone d bank set)

/-- TOLL_CACHE_ECC_ERROR: the entry is read again from the Toll table; a spare takes the way's place while one is left. -/
def execTollCacheEccError (bank : Nat) (s : State) : Host.Outcome State Fault Refusal :=
  s.run (fun d =>
    if !bankLive d bank then d
    else
      let d1 := if bank == 0 then { d with toll.spareEast := min 1024 (d.toll.spareEast + 1) }
                else { d with toll.spareWest := min 1024 (d.toll.spareWest + 1) }
      degrade d1 bank)

end Sys2Proof.Machine
end

