-- ==== Sys2Proof/Machine/Toll.lean ====
section
/-! DEFINITION. Toll commands (02 R44-R59, R73; 17 R533-R535, R545), job entries (02 R43, 14 R440), revocation and
handover; and the metered holdings of a berth (12 R396). -/

namespace Sys2Proof.Machine

open Sys2Proof

/-! ## Metered holdings (12 R396, R397) -/

/-- Clusters a copy stands on: by bank × 64 + cluster; a bank's cluster 4 × row + column. -/
def copyClusters (c : Copy) : List Nat :=
  (List.range c.h).flatMap (fun i => (List.range c.w).map (fun j => c.bank * 64 + (c.row + i) * 4 + c.col + j))

/-- A running descriptor of a berth that satisfies `p` holds a cluster, by bank × 64 + cluster. -/
def clusterHeld (d : Dev) (p : Nat → Bool) (k : Nat) : Bool :=
  d.raft.copies.any (fun c => (match c.holder with | some r => p r.berth | none => false) && (copyClusters c).contains k)

/-- A berth's clusters: those that a running descriptor of it holds, and of those the map gives it the ones that no other berth's
descriptor still holds (02 R62; 12 R397). -/
def clustersOf (d : Dev) (b : Nat) : List Nat :=
  (List.range 64).filter (fun i =>
    let k := bankOfBerth b * 64 + i
    clusterHeld d (fun x => x == b) k || (bit (berthOf d b).clusters.toNat i && !clusterHeld d (fun x => x != b) k))

/-- Clusters held by a running descriptor of a berth. -/
def clustersHeld (d : Dev) (b : Nat) : Nat :=
  ((List.range 64).filter (fun i => clusterHeld d (fun x => x == b) (bankOfBerth b * 64 + i))).length

/-- A berth's rings: the map's, and those above that its descriptors still run on (02 R62; 12 R397). -/
def ringsOf (d : Dev) (b : Nat) : Nat :=
  let n := (berthOf d b).rings
  let above := (d.descs.filter (fun x => x.r.berth == b && decide (n ≤ x.r.ring))).map (fun x => x.r.ring)
  n + (above.foldl NSet.add []).length

/-- A berth's queue sets: the map's, or what a descriptor of it still holds (02 R62; 12 R397). -/
def qsetsOf (d : Dev) (b : Nat) : Nat :=
  (d.descs.filter (fun x => x.r.berth == b)).foldl (fun m x => max m x.qsets) (berthOf d b).qsets

/-- Revocation and snapshot slots held for a berth. -/
def slotsHeld (d : Dev) (b : Nat) : Nat :=
  (d.toll.slots.filter (fun s => s.busy && (match extOf d s.base with | some x => x.e.berth == b | none => false))).length +
  (d.tiers.snaps.filter (fun s => s.st != .free && s.berth == b)).length

/-- The eight holdings of a berth. -/
def holdings (d : Dev) (b : Nat) : List Nat :=
  let m := berthOf d b
  [(clustersOf d b).length, clustersHeld d b, m.nearQuota, m.stackQuota, m.flashQuota, ringsOf d b, qsetsOf d b, slotsHeld d b]

/-- The integrals of a berth brought up to now. -/
def meterNow (d : Dev) (b : Nat) : Meter :=
  let m := NMap.get {} d.sched.meters b
  let dt := d.sys.ltc - m.at_
  { m with ints := (m.ints.zip (holdings d b)).map (fun p => (p.1 + p.2 * dt) % 2 ^ 64), at_ := d.sys.ltc }

/-- Bring a berth's integrals up to now, before a holding changes. -/
def accrue (d : Dev) (b : Nat) : Dev := { d with sched.meters := NMap.set {} d.sched.meters b (meterNow d b) }

/-! ## Entries (02 R44; 17 R533) -/

/-- What a word tests for reserved bits and codes, and the entry it spells. -/
structure RawEntry where
  valid : Bool
  bad : Bool
  readOnly : Bool
  e : Entry
  deriving DecidableEq, Repr

def tierOf (c : Nat) : Tier := if c == 0 then .near else if c == 1 then .stack else if c == 2 then .flash else .host

def tierCode : Tier → Nat
  | .near => 0 | .stack => 1 | .flash => 2 | .host => 3

/-- Read an operand entry. Bits 20 to 0 of word 1, to which 02 R44 gives no meaning, are reserved (DESIGN CHOICE, log 135). -/
def rawEntry (p : TollPending) : RawEntry :=
  let a := p.d0.toNat
  let b := p.d1.toNat
  let c := p.d2.toNat
  let w := p.d3.toNat
  { valid := bit a 0
    bad := fld a 1 2 == 3 || fld a 4 2 == 3 || decide (3 < fld a 6 3) || fld a 34 2 == 2 || fld a 45 19 != 0 ||
      fld b 0 21 != 0 || fld b 48 16 != 0 || fld c 53 11 != 0 ||
      fld w 12 12 != 0 || fld w 38 22 != 0 || fld w 62 2 != 0
    readOnly := fld w 60 2 != 0 || fld w 24 2 != 0 || fld w 26 12 != 0
    e := { size := fld a 1 2, moored := bit a 3, prot := fld a 4 2, tier := tierOf (fld a 6 3), ownerWr := bit a 9,
           ownerJob := fld a 10 12, guestJob := fld a 22 12, guestRights := fld a 34 2, berth := fld a 36 8, zero := bit a 44,
           base := fld b 21 27, localBase := fld c 0 26, keySlot := fld c 26 12, encrypt := bit c 38, partner := fld c 39 14,
           convoy := fld w 0 12 } }

/-- The words READ shows (17 R533): STATE is a handover before a tier move, where both hold (DESIGN CHOICE, log 135). -/
def entryWords (x : Extent) : List Nat :=
  let e := x.e
  let st := if x.revoking then 1 else if x.token != .owned then 2 else if x.moving then 3 else 0
  let tok := match x.token with | .owned => 0 | .offered => 1 | .draining => 2
  [1 + e.size * 2 + b2n e.moored * 2 ^ 3 + e.prot * 2 ^ 4 + tierCode e.tier * 2 ^ 6 + b2n e.ownerWr * 2 ^ 9 + e.ownerJob * 2 ^ 10 +
     e.guestJob * 2 ^ 22 + e.guestRights * 2 ^ 34 + e.berth * 2 ^ 36 + b2n e.zero * 2 ^ 44,
   e.base * 2 ^ 21,
   e.localBase + e.keySlot * 2 ^ 26 + b2n e.encrypt * 2 ^ 38 + e.partner * 2 ^ 39,
   e.convoy + tok * 2 ^ 24 + (if x.token == .owned then 0 else x.receiver) * 2 ^ 26 + st * 2 ^ 60]

/-! ## INSERT (02 R45, R46, R78; 05 R149, R150; 15 R473) -/

/-- The lowest free aligned range of the moored window, in 2 MiB units (05 R149). -/
def findWindow (d : Dev) (size : Nat) : Option Nat :=
  let units := sizeBytes size / 2 ^ 21
  let used := d.toll.extents.filter (fun x => x.e.moored)
  (findBelow (32768 / units) (fun k =>
    !(used.any (fun x => overlap (k * units) units x.window (extBytes x / 2 ^ 21))))).map (fun k => k * units)

/-- Entries of a set and of the overflow area (02 R46): an extent beyond the eighth of its set lies in the overflow. -/
def setCount (d : Dev) (set : Nat) : Nat :=
  (d.toll.extents.filter (fun x => Config.tollHash x.e.base % 130560 == set)).length

/-- Extents in the overflow area: of each set, those beyond eight of the present ones (DESIGN CHOICE, log 135). `seen` are the sets
counted already. -/
def overflowOf (d : Dev) : List Extent → List Nat → Nat
  | [], _ => 0
  | x :: l, seen =>
    let s := Config.tollHash x.e.base % 130560
    if seen.contains s then overflowOf d l seen else (setCount d s - 8) + overflowOf d l (s :: seen)

/-- The code INSERT is refused with, or OK: UNSUPPORTED comes before LENGTH (02 R45). -/
def insertCode (d : Dev) (r : RawEntry) : Nat :=
  let e := r.e
  let x : Extent := { e := e }
  let n := extBytes x
  let units := n / 2 ^ 21
  let off := extBase x
  let top := e.localBase * 2 ^ 21 + n
  let sameSpace (y : Extent) : Bool :=
    y.e.tier == e.tier && (if e.tier == .host then bankOfBerth y.e.berth == bankOfBerth e.berth else y.e.berth == e.berth)
  let key := NMap.get {} d.cust.keys e.keySlot
  let unsup := !r.valid || r.bad || r.readOnly || e.base % units != 0 || decide (off < 2 ^ 21) ||
    decide (doorbellBase < off + n) ||
    d.toll.extents.any (fun y => overlap off n (extBase y) (extBytes y)) ||
    d.toll.extents.any (fun y => sameSpace y && overlap (e.localBase * 2 ^ 21) n (y.e.localBase * 2 ^ 21) (extBytes y)) ||
    (e.tier == .host && (reg d (pg 0x12 (bankOfBerth e.berth) + 0x130) == 0 || e.moored)) ||
    (e.moored && e.tier == .flash) ||
    (e.encrypt && !(key.loaded && key.job == e.ownerJob))
  let set := Config.tollHash e.base % 130560
  let length := decide (capacity d e.tier e.berth < top) ||
    (e.moored && (findWindow d e.size).isNone) ||
    (decide (8 ≤ setCount d set) && decide (4096 ≤ overflowOf d d.toll.extents []))
  if unsup then cUNSUP else if length then cLENGTH else cOK

/-! ## MODIFY (02 R51; 05 R175) -/

/-- Fields that MODIFY may not change. -/
def fixedPart (e : Entry) : Entry := { e with guestJob := 0, guestRights := 0, ownerWr := false }

/-- Jobs that a change takes every access from. -/
def losers (old new : Extent) : List Nat :=
  [old.e.ownerJob, old.e.guestJob].filter (fun j => hasRights old j false && !hasRights new j false)

/-- A change that removes rights of a job. -/
def removesRights (old new : Extent) : Bool :=
  [old.e.ownerJob, old.e.guestJob].any (fun j =>
    (hasRights old j false && !hasRights new j false) || (hasRights old j true && !hasRights new j true))

/-- Drop the pins of jobs on an extent (03 R110). -/
def dropPins (d : Dev) (bank base : Nat) (jobs : List Nat) : Dev :=
  { d with tiers.pins := d.tiers.pins.filter (fun p => !(p.bank == bank && p.base == base && jobs.contains p.job)) }

/-- Drop every pin on an extent. -/
def dropAllPins (d : Dev) (base : Nat) : Dev := { d with tiers.pins := d.tiers.pins.filter (fun p => p.base != base) }

/-- The walk of 02 R53 step 3 over the lines of a moored extent: INV to sharers, RECALL to owners. -/
def walkExtent (d : Dev) (x : Extent) : Dev :=
  let bank := extBank x
  let todo := d.quay.dir.filter (fun e => e.bank == bank && inWindow x e.line && (transOf d bank e.line).isNone)
  if !x.e.moored || !d.wharf.epValid then d
  else todo.foldl (fun d e =>
    openTrans d bank e.line .walk (if e.st == .owned then .recall else .inv) (pointees d e) []) d

/-- Step 3 of 02 R53 and case 6 of 05 R169: the walk of a moored extent, or the read-side caches of a drift extent; and
the write-back of its accumulators. -/
def startWalk (d : Dev) (x : Extent) : Dev :=
  let d1 := cacheDrop (walkExtent d x) (fun c => covers x c.offset)
  startWbs d1 x

/-- What still keeps the walk of an extent from its end. -/
def walkBusy (d : Dev) (x : Extent) : Bool :=
  d.quay.trans.any (fun t => inWindow x t.line) || d.quay.dir.any (fun e => inWindow x e.line) || !(accumsOfExt d x).isEmpty

/-- Requests of a drain (02 R53): passed the Toll, and neither acknowledged nor failed. -/
def drainCount (d : Dev) (base : Nat) : Nat := (d.flying.filter (fun f => f.base == base && passedToll f)).length

/-- The items of a slot that `hit` names stop with a code: nothing of theirs is copied ahead, waits for room or has been read
(08 R278). -/
def stopItems (hit : SnapItem → Bool) (code : Nat) (s : SnapSlot) : SnapSlot :=
  let goes (k : Nat) : Bool := match s.items[k]? with
    | some i => !hit i
    | none => false
  { s with items := s.items.map (fun i => if hit i then { i with failed := true, done := true, status := code } else i)
           ahead := s.ahead.filter (fun a => goes a.1)
           full := s.full.bind (fun f => if goes f.1 then some f else none)
           formed := s.formed.filter (fun g => goes g.item) }

/-- A snapshot's items on an extent stop; the other items go on (08 R278). -/
def stopSnaps (d : Dev) (base : Nat) : Dev :=
  let hit (i : SnapItem) : Bool := i.src == base || i.dest == base || (i.bounce != 0 && i.bounce == base)
  let d1 := { d with tiers.snaps := d.tiers.snaps.map (stopItems hit cREVOKED) }
  (List.range d1.tiers.snaps.length).foldl noteDraining d1

/-- A request waits for a snapshot's copy that is done, or needed no more. -/
def snapOver (d : Dev) (f : Flying) : Bool :=
  match f.wait, extOf d f.base with
  | .snap _ _, some x => (snapNeeds d x f.q.h.offset.toNat).isNone
  | .snap _ _, none => true
  | _, _ => false

/-- The cycles of a write's wait for a snapshot's copy (08 R276; 03 R115). -/
def noteSnapWait (d : Dev) (f : Flying) : Dev :=
  match f.wait, extOf d f.base with
  | .snap since full, some x =>
    let d1 := count d (pg 0x33 f.homeBank) 0x848 (d.sys.ltc - since)
    match full with
    | some t => stallTime d1 x.e.berth 4 (d.sys.ltc - t)
    | none => d1
  | _, _ => d

/-- Writes whose tiles a snapshot has copied, or copies no more, come again, in order. -/
def endSnapWaits (d : Dev) : Dev :=
  let l := d.flying.filter (snapOver d)
  retry (l.map (fun f => f.id)) (l.foldl noteSnapWait d)

/-! ## Starting a command (02 R50, R52, R73) -/

/-- The code of a command at its take-effect point, OK where it takes effect (17 R545). -/
def tollCode (d : Dev) (p : TollPending) : Nat :=
  let base := fld p.d1.toNat 21 27
  let free := d.toll.slots.any (fun s => !s.busy)
  match p.op with
  | .insert => insertCode d (rawEntry p)
  | .jobWrite =>
    let ds := [p.d0.toNat, p.d1.toNat, p.d2.toNat, p.d3.toNat]
    let bad (i n : Nat) : Bool :=
      decide (262144 < fld n 18 19) || fld n 37 3 != 0 ||
      (if i == 0 then fld n 41 3 != 0 else if i == 1 then fld n 37 11 != 0 else fld n 37 27 != 0)
    if (ds.zipIdx).any (fun x => bad x.2 x.1) then cUNSUP else cOK
  | op =>
    match extOf d base with
    | none => cDENIED
    | some x =>
      match op with
      | .read => cOK
      | .revoke => if x.revoking then cOK else if x.token != .draining && !free then cBUSY else cOK
      | .modify =>
        if x.revoking then cREVOKED
        else if x.token == .draining then cBUSY
        else
          let r := rawEntry p
          if r.bad || !r.valid || fixedPart r.e != fixedPart x.e then cUNSUP else cOK
      | .offer => if x.revoking then cREVOKED else if x.token == .owned then cOK else cBUSY
      | .accept =>
        if x.revoking then cREVOKED
        else if x.token != .offered || x.receiver != p.job then cDENIED
        else if free then cOK else cBUSY
      | .cancel => if x.revoking then cREVOKED else if x.token == .offered then cOK else cDENIED
      | _ => cUNSUP

/-- A command completes with a code. -/
def tollEnd (d : Dev) (code : Nat) : Dev :=
  { d with toll.pending := none, toll.walkWait := false, toll.done := true, toll.result := code }

def tollOpOf (c : Nat) : Option TollOp :=
  match c with
  | 1 => some .insert | 2 => some .modify | 3 => some .revoke | 4 => some .offer | 5 => some .accept | 6 => some .cancel
  | 7 => some .read | 8 => some .jobWrite
  | _ => none

/-- A write of TOLL_CMD (02 R52, R73): a command that fails its checks completes at once. RESULT and SLOT are cleared as it is written
(DESIGN CHOICE, log 155). -/
def tollCmd (d : Dev) (v : Nat) : Dev :=
  if d.toll.pending.isSome then raise { d with toll.lost := true } (pg 0x20 0) 3
  else
    let data (k : Nat) : Word := .ofNat 64 (reg d (pg 0x20 0 + 0x100 + 8 * k))
    let d1 := { d with toll.done := false, toll.result := 0, toll.slot := 0 }
    match tollOpOf (fld v 0 4) with
    | none => tollEnd d1 cUNSUP
    | some op =>
      let p : TollPending := { op := op, job := fld v 4 12, d0 := data 0, d1 := data 1, d2 := data 2, d3 := data 3 }
      let c := tollCode d1 p
      if c == cOK then cross { d1 with toll.pending := some p } 0 1 .update 0 else tollEnd d1 c

/-! ## Take-effect points -/

/-- The job entry of JOB_WRITE (17 R533). -/
def jobEntry (p : TollPending) : Job :=
  let ds := [p.d0.toNat, p.d1.toNat, p.d2.toNat, p.d3.toNat]
  { valid := bit p.d0.toNat 40, pool := fld p.d0.toNat 44 4, tide := fld p.d0.toNat 48 16 + fld p.d1.toNat 48 16 * 65536
    ranges := (ds.map (fun n => (fld n 0 18, fld n 18 19))).filter (fun r => r.2 != 0) }

/-- Insert an extent, with its range of the moored window (05 R149) and its key (15 R473). -/
def insertExt (d : Dev) (e : Entry) : Dev :=
  let x : Extent := { e := e, window := if e.moored then (findWindow d e.size).getD 0 else 0 }
  let d1 := { d with toll.extents := insertBy (fun y => y.e.base) x d.toll.extents }
  if e.encrypt then
    let k := NMap.get {} d1.cust.keys e.keySlot
    { d1 with cust.keys := NMap.set {} d1.cust.keys e.keySlot { k with refs := k.refs + 1 } }
  else d1

/-- Take a revocation slot for an extent, the lowest that is free (02 R54 says only that there are 16; DESIGN CHOICE, log 153); SLOT shows
its number. -/
def takeSlot (d : Dev) (x : Extent) (handover : Bool) : Dev :=
  let d := accrue d x.e.berth
  let k := (findBelow 16 (fun i => match d.toll.slots[i]? with | some s => !s.busy | none => false)).getD 0
  let s : RvkSlot := { busy := true, handover := handover, base := x.e.base, since := d.sys.ltc }
  { d with toll.slots := modAt (fun _ => s) d.toll.slots k, toll.slot := k }

/-- The slot that tracks an extent. -/
def slotTracking (d : Dev) (base : Nat) : Nat := (d.toll.slots.findIdx? (fun s => s.busy && s.base == base)).getD 0

/-- The walk of a MODIFY begins: the lines of the extent that have an entry, and those that requests which passed before
the take-effect point ask for (05 R175). -/
def beginWalk (d : Dev) (x : Extent) : Dev :=
  let passed := d.flying.filter (fun f => f.base == x.e.base && isCaching f.q.op && passedToll f)
  let listed := (d.quay.dir.filter (fun e => e.bank == extBank x && inWindow x e.line)).map (fun e => e.line)
  let lines := (listed ++ passed.map (fun f => lineOf x f.q.h.offset.toNat)).foldl NSet.add []
  { d with toll.walkWait := true, toll.walkIds := passed.map (fun f => f.id), toll.walkLines := if d.wharf.epValid then lines else [] }

/-- TOLL_TAKE_EFFECT (02 R50): the pending command changes both banks' tables, or fails. A REVOKE of an extent that is draining goes on
with its slot's time and warned mark (DESIGN CHOICE, log 135). -/
def takeEffect (d : Dev) : Dev :=
  match d.toll.pending with
  | none => d
  | some p =>
    if d.toll.walkWait then d
    else
      let base := fld p.d1.toNat 21 27
      let c := tollCode d p
      if c != cOK then tollEnd d c
      else match p.op, extOf d base with
      | .insert, _ => tollEnd (insertExt d (rawEntry p).e) cOK
      | .jobWrite, _ => tollEnd { d with toll.jobs := NMap.set {} d.toll.jobs p.job (jobEntry p) } cOK
      | .read, some x =>
        let put (d : Dev) (v : Nat × Nat) : Dev := setReg d (pg 0x20 0 + 0x100 + 8 * v.2) v.1
        tollEnd ((entryWords x).zipIdx.foldl put d) cOK
      | .modify, some x =>
        let e := (rawEntry p).e
        let y := { x with e := { x.e with guestJob := e.guestJob, guestRights := e.guestRights, ownerWr := e.ownerWr } }
        let d1 := dropPins (onExt d base (fun _ => y)) (extBank x) base (losers x y)
        if removesRights x y then
          if x.e.moored then beginWalk d1 y
          else tollEnd (cacheDrop d1 (fun c => covers x c.offset && (losers x y).contains c.job)) cOK
        else tollEnd d1 cOK
      | .revoke, some x =>
        if x.revoking then tollEnd { d with toll.slot := slotTracking d base } cOK
        else if x.moving then d
        else
          let d1 := if x.token == .draining then
              let put (s : RvkSlot) : RvkSlot := if s.busy && s.base == base then { s with handover := false } else s
              { d with toll.slots := d.toll.slots.map put, toll.slot := slotTracking d base }
            else takeSlot d x false
          let y := { x with revoking := true, token := .owned }
          tollEnd (startWalk (endSnapWaits (stopSnaps (onExt d1 base (fun _ => y)) base)) y) cOK
      | .offer, some x => tollEnd (onExt d base (fun _ => { x with token := .offered, receiver := p.job, offeredAt := d.sys.ltc })) cOK
      | .accept, some x =>
        let y := { x with token := .draining }
        tollEnd (startWalk (onExt (takeSlot d x true) base (fun _ => y)) y) cOK
      | .cancel, some _ => tollEnd (onExt d base (fun x => { x with token := .owned })) cOK
      | _, none => tollEnd d cDENIED

def execTollTakeEffect (s : State) : Host.Outcome State Fault Refusal :=
  s.runReq takeEffect

/-! ## Drains -/

/-- A slot's extent and whether its drain and walk are over. -/
def slotReady (d : Dev) (k : Nat) (handover : Bool) : Option (Extent × Bool) :=
  match d.toll.slots[k]? with
  | none => none
  | some s =>
    if s.busy && s.handover == handover then
      (extOf d s.base).map (fun x => (x, drainCount d s.base == 0 && !walkBusy d x))
    else none

/-- The slot is free again. -/
def freeSlot (d : Dev) (k berth : Nat) : Dev :=
  let d := accrue d berth
  { d with toll.slots := modAt (fun _ => {}) d.toll.slots k }

/-- REVOKE_COMPLETE (02 R53 step 4): the drain and the walk are over, VALID is cleared. Otherwise the walk goes on. -/
def revokeComplete (d : Dev) (k : Nat) : Dev :=
  match slotReady d k false with
  | none => d
  | some (x, false) => startWalk d x
  | some (x, true) =>
    let d1 := dropAllPins (freeSlot (cacheDrop d (fun c => covers x c.offset)) k x.e.berth) x.e.base
    let d2 := { d1 with toll.extents := d1.toll.extents.filter (fun y => y.e.base != x.e.base) }
    if x.e.encrypt then
      let ks := NMap.get {} d2.cust.keys x.e.keySlot
      { d2 with cust.keys := NMap.set {} d2.cust.keys x.e.keySlot { ks with refs := ks.refs - 1 } }
    else d2

def execRevokeComplete (slot : Nat) (s : State) : Host.Outcome State Fault Refusal :=
  s.runReq (fun d => revokeComplete d slot)

/-- HANDOVER_COMPLETE (02 R57): the receiver owns the extent. -/
def handoverComplete (d : Dev) (k : Nat) : Dev :=
  match slotReady d k true with
  | none => d
  | some (x, false) => startWalk d x
  | some (x, true) =>
    let e := { x.e with ownerJob := x.receiver, ownerWr := true, guestJob := 0, guestRights := 0 }
    let y := { x with e := e, token := .owned }
    let gone := [x.e.ownerJob, x.e.guestJob].filter (fun j => j != x.receiver)
    dropPins (onExt (freeSlot (cacheDrop d (fun c => covers x c.offset)) k x.e.berth) x.e.base (fun _ => y)) (extBank x) x.e.base gone

def execHandoverComplete (slot : Nat) (s : State) : Host.Outcome State Fault Refusal :=
  s.runReq (fun d => handoverComplete d slot)

/-- DRAIN_WARN (02 R54; 17 R535, R544): raised once per drain, on the page of the extent's home bank. -/
def drainWarn (d : Dev) (k : Nat) : Dev :=
  match d.toll.slots[k]? with
  | none => d
  | some s =>
    if !s.busy || s.warned then d
    else
      let d1 := advanceTo d (s.since + reg d (pg 0x20 0 + 0x148) + 1)
      let bank := match extOf d s.base with | some x => extBank x | none => 0
      let warn (s : RvkSlot) : RvkSlot := { s with warned := true }
      raiseFe { d1 with toll.slots := modAt warn d1.toll.slots k } (pg 0x20 bank) 0
        { unit := false, addr := d.xmap.node * 2 ^ 48 + s.base * 2 ^ 21 }

def execDrainWarn (slot : Nat) (s : State) : Host.Outcome State Fault Refusal :=
  s.runReq (fun d => drainWarn d slot)

/-- FERRY_TIMEOUT (02 R58): an offered token returns to its owner. -/
def ferryTimeout (d : Dev) (base : Nat) : Dev :=
  match extOf d base with
  | none => d
  | some x =>
    if x.token != .offered then d
    else
      let d1 := advanceTo d (x.offeredAt + reg d (pg 0x20 0 + 0x140))
      raiseFe (onExt d1 base (fun x => { x with token := .owned })) (pg 0x20 (extBank x)) 1
        { unit := false, addr := d.xmap.node * 2 ^ 48 + base * 2 ^ 21, job := x.e.ownerJob }

def execFerryTimeout (base : Nat) (s : State) : Host.Outcome State Fault Refusal :=
  s.runReq (fun d => ferryTimeout d base)

end Sys2Proof.Machine
end

