-- ==== Sys2Proof/Machine/Xmap.lean ====
section
/-! DEFINITION. The Crossing map (02 R60-R66; 03 R79, R84-R86; 17 R536-R541): staging, commit, take effect, epochs; and
the configuration of rings. -/

namespace Sys2Proof.Machine

open Sys2Proof

/-! ## Staged entries -/

/-- Berth entry of XMAP_BDATA0 to 2 (17 R538). -/
def berthWords (b : Berth) : List Nat :=
  [b.clusters.toNat, b.stackCh.toNat + b.flashCh.toNat * 2 ^ 32 + b.landings.toNat * 2 ^ 48,
   b.nearQuota + b.stackQuota * 2 ^ 16 + b.flashQuota * 2 ^ 32 + b.rings * 2 ^ 48 + b.qsets * 2 ^ 56, 0]

/-- A berth entry with word `k` written. -/
def putBerthWord (b : Berth) (k v : Nat) : Berth :=
  match k with
  | 0 => { b with clusters := .ofNat 64 v }
  | 1 => { b with stackCh := .ofNat 32 (fld v 0 32), flashCh := .ofNat 16 (fld v 32 16), landings := .ofNat 16 (fld v 48 16) }
  | 2 => { b with nearQuota := fld v 0 7, stackQuota := fld v 16 10, flashQuota := fld v 32 10, rings := fld v 48 7,
                  qsets := fld v 56 4 }
  | _ => b

/-- XMAP_BDATAk of the selected berth and view. -/
def readBdata (d : Dev) (k : Nat) : Nat :=
  let sel := reg d (pg 0x21 0 + 0x130)
  let b := fld sel 0 8
  let e := if bit sel 8 then berthOf d b else NMap.get {} d.xmap.staged b
  (berthWords e).getD k 0

/-- A write of XMAP_BDATAk: discarded while the current view is shown (17 R538). -/
def writeBdata (d : Dev) (k v : Nat) : Dev :=
  let sel := reg d (pg 0x21 0 + 0x130)
  let b := fld sel 0 8
  if bit sel 8 then d
  else { d with xmap.staged := NMap.set {} d.xmap.staged b (putBerthWord (NMap.get {} d.xmap.staged b) k v) }

/-! ## Checks of a map (02 R61) -/

/-- The berths of a bank. -/
def berthsOf (bank : Nat) : List Nat := (List.range 128).map (fun i => bank * 128 + i)

/-- A berth entry of a map. -/
def entryOf (m : NMap Berth) (b : Nat) : Berth := NMap.get {} m b

/-- Usable stack capacity of a bank in GiB (17 R542). -/
def stackCap (bank : Nat) : Nat := if bank == 0 then 426 else 341

/-- Extents of a berth in a tier. -/
def mapped (d : Dev) (b : Nat) (t : Tier) : List Extent := d.toll.extents.filter (fun x => x.e.berth == b && x.e.tier == t)

/-- A cluster is named by two berths of a bank. -/
def clustersShared : List (BitVec 64) → BitVec 64 → Bool
  | [], _ => false
  | m :: l, seen => (m &&& seen) != 0 || clustersShared l (seen ||| m)

/-- A lowered quota that an extent of the berth would extend beyond. -/
def quotaCut (d : Dev) (new : NMap Berth) (b : Nat) : Bool :=
  let e := entryOf new b
  let beyond (t : Tier) (cap : Nat) : Bool := (mapped d b t).any (fun x => decide (cap < x.e.localBase * 2 ^ 21 + extBytes x))
  beyond .near (e.nearQuota * 2 ^ 28) || beyond .stack (e.stackQuota * 2 ^ 30) || beyond .flash (e.flashQuota * 2 ^ 36)

/-- A changed channel list of a berth that has extents on the tier. -/
def channelsMoved (d : Dev) (new : NMap Berth) (b : Nat) : Bool :=
  let e := entryOf new b
  let c := berthOf d b
  (e.stackCh != c.stackCh && !(mapped d b .stack).isEmpty) || (e.flashCh != c.flashCh && !(mapped d b .flash).isEmpty)

/-- A field that holds a reserved value. -/
def fieldBad (e : Berth) : Bool := decide (64 < e.rings) || decide (8 < e.qsets)

/-! ## Placement (03 R79, R86) -/

/-- The lowest bank segment of near store that no berth of the bank holds. -/
def freeNearSeg (segs : NMap Nat) (bank : Nat) : Nat :=
  let used := (segs.filter (fun e => bankOfBerth (e.1 / 128) == bank)).map Prod.snd
  (findBelow 128 (fun s => s != 0 && !used.contains s)).getD 0

/-- Near segments of a map: those a quota no longer covers are released, added ones take the lowest free (log 20). -/
def placeNear (old : NMap Nat) (m : NMap Berth) : NMap Nat :=
  let kept := NMap.keep (fun k => decide (k % 128 < (entryOf m (k / 128)).nearQuota)) old
  (m.foldl (fun s e => (List.range e.2.nearQuota).foldl (fun s i =>
    if s.any (fun x => x.1 == e.1 * 128 + i) then s
    else NMap.set 0 s (e.1 * 128 + i) (freeNearSeg s (bankOfBerth e.1))) s) kept)

/-- Length of the data sequence of a channel of a bank: the data units of its 12,582,912 stripe addresses. -/
def seqLen (bank c : Nat) : Nat :=
  let per := if bank == 0 then 40 else 32
  12582912 / 9 * per + ((nineStripes bank c).filter (fun u => decide (u.1 < 12582912 % 9))).length

/-- The lowest free range of `n` indices of a channel's data sequence. -/
def freeRange (runs : List Run) (bank c n : Nat) : Option Nat :=
  let used := sortBy (fun r => r.first) (runs.filter (fun r => bankOfBerth r.berth == bank && r.chan == c))
  let at_ := used.foldl (fun (acc : Nat × Bool) r =>
    if acc.2 then acc else if acc.1 + n ≤ r.first then (acc.1, true) else (max acc.1 (r.first + r.len), false)) (0, false)
  if at_.1 + n ≤ seqLen bank c then some at_.1 else none

/-- Place one segment of a berth on each of its channels, or fail (03 R86). -/
def placeSegment (b seg : Nat) (chans : List Nat) (runs : List Run) : Option (List Run) :=
  let n := chans.length
  let len := 64 * ((65536 + n - 1) / n)
  chans.foldl (fun acc c => acc.bind (fun rs =>
    (freeRange rs (bankOfBerth b) c len).map (fun f => rs ++ [{ berth := b, seg := seg, chan := c, first := f, len := len }])))
    (some runs)

/-- Stack runs of a map: every release first, then segments in ascending berth and segment number (03 R86). A berth that names no
channel gets none (DESIGN CHOICE, log 135). -/
def placeStack (d : Dev) (m : NMap Berth) : Option (List Run) :=
  let kept := d.xmap.current.runs.filter (fun r =>
    decide (r.seg < (entryOf m r.berth).stackQuota) && (entryOf m r.berth).stackCh == (berthOf d r.berth).stackCh)
  m.foldl (fun acc e =>
    let chans := bitsOf 32 e.2.stackCh.toNat
    (List.range e.2.stackQuota).foldl (fun acc seg => acc.bind (fun rs =>
      if chans.isEmpty || rs.any (fun r => r.berth == e.1 && r.seg == seg) then some rs else placeSegment e.1 seg chans rs)) acc)
    (some kept)

/-! ## Commit (17 R537) -/

/-- The code a commit fails with, or OK with the placed map (02 R61, R65, R66). -/
def checkMap (d : Dev) (setEpoch : Bool) : Nat × XMapCfg :=
  let m := d.xmap.staged
  let all := List.range 256
  let sum (bank : Nat) (f : Berth → Nat) : Nat := total ((berthsOf bank).map (fun b => f (entryOf m b)))
  let unsup := (setEpoch && d.xmap.nodeValid) || m.any (fun e => fieldBad e.2) || all.any (channelsMoved d m) ||
    [0, 1].any (fun bank => clustersShared ((berthsOf bank).map (fun b => (entryOf m b).clusters)) 0)
  let above := [0, 1].any (fun bank =>
    decide (127 < sum bank (fun e => e.nearQuota)) || decide (stackCap bank < sum bank (fun e => e.stackQuota)) ||
    decide (832 < sum bank (fun e => e.flashQuota)))
  let cut := all.any (quotaCut d m)
  let runs := placeStack d m
  if unsup then (cUNSUP, {})
  else if above || cut || runs.isNone then (cLENGTH, {})
  else if !setEpoch && decide (3 ≤ d.xmap.old.length) then (cBUSY, {})
  else (cOK, { berths := m, nearSegs := placeNear d.xmap.current.nearSegs m, runs := runs.getD [] })

/-- A write of COMMIT (17 R536, R537). -/
def commitMap (d : Dev) (setEpoch : Option Nat) : Dev :=
  if d.xmap.pending.isSome then { d with xmap.lost := true }
  else
    let r := checkMap d setEpoch.isSome
    if r.1 != cOK then { d with xmap.done := true, xmap.result := r.1 }
    else
      let p : CommitPending := { map := r.2, commitAt := reg d (pg 0x21 0 + 0x110), setEpoch := setEpoch }
      cross { d with xmap.pending := some p, xmap.done := false } 0 1 .update 0

/-- A write of DISCARD: the staged map becomes the latest committed or pending one. -/
def discardMap (d : Dev) : Dev :=
  { d with xmap.staged := match d.xmap.pending with | some p => p.map.berths | none => d.xmap.current.berths }

/-- A write of XMAP_CTL (17 R536). -/
def writeXmapCtl (d : Dev) (v : Nat) : Dev :=
  let d1 := if bit v 0 then commitMap d (if bit v 2 then some (fld v 16 16) else none) else d
  if bit v 1 then discardMap d1 else d1

/-! ## Take effect (02 R62, R64, R66; 06 R199) -/

/-- Rows of clusters that two maps give to different berths: by bank × 64 + cluster. -/
def movedClusters (old new : NMap Berth) : NSet :=
  (List.range 128).filter (fun k =>
    let owner (m : NMap Berth) : Option Nat := (m.find? (fun e => bankOfBerth e.1 == k / 64 && bit e.2.clusters.toNat (k % 64))).map Prod.fst
    owner old != owner new)

/-- Copies that were still being placed are gone: their LOADs place others for the items that wait for them (06 R193). -/
def placeAgain (d : Dev) (gone : List Copy) : Dev :=
  gone.foldl (fun d c => match c.loader with
    | some p => { d with descs := modFirst (fun x => x.r == p.1) (fun x => { x with nextItem := min x.nextItem p.2 }) d.descs }
    | none => d) d

/-- Copies on clusters that change berth: idle ones are evicted, those a descriptor holds stay with
it and are evicted when it completes. -/
def evictMoved (d : Dev) (moved : NSet) : Dev :=
  let hit (c : Copy) : Bool := (copyClusters c).any (NSet.mem moved)
  let gone (c : Copy) : Bool := hit c && c.holder.isNone
  placeAgain { d with
    raft.copies := (d.raft.copies.filter (fun c => !gone c)).map (fun c => if hit c then { c with stale := true } else c) }
    (d.raft.copies.filter gone)

/-- Map entries of the berths that two maps name. -/
def namedBerths (a b : NMap Berth) : List Nat := (a.map Prod.fst) ++ (b.map Prod.fst).filter (fun k => !(a.any (fun e => e.1 == k)))

/-- MAP_TAKE_EFFECT: the pending map becomes the current one at its LTC. -/
def mapEffect (d : Dev) : Dev :=
  match d.xmap.pending with
  | none => d
  | some p =>
    let d1 := advanceTo d p.commitAt
    let d2 := (namedBerths d1.xmap.current.berths p.map.berths).foldl accrue d1
    let d3 := evictMoved d2 (movedClusters d2.xmap.current.berths p.map.berths)
    let x := d3.xmap
    let n := match p.setEpoch with | some e => e | none => (x.epoch + 1) % 65536
    let olds := match p.setEpoch with | some _ => [] | none => { epoch := x.epoch, since := d3.sys.ltc, berths := x.current.berths } :: x.old
    raise { d3 with xmap.current := p.map, xmap.pending := none, xmap.done := true, xmap.result := cOK, xmap.epoch := n,
                    xmap.old := olds } (pg 0x21 0) 3

def execMapTakeEffect (s : State) : Host.Outcome State Fault Refusal :=
  s.runReq mapEffect

/-- Some request that passed the Toll carrying an epoch has not been acknowledged and has not failed. -/
def epochBusy (d : Dev) (e : Nat) : Bool := d.flying.any (fun f => f.q.h.epoch.toNat == e && passedToll f)

/-- EPOCH_RETIRE (02 R65): of the earlier epochs with no such request left, the one whose grace ends first, and every other whose
grace has passed by then. -/
def epochRetire (d : Dev) : Dev :=
  let grace := 1024 * reg d (pg 0x21 0 + 0x118)
  let done := d.xmap.old.filter (fun m => !epochBusy d m.epoch)
  match done.getLast? with
  | none => d
  | some m =>
    let d1 := advanceTo d (m.since + grace)
    { d1 with xmap.old := d1.xmap.old.filter (fun m => epochBusy d m.epoch || decide (d1.sys.ltc < m.since + grace)) }

def execEpochRetire (s : State) : Host.Outcome State Fault Refusal :=
  s.run epochRetire

/-- A write of XMAP_NODE (02 R75): once VALID is set, NODE and VALID stay. -/
def writeNode (d : Dev) (v : Nat) : Dev :=
  if d.xmap.nodeValid then d else { d with xmap.node := fld v 0 14, xmap.nodeValid := bit v 31 }

/-! ## Rings (17 R539-R541) -/

/-- Key of the selected ring. -/
def ringSel (d : Dev) : Nat :=
  let sel := reg d (pg 0x21 0 + 0x160)
  fld sel 0 8 * 64 + fld sel 8 6

/-- The staged words of a ring. -/
def stagedRing (d : Dev) (k : Nat) : Word × Word × Word × Word := NMap.get (0, 0, 0, 0) d.xmap.stagedRings k

/-- Read a staged word of the selected ring. -/
def readRdata (d : Dev) (k : Nat) : Nat :=
  let w := stagedRing d (ringSel d)
  match k with
  | 0 => w.1.toNat | 1 => w.2.1.toNat | 2 => w.2.2.1.toNat | _ => w.2.2.2.toNat

/-- Stage a word of the selected ring; reserved bits stay 0 (17 R539). -/
def stageRdata (d : Dev) (k v : Nat) : Dev :=
  let w := stagedRing d (ringSel d)
  let n (m : Nat) : Word := .ofNat 64 (land64 v m)
  let w1 := match k with
    | 0 => (n 0x001FFFFFFFFFFFFF, w.2.1, w.2.2.1, w.2.2.2)
    | 1 => (w.1, n 0x8FFFFFFFFFFFFFFF, w.2.2.1, w.2.2.2)
    | 2 => (w.1, w.2.1, n 0xFFFFFFFFFFFFFFFF, w.2.2.2)
    | _ => (w.1, w.2.1, w.2.2.1, n 0xFFFFFFFFFFFFFFFF)
  { d with xmap.stagedRings := NMap.set (0, 0, 0, 0) d.xmap.stagedRings (ringSel d) w1 }

/-- NOTIFY_ADDR is well formed (17 R540; 13 R413). -/
def notifyOk (a : Nat) : Bool := if bit a 63 then fld a 11 48 == 0 else !bit a 62

/-- A ring is disabled, stopped or idle (17 R540). -/
def ringQuiet (d : Dev) (b r : Nat) : Bool :=
  let g := ringOf d b r
  !g.enable || g.stopped || (g.consumer == g.producer && !(d.descs.any (fun x => x.r.berth == b && x.r.ring == r)))

/-- Apply the staged configuration of the selected ring (17 R539, R540). -/
def applyRing (d : Dev) : Dev :=
  let k := ringSel d
  let b := k / 64
  let r := k % 64
  let w := stagedRing d k
  let w0 := w.1.toNat
  let w1 := w.2.1.toNat
  let w2 := w.2.2.1.toNat
  let w3 := w.2.2.2
  let log2 := fld w0 48 5
  let ok := decide (6 ≤ log2) && decide (log2 ≤ 16) && fld w0 0 12 == 0 && fld w1 0 12 == 0 && fld w2 0 6 == 0 &&
    decide (r < (berthOf d b).rings) && notifyOk w3.toNat && ringQuiet d b r
  if !ok then
    raise (setRing d b r { ringOf d b r with cfgRefused := true }) (pg 0x21 (bankOfBerth b)) 4
  else
    let g : Ring := { descBase := fld w0 0 48, log2Size := log2, cplBase := fld w1 0 48, job := fld w1 48 12, enable := bit w1 63,
                      svBase := fld w2 0 48, svLen := fld w2 48 16, notifyAddr := w3 }
    -- descriptors that a stopped ring still runs complete under its old configuration (02 R71)
    let old := ringOf d b r
    let ofRing (x : Desc) : Bool := x.r.berth == b && x.r.ring == r
    let keep (x : Desc) : Bool := !ofRing x || x.cfg.isSome || x.phase == .running || x.phase == .finished
    let put (x : Desc) : Desc := if ofRing x && x.cfg.isNone then { x with cfg := some old } else x
    let gone := d.descs.any (fun x => !keep x && decide ((berthOf d b).qsets < x.qsets))
    let d1 := if gone then accrue d b else d
    setRing { d1 with descs := (d.descs.filter keep).map put } b r { g with gen := old.gen + 1 }

/-- RING_STAT of the selected ring (17 R541). -/
def readRingStat (d : Dev) : Nat :=
  let k := ringSel d
  let g := ringOf d (k / 64) (k % 64)
  b2n g.enable + b2n g.stopped * 2 + b2n g.dbBad * 4 + b2n g.cfgRefused * 8 + b2n g.notifyFail * 16 + g.code * 2 ^ 8 +
    g.slot * 2 ^ 16 + g.consumer * 2 ^ 32

end Sys2Proof.Machine
end

