-- ==== Sys2Proof/Machine/Response.lean ====
section
/-! DEFINITION. Answers to the device's own requests (11 R352, R362; 06 R205; 14 R445-R449): protection traffic,
reconstruction reads, requests of ring sequencers; and fencing out (14 R441). -/

namespace Sys2Proof.Machine

open Sys2Proof

/-- A source's request in flight that has not been performed: FENCED says that it has not been (04 R132), so a store that only waits for
STORE_ACK ends as it stands. -/
def fencesFlying (f : Flying) : Bool :=
  f.q.h.tc != 0 && !isInternal f.q && !isSnap f.q && (match f.wait with | .ack _ _ => false | _ => true)

/-- The device fences itself out (14 R441), reported on a bank's Salvage page, with the code given to a request where one brought it
about. Requests in flight, but those of the management class, are answered FENCED (R455). -/
def fenceOut (d : Dev) (bank unit : Nat) (code : Nat := 0) : Dev :=
  if d.salv.fencedOut then d
  else
    let d1 := raiseFe { d with salv.fencedOut := true } (pg 0x34 bank) 2 (feUnit unit code)
    (d1.flying.filter fencesFlying).foldl (fun d f => match flyingOf d f.id with
      | some g => finishFlying d g cFENCED []
      | none => d) d1

/-! ## Sending again -/

/-- Send a request of the Tow again, with its TRY raised where an end-to-end check failed (11 R361, R362). -/
def resendProtect (d : Dev) (p : Protect) (tryUp : Bool) : Dev :=
  let h := if tryUp then { p.out.h with trial := p.out.h.trial + 1 } else p.out.h
  let ld := reqLand d p.out.berth p.out.offset
  let o := { p.out with h := h, landing := ld }
  let put (q : Protect) : Protect := { q with out := o }
  let d1 := { d with salv.protect := modFirst (fun q => q.out.reqId == p.out.reqId) put d.salv.protect }
  let slots := 2 + (if o.data.isEmpty then 0 else spanSlots o.offset o.len)
  sendOn d1 ld (if ld / 8 == bankOfBerth o.berth then 18 else 9) 4 slots (some o.berth) h.job.toNat false false (.req o.op h o.data)

/-- Take a request of the Tow off the list. -/
def dropProtect (d : Dev) (id : Nat) : Dev :=
  { d with salv.protect := d.salv.protect.filter (fun q => q.out.reqId != id) }

/-! ## Protection writes (14 R445) -/

/-- A member has acknowledged, or counts as having: the write goes on once the last current member has. -/
def memberAcked (d : Dev) (p : Protect) : Dev :=
  let d1 := dropProtect d p.out.reqId
  match flyingOf d1 p.flying with
  | some f =>
    match f.wait with
    | .protect ids since =>
      if ids.contains p.out.reqId then
        let rest := ids.filter (fun i => i != p.out.reqId)
        if rest.isEmpty then attempt d1 f.id false true else setWait d1 f.id (.protect rest since)
      else d1
    | _ => d1
  | none => d1

/-- The peer or convoy entry under which a request of the Tow was sent. -/
def fencedUnit (d : Dev) (p : Protect) : Nat :=
  match extAt d p.out.offset with
  | some x => entryUnit d x
  | none => 0

/-- A write whose protection traffic may not be sent is answered FENCED and not performed (14 R441, R445). -/
def writeFenced (d : Dev) (p : Protect) : Dev :=
  let d1 := dropProtect d p.out.reqId
  match flyingOf d1 p.flying with
  | some f => match f.wait with
    | .protect ids _ => if ids.contains p.out.reqId then finishFlying d1 f cFENCED [] else d1
    | _ => d1
  | none => d1

/-- A member has answered FENCED: the write is answered so, and the device fences itself out. -/
def memberFenced (d : Dev) (p : Protect) : Dev :=
  let bank := p.out.h.src.toNat % 2
  writeFenced (fenceOut (count d (pg 0x34 bank) 0x838) bank (fencedUnit d p) cFENCED) p

/-! ## Reconstruction (14 R449, R452) -/

/-- Drop a reconstruction and its outstanding reads. -/
def dropRecon (d : Dev) (r : Recon) : Dev :=
  { d with salv.recons := d.salv.recons.filter (fun q => q.off != r.off),
           salv.protect := d.salv.protect.filter (fun p => !(r.need.any (fun n => n.2 == p.out.reqId))) }

/-- A tile cannot be formed: its requests get UNCORRECTABLE; a tile of a REBUILD is poisoned and the rebuild goes on. -/
def reconFails (d : Dev) (r : Recon) : Dev :=
  let d1 := dropRecon d r
  match extOf d1 r.base with
  | none => d1
  | some x =>
    r.waiters.foldl (fun d id => match flyingOf d id with
      | some f => finishFlying d f cUNCORR []
      | none => d) (tileLost d1 x r.off)

/-- The lowest tile of an extent that REBUILD has left missing. -/
def nextMissing (x : Extent) : Option Nat :=
  match x.rebuildFrom with
  | none => none
  | some _ => findBelow (extBytes x / 256) (fun t => missingTile x (extBase x + t * 256))

/-- Salvage goes on with the rebuild of an extent: its lowest missing tile, one at a time (14 R452). A tile that cannot be
formed is poisoned and counted, and the rebuild goes on with the next. -/
def rebuildOn : Nat → Dev → Nat → Dev
  | 0, d, _ => d
  | k + 1, d, base =>
    match extOf d base with
    | none => d
    | some x =>
      match nextMissing x with
      | none => d
      | some t =>
        let off := extBase x + t * 256
        if d.salv.recons.any (fun r => r.base == base) || !d.wharf.epValid then d
        else
          let r := startRecon d x off 0 []
          if r.1 then r.2
          else rebuildOn k (tileLost r.2 x off) base

/-- As many tiles as the extent may have. -/
def rebuildNext (d : Dev) (base : Nat) : Dev :=
  match extOf d base with
  | none => d
  | some x => rebuildOn (extBytes x / 256) d base

/-- Answer a read of a failed vault from the tile formed; a member reads it as it is stored (15 R475). -/
def serveFormed (d : Dev) (x : Extent) (tile : Nat) (l : List Byte) (id : Nat) : Dev :=
  match flyingOf d id with
  | none => d
  | some f =>
    let plain := match keysOf d (if memberRead d x f.q then stored x else x) with
      | some k => decryptAt k (tile / 256) 0 l
      | none => l
    let d1 := if f.q.h.acq then acquireDrop d f.homeBank f.q.h.job.toNat else d
    finishFlying d1 f cOK (sub plain (f.q.h.offset.toNat % 256) (lenOf f.q.h))

/-- Every tile read has come: the tile is formed; a missing tile is written and its requests come again (14 R452). -/
def reconDone (d : Dev) (r : Recon) : Dev :=
  let d1 := dropRecon d r
  match extOf d1 r.base with
  | none => d1
  | some x =>
    let l := formTile d1 x r.got
    if missingTile x r.off then
      let w := writeTile d1 (stored x) (tileIn x r.off) l
      if w.1 == cOK then
        retry r.waiters (count (fillMark x r.off w.2) (pg 0x34 (extBank x)) 0x810 256)
      else reconFails d r
    else r.waiters.foldl (fun d id => serveFormed d x r.off l id) d1

/-- A tile of a member arrives. -/
def reconGot (d : Dev) (p : Protect) (data : List Byte) : Dev :=
  let d1 := dropProtect d p.out.reqId
  match d1.salv.recons.find? (fun r => r.need.any (fun n => n.2 == p.out.reqId)) with
  | none => d1
  | some r =>
    let k := ((r.need.find? (fun n => n.2 == p.out.reqId)).map Prod.fst).getD 0
    let r1 := { r with need := r.need.filter (fun n => n.2 != p.out.reqId), got := r.got ++ [(k, sub data 0 256)] }
    let d2 := { d1 with salv.recons := modFirst (fun q => q.off == r.off) (fun _ => r1) d1.salv.recons }
    if r1.need.isEmpty then rebuildNext (reconDone d2 r1) r1.base else d2

/-- A read of a member has failed for good. -/
def reconLost (d : Dev) (p : Protect) : Dev :=
  match d.salv.recons.find? (fun r => r.need.any (fun n => n.2 == p.out.reqId)) with
  | none => dropProtect d p.out.reqId
  | some r => rebuildNext (reconFails d r) r.base

/-- RAFT_READ_RETRY of a bank (06 R205, R219). -/
def readRetry (d : Dev) (bank : Nat) : Nat := reg d (pg 0x50 bank + 0x110)

/-- Send a request of the Tow that was answered AGED again: one of its retries (06 R205; 14 R448). -/
def resendAged (d : Dev) (p : Protect) : Dev :=
  resendProtect d { p with out := { p.out with attempt := p.out.attempt + 1 } } false

/-- What a bank's Tow does with the answer of one of its requests; `nack`: the answer is E2E_NACK. A device fenced out sends
no protection traffic again; FENCED on a read of a member, which is no protection traffic, only loses that read (14 R441, R445). -/
def towAnswer (d : Dev) (bank id status tchk : Nat) (nack : Bool) (data : List Byte) : Dev :=
  match d.salv.protect.find? (fun p => p.out.reqId == id) with
  | none => d
  | some p =>
    let limit := reg d (pg 0x10 bank + 0x108)
    if p.out.op == .wr then
      if !nack && status == cOK then memberAcked d p
      else if !nack && status == cFENCED then memberFenced d p
      else if d.salv.fencedOut then writeFenced d p
      else if nack then (if p.out.h.trial.toNat < limit then resendProtect d p true else d)
      else if status == cBUSY then resendProtect d p false
      else if status == cAGED && p.out.attempt < readRetry d bank then resendAged d p
      else d
    else if nack then (if p.out.h.trial.toNat < limit then resendProtect d p true else d)
    else if status == cOK then
      if crc32c (sub data 0 p.out.len) == tchk then reconGot d p data
      else if p.out.h.trial.toNat < limit then resendProtect d p true
      else reconLost d p
    else if status == cBUSY then resendProtect d p false
    else if status == cAGED && p.out.attempt < readRetry d bank then resendAged d p
    else reconLost (if status == cFENCED then count d (pg 0x34 bank) 0x838 else d) p

/-! ## Requests of a ring sequencer -/

/-- EADDs of a berth that are on their way to another node, and the first that waits for a home credit there. -/
def eaddsOut (d : Dev) (berth node : Nat) : List OutReq :=
  d.descs.flatMap (fun x => x.out.filter (fun o => o.berth == berth && o.node == node && o.op == .eadd))

/-- A berth's ring sequencer holds a home credit at another node for one EADD more; the node's banks count as one home (05 R164;
log 17). -/
def mayAdd (d : Dev) (berth node : Nat) : Bool :=
  decide (((eaddsOut d berth node).filter (fun o => !o.waits)).length < NMap.get 1 d.quay.remote (berth * 2 ^ 14 + node))

/-- The request an answer names: one of a berth's requests to other nodes. -/
def outOf (d : Dev) (berth id : Nat) : Option OutReq :=
  (d.descs.flatMap (fun x => x.out)).find? (fun o => o.berth == berth && o.reqId == id)

/-- A response states the home credits held (11 R352, CRED); 0 leaves the holding. -/
def takeCred (d : Dev) (role id cred : Nat) : Dev :=
  match (if cred == 0 || 256 ≤ role then none else outOf d role id) with
  | some o => { d with quay.remote := NMap.set 1 d.quay.remote (role * 2 ^ 14 + o.node) cred }
  | none => d

/-- Send a descriptor's request to another node again. -/
def resendDesc (d : Dev) (x : Desc) (o : OutReq) (tryUp : Bool) : Dev :=
  let h := if tryUp then { o.h with trial := o.h.trial + 1 } else o.h
  let ld := reqLand d o.berth o.offset
  let o1 := { o with h := h, attempt := if tryUp then o.attempt else o.attempt + 1, landing := ld }
  let put (y : Desc) : Desc := { y with out := y.out.map (fun q => if q.reqId == o.reqId then o1 else q) }
  let d1 := { d with descs := modFirst (fun y => y.r == x.r) put d.descs }
  let slots := 2 + (if o.data.isEmpty then 0 else spanSlots o.offset o.len)
  sendOn d1 ld (if ld / 8 == bankOfBerth o.berth then engPort d x.r o.item else 9) 4 slots (some o.berth) x.job false false
    (.req o.op h o.data) 0 x.qsets

/-- A descriptor's request is outstanding no longer. -/
def dropOut (o : OutReq) (x : Desc) : Desc := { x with out := x.out.filter (fun q => q.reqId != o.reqId) }

/-- EADDs that wait for a home credit at a node are sent while the berth holds one, at most `k` of them; a device fenced out makes no
further access (14 R441). -/
def sendWaiting (berth node : Nat) : Nat → Dev → Dev
  | 0, d => d
  | k + 1, d =>
    let owner := d.descs.find? (fun x => x.out.any (fun o => o.waits && o.berth == berth && o.node == node))
    match owner.bind (fun x => (x.out.find? (fun o => o.waits && o.node == node)).map (fun o => (x, o))) with
    | some (x, o) =>
      if d.salv.fencedOut then sendWaiting berth node k (noteItem (onDesc d x.r (dropOut o)) x.r o.item cFENCED)
      else if mayAdd d berth node then sendWaiting berth node k (resendDesc d x { o with waits := false, attempt := 0 } false) else d
    | none => d

/-- A descriptor's request to another node is answered: the answer waits for its engine, and an EADD that waited for its credit is
sent. -/
def descGot (d : Dev) (x : Desc) (o : OutReq) (status : Nat) (data : List Byte) : Dev :=
  let put (y : Desc) : Desc :=
    { y with out := y.out.filter (fun q => q.reqId != o.reqId)
             inbox := if o.op == .rd then y.inbox ++ [{ item := o.item, node := o.node, off := o.offset, status := status, data := data }] else y.inbox }
  let d1 := { d with descs := modFirst (fun y => y.r == x.r) put d.descs }
  if o.op == .rd then d1
  else
    let d2 := noteItem d1 x.r o.item status
    if o.op == .eadd then sendWaiting o.berth o.node (eaddsOut d2 o.berth o.node).length d2 else d2

/-- The notification store to another node that a request ID of a berth names, and its ring. -/
def noteOf (d : Dev) (berth id : Nat) : Option (Nat × OutReq) :=
  (List.range 64).findSome? (fun r => ((ringOf d berth r).notes.find? (fun o => o.reqId == id)).map (fun o => (r, o)))

/-- A notification store is sent again with its TRY raised (11 R361). -/
def resendNote (d : Dev) (r : Nat) (o : OutReq) : Dev :=
  let o1 := { o with h := { o.h with trial := o.h.trial + 1 }, landing := reqLand d o.berth o.offset }
  let g := ringOf d o.berth r
  sendOn (setRing d o.berth r { g with notes := g.notes.map (fun q => if q.reqId == o.reqId then o1 else q) }) o1.landing
    (if o1.landing / 8 == bankOfBerth o.berth then 17 else 9) 4 (2 + spanSlots o.offset o.len) (some o.berth) o.h.job.toNat false false
    (.req o.op o1.h o.data)

/-- A notification store to another node is answered: any code but OK is a failure (02 R72); E2E_NACK has it sent again, as often as
WHARF_E2E_RETRY allows (11 R361). -/
def notifyAnswered (d : Dev) (berth id status : Nat) (nack : Bool) : Dev :=
  match noteOf d berth id with
  | none => d
  | some (r, o) =>
    if nack && decide (o.h.trial.toNat < reg d (pg 0x10 (bankOfBerth berth) + 0x108)) then resendNote d r o
    else
      let g := ringOf d berth r
      notifyDone (setRing d berth r { g with notes := g.notes.filter (fun q => q.reqId != id) }) berth r (if nack then cUNCORR else status)

/-- What a ring sequencer does with an answer (06 R205; 11 R362; 02 R72). -/
def seqAnswer (d : Dev) (berth id status tchk : Nat) (nack : Bool) (data : List Byte) : Dev :=
  let bank := bankOfBerth berth
  let limit := reg d (pg 0x10 bank + 0x108)
  match d.descs.find? (fun x => x.r.berth == berth && x.out.any (fun o => o.reqId == id)) with
  | none => notifyAnswered d berth id status nack
  | some x =>
    match x.out.find? (fun o => o.reqId == id) with
    | none => d
    | some o =>
      if nack then (if o.h.trial.toNat < limit then resendDesc d x o true else descGot d x o cUNCORR [])
      else if status == cAGED && o.op == .rd && o.attempt < readRetry d bank then resendDesc (count d (pg 0x50 bank) 0x838) x o false
      else if status == cOK && o.op == .rd && crc32c (sub data 0 o.len) != tchk then
        (if o.h.trial.toNat < limit then resendDesc d x o true else descGot d x o cUNCORR [])
      else descGot d x o status (sub data 0 o.len)

/-- An answer to one of the device's own end points, by its role (11 R357). -/
def ownAnswer (d : Dev) (role id status tchk : Nat) (nack : Bool) (data : List Byte) : Dev :=
  if role < 256 then seqAnswer d role id status tchk nack data
  else if role == 258 || role == 259 then towAnswer d (role - 258) id status tchk nack data
  else d

/-- Role of an end point of this device (11 R357). -/
def roleOf (d : Dev) (ep : Nat) : Option Nat :=
  if d.wharf.epValid && ep / 512 == d.wharf.epBase then some (ep % 512) else none

/-- OFFSET of the device's own request that a response answers, which places the response's data (11 R354). -/
def askedOffset (d : Dev) (r : RspHdr) : Nat :=
  match roleOf d r.dst.toNat with
  | some role =>
    let outs := (if role < 256 then (d.descs.filter (fun x => x.r.berth == role)).flatMap (fun x => x.out) else []) ++
      (if role < 256 then [] else d.salv.protect.map (fun p => p.out))
    match outs.find? (fun o => o.reqId == r.reqId.toNat) with
    | some o => o.offset
    | none => 0
  | none => 0

/-- A response arrives on a Landing (11 R352, R355): one whose DST is not the device's is discarded and counted. -/
def responseIn (d : Dev) (n : Nat) (r : RspHdr) (data : List Byte) : Dev :=
  if !landOpen d n then d
  else
    let slots := 1 + spanSlots (askedOffset d r % 16) data.length
    let d1 := freeSlots d n 3 slots
    match roleOf d1 r.dst.toNat with
    | none => count d1 (pgI 0x11 8 n) 0x850
    | some role =>
      let d2 := meterRx (takeCred d1 role r.reqId.toNat r.cred.toNat) (if role < 256 then some role else none) (slots * 16)
      ownAnswer d2 role r.reqId.toNat r.status.toNat r.tchk.toNat (r.op == 0x34) data

/-- RSP_RX. -/
def execRspRx (ld : Nat) (r : RspHdr) (data : List Byte) (s : State) : Host.Outcome State Fault Refusal :=
  s.runReq (fun d => responseIn d ld r data)

end Sys2Proof.Machine
end

