-- ==== Sys2Proof/Machine/Landings.lean ====
section
/-! DEFINITION. Landings (11 R336-R349, R364, R371-R374) and the Wharf's own commands (11 R365-R370; 12 R384): flits,
training, link-down, Foghorn frames, admission, aging and sending of frames. Flits that arrive are in Machine/Flits.lean. -/

namespace Sys2Proof.Machine

open Sys2Proof

/-! ## Registers of a Landing page -/

def landPage (n : Nat) : Nat := pgI 0x11 8 n

/-- ENABLE of LAND_CTL. -/
def landEnabled (d : Dev) (n : Nat) : Bool := bit (reg d (landPage n + 0x100)) 2

/-- GEN_CAP permits EF2 (11 R337, R373). -/
def permitsEf2 (d : Dev) (n : Nat) : Bool := fld (reg d (landPage n + 0x100)) 0 2 == 2

/-- MIN_WIDTH in lanes (11 R373). -/
def minLanes (d : Dev) (n : Nat) : Nat := 2 ^ fld (reg d (landPage n + 0x100)) 4 2

/-- The widest width the good lanes allow, in lanes; 0 for none (11 R347). -/
def widest (good : Nat) : Nat :=
  if good % 16 == 15 then 4 else if good % 4 == 3 || good / 4 % 4 == 3 then 2 else if good % 16 != 0 then 1 else 0

/-! ## Isolation (14 R442) -/

/-- Every Landing and both PCIe links are down. -/
def allDown (d : Dev) : Bool := (upLands d).isEmpty && !(port d 0).up && !(port d 1).up

/-- A link has gone down: the isolation begins where it was the last. -/
def noteIsolated (d : Dev) : Dev :=
  if d.salv.wasUp && allDown d && d.salv.isolatedSince.isNone then { d with salv.isolatedSince := some d.sys.ltc } else d

/-! ## Moving frames (11 R364) -/

/-- The Landing a frame moves to, by the rules of 11 R363 over the Landings that are up. -/
def newLand (d : Dev) (f : Frame) : Option Nat :=
  match f.msg with
  | .snoop _ _ _ _ _ _ off _ =>
    match extAt d off with
    | some x => snoopLand d x.e.berth off
    | none => pickLand (upLands d) off
  | .req _ h _ => match f.berth with
    | some b => pickLand (berthLands d b) h.offset.toNat
    | none => pickLand (upLands d) h.offset.toNat
  | _ => match f.berth with
    | some b => pickLand (berthLands d b) f.off
    | none => pickLand (upLands d) f.off

/-- A request of the device is the one that a header names. -/
def sameReq (h : Hdr) (o : OutReq) : Bool := o.h.src == h.src && o.h.reqId == h.reqId

/-- Change a request of the device that has not been answered, a ring sequencer's or the Tow's. -/
def onOut (d : Dev) (h : Hdr) (f : OutReq → OutReq) : Dev :=
  let put (o : OutReq) : OutReq := if sameReq h o then f o else o
  { d with descs := d.descs.map (fun x => { x with out := x.out.map put })
           xmap.rings := d.xmap.rings.map (fun e => (e.1, { e.2 with notes := e.2.notes.map put }))
           salv.protect := d.salv.protect.map (fun p => { p with out := put p.out }) }

/-- An AGED report that no Landing can take is discarded, counted, and raises UNDELIV (11 R370). -/
def undeliverable (d : Dev) (bank id dst job : Nat) : Dev :=
  raiseFe (count d (pg 0x10 bank) 0x808) (pg 0x10 bank) 1
    { unit := false, addr := 0, src := dst, job := job, reqId := id, code := cAGED }

/-- A frame queued for a Landing that is down moves: out of its buffer, to the input queue of another, with its stamp. Where no
Landing is up it waits, and an AGED report is discarded. -/
def moveFrame (d : Dev) (f : Frame) : Dev :=
  match newLand d f with
  | none => match f.report, f.msg with
    | true, .rsp _ id dst _ _ _ _ _ => undeliverable (dropFrame d f) f.bank id dst f.job
    | _, _ => d
  | some k =>
    let d1 := freeCells d f
    let g := { f with bank := k / 8, output := k % 8, input := if k / 8 == f.bank then f.input else 9, admitted := false,
                      cellsG := 0, cellsS := 0, group := 0, residue := false }
    let via (s : Snoop) : Snoop := match f.msg with
      | .snoop _ id _ _ _ _ _ _ => if s.id == id then { s with via := some k } else s
      | _ => s
    let d2 := { d1 with
      wharf.frames := (d1.wharf.frames.filter (fun h => h.id != f.id)) ++ [g]
      quay.trans := d1.quay.trans.map (fun t => { t with snoops := t.snoops.map via }) }
    let d3 := match f.msg with
      | .req _ h _ => onOut d2 h (fun o => { o with landing := k })
      | _ => d2
    count d3 (pg 0x10 (k / 8)) 0x838

/-- Every frame queued for a Landing. -/
def framesFor (d : Dev) (n : Nat) : List Frame :=
  d.wharf.frames.filter (fun f => f.output < 8 && f.bank * 8 + f.output == n)

/-- Responses in the replay buffer of a link that went down come through another Landing (04 R134). -/
def resendReplay (d : Dev) (l : List ReplayFlit) : Dev :=
  l.foldl (fun d r => match r.frame with
    | some f =>
      (match f.msg with
      | .snoop .. => d
      | .req .. => d
      | _ =>
        let k := (newLand d f).getD (f.bank * 8 + f.output)
        pushFrame d { f with bank := k / 8, output := k % 8, input := if k / 8 == f.bank then f.input else 9,
                             admitted := false, cellsG := 0, cellsS := 0, group := 0 })
    | none => d) d

/-- A request of the device waits in the Wharf. -/
def reqQueued (d : Dev) (o : OutReq) : Bool :=
  d.wharf.frames.any (fun f => match f.msg with | .req _ h _ => sameReq h o | _ => false)

/-- A request of the device is sent again over another Landing, with the same request ID and MARK set (11 R351; 14 R455). -/
def sendMarked (job input qsets : Nat) (d : Dev) (o : OutReq) : Dev :=
  let k := reqLand d o.berth o.offset
  sendOn (onOut d o.h (fun q => { q with landing := k })) k (if k / 8 == bankOfBerth o.berth then input else 9) 4
    (2 + (if o.data.isEmpty then 0 else spanSlots o.offset o.len)) (some o.berth) job false false
    (.req o.op { o.h with mark := true } o.data) 0 qsets

/-- Requests of ring sequencers and of the Tow that were sent on a Landing and have not been answered are sent again (14 R455). -/
def resendOut (d : Dev) (n : Nat) : Dev :=
  let lost (o : OutReq) : Bool := o.landing == n && !o.waits && !reqQueued d o
  let d1 := d.descs.foldl (fun d x => (x.out.filter lost).foldl (sendMarked x.job 17 x.qsets) d) d
  let d2 := ((d.xmap.rings.flatMap (fun e => e.2.notes)).filter lost).foldl (fun d o => sendMarked o.h.job.toNat 17 0 d o) d1
  (d.salv.protect.filter (fun p => lost p.out)).foldl (fun d p => sendMarked p.out.h.job.toNat 18 0 d p.out) d2

/-- A snoop's frame is still in the Wharf. -/
def snoopQueued (d : Dev) (id : Nat) : Bool :=
  d.wharf.frames.any (fun f => match f.msg with | .snoop _ i _ _ _ _ _ _ => i == id | _ => false)

/-- Snoops last sent on a Landing, or on none, and no longer queued, are sent again (05 R157). -/
def resendSnoops (d : Dev) (from_ : Option Nat) : Dev :=
  d.quay.trans.foldl (fun d t => t.snoops.foldl (fun d s =>
    if s.via == from_ && !snoopQueued d s.id then
      let r := sendSnoop d t.bank t.line s 0
      onTrans r.1 t.bank t.line (fun u => { u with snoops := u.snoops.map (fun v => if v.id == s.id then r.2 else v) })
    else d) d) d

/-! ## Link-down (11 R348; 04 R134, R136) -/

/-- Room of a bank's loss list (04 R136). -/
def lossRoom (d : Dev) (bank : Nat) : Nat := 16384 - (lossesIn d bank).length

/-- A bank's loss list has been exceeded (04 R136, R148). -/
def lossFull (d : Dev) (bank n : Nat) : Dev :=
  raiseFe (setReg d (pg 0x40 bank + 0x408) (2 ^ 15)) (pg 0x40 bank) 3 (feUnit n)

/-- The loss list of a Landing: in each bank the entries of its last 512 flits, the earliest first, until the list is full. The sources of
the lost Landing are those of the requests accepted in these flits (DESIGN CHOICE, log 160). -/
def buildLoss (d : Dev) (n : Nat) : Dev :=
  let acc := (land d n).accepted
  let e := lossRoom d 0
  let w := lossRoom d 1
  let es := ((acc.take (max e w)).zip (List.range acc.length)).map (fun a =>
    ({ landing := n, src := a.1.src, reqId := a.1.reqId, outcome := a.1.outcome, since := d.sys.ltc, inEast := decide (a.2 < e),
       inWest := decide (a.2 < w) } : LossEntry))
  let l : Loss := { landing := n, since := d.sys.ltc, building := true, ovfEast := decide (e < acc.length),
                    ovfWest := decide (w < acc.length), sources := acc.map (fun a => a.src) }
  let d1 := { d with quay.lossList := d.quay.lossList ++ es, quay.losses := d.quay.losses ++ [l] }
  let d2 := if l.ovfEast then lossFull d1 0 n else d1
  if l.ovfWest then lossFull d2 1 n else d2

/-- A Landing's link goes down: its state, the loss list, and everything queued for it or unacknowledged on it. -/
def downLink (d : Dev) (n : Nat) : Dev :=
  let l := land d n
  if !linkUp d n then onLand d n (fun l => { l with st := if landEnabled d n then .down else .disabled })
  else
    let fs := framesFor d n
    let d1 := onLand d n (fun l => { l with st := if landEnabled d n then .down else .disabled, downAt := some d.sys.ltc, replay := [],
                                            accepted := [], trained := false, nakOwed := false, rxMsg := [] })
    let d2 := raiseFe (count d1 (landPage n) 0x838) (landPage n) 0 (feUnit n)
    let d3 := buildLoss { d2 with lands := modAt (fun x => { x with accepted := l.accepted }) d2.lands n } n
    let d4 := onLand d3 n (fun x => { x with accepted := [] })
    let d5 := resendOut (resendReplay (fs.foldl moveFrame d4) l.replay) n
    noteIsolated (resendSnoops (idleTags d5 n) (some n))

/-- LINK_DOWN (11 R348). -/
def execLinkDown (ld : Nat) (s : State) : Host.Outcome State Fault Refusal :=
  s.runReq (fun d => if linkUp d ld then downLink d ld else d)

/-- LOSS_LIST_COMPLETE (04 R134, R135): held marked requests go on once no list is being built. -/
def lossComplete (d : Dev) (n : Nat) : Dev :=
  let built (l : Loss) : Loss := if l.landing == n then { l with building := false } else l
  let d1 : Dev := { d with quay.losses := d.quay.losses.map built }
  if d1.quay.losses.any (fun l => l.building) then d1
  else
    let held (f : Flying) : Bool := f.wait == .lossList
    let l := d1.flying.filter held
    l.foldl (fun d f => match landOf f.q with
      | some k => fromLanding d k f.q
      | none => d) { d1 with flying := d1.flying.filter (fun f => !held f) }

def execLossListComplete (ld : Nat) (s : State) : Host.Outcome State Fault Refusal :=
  s.runReq (fun d => lossComplete d ld)

/-- LOSS_LIST_EXPIRE (04 R134, R147): the copies of both banks of a Landing's oldest loss have expired. -/
def lossExpire (d : Dev) (n : Nat) : Dev :=
  match d.quay.losses.find? (fun l => l.landing == n && !l.building) with
  | none => d
  | some l =>
    let d1 := advanceTo d (max (lossEnd d 0 l.since) (lossEnd d 1 l.since))
    { d1 with
      quay.losses := delFirst (fun x => x.landing == n && x.since == l.since) d1.quay.losses
      quay.lossList := d1.quay.lossList.filter (fun e => !(e.landing == n && e.since == l.since)) }

def execLossListExpire (ld : Nat) (s : State) : Host.Outcome State Fault Refusal :=
  s.run (fun d => lossExpire d ld)

/-! ## Retrain (11 R346, R347) -/

/-- Start a retrain of a link that is up. -/
def retrain (d : Dev) (n : Nat) (software : Bool) : Dev :=
  if (land d n).st != .up then d
  else
    let d1 := onLand d n (fun l => { l with st := .retraining, swRetrain := software })
    raise (count d1 (landPage n) 0x830) (landPage n) 3

/-- Resend every unacknowledged flit in SEQ order, or retrain where the oldest has been resent too often (11 R344). The last resend
of a SEQ still waits for its acknowledgement: the next one is what retrains. -/
def resend (d : Dev) (n : Nat) : Dev :=
  let l := land d n
  match l.replay with
  | [] => d
  | r :: _ =>
    if reg d (landPage n + 0x118) ≤ r.resends then retrain d n false
    else
      let d1 := onLand d n (fun l => { l with
        replay := l.replay.map (fun r => { r with resends := r.resends + 1 }), lastAck := d.sys.ltc })
      l.replay.foldl (fun d r => count (sendFlit d n 1 r.seq r.start true r.slots) (landPage n) 0x818) d1

/-- RETRAIN_DONE: the width the good lanes allow; below MIN_WIDTH, or with none, the link goes down. The link's resends and error
windows begin anew, and what is unacknowledged is resent. -/
def retrainEnd (d : Dev) (n good : Nat) : Dev :=
  let l := land d n
  if l.st != .retraining then d
  else
    let w0 := widest good
    let w := min (if l.swRetrain then w0 else min w0 l.width) l.cap
    if w0 == 0 || w < minLanes d n then raiseDegraded (onLand (downLink d n) n (fun l => { l with lanesBad := true })) (n / 8)
    else
      let d1 := onLand d n (fun l => { l with st := .up, width := w, laneOk := .ofNat 4 good, swRetrain := false,
                                              gen2 := permitsEf2 d n && l.partnerEf2, fecErrs := [0, 0, 0, 0], fecSince := d.sys.ltc
                                              replay := l.replay.map (fun r => { r with resends := 0 }) })
      let d2 := if w < l.width then raiseDegraded (raiseFe d1 (landPage n) 2 (feUnit n)) (n / 8) else d1
      resend d2 n

def execRetrainDone (ld : Nat) (good : BitVec 4) (s : State) : Host.Outcome State Fault Refusal :=
  s.runReq (fun d => retrainEnd d ld good.toNat)

/-- A lane is no longer good: retrain. -/
def laneBad (d : Dev) (n lane : Nat) : Dev :=
  if (land d n).st != .up then d
  else retrain (onLand d n (fun l => { l with laneOk := l.laneOk &&& ~~~(BitVec.ofNat 4 (2 ^ lane)) })) n false

/-- LANE_LOCK_LOSS. -/
def execLaneLockLoss (ld lane : Nat) (s : State) : Host.Outcome State Fault Refusal :=
  s.run (fun d => laneBad d ld lane)

/-- LANE_ERR_LIMIT: a lane's corrected symbols of 1 ms have reached LAND_LANE_ERR_LIMIT. -/
def execLaneErrLimit (ld lane : Nat) (s : State) : Host.Outcome State Fault Refusal :=
  s.run (fun d => laneBad d ld lane)

/-- LAND_ACK_TIMEOUT (11 R344). -/
def execLandAckTimeout (ld : Nat) (s : State) : Host.Outcome State Fault Refusal :=
  s.run (fun d =>
    if (land d ld).st != .up || (land d ld).replay.isEmpty then d
    else resend (advanceTo d ((land d ld).lastAck + reg d (landPage ld + 0x110))) ld)

/-! ## Training and link-up (11 R337, R349) -/

/-- When a link that is down attempts training: 1 ms after it went down or last tried, and at once where it never has (11 R349;
log 132). -/
def attemptDue (d : Dev) (n : Nat) : Dev :=
  match (land d n).downAt with
  | some t => advanceTo d (t + 800000)
  | none => d

/-- TRAINING_ATTEMPT, from the LANDINGS step on (16 R499): a partner that offers no generation leaves the link in training; a width that is not allowed leaves
it down. -/
def trainAttempt (d : Dev) (n : Nat) (offer : PartnerOffer) (good : Nat) : Dev :=
  let l := land d n
  if !bankLive d (n / 8) || d.sys.step < 0x10 || !landEnabled d n || !(l.st == .down || l.st == .training) then d
  else
    let d1 := attemptDue d n
    let ef2 := offer == .ef2
    let w := min (widest good) l.cap
    let d2 := onLand d1 n (fun l => { l with downAt := some d1.sys.ltc })
    if offer == .none then onLand d2 n (fun l => { l with st := .training, trained := false, partnerEf2 := false })
    else
      -- lanes that have not been found bad before are a new fault (14 R434)
      let fault := w < 4 && l.laneOk != .ofNat 4 good
      let d3 := if fault then raiseDegraded d2 (n / 8) else d2
      if w == 0 || w < minLanes d n then
        onLand d3 n (fun l => { l with st := .down, trained := false, partnerEf2 := ef2, laneOk := .ofNat 4 good, lanesBad := true })
      else onLand d3 n (fun l => { l with st := .training, trained := true, partnerEf2 := ef2, gen2 := ef2 && permitsEf2 d n,
                                          width := w, laneOk := .ofNat 4 good, lanesBad := false })

def execTrainingAttempt (ld : Nat) (offer : PartnerOffer) (good : BitVec 4) (s : State) : Host.Outcome State Fault Refusal :=
  s.run (fun d => trainAttempt d ld offer good.toNat)

/-- LINK_UP: both directions start anew, and what waits for a Landing is sent. -/
def upLink (d : Dev) (n : Nat) : Dev :=
  let l := land d n
  if l.st != .training || !l.trained || !bankLive d (n / 8) then d
  else
    let d1 := onLand d n (fun l => { l with
      st := .up, txNext := 0, rxNext := 0, replay := [], nakOwed := false, lastAck := d.sys.ltc
      credit := List.replicate 8 2048, credSeen := List.replicate 8 0, freed := List.replicate 8 0
      credNext := 0, sinceCtl := 0, rxMsg := [], fecWord := [], fecBits := []
      fogSeq := 0, fogLastTx := d.sys.ltc, fogLastRx := d.sys.ltc, fogMissedNow := 0, accepted := [], rxFlits := 0
      fecErrs := [0, 0, 0, 0], fecSince := d.sys.ltc, bucket := 16384 * 4, bucketAt := d.sys.ltc })
    let d2 := { raise d1 (landPage n) 1 with salv.isolatedSince := none, salv.wasUp := true }
    let waiting := d2.wharf.frames.filter (fun f => f.output < 8 && !linkUp d2 (f.bank * 8 + f.output))
    let d3 := (List.range 16).foldl idleTags (waiting.foldl moveFrame d2)
    resendSnoops d3 none

def execLinkUp (ld : Nat) (s : State) : Host.Outcome State Fault Refusal :=
  s.runReq (fun d => upLink d ld)

/-! ## LAND_CTL (11 R373) -/

/-- A write of LAND_CTL: a reserved value leaves its field, and the other fields take effect. -/
def writeLandCtl (d : Dev) (n v : Nat) : Dev :=
  let old := reg d (landPage n + 0x100)
  let gen := if fld v 0 2 == 1 || fld v 0 2 == 2 then fld v 0 2 else fld old 0 2
  let mw := if fld v 4 2 == 3 then fld old 4 2 else fld v 4 2
  let en := bit v 2
  let d1 := setReg d (landPage n + 0x100) (gen + b2n en * 4 + mw * 16)
  let d2 := if !en then downLink d1 n
            else if (land d1 n).st == .disabled then onLand d1 n (fun l => { l with st := .down, downAt := none }) else d1
  if bit v 3 then retrain d2 n true else d2

/-- LAND_STAT (11 R374). -/
def readLandStat (d : Dev) (n : Nat) : Nat :=
  let l := land d n
  let st := match l.st with | .disabled => 0 | .down => 1 | .training => 2 | .up => 3 | .retraining => 4
  let up := linkUp d n
  let w := if l.width == 4 then 2 else if l.width == 2 then 1 else 0
  st + (if up then b2n l.gen2 * 8 + w * 16 else 0) + l.laneOk.toNat * 64 + b2n l.partnerEf2 * 1024

/-! ## Foghorn (11 R371, R372) -/

/-- HEALTH (11 R371; 14 R434, R441). -/
def health (d : Dev) : Nat :=
  if d.sys.phase != .none then 2 else if degradedNow d || d.salv.fencedOut then 1 else 0

/-- FOGHORN_TX: a Landing that is up sends a frame every 8,000 cycles, from the SERVICE step on (16 R499). -/
def fogTx (d : Dev) (n : Nat) : Dev :=
  let l := land d n
  if l.st != .up || d.sys.step < 0x11 then d
  else
    let d1 := advanceTo d (l.fogLastTx + 8000)
    let w := if l.width == 4 then 2 else if l.width == 2 then 1 else 0
    let f : Foghorn := { port := n, node := d1.xmap.node, nodeValid := d1.xmap.nodeValid, up := ofBits (upLands d1), epoch := d1.xmap.epoch,
                         seq := l.fogSeq, health := health d1, width := w }
    putFlit (onLand d1 n (fun l => { l with fogSeq := (l.fogSeq + 1) % 2 ^ 24, fogLastTx := d1.sys.ltc, fogSent := some f }))
      n 2 0 0 false (fogBytes f)

def execFoghornTx (ld : Nat) (s : State) : Host.Outcome State Fault Refusal :=
  s.run (fun d => fogTx d ld)

/-- A Foghorn frame arrives: its sender is recorded. -/
def fogRx (d : Dev) (n senderId : Nat) : Dev :=
  if !linkUp d n then d
  else setReg (onLand d n (fun l => { l with fogLastRx := d.sys.ltc, fogMissedNow := 0 })) (landPage n + 0x130) senderId

/-- FOGHORN_RX. -/
def execFoghornRx (ld : Nat) (senderId : BitVec 32) (s : State) : Host.Outcome State Fault Refusal :=
  s.run (fun d => fogRx d ld senderId.toNat)

/-- FOGHORN_MISS: a frame is missing for one period; a gap of LAND_FOG_MISS periods takes the link down. -/
def fogMiss (d : Dev) (n : Nat) : Dev :=
  let l := land d n
  if !linkUp d n then d
  else
    let d1 := advanceTo d (l.fogLastRx + 8000 * (l.fogMissedNow + 1))
    let d2 := count (onLand d1 n (fun l => { l with fogMissedNow := l.fogMissedNow + 1 })) (landPage n) 0x840
    if reg d2 (landPage n + 0x128) ≤ l.fogMissedNow + 1 then raiseFe (downLink d2 n) (landPage n) 4 (feUnit n) else d2

def execFoghornMiss (ld : Nat) (s : State) : Host.Outcome State Fault Refusal :=
  s.runReq (fun d => fogMiss d ld)

/-! ## The Wharf (11 R365-R370) -/

/-- A frame leaves an output other than a Landing as soon as it is admitted (11 R367). -/
def passThrough (d : Dev) (bank output : Nat) : Dev :=
  if output < 8 then d
  else (d.wharf.frames.filter (fun f => f.admitted && f.bank == bank && f.output == output)).foldl dropFrame d

/-- FRAME_ADMIT. -/
def execFrameAdmit (bank input output cls : Nat) (s : State) : Host.Outcome State Fault Refusal :=
  s.run (fun d => if bankLive d bank then passThrough (admitHead d bank input output cls) bank output else d)

/-- A frame is the head of its queue, at its input or in its output buffer (11 R369). -/
def isHead (d : Dev) (f : Frame) : Bool :=
  if f.admitted then
    match d.wharf.frames.find? (fun g => g.admitted && g.bank == f.bank && g.output == f.output && g.cls == f.cls &&
        queueKey g == queueKey f) with
    | some g => g.id == f.id
    | none => false
  else match inputHead d f.bank f.input f.output f.cls with
    | some g => g.id == f.id
    | none => false

/-- Send an AGED report to an end point, or count it undeliverable (11 R370). -/
def agedReport (d : Dev) (bank id dst : Nat) (f : Frame) : Dev :=
  let n := f.bank * 8 + f.output
  match (if f.output < 8 && linkUp d n then some n else pickLand (upLands d) id) with
  | some k => sendOn d k (if k / 8 == bank then 17 else 9) 3 1 none f.job false true (.rsp 0x30 id dst cAGED 0 0 0 [])
  | none => undeliverable d bank id dst f.job

/-- What follows the discard of a frame (11 R370). -/
def agedThen (d : Dev) (f : Frame) : Dev :=
  match f.msg with
  | .rsp _ id dst _ _ _ _ _ => agedReport d f.bank id dst f
  | .comb id dst _ _ _ _ _ => agedReport d f.bank id dst f
  | .req _ h _ => match roleOf d h.src.toNat with
    | some role => ownAnswer d role h.reqId.toNat cAGED 0 false []
    | none => d
  | .snoop _ id _ _ _ _ _ _ =>
    match snoopOf d id with
    | some (t, s) =>
      let r := sendSnoop d t.bank t.line s 0
      onTrans r.1 t.bank t.line (fun u => { u with snoops := u.snoops.map (fun v => if v.id == id then r.2 else v) })
    | none => d

/-- What a record of an aged frame holds. -/
def agedFe (d : Dev) (f : Frame) : Fe :=
  match f.msg with
  | .rsp _ id dst _ _ _ _ _ => { unit := false, addr := 0, src := dst, job := f.job, reqId := id, code := cAGED }
  | .comb id dst _ _ _ _ _ => { unit := false, addr := 0, src := dst, job := f.job, reqId := id, code := cAGED }
  | .req _ h _ => feReq d h cAGED
  | .snoop _ id _ dst job node off _ => { unit := false, addr := node * 2 ^ 48 + off, src := dst, job := job, reqId := id, code := cAGED }

/-- FRAME_AGED (11 R369): a frame over the age limit at the head of its queue is discarded and reported. -/
def frameAge (d : Dev) (bank id : Nat) : Dev :=
  match d.wharf.frames.find? (fun f => f.id == id && f.bank == bank) with
  | none => d
  | some f =>
    if f.report || !isHead d f then d
    else
      let page := pg 0x10 bank
      let d1 := advanceTo d (f.stamp + reg d (page + 0x100) + 1)
      let d2 := raiseFe (count (dropFrame d1 f) page 0x800) page 0 (agedFe d1 f)
      let d3 := if f.admitted && decide (f.output < 8) then idleTags d2 (bank * 8 + f.output) else d2
      agedThen d3 f

def execFrameAged (bank frame : Nat) (s : State) : Host.Outcome State Fault Refusal :=
  s.runReq (fun d => frameAge d bank frame)

/-- LANDING_FRAME_SEND (12 R384-R387). -/
def execLandingFrameSend (ld : Nat) (s : State) : Host.Outcome State Fault Refusal :=
  s.run (fun d => if (land d ld).st == .up && bankLive d (ld / 8) then sendNext d ld else d)

/-! ## WHARF_GMIN and WHARF_EP_BASE (11 R376, R377) -/

/-- The selected pair of a bank: output and class. -/
def gminSel (d : Dev) (bank : Nat) : Nat × Nat :=
  let v := reg d (pg 0x10 bank + 0x118)
  (fld v 0 6, fld v 6 3)

def readGmin (d : Dev) (bank : Nat) : Nat :=
  let s := gminSel d bank
  if s.1 < 50 then gminOf d bank s.1 s.2 else 0

/-- A write of WHARF_GMIN. -/
def writeGmin (d : Dev) (bank v : Nat) : Dev :=
  let s := gminSel d bank
  if 50 ≤ s.1 || v < 4 || 4096 < v then d
  else
    let k := bank * 512 + s.1 * 8 + s.2
    let d1 := { d with wharf.gmin := NMap.set 32 d.wharf.gmin k v }
    if 262144 < gminSum d1 bank || sharedSize d1 bank < sharedUsed d1 bank then raise d (pg 0x10 bank) 2 else d1

/-- A write of WHARF_EP_BASE: once VALID, it stays. -/
def writeEpBase (d : Dev) (v : Nat) : Dev :=
  if d.wharf.epValid then d else { d with wharf.epBase := fld v 9 9, wharf.epValid := bit v 31 }

end Sys2Proof.Machine
end

