-- ==== Sys2Proof/Machine/Traffic.lean ====
section
/-! DEFINITION. Scheduler registers, the Fare meter's configuration, Timetables and metering (12 R383, R386, R391-R403). -/

namespace Sys2Proof.Machine

open Sys2Proof

/-! ## The Fare meter's configuration (12 R391, R400) -/

/-- The job FM_SEL names, and what the table keeps for it. -/
def fareSel (d : Dev) : Nat := reg d (pg 0x71 0 + 0x100) % 4096

def fareOf (d : Dev) (j : Nat) : FareJob := NMap.get {} d.sched.fare j

/-- A write of FM_CFG: it applies with the four staged values, or is discarded whole (12 R391). -/
def writeFmCfg (d : Dev) (v : Nat) : Dev :=
  let page := pg 0x71 0
  let cir := reg d (page + 0x110)
  let cbs := reg d (page + 0x118)
  let pir := reg d (page + 0x120)
  let pbs := reg d (page + 0x128)
  let pre := fld v 2 8
  let badPre := (List.range 4).any (fun i => fld pre (2 * i) 2 == 3)
  if badPre || decide (pir < cir) then d
  else
    let j := fareSel d
    let f := fareOf d j
    let on := bit v 0
    let fresh := on && !f.enable
    let tc := if !on then 0 else if fresh then cbs * 800 else min f.tc (cbs * 800)
    let tp := if !on then 0 else if fresh then pbs * 800 else min f.tp (pbs * 800)
    let g : FareJob := { f with enable := on, aware := bit v 1, pre := pre, cir := cir, cbs := cbs, pir := pir, pbs := pbs,
                                tc := tc, tp := tp, seen := if fresh then d.sys.ltc else if on then f.seen else 0 }
    { d with sched.fare := NMap.set {} d.sched.fare j g }

/-- FM_CFG of the selected job. -/
def readFmCfg (d : Dev) : Nat :=
  let f := fareOf d (fareSel d)
  b2n f.enable + b2n f.aware * 2 + f.pre * 4

/-- The six counters of the selected job (12, Registers). -/
def readFmCount (d : Dev) (k : Nat) : Nat :=
  let f := fareOf d (fareSel d)
  match k with
  | 0 => f.greenReq | 1 => f.greenBytes | 2 => f.yellowReq | 3 => f.yellowBytes | 4 => f.redReq | _ => f.redBytes

/-! ## Queue weights and job queue sets (12 R382, R383) -/

/-- The queue SCHED_QW_SEL names. -/
def weightSel (d : Dev) (bank : Nat) : Nat :=
  let v := reg d (pg 0x70 bank + 0x118)
  (fld v 0 8 * 8 + fld v 8 3) * 8 + fld v 11 3

def readWeight (d : Dev) (bank : Nat) : Nat := NMap.get 1024 d.sched.weights (weightSel d bank)

/-- A write of SCHED_QW: discarded outside 1 to 65,535 (12 R399). -/
def writeWeight (d : Dev) (bank v : Nat) : Dev :=
  if decide (1 ≤ v) && decide (v ≤ 65535) then
    { d with sched.weights := NMap.set 1024 d.sched.weights (weightSel d bank) v }
  else d

/-- The priority buckets of a bank's Landings, brought up to now: a new SCHED_PRIO_RATE holds from its write on (12 R384). -/
def fillBuckets (d : Dev) (bank : Nat) : Dev :=
  (List.range 8).foldl (fun d k =>
    onLand d (8 * bank + k) (fun l => { l with bucket := bucketNow d (8 * bank + k), bucketAt := d.sys.ltc })) d

def jobqSel (d : Dev) (bank : Nat) : Nat := reg d (pg 0x70 bank + 0x128) % 4096

def writeJobqs (d : Dev) (bank v : Nat) : Dev :=
  { d with sched.jobqs := NMap.set 0 d.sched.jobqs (jobqSel d bank) (v % 8) }

/-! ## Timetables -/

/-- The Landing a scheduler page's Timetable registers act on. -/
def ttLand (d : Dev) (bank : Nat) : Nat := bank * 8 + reg d (pg 0x70 bank + 0x200) % 8

def ttOf (d : Dev) (ld : Nat) : Timetable := d.sched.tts.getD ld resetTimetable

def onTt (d : Dev) (ld : Nat) (f : Timetable → Timetable) : Dev := { d with sched.tts := modAt f d.sched.tts ld }

/-- Entry `i` of a list; one that nothing has written holds the reset entry (12 R403). -/
def ttEntry (l : List GateEntry) (i : Nat) : GateEntry := l.getD i openEntry

/-- A list with entry `i` written. -/
def putEntry (l : List GateEntry) (i : Nat) (e : GateEntry) : List GateEntry :=
  let l1 := l ++ List.replicate (i + 1 - l.length) openEntry
  modAt (fun _ => e) l1 i

/-- WR_ARMED (12 R394). -/
def wrArmed (d : Dev) (bank : Nat) : Dev := raise d (pg 0x70 bank) 2

/-- A write of TT_ENTRY (12 R394, R403): reserved bits stay 0. -/
def writeTtEntry (d : Dev) (bank v : Nat) : Dev :=
  let sel := reg d (pg 0x70 bank + 0x220)
  let ld := ttLand d bank
  if !bit sel 8 then d
  else if (ttOf d ld).armed then wrArmed d bank
  else onTt d ld (fun t => { t with shadow := putEntry t.shadow (sel % 256) (BitVec.ofNat 64 (v % 2 ^ 49)) })

def readTtEntry (d : Dev) (bank : Nat) : Nat :=
  let sel := reg d (pg 0x70 bank + 0x220)
  let t := ttOf d (ttLand d bank)
  (ttEntry (if bit sel 8 then t.shadow else t.active) (sel % 256)).toNat

/-- A write of TT_BASE_TIME (12 R394). -/
def writeTtBase (d : Dev) (bank v : Nat) : Dev :=
  let ld := ttLand d bank
  if (ttOf d ld).armed then wrArmed d bank else onTt d ld (fun t => { t with nextBase := v })

/-- Why an ARM is refused: 1 N_ENTRIES, 2 an entry, 3 the base time, or none (12 R394, R402). -/
def armReason (d : Dev) (t : Timetable) : Option Nat :=
  if t.shadowN == 0 || decide (256 < t.shadowN) then some 1
  else if (List.range t.shadowN).any (fun i => decide (durOf (ttEntry t.shadow i) < 8)) then some 2
  else if t.nextBase < d.sys.ltc + 64 then some 3
  else none

/-- ARM (12 R394). -/
def armTt (d : Dev) (bank : Nat) : Dev :=
  let ld := ttLand d bank
  match armReason d (ttOf d ld) with
  | some r => count (raise (onTt d ld (fun t => { t with reason := r })) (pg 0x70 bank) 1) (pg 0x70 bank) 0x820
  | none => onTt d ld (fun t => { t with
      armed := true, shadow := t.shadow ++ List.replicate (t.shadowN - t.shadow.length) openEntry })

/-- DISARM (12 R395): discarded from the cycle of the base time on. -/
def disarmTt (d : Dev) (bank : Nat) : Dev :=
  onTt d (ttLand d bank) (fun t => if t.armed && decide (d.sys.ltc < t.nextBase) then { t with armed := false } else t)

/-- A write of TT_CTL (12 R401). While ARMED a write to N_ENTRIES raises WR_ARMED (12 R394); one that names the value held beside
ARM or DISARM is the command's alone (log 75). -/
def writeTtCtl (d : Dev) (bank v : Nat) : Dev :=
  let ld := ttLand d bank
  let n := fld v 0 9
  let t := ttOf d ld
  let d1 := if t.armed then (if n == t.shadowN && (bit v 9 || bit v 10) then d else wrArmed d bank) else onTt d ld (fun t => { t with shadowN := n })
  let d2 := if bit v 9 then armTt d1 bank else d1
  if bit v 10 then disarmTt d2 bank else d2

/-- TT_STAT (12 R402). -/
def readTtStat (d : Dev) (bank : Nat) : Nat :=
  let t := ttOf d (ttLand d bank)
  b2n t.armed + (gateNow t d.sys.ltc).1 * 2 + t.activeN * 2 ^ 9 + t.reason * 2 ^ 18

/-- Queues of classes 3 to 7 that were closed for the whole of an entry and are open in the next count as empty: their
head frame's tag is computed again from the virtual time (12 R386). -/
def openQueues (d : Dev) (ld : Nat) (was now : GateEntry) : Dev :=
  let wakes := (queueHeads (queued d ld) []).filter (fun f => !opens was f.cls f.qset && opens now f.cls f.qset)
  let v := (land d ld).vtime
  let d1 := wakes.foldl (fun d f =>
    let tag := (v + f.slots * 65536 / weightOf d (queueKey f)) % 2 ^ 64
    onFrame d f.id (fun g => { g with tag := tag })) d
  match prioHead (queued d ld) with
  | some f => if !opens was f.cls f.qset && opens now f.cls f.qset then onLand d1 ld (fun l => { l with prioWoke := some v }) else d1
  | none => d1

/-- The shadow list of an armed Landing becomes the active list at its base time. -/
def switchOne (d : Dev) (ld : Nat) : Dev :=
  let t := ttOf d ld
  let was := ttEntry t.active (gateNow t (t.nextBase - 1)).1
  let d1 := onTt d ld (fun t => { t with
    active := t.shadow, activeN := t.shadowN, shadow := t.active, shadowN := t.activeN, base := t.nextBase, armed := false })
  let page := pg 0x70 (ld / 8)
  openQueues (count (raise d1 page 0) page 0x818) ld was (ttEntry t.shadow 0)

/-- TT_SWITCH (12 R395): in the cycle of its base time a Landing's lists change places, and with them those of every other Landing
armed with a base time that has come, in either bank. -/
def switchTt (d : Dev) (ld : Nat) : Dev :=
  if !(ttOf d ld).armed then d
  else
    let d1 := advanceTo d (ttOf d ld).nextBase
    let due (n : Nat) : Bool := (ttOf d1 n).armed && decide ((ttOf d1 n).nextBase ≤ d1.sys.ltc)
    ((List.range 16).filter due).foldl switchOne d1

def execTtSwitch (ld : Nat) (s : State) : Host.Outcome State Fault Refusal :=
  s.run (fun d => switchTt d ld)

/-- The running entry of a Landing's active list ends and the next begins; where an armed list starts no later, it is
that switch which ends the entry (12 R386, R392, R395). -/
def gateChange (d : Dev) (ld : Nat) : Dev :=
  let t := ttOf d ld
  let g := gateNow t d.sys.ltc
  let end_ := d.sys.ltc + g.2
  if t.armed && decide (t.nextBase ≤ end_) then switchTt d ld
  else
    let d1 := advanceTo d end_
    openQueues d1 ld (ttEntry t.active g.1) (ttEntry t.active (gateNow t end_).1)

def execGateEntryChange (ld : Nat) (s : State) : Host.Outcome State Fault Refusal :=
  s.run (fun d => gateChange d ld)

/-! ## Metering (12 R396-R398) -/

def snapOfBank (d : Dev) (bank : Nat) : MeterSnap := if bank == 0 then d.sched.snapEast else d.sched.snapWest

/-- METER_SNAP: a berth of the other bank gives zeros. -/
def takeMeterSnap (d : Dev) (bank : Nat) : Dev :=
  let b := reg d (pg 0x72 bank + 0x100) % 256
  let d1 := accrue d b
  let m := NMap.get {} d1.sched.meters b
  let vals := if bankOfBerth b == bank then m.ints ++ [m.tx, m.rx] else List.replicate 10 0
  let s : MeterSnap := { ltc := d1.sys.ltc, vals := vals }
  let d2 := if bank == 0 then { d1 with sched.snapEast := s } else { d1 with sched.snapWest := s }
  count (raise d2 (pg 0x72 bank) 0) (pg 0x72 bank) 0x800

end Sys2Proof.Machine
end

