-- ==== Sys2Proof/Machine/Salvage.lean ====
section
/-! DEFINITION. Salvage: fencing and isolation, members that do not answer, REBUILD, LOST and COPY, and the peer and convoy
tables (14 R441-R461). -/

namespace Sys2Proof.Machine

open Sys2Proof

/-! ## Member states -/

/-- STATE codes (14 R460). -/
def stateCode : MemberState → Nat
  | .current => 0 | .unreachable => 1 | .stale => 2 | .rebuilding => 3

def stateOf (c : Nat) : MemberState :=
  if c == 0 then .current else if c == 1 then .unreachable else if c == 2 then .stale else .rebuilding

/-- Change the state of a node in every valid peer and convoy entry that names it. -/
def onMember (d : Dev) (node : Nat) (f : MemberState → MemberState) : Dev :=
  let peer (p : Peer) : Peer := if p.valid && p.node == node then { p with st := f p.st } else p
  let conv (c : Convoy) : Convoy :=
    if c.valid then { c with states := (c.states.zip c.nodes).map (fun s => if s.2 == node then f s.1 else s.1) } else c
  { d with salv.peers := d.salv.peers.map (fun e => (e.1, peer e.2)),
           salv.convoys := d.salv.convoys.map (fun e => (e.1, conv e.2)) }

/-- Some view names a node with a state. -/
def memberIs (d : Dev) (node : Nat) (st : MemberState) : Bool :=
  d.salv.peers.any (fun e => e.2.valid && e.2.node == node && e.2.st == st) ||
  d.salv.convoys.any (fun e => e.2.valid && ((e.2.states.zip e.2.nodes).take e.2.n).any (fun s => s.2 == node && s.1 == st))

/-! ## Fencing and isolation (14 R441, R442) -/

/-- A write of SALV_CTL (14 R457). -/
def writeSalvCtl (d : Dev) (bank v : Nat) : Dev :=
  let d1 := setReg d (pg 0x34 0 + 0x128) (fld v 1 1 * 2)
  if bit v 0 then fenceOut d1 bank 0 else d1

/-- SALV_ISOLATE_EXPIRY: an isolation that has lasted SALV_ISOLATE fences the device out, unless ISO_EN is 0. -/
def isolateExpiry (d : Dev) : Dev :=
  match d.salv.isolatedSince with
  | none => d
  | some t =>
    if !bit (reg d (pg 0x34 0 + 0x128)) 1 then d
    else fenceOut (advanceTo d (t + reg d (pg 0x34 0 + 0x120))) 0 0

def execSalvIsolateExpiry (s : State) : Host.Outcome State Fault Refusal :=
  s.runReq isolateExpiry

/-! ## Members that do not answer (14 R448) -/

/-- A reconstruction whose member has become unreachable starts again from the members left. -/
def reconAgain (d : Dev) (r : Recon) : Dev :=
  match extOf d r.base with
  | none => dropRecon d r
  | some x =>
    let s := startRecon (dropRecon d r) x r.off 0 r.waiters
    if s.1 then s.2 else rebuildNext (reconFails d r) r.base

/-- Traffic to a node that has become unreachable is taken as done. -/
def takenAsDone (d : Dev) (p : Protect) : Dev :=
  if p.out.op == .wr then memberAcked d p
  else match d.salv.recons.find? (fun r => r.need.any (fun n => n.2 == p.out.reqId)) with
    | some r => reconAgain d r
    | none => dropProtect d p.out.reqId

/-- SALV_PEER_TIMEOUT: the member is unreachable in this device's view. -/
def peerTimeout (d : Dev) (node : Nat) : Dev :=
  match d.salv.protect.find? (fun p => p.node == node) with
  | none => d
  | some p =>
    let bank := p.out.h.src.toNat % 2
    let page := pg 0x34 bank
    let unit := fencedUnit d p
    let d1 := onMember (advanceTo d (p.since + reg d (page + 0x118))) node (fun st => if st == .stale then st else .unreachable)
    let d2 := count (raiseFe (raiseDegraded d1 bank) page 3 (feUnit unit)) page 0x840
    (d2.salv.protect.filter (fun q => q.node == node)).foldl takenAsDone d2

def execSalvPeerTimeout (node : Nat) (s : State) : Host.Outcome State Fault Refusal :=
  s.runReq (fun d => peerTimeout d node)

/-- An extent that is protected with a node. -/
def protectedWith (d : Dev) (node : Nat) (x : Extent) : Bool :=
  if x.e.prot == 1 then x.e.partner == node
  else x.e.prot == 2 && (convoyOf d x).valid && ((convoyOf d x).nodes.take (convoyOf d x).n).contains node

/-- The probe of a member: a read with the tide of the first extent protected with it, of that extent's first tile. The command brings its
answer, so no request is outstanding (14 R448; the tile is a DESIGN CHOICE, log 143). -/
def sendProbe (d : Dev) (node : Nat) : Dev :=
  match (if d.salv.fencedOut || !d.wharf.epValid then none else d.toll.extents.find? (protectedWith d node)) with
  | none => d
  | some x =>
    let r := sendTow d x .rd node (extBase x) 256 [] 0 0
    dropProtect r.1 r.2

/-- Tiles of an extent that the peer dirty log names for a node, all of them where the extent has been marked. -/
def loggedTiles (d : Dev) (x : Extent) (node : Nat) : List Nat :=
  if d.salv.marked.any (fun e => e.2.1 == x.e.base && e.2.2 == node) then List.range (extBytes x / 256)
  else (d.salv.dirty.filter (fun e => e.base == x.e.base && e.node == node)).map (·.tile)

/-- The logged tiles of mirror extents are sent to a member that has become stale, as they are stored (14 R448; 15 R475). What tells a
parity member its logged stripes has no message form in the spec (log 143). -/
def sendLogged (d : Dev) (node : Nat) : Dev :=
  if d.salv.fencedOut || !d.wharf.epValid then d
  else (d.toll.extents.filter (fun x => x.e.prot == 1 && x.e.partner == node && !isProtection d x)).foldl (fun d x =>
    (loggedTiles d x node).foldl (fun d t =>
      let off := extBase x + t * 256
      count (sendTow d x .wr node off 256 (rawBytes d x off 256) 0 0).1 (pg 0x34 (extBank x)) 0x828) d) d

/-- PEER_PROBE: an unreachable member is probed; where it answers OK it becomes stale, and is sent the logged entries. -/
def peerProbe (d : Dev) (node : Nat) (ok : Bool) : Dev :=
  if !memberIs d node .unreachable then d
  else
    let d1 := sendProbe d node
    if ok then sendLogged (onMember d1 node (fun st => if st == .unreachable then .stale else st)) node else d1

def execPeerProbe (node : Nat) (answeredOk : Bool) (s : State) : Host.Outcome State Fault Refusal :=
  s.runReq (fun d => peerProbe d node answeredOk)

/-- PEER_RESYNC_DONE: the last logged entry of a stale member is done, and it is current again. -/
def resyncDone (d : Dev) (node : Nat) : Dev :=
  if !memberIs d node .stale then d
  else
    let banks := [0, 1].filter (fun b => d.salv.dirty.any (fun e => e.bank == b && e.node == node) ||
      d.salv.marked.any (fun e => e.1 == b && e.2.2 == node))
    let d1 := onMember d node (fun st => if st == .stale then .current else st)
    let d2 := { d1 with salv.dirty := d1.salv.dirty.filter (fun e => e.node != node)
                        salv.marked := d1.salv.marked.filter (fun e => e.2.2 != node) }
    (if banks.isEmpty then [0] else banks).foldl (fun d b => raise d (pg 0x34 b) 4) d2

def execPeerResyncDone (node : Nat) (s : State) : Host.Outcome State Fault Refusal :=
  s.run (fun d => resyncDone d node)

/-! ## SALV_CMD (14 R443, R452, R453, R459) -/

/-- LOST: every granule of the extent is poisoned, and what its tiles were marked with no longer counts. -/
def lostExtent (d : Dev) (x : Extent) : Dev :=
  let d1 := onExt d x.e.base (fun x => { x with rebuildFrom := none, filled := [] })
  (List.range (extBytes x / 256)).foldl (fun d t => poisonTile d x t) d1

/-- REBUILD: every tile of the extent is missing, and Salvage starts with the lowest. -/
def rebuildExtent (d : Dev) (x : Extent) : Dev :=
  rebuildNext (onExt d x.e.base (fun x => { x with rebuildFrom := some 0, filled := [] })) x.e.base

/-- A write of SALV_CMD on a bank's page: it completes at once. -/
def salvCmd (d : Dev) (bank v : Nat) : Dev :=
  let base := fld (reg d (pg 0x34 bank + 0x140)) 21 27
  let op := fld v 0 4
  let r : Nat × Dev :=
    if op == 0 || decide (3 < op) then (cUNSUP, d)
    else match extOf d base with
      | none => (cDENIED, d)
      | some x =>
        if op == 1 then (cOK, rebuildExtent d x)
        else if op == 2 then (cOK, lostExtent d x)
        else (cOK, onExt d base (fun x => { x with isCopy := true }))
  { r.2 with salv.cmds := modAt (fun _ => (true, r.1)) r.2.salv.cmds bank }

/-- SALV_CMD_STAT of a bank's page. -/
def readSalvCmdStat (d : Dev) (bank : Nat) : Nat :=
  let c := d.salv.cmds.getD bank (false, 0)
  b2n c.1 * 2 + c.2 * 2 ^ 8

/-- PEER_REBUILD_DONE: every tile of every REBUILD extent is done; the device is current in its own view, and RESTORED is
raised in the banks that held such extents (14 R452). While a tile is missing, nothing has ended. -/
def rebuildDone (d : Dev) : Dev :=
  let xs := d.toll.extents.filter (fun x => x.rebuildFrom.isSome)
  if xs.isEmpty || xs.any (fun x => (nextMissing x).isSome) then d
  else
    let clear (x : Extent) : Extent := { x with rebuildFrom := none, filled := [] }
    let d1 := { d with toll.extents := d.toll.extents.map clear }
    let mine (c : Nat × Convoy) : Nat × Convoy :=
      if xs.any (fun x => x.e.prot == 2 && x.e.convoy == c.1) then
        (c.1, { c.2 with states := modAt (fun _ => .current) c.2.states c.2.self })
      else c
    let d2 := { d1 with salv.convoys := d1.salv.convoys.map mine }
    [0, 1].foldl (fun d b => if xs.any (fun x => extBank x == b) then raise d (pg 0x34 b) 1 else d) d2

def execPeerRebuildDone (s : State) : Host.Outcome State Fault Refusal :=
  s.run rebuildDone

/-! ## SALV_STAT (14 R458) -/

/-- SALV_STAT of a bank's page. -/
def readSalvStat (d : Dev) (bank : Nat) : Nat :=
  let whole : Bool := match d.tiers.rebuild with
    | some r => r.ready && bankOfSite r.position == bank
    | none => false
  let stackHere := whole || (List.range 10).any (fun s => bankOfSite (site d s).position == bank &&
    (List.range 32).any (channelRebuilds d s))
  let flashHere : Bool := match d.tiers.groups[bank]? with
    | some g => g.rebuilding.isSome
    | none => false
  b2n (degradedNow d) + b2n d.salv.fencedOut * 2 + b2n d.salv.isolatedSince.isSome * 4 + b2n stackHere * 8 + b2n flashHere * 16 +
    b2n (d.toll.extents.any (fun x => x.rebuildFrom.isSome && extBank x == bank)) * 32

/-! ## The peer table (14 R460) -/

/-- The entry SALV_PEER_SEL of a page names. -/
def peerSel (d : Dev) (bank : Nat) : Nat := reg d (pg 0x34 bank + 0x180) % 256

def readPeer (d : Dev) (bank : Nat) : Nat :=
  let p := NMap.get {} d.salv.peers (peerSel d bank)
  p.node + p.epBase * 2 ^ 14 + b2n p.valid * 2 ^ 23 + stateCode p.st * 2 ^ 24 + p.tide * 2 ^ 32

def writePeer (d : Dev) (bank v : Nat) : Dev :=
  let p : Peer := { node := fld v 0 14, epBase := fld v 14 9, valid := bit v 23, st := stateOf (fld v 24 2), tide := fld v 32 32 }
  { d with salv.peers := NMap.set {} d.salv.peers (peerSel d bank) p }

/-! ## The convoy table (14 R461) -/

/-- The entry SALV_CONVOY_SEL of a page names. -/
def convoySel (d : Dev) (bank : Nat) : Nat := reg d (pg 0x34 bank + 0x1C0) % 4096

/-- Nodes `4 i` to `4 i + 3` of a convoy as a word. -/
def nodeWord (c : Convoy) (i : Nat) : Nat :=
  total ((List.range 4).map (fun j => c.nodes.getD (4 * i + j) 0 * 2 ^ (14 * j)))

/-- The six words of an entry. -/
def convoyWords (c : Convoy) : List Nat :=
  [c.n + c.self * 2 ^ 5 + b2n c.valid * 2 ^ 10 + c.tide * 2 ^ 32, nodeWord c 0, nodeWord c 1, nodeWord c 2, nodeWord c 3,
   c.nodes.getD 16 0 + c.nodes.getD 17 0 * 2 ^ 14 +
     total ((List.range 18).map (fun k => stateCode (c.states.getD k .current) * 2 ^ (28 + 2 * k)))]

/-- The staged words of an entry: those written since its last APPLY, or the entry's own (log 61). -/
def stagedConvoy (d : Dev) (k : Nat) : List Nat :=
  let l := NMap.get [] d.salv.stage k
  if l.isEmpty then convoyWords (NMap.get {} d.salv.convoys k) else l

/-- SALV_CONVOY_DATA0 to DATA5 read: the staged word without its reserved bits, which the staging keeps for APPLY's test
(00 R8, 14 R461). -/
def readConvoy (d : Dev) (bank i : Nat) : Nat :=
  let v := (stagedConvoy d (convoySel d bank)).getD i 0
  if i == 0 then v % 2 ^ 11 + v / 2 ^ 32 * 2 ^ 32 else if i < 5 then v % 2 ^ 56 else v

def stageConvoy (d : Dev) (bank i v : Nat) : Dev :=
  let k := convoySel d bank
  { d with salv.stage := NMap.set [] d.salv.stage k (modAt (fun _ => v) (stagedConvoy d k) i) }

/-- The entry that six words spell, where they are well formed. -/
def convoyEntry (l : List Nat) : Option Convoy :=
  let w (i : Nat) : Nat := l.getD i 0
  let n := fld (w 0) 0 5
  let self := fld (w 0) 5 5
  let bad := fld (w 0) 11 21 != 0 || [1, 2, 3, 4].any (fun i => fld (w i) 56 8 != 0)
  if n < 3 || 18 < n || n ≤ self || bad then none
  else some { n := n, self := self, valid := bit (w 0) 10, tide := fld (w 0) 32 32
              nodes := (List.range 18).map (fun k => if k < 16 then fld (w (1 + k / 4)) (14 * (k % 4)) 14 else fld (w 5) (14 * (k - 16)) 14)
              states := (List.range 18).map (fun k => stateOf (fld (w 5) (28 + 2 * k) 2)) }

/-- SALV_CONVOY_APPLY: the staged entry is applied, or the write is discarded. -/
def applyConvoy (d : Dev) (bank v : Nat) : Dev :=
  let k := convoySel d bank
  if !bit v 0 then d
  else match convoyEntry (stagedConvoy d k) with
    | none => d
    | some c => { d with salv.convoys := NMap.set {} d.salv.convoys k c, salv.stage := NMap.set [] d.salv.stage k [] }

end Sys2Proof.Machine
end

