-- ==== Sys2Proof/Machine/Tiers.lean ====
section
/-! DEFINITION. The Tow's wait table (03 R112-R115) and what fails and is rebuilt in the tiers (03 R87-R99, 14 R434-R439). -/

namespace Sys2Proof.Machine

open Sys2Proof

/-! ## The wait table -/

/-- The late cause of a tier (03 R115). -/
def lateCause (t : Tier) : Nat := if t == .host then 2 else 0

/-- A request leaves the wait table: a host read is no longer expected, and the cycles of its stalls are added up. -/
def leaveTable (d : Dev) (f : Flying) (x : Extent) : Dev :=
  let d1 := { d with ports := d.ports.map (fun p => { p with hostReads := p.hostReads.filter (fun r => r.use != .request f.id) }) }
  match f.wait with
  | .tier since true => stallTime d1 x.e.berth (lateCause x.e.tier) (d.sys.ltc - since)
  | .stage since late =>
    let d2 := stallTime d1 x.e.berth 4 (d.sys.ltc - since)
    if late then stallTime d2 x.e.berth 0 (d.sys.ltc - since) else d2
  | _ => d1

/-- A flash read that has waited is served from parity: the cycles of its wait belong to that stall (03 R115). -/
def rebuiltWait (d : Dev) (f : Flying) (x : Extent) (since : Nat) : Dev :=
  let off := f.q.h.offset.toNat
  let gs := granulesIn (extCell d x (off / 256 * 256)) (off % 256) (lenOf f.q.h)
  if !zeroTile x off && gs.findSome? (rebuilt d) == some 1 && (readPlain d x (accOf f.q x) off (lenOf f.q.h)).1 == cOK then
    stallTime d x.e.berth 1 (d.sys.ltc - since)
  else d

/-- The tier answers a waiting request: a read is served, a store merged with what the host holds. -/
def answerTier (d : Dev) (id : Nat) : Dev :=
  match flyingOf d id with
  | none => d
  | some f =>
    match f.wait, extOf d f.base with
    | .tier since _, some x =>
      let d1 := leaveTable d f x
      if f.q.op == .wr then storeNow d1 f x false else readNow (rebuiltWait d1 f x since) f x x 0
    | _, _ => d

/-- Whether a waiting request is one of the host tier, which the host's completion answers (03 R100). -/
def awaitsHost (d : Dev) (id : Nat) : Bool :=
  match (flyingOf d id).bind (fun f => extOf d f.base) with
  | some x => x.e.tier == .host
  | none => false

/-- TIER_ANSWER (03 R99, R112): flash answers. -/
def execTierAnswer (id : Nat) (s : State) : Host.Outcome State Fault Refusal :=
  s.runReq (fun d => if awaitsHost d id then d else answerTier d id)

/-- TOW_LATE (03 R113): counted once. -/
def towLate (d : Dev) (id : Nat) : Dev :=
  match flyingOf d id with
  | none => d
  | some f =>
    match f.wait, extOf d f.base with
    | .tier since false, some x => late d f x since (.tier since true)
    | .stage since false, some x => late d f x since (.stage since true)
    | _, _ => d
where
  /-- The request has waited TOW_LATE. -/
  late (d : Dev) (f : Flying) (x : Extent) (since : Nat) (w : Wait) : Dev :=
    let page := pg 0x33 f.homeBank
    let d1 := advanceTo d (since + reg d (page + 0x108))
    raise (stall (setWait d1 f.id w) x.e.berth (lateCause x.e.tier) 0) page 0

def execTowLate (id : Nat) (s : State) : Host.Outcome State Fault Refusal :=
  s.run (fun d => towLate d id)

/-- LTC cycles a request has waited in the table. -/
def waited (d : Dev) (f : Flying) : Nat :=
  match f.wait with
  | .tier since _ | .stage since _ => d.sys.ltc - since
  | _ => 0

/-- TIER_FAILED for a waiting request (03 R113, R115). -/
def failTier (d : Dev) (f : Flying) (x : Extent) : Dev :=
  let page := pg 0x33 f.homeBank
  let d1 := stall (leaveTable d f x) x.e.berth (if x.e.tier == .host then 3 else 1) (waited d f)
  finishFlying (raiseFe d1 page 1 (feAcc d1 (accOf f.q x) f.q.h.offset.toNat cTIER)) f cTIER []

/-- TOW_FAIL (03 R113). -/
def towFail (d : Dev) (id : Nat) : Dev :=
  match flyingOf d id with
  | none => d
  | some f =>
    match f.wait, extOf d f.base with
    | .tier since _, some x | .stage since _, some x => failTier (advanceTo d (since + reg d (pg 0x33 f.homeBank + 0x110))) f x
    | _, _ => d

def execTowFail (id : Nat) (s : State) : Host.Outcome State Fault Refusal :=
  s.runReq (fun d => towFail d id)

/-! ## The end of a move (03 R106, R108) -/

/-- The MOVE item of an extent that runs. -/
def runningMove (d : Dev) (base : Nat) : Option MoveItem := d.tiers.moves.find? (fun m => m.base == base && moveRuns m)

/-- The end of a hold: the held requests are checked and translated again, their cycles added up (03 R106, R115). -/
def endHold (d : Dev) (x : Extent) : Dev :=
  let cyc := total ((d.flying.filter (fun f => f.base == x.e.base)).map (fun f => match f.wait with
    | .hold since => d.sys.ltc - since
    | _ => 0))
  releaseHeld (stallTime (onExt d x.e.base (fun x => { x with moving := false, held := false })) x.e.berth 6 cyc) x.e.base

/-- Abandon a move: the placement is unchanged (03 R108). The host's answers to its reads are no longer expected. -/
def abandonMove (d : Dev) (m : MoveItem) (code : Nat) : Dev :=
  let mine (r : HostRead) : Bool := match r.use with | .move base _ => base == m.base | _ => false
  let d0 := { d with ports := d.ports.map (fun p => { p with hostReads := p.hostReads.filter (fun r => !mine r) }) }
  let d1 := endMove d0 m code
  match extOf d1 m.base with
  | none => d1
  | some x => endHold (raiseFe d1 (pg 0x33 m.bank) 3
      { unit := false, addr := d.xmap.node * 2 ^ 48 + extBase x, job := m.job, code := code }) x

/-! ## Stacks: rebuilding units -/

/-- The stripes of a channel index on which any byte has been stored; every other stripe holds zeros. -/
def usedStripes (d : Dev) (chan : Nat) : NSet :=
  d.tiers.mem.foldl (fun s e =>
    if tierOfCell e.1 == .stack && (stackAt e.1).chan == chan then NSet.add s (stackAt e.1).stripe else s) []

/-- Form one granule of a unit as the XOR of the other eight and store it; where one of those cannot be read, the stored
granule cannot be corrected (14 R438). A poisoned granule stays so. -/
def rebuildGranule (pos chan stripe : Nat) (d : Dev) (o : Nat) : Dev :=
  let g := stackCell pos chan stripe o
  let others := (List.range 9).filter (fun p => p != pos)
  if poisoned d g then d
  else if others.all (fun p => storedOk d p chan stripe o) then cleanGranule (setMem d g (xorUnits d chan stripe o others)) g
  else { d with tiers.faults := NSet.add d.tiers.faults g }

/-- Rebuild a unit: the deltas queued for its stripe are applied first (03 R88). -/
def rebuildUnit (pos chan : Nat) (d : Dev) (stripe : Nat) : Dev :=
  [0, 64, 128, 192].foldl (rebuildGranule pos chan stripe) (applyStripe d chan stripe)

/-- Take a channel's stripes whose parity lies on a position out of both dirty logs: their parity has been formed. -/
def dropLogged (d : Dev) (pos chan : Nat) : Dev :=
  let stay (k : Nat) : Bool := !(k / 2 ^ 24 == chan && parityPos chan (k % 2 ^ 24) == pos)
  { d with tiers.dirtyEast := d.tiers.dirtyEast.filter stay, tiers.dirtyWest := d.tiers.dirtyWest.filter stay }

/-- Rebuild every unit of a position on a channel index from a stripe on, and count the bytes written (14 R438). -/
def rebuildChannel (pos : Nat) (d : Dev) (chan : Nat) (first : Nat := 0) : Dev :=
  let d1 := dropLogged (((usedStripes d chan).filter (fun s => decide (first ≤ s))).foldl (rebuildUnit pos chan) d) pos chan
  count d1 (pg 0x34 (bankOfSite pos)) 0x800 ((stripesPerChan - first) * 256)

/-- Channels of the spare that a rebuild writes. -/
def rebuildsChan (d : Dev) (chan : Nat) : Bool := !bit (site d spareSite).loan.toNat chan && !bit (site d spareSite).down.toNat chan

/-- The rebuild onto the spare goes on by one stripe, in ascending order; a channel that it does not write is passed over (14 R438; one
stripe a cycle is a DESIGN CHOICE, log 145). -/
def rebuildTick (d : Dev) : Dev :=
  match d.tiers.rebuild with
  | none => d
  | some r =>
    let chan := r.cursor / stripesPerChan
    let stripe := r.cursor % stripesPerChan
    let put (d : Dev) (k : Nat) : Dev := { d with tiers.rebuild := some { r with cursor := k } }
    if !r.ready || withheldSite d spareSite || 32 ≤ chan then d
    else if !rebuildsChan d chan then put d ((chan + 1) * stripesPerChan)
    else
      let k := chan * 2 ^ 24 + stripe
      let d1 := rebuildUnit r.position chan d stripe
      let d2 := if parityPos chan stripe == r.position then
          { d1 with tiers.dirtyEast := NSet.del d1.tiers.dirtyEast k, tiers.dirtyWest := NSet.del d1.tiers.dirtyWest k }
        else d1
      put (count d2 (pg 0x34 (bankOfSite r.position)) 0x800 256) (r.cursor + 1)

/-! ## Stacks: rows, channels and sites (03 R93-R95, 14 R438) -/

/-- ROW_REPLACE (03 R93). -/
def execRowReplace (site chan row : Nat) (s : State) : Host.Outcome State Fault Refusal :=
  s.run (fun d => rowReplace d site chan row)

def execStackSiteFail (site : Nat) (s : State) : Host.Outcome State Fault Refusal :=
  s.run (fun d => siteFail d site)

def execStackChannelDown (site chan : Nat) (s : State) : Host.Outcome State Fault Refusal :=
  s.run (fun d => channelDown d site chan)

/-- STACK_CHANNEL_REBUILD_DONE (03 R94): the spare's channel of the same index serves the position. -/
def channelRebuilt (d : Dev) (s chan : Nat) : Dev :=
  let t := site d s
  if !channelRebuilds d s chan then d
  else
    let d1 := rebuildChannel t.position d chan
    let d2 := onSite d1 s (fun t => { t with down := maskOff t.down chan, loan := maskOn t.loan chan })
    restored (onSite d2 spareSite (fun t => { t with loan := maskOn t.loan chan })) (bankOfSite t.position)

def execStackChannelRebuildDone (site chan : Nat) (s : State) : Host.Outcome State Fault Refusal :=
  s.run (fun d => channelRebuilt d site chan)

/-- SPARE_STACK_READY (14 R438): the spare is out of idle and is the rebuild target. -/
def spareReady (d : Dev) : Dev :=
  match d.tiers.rebuild with
  | some r =>
    if r.ready || withheldSite d spareSite then d
    else onSite { d with tiers.rebuild := some { r with ready := true } } spareSite (fun t => { t with role := .target, position := r.position })
  | none => d

def execSpareStackReady (s : State) : Host.Outcome State Fault Refusal :=
  s.run spareReady

/-- STACK_REBUILD_DONE (03 R95, 14 R438): the position's channels that the spare had not lent are rebuilt, the spare is its
member, and the failed site is retired. -/
def stackRebuilt (d : Dev) : Dev :=
  match d.tiers.rebuild with
  | some r =>
    if !r.ready || withheldSite d spareSite then d
    else
      let left (c : Nat) : Nat := min stripesPerChan (r.cursor - c * stripesPerChan)
      let d1 := ((List.range 32).filter (rebuildsChan d)).foldl (fun d c => rebuildChannel r.position d c (left c)) d
      let retire (t : Site) : Site :=
        if t.role == .member && t.position == r.position then { t with role := .retired, position := 15 } else t
      let d2 := { d1 with tiers.sites := d1.tiers.sites.map retire, tiers.rebuild := none }
      restored (onSite d2 spareSite (fun t => { t with role := .member })) (bankOfSite r.position)
  | none => d

def execStackRebuildDone (s : State) : Host.Outcome State Fault Refusal :=
  s.run stackRebuilt

/-- Every stripe marked for recomputation in a bank: those logged, or on overflow every stripe that holds anything. -/
def loggedStripes (d : Dev) (bank : Nat) : List (Nat × Nat) :=
  let marked := (if bank == 0 then d.tiers.ovfEast else d.tiers.ovfWest).toNat
  (bitsOf 32 marked).flatMap (fun c => (usedStripes d c).map (fun a => (c, a))) ++
    ((if bank == 0 then d.tiers.dirtyEast else d.tiers.dirtyWest).map (fun k => (k / 2 ^ 24, k % 2 ^ 24))).filter
      (fun c => !bit marked c.1)

/-- The parity unit of a stripe can be written, and no unit of the stripe is withheld (03 R91). -/
def parityUp (d : Dev) (c : Nat × Nat) : Bool :=
  (match unitState d (parityPos c.1 c.2) c.1 c.2 with | .up _ => true | _ => false) &&
  (List.range 9).all (fun p => unitState d p c.1 c.2 != .withheld)

/-- LOGGED_PARITY_RECOMPUTE_DONE (03 R90, R91): the parity of every logged stripe is formed anew from its data units; a
stripe whose parity unit is out of service, or of which a unit is withheld, stays logged. -/
def recomputeDone (d : Dev) (bank : Nat) : Dev :=
  let all := loggedStripes d bank
  let d1 := (all.filter (parityUp d)).foldl (fun d c => rebuildUnit (parityPos c.1 c.2) c.1 d c.2) d
  let left := all.filter (fun c => !parityUp d c)
  let marked := (if bank == 0 then d.tiers.ovfEast else d.tiers.ovfWest).toNat
  let rest : NSet := (left.filter (fun c => !bit marked c.1)).foldl (fun s c => NSet.add s (c.1 * 2 ^ 24 + c.2)) []
  let still : BitVec 32 := (left.filter (fun c => bit marked c.1)).foldl (fun m c => maskOn m c.1) 0
  let d2 := if bank == 0 then { d1 with tiers.dirtyEast := rest, tiers.ovfEast := still }
            else { d1 with tiers.dirtyWest := rest, tiers.ovfWest := still }
  restored d2 bank

def execLoggedParityRecomputeDone (bank : Nat) (s : State) : Host.Outcome State Fault Refusal :=
  s.run (fun d => recomputeDone d bank)

/-! ## Flash (03 R99; 13 R419; 14 R439) -/

def onFlash (d : Dev) (c : Nat) (f : FlashChan → FlashChan) : Dev := { d with tiers.flash := modAt f d.tiers.flash c }

def onGroup (d : Dev) (bank : Nat) (f : FlashGroup → FlashGroup) : Dev := { d with tiers.groups := modAt f d.tiers.groups bank }

/-- Requests in the wait table whose flash page lies on a channel. -/
def waitingOn (d : Dev) (c : Nat) : List Nat :=
  (d.flying.filter (fun f => match f.wait, extOf d f.base with
    | .tier _ _, some x => x.e.tier == .flash && flashChanOf d (extCell d x f.q.h.offset.toNat) == c
    | _, _ => false)).map (fun f => f.id)

/-- FLASH_CHANNEL_FAIL: the channel is served from parity, its waiting requests at once; Salvage rebuilds the group without
the first channel that fails. -/
def flashFail (d : Dev) (c : Nat) : Dev :=
  if 32 ≤ c || (d.tiers.flash.getD c {}).down then d
  else
    let bank := c / 16
    let page := pg 0x32 bank
    let ids := waitingOn d c
    let g := d.tiers.groups.getD bank {}
    let first := g.gone.isNone && g.rebuilding.isNone
    let d1 := onFlash d c (fun f => { f with down := true, inService := false })
    let d2 := if first then onGroup d1 bank (fun g => { g with rebuilding := some c }) else d1
    ids.foldl answerTier (degrade (raiseFe d2 page 1 (feUnit c)) bank)

def execFlashChannelFail (channel : Nat) (s : State) : Host.Outcome State Fault Refusal :=
  s.runReq (fun d => flashFail d channel)

/-- FLASH_REBUILD_DONE: the group runs with 15 channels. How many pages the channel held cannot be seen by software, so the
bytes counted are a free value (log 62). Where a second channel has failed meanwhile, the stripes that had a page on both cannot be formed
and stay as they are (14 R439; that none had been written again before is a DESIGN CHOICE, log 145). -/
def flashRebuilt (d : Dev) (bank : Nat) : Dev :=
  match (d.tiers.groups.getD bank {}).rebuilding with
  | none => d
  | some c =>
    let v := freeVal d
    let second := (List.range 16).any (fun k => bank * 16 + k != c && (d.tiers.flash.getD (bank * 16 + k) {}).down)
    let d1 := onGroup v.2 bank (fun g =>
      if second then { g with rebuilding := none, gone := some c, stuck := true } else { g with rebuilding := none, gone := some c, moved := [] })
    restored (count d1 (pg 0x34 bank) 0x808 v.1) bank

def execFlashRebuildDone (bank : Nat) (s : State) : Host.Outcome State Fault Refusal :=
  s.run (fun d => flashRebuilt d bank)

/-- FLASH_BLOCK_RETIRE (13 R419): a spare block takes its place; the percentage left is a free value no greater than before
(log 63). With no spare left the channel is treated as failed (14 R435). -/
def blockRetire (d : Dev) (c : Nat) : Dev :=
  if 32 ≤ c then d
  else
    let bank := c / 16
    let pct := (d.tiers.groups.getD bank {}).sparePct
    if pct == 0 then flashFail d c
    else
      let v := freeVal d
      let d1 := onGroup v.2 bank (fun g => { g with sparePct := v.1 % (pct + 1) })
      degrade (raise d1 (pg 0x32 bank) 2) bank

def execFlashBlockRetire (channel : Nat) (s : State) : Host.Outcome State Fault Refusal :=
  s.runReq (fun d => blockRetire d channel)

/-! ## Near store (14 R436) -/


def execVaultFail (vault : Nat) (s : State) : Host.Outcome State Fault Refusal :=
  s.run (fun d => vaultFail d vault)

/-- NEAR_ROW_REPLACE: a row is copied to a spare row of its vault and remapped, while one of its 64 is left; the Pilot saves the remap. The
copy is one step here, which no write meets, and granules keep their addresses (14 R436). -/
def nearRowReplace (d : Dev) (v row : Nat) : Dev :=
  let used := NMap.get 0 d.tiers.nearSpares v
  if 64 ≤ v || 64 ≤ used then d
  else
    let page := pg 0x30 (v / 32)
    let d1 := { d with tiers.nearSpares := NMap.set 0 d.tiers.nearSpares v (used + 1)
                       tiers.nearRows := NSet.add d.tiers.nearRows (v * 2 ^ 32 + row % 2 ^ 32) }
    degrade (count (raise d1 page 1) page 0x810) (v / 32)

def execNearRowReplace (vault row : Nat) (s : State) : Host.Outcome State Fault Refusal :=
  s.run (fun d => nearRowReplace d vault row)

end Sys2Proof.Machine
end

