-- ==== Sys2Proof/Machine/Ports.lean ====
section
/-! DEFINITION. PCIe ports (13 R404-R417, R427-R432): registers, training, resets, MSI-X vectors, TLPs and CXL accesses, and
host-tier completions (03 R100). -/

namespace Sys2Proof.Machine

open Sys2Proof

def portPage (p : Nat) : Nat := pg 0x12 p

/-- GEN_CAP of a port: 3 disables it (13 R405). -/
def genCap (d : Dev) (p : Nat) : Nat := fld (reg d (portPage p + 0x100)) 0 2

/-- A port is there: its bank runs and it has its PHY. -/
def portThere (d : Dev) (p : Nat) : Bool := decide (p < 2) && bankLive d p && !(port d p).off

/-- A port's link is up. A write of GEN_CAP does not change that before the next training (13 R405). -/
def portOpen (d : Dev) (p : Nat) : Bool := portThere d p && (port d p).up

/-! ## Training and link state (13 R405, R415, R428) -/

/-- Host-tier requests that wait for a completion on a port. -/
def hostWaits (d : Dev) (p : Nat) : List Flying :=
  d.flying.filter (fun f => (port d p).hostReads.any (fun r => r.use == .request f.id))

/-- Moves from or to the host tier of a bank that run. -/
def hostMoves (d : Dev) (p : Nat) : List MoveItem :=
  d.tiers.moves.filter (fun m => m.bank == p && moveRuns m && (m.destTier == .host ||
    (match extOf d m.base with | some x => x.e.tier == .host | none => false)))

/-- Answer them with TIER_FAILED (03 R100). -/
def failHost (d : Dev) (l : List Flying) : Dev :=
  l.foldl (fun d f => match extOf d f.base with
    | some x => failTier d f x
    | none => d) d

/-- A piece of a TLP that a reset drops: one that has not passed the Toll is not performed, and has no code to report (13 R414). -/
def dropPiece (d : Dev) (p : Nat) (t : Tlp) (e : Piece × Nat) : Piece :=
  let there := d.flying.any (fun f => (match f.q.origin with | .pcie q _ i k => q == p && i == t.id && k == e.2 | _ => false) && passedToll f)
  if e.1.answer.isNone && !there then { e.1 with attempts := e.1.attempts + 1, answer := some (cOK, []) } else e.1

/-- TLPs of a port after a reset of it or of one of its functions: their completions are discarded, and their requests complete at
their homes where they have passed the Toll (13 R414). -/
def dropTlps (d : Dev) (p : Nat) (mine : Tlp → Bool) : Dev :=
  let put (t : Tlp) : Tlp := if mine t then { t with drop := true, pieces := t.pieces.zipIdx.map (dropPiece d p t) } else t
  let gone (f : Flying) : Bool := !passedToll f && (match f.q.origin with
    | .pcie q _ i _ => q == p && (port d p).tlps.any (fun t => t.id == i && mine t)
    | _ => false)
  { onPort d p (fun q => { q with tlps := q.tlps.map put }) with flying := d.flying.filter (fun f => !gone f) }

/-- A function's configuration space returns to its reset values: its BARs, and a changed LOG2 takes effect (13 R414, R431). -/
def resetConfig (f : PcieFn) : PcieFn := { f with log2Now := f.log2, bar01 := 0, bar23 := 0 }

/-- A port resets: its link is down, its functions' configuration space returns to its reset values; PCIE_FN_ID and PCIE_FN_WIN stay
(13 R414, R431). -/
def resetPort (d : Dev) (p : Nat) : Dev :=
  let was := (port d p).up
  let d1 := onPort (dropTlps d p (fun _ => true)) p (fun q => { q with
    up := false, training := false, rate := 0, width := 0, proto := .pcie, bme := false, vectors := [],
    hdm := [false, false, false, false], fns := q.fns.map resetConfig })
  let d2 := (hostMoves d1 p).foldl (fun d m => abandonMove d m cTIER) (failHost d1 (hostWaits d1 p))
  noteIsolated (if was then raise d2 (portPage p) 0 else d2)

/-- PCIE_PORT_RESET. -/
def execPciePortReset (port : Nat) (s : State) : Host.Outcome State Fault Refusal :=
  s.runReq (fun d => if port < 2 then resetPort d port else d)

/-- FUNCTION_LEVEL_RESET of a memory function, or of function 0, whose configuration space holds Bus Master Enable (13 R404, R414;
log 149). -/
def resetFn (d : Dev) (p fn : Nat) : Dev :=
  if 2 ≤ p || 8 ≤ fn then d
  else onPort (dropTlps d p (fun t => t.fn == fn)) p (fun q => { q with
    vectors := NMap.keep (fun k => k / 4096 != fn) q.vectors
    hdm := if fn == 1 then [false, false, false, false] else q.hdm
    bme := q.bme && fn != 0
    fns := modAt resetConfig q.fns fn })

def execFunctionLevelReset (port fn : Nat) (s : State) : Host.Outcome State Fault Refusal :=
  s.runReq (fun d => resetFn d port fn)

/-- The link trains: a port that is disabled goes down, or stops training, in place of it (13 R405, R427). -/
def trainPort (d : Dev) (p : Nat) : Dev :=
  if portThere d p && genCap d p != 3 then
    onPort d p (fun q => { q with training := true, ctl := reg d (portPage p + 0x100) })
  else if (port d p).up || (port d p).training then resetPort d p else d

/-- What a port may train as, with PCIE_CTL as its training began with it (13 R405, R415). -/
def mayTrain (d : Dev) (p rate width : Nat) (proto : PcieProto) : Bool :=
  let ctl := (port d p).ctl
  decide (rate + ctl % 4 ≤ 2) && [1, 2, 4, 8, 16].contains width &&
  (match proto with
   | .pcie => true
   | .cxl20 => bit ctl 2 && decide (rate < 2)
   | .cxl31 => bit ctl 2 && !bit ctl 3 && rate == 2)

/-- PCIE_LINK_UP: training ends. -/
def portUp (d : Dev) (p rate width : Nat) (proto : PcieProto) : Dev :=
  if !portThere d p || !(port d p).training || !mayTrain d p rate width proto then d
  else
    let d1 := onPort d p (fun q => { q with up := true, training := false, rate := rate, width := width, proto := proto })
    raise { d1 with salv.wasUp := true, salv.isolatedSince := none } (portPage p) 1

def execPcieLinkUp (port rate width : Nat) (proto : PcieProto) (s : State) : Host.Outcome State Fault Refusal :=
  s.runReq (fun d => portUp d port rate width proto)

/-- PCIE_STAT (13 R428). -/
def readPcieStat (d : Dev) (p : Nat) : Nat :=
  let q := port d p
  let link := if q.training then 1 else if q.up then 2 else 0
  let proto := match q.proto with | .pcie => 0 | .cxl20 => 1 | .cxl31 => 2
  link + q.rate * 2 ^ 2 + q.width * 2 ^ 4 + proto * 2 ^ 9

/-! ## Host configuration (13 R412, R413) -/

/-- Vectors whose message was held while Bus Master Enable was clear are sent once it is set (13 R412). -/
def sendHeld (d : Dev) (p : Nat) : Dev :=
  (port d p).vectors.foldl (fun d e =>
    if e.2.pending && !e.2.masked then
      sendMsix (setVector d p (e.1 / 4096) (e.1 % 4096) { e.2 with pending := false }) p (e.1 / 4096) (e.1 % 4096)
    else d) d

/-- A host read that the port has not sent yet is answered with TIER_FAILED (03 R100; 13 R412). -/
def failKept (d : Dev) (r : HostRead) : Dev :=
  match r.use with
  | .request n => failHost d (flyingOf d n).toList
  | .move base _ => match runningMove d base with
    | some m => abandonMove d m cTIER
    | none => d

def setBme (d : Dev) (p : Nat) (on : Bool) : Dev :=
  if !(port d p).up then d
  else
    let d1 := onPort d p (fun q => { q with bme := on })
    if on then sendHeld d1 p else ((port d p).hostReads.filter (fun r => !r.sent)).foldl failKept d1

def execBusMasterEnable (port : Nat) (on : Bool) (s : State) : Host.Outcome State Fault Refusal :=
  s.runReq (fun d => setBme d port on)

/-- MSIX_UNMASK: a pending message is sent. -/
def unmask (d : Dev) (p fn vec : Nat) : Dev :=
  if !(port d p).up || !vectorThere fn vec then d
  else
    let v := vectorOf d p fn vec
    let d1 := setVector d p fn vec { v with masked := false, pending := false }
    if v.pending then sendMsix d1 p fn vec else d1

def execMsixUnmask (port fn vec : Nat) (s : State) : Host.Outcome State Fault Refusal :=
  s.run (fun d => unmask d port fn vec)

/-- MSIX_VECTOR_MASK. -/
def execMsixVectorMask (port fn vec : Nat) (s : State) : Host.Outcome State Fault Refusal :=
  s.run (fun d => if (Sys2Proof.Machine.port d port).up && vectorThere fn vec then
      setVector d port fn vec { vectorOf d port fn vec with masked := true }
    else d)

/-! ## Registers (13 R427-R432) -/

/-- A write of PCIE_CTL. -/
def writePcieCtl (d : Dev) (p v : Nat) : Dev :=
  let d1 := setReg d (portPage p + 0x100) (fld v 0 4)
  if bit v 4 then trainPort d1 p else d1

/-- The memory function that PCIE_FN_SEL names, if it names one. -/
def fnSel (d : Dev) (p : Nat) : Option Nat :=
  let n := reg d (portPage p + 0x110) % 8
  if n == 0 then none else some n

def onFn (d : Dev) (p fn : Nat) (f : PcieFn → PcieFn) : Dev := onPort d p (fun q => { q with fns := modAt f q.fns fn })

def readFnId (d : Dev) (p : Nat) : Nat :=
  match fnSel d p with
  | none => 0
  | some n =>
    let f := (port d p).fns.getD n {}
    f.endPoint + f.job * 2 ^ 18 + b2n f.valid * 2 ^ 30

def writeFnId (d : Dev) (p v : Nat) : Dev :=
  match fnSel d p with
  | none => d
  | some n => onFn d p n (fun f => { f with endPoint := fld v 0 18, job := fld v 18 12, valid := bit v 30 })

def readFnWin (d : Dev) (p : Nat) : Nat :=
  match fnSel d p with
  | none => 0
  | some n =>
    let f := (port d p).fns.getD n {}
    f.log2 + f.base * 2 ^ 21

/-- A write of PCIE_FN_WIN: a changed BASE takes effect at once, a changed LOG2 at the function's next reset. -/
def writeFnWin (d : Dev) (p v : Nat) : Dev :=
  let log2 := fld v 0 6
  let base := fld v 21 27
  let ok := log2 == 0 || (decide (21 ≤ log2) && decide (log2 ≤ 46) && base * 2 ^ 21 % 2 ^ log2 == 0 &&
    decide (base * 2 ^ 21 + 2 ^ log2 ≤ 2 ^ 48))
  match fnSel d p with
  | none => d
  | some n => if ok then onFn d p n (fun f => { f with log2 := log2, base := base }) else d

/-- Whether the window registers of a port may be written: no extent maps into the host window, no HDM decoder is committed. -/
def acceptsWindow (d : Dev) (p o v : Nat) : Bool :=
  let mapped := d.toll.extents.any (fun x => x.e.tier == .host && extBank x == p)
  let hdm := (port d p).hdm.any id
  match o with
  | 0x128 => v % 2 ^ 21 == 0 && !mapped
  | 0x130 => v % 2 ^ 21 == 0 && decide (v ≤ 2 ^ 47) && !mapped
  | 0x138 => v % 2 ^ 28 == 0 && !hdm
  | 0x140 => v % 2 ^ 28 == 0 && decide (v ≤ 2 ^ 46) && !hdm
  | _ => true

/-! ## TLPs (13 R407-R411) -/

/-- The pieces of a range, split at tile boundaries, with their data. -/
def piecesOf : List (Nat × Nat) → List Byte → List Piece
  | [], _ => []
  | p :: ps, l => { off := p.1, bytes := p.2, data := l.take p.2 } :: piecesOf ps (l.drop p.2)

/-- The OFFSET of a byte of a function's window, where `n` bytes from it lie in the window and VALID is set (13 R407). -/
def windowOff (d : Dev) (p fn off n : Nat) : Option Nat :=
  let f := (port d p).fns.getD fn {}
  if fn != 0 && fn < 8 && f.valid && f.log2Now != 0 && off + n ≤ 2 ^ f.log2Now then some (f.base * 2 ^ 21 + off) else none

/-- A TLP is received: an AtomicOp is one piece with its operands, a CAS's compare value first and then its new value (11 R354).
-/
def addTlp (d : Dev) (p fn kind off n : Nat) (data : List Byte) (op : Option PcieAtomic) : Dev :=
  onPort d p (fun q =>
    let pieces : List Piece := if kind == 2 then [{ off := off, bytes := n, data := data }] else piecesOf (tileCuts off n) data
    let f := q.fns.getD fn {}
    let t : Tlp := { id := q.nextTlp % 65536, port := p, fn := fn, kind := kind, bytes := n, op := op, pieces := pieces,
                     endPoint := f.endPoint, job := f.job }
    { q with tlps := q.tlps ++ [t], nextTlp := q.nextTlp + 1 })
where
  /-- First byte and length of each piece of a range. -/
  tileCuts (off n : Nat) : List (Nat × Nat) :=
    if n == 0 then []
    else (List.range ((off + n - 1) / 256 - off / 256 + 1)).map (fun k =>
      (max off ((off / 256 + k) * 256), min (off + n) ((off / 256 + k + 1) * 256) - max off ((off / 256 + k) * 256)))

/-- A TLP that is refused before it becomes requests: a read with a completion, a write logged (13 R411). -/
def refuseTlp (d : Dev) (p fn kind off n code : Nat) : Dev :=
  if kind == 1 then
    raiseFe (count d (portPage p) 0x820) (portPage p) 2
      { unit := false, addr := d.xmap.node * 2 ^ 48 + off, src := ((port d p).fns.getD fn {}).endPoint,
        job := ((port d p).fns.getD fn {}).job, code := code }
  else complete d p fn (codeClass code) n []

/-- A TLP of no more bytes than Max Payload Size and Max Read Request Size allow (13 R404). -/
def sizeOk (kind n : Nat) : Bool := decide (n ≤ if kind == 0 then 4096 else 512)

/-- A memory read, posted write or AtomicOp to a memory function's window; a malformed one is reported and performs nothing
(log 149). -/
def tlpIn (d : Dev) (p fn kind off n : Nat) (data : List Byte) (op : Option PcieAtomic) : Dev :=
  if !portOpen d p then d
  else if !sizeOk kind n then emit d (.aer p fn)
  else
    let d1 := if kind == 0 then count d (portPage p) 0x800 else if kind == 1 then count d (portPage p) 0x808 else d
    match windowOff d1 p fn off n with
    | none => if kind == 1 then reportUr d1 p fn else complete d1 p fn 2 n []
    | some a =>
      if quiet d1 then refuseTlp (count d1 (pg 0x03 0) 0x818) p fn kind a n cABORTED
      else addTlp d1 p fn kind a n data op

/-- Widths of an AtomicOp: 32 and 64 bits, and for CAS 128 (13 R404). -/
def atomicOk (op : PcieAtomic) (bytes : Nat) : Bool :=
  bytes == 4 || bytes == 8 || (bytes == 16 && op == .cas)

/-! ## CXL.mem (13 R416, R417) -/

/-- A CXL access of one granule: function 1's job and end point. -/
def cxlIn (d : Dev) (p kind dpa : Nat) (data : List Byte) : Dev :=
  if !portOpen d p || (port d p).proto == .pcie then d
  else
    let off := (reg d (portPage p + 0x138) + dpa) % 2 ^ 48 / 64 * 64
    let fails (d : Dev) (c : Nat) : Dev :=
      completeCxl (if kind == 4 then refuseTlp d p 1 1 off 64 c else d) p kind c []
    if !((port d p).fns.getD 1 {}).valid then fails d cUNSUP
    else if quiet d then fails (count d (pg 0x03 0) 0x818) cABORTED
    else addTlp d p 1 kind off 64 data none

def execCxlMemrd (port : Nat) (dpa : Nat) (s : State) : Host.Outcome State Fault Refusal :=
  s.runReq (fun d => cxlIn d port 3 dpa [])

def execCxlMemwr (port : Nat) (dpa : Nat) (data : List Byte) (s : State) : Host.Outcome State Fault Refusal :=
  s.runReq (fun d => cxlIn d port 4 dpa (sub data 0 64))

/-- HDM_DECODER_COMMIT: a decoder with interleave ways other than 1 fails to commit. -/
def execHdmDecoderCommit (port decoder ways : Nat) (s : State) : Host.Outcome State Fault Refusal :=
  s.run (fun d =>
    if (Sys2Proof.Machine.port d port).up && (Sys2Proof.Machine.port d port).proto != .pcie && ways == 1 then
      onPort d port (fun q => { q with hdm := modAt (fun _ => true) q.hdm decoder })
    else d)

/-! ## The CXL mailbox (13 R415) -/

/-- Answer a mailbox command with Success and a payload; a port that is not up as CXL has no mailbox. -/
def mailbox (d : Dev) (p : Nat) (payload : List Byte × Dev) : Dev :=
  if (port d p).up && (port d p).proto != .pcie then emit payload.2 (.mailbox p 0 payload.1) else d

/-- Identify Memory Device: the capacity in units of 256 MiB at byte 16 of the payload, the rest free (log 30). -/
def identify (d : Dev) (p : Nat) : List Byte × Dev :=
  let a := freeBytes 16 d
  let b := freeBytes 43 a.2
  (a.1 ++ leBytes 8 (reg d (portPage p + 0x140) / 2 ^ 28) ++ b.1, b.2)

def execIdentifyMemoryDevice (port : Nat) (s : State) : Host.Outcome State Fault Refusal :=
  s.run (fun d => mailbox d port (identify d port))

/-- Get Health Info: 18 bytes, which the spec does not give (log 30). -/
def execGetHealthInfo (port : Nat) (s : State) : Host.Outcome State Fault Refusal :=
  s.run (fun d => mailbox d port (freeBytes 18 d))

/-- Get Event Records: a header of 32 bytes; which events are recorded is not given (log 30). -/
def execGetEventRecords (port : Nat) (s : State) : Host.Outcome State Fault Refusal :=
  s.run (fun d => mailbox d port (freeBytes 32 d))

/-- Clear Event Records: no payload. -/
def execClearEventRecords (port : Nat) (_count : Nat) (s : State) : Host.Outcome State Fault Refusal :=
  s.run (fun d => mailbox d port ([], d))

/-- Get Supported Logs: a header of 8 bytes and one entry of 20 (log 30). -/
def execGetSupportedLogs (port : Nat) (s : State) : Host.Outcome State Fault Refusal :=
  s.run (fun d => mailbox d port (freeBytes 28 d))

/-- Get Log: the bytes asked for (log 30). -/
def execGetLog (port : Nat) (_off len : Nat) (s : State) : Host.Outcome State Fault Refusal :=
  s.run (fun d => mailbox d port (freeBytes len d))

/-! ## Completions of host-tier reads (03 R100; 13 R412) -/

/-- What waits for a completion: the read and its extent, with the request or the move. -/
inductive HostWaiter where
  | none
  | request (r : HostRead) (f : Flying) (x : Extent)
  | move (r : HostRead) (m : MoveItem) (tile : Nat) (x : Extent)

def hostRead (d : Dev) (p id : Nat) : HostWaiter :=
  match (port d p).hostReads.find? (fun r => r.id == id && r.sent) with
  | none => .none
  | some r =>
    match r.use with
    | .request n => match flyingOf d n with
      | none => .none
      | some f => match extOf d f.base with
        | none => .none
        | some x => .request r f x
    | .move base tile => match runningMove d base, extOf d base with
      | some m, some x => .move r m tile x
      | _, _ => .none

/-- A tile of a move's source has come: it is kept for the destination. -/
def tileCame (d : Dev) (p : Nat) (r : HostRead) (m : MoveItem) (tile : Nat) (x : Extent) (data : List Byte) : Dev :=
  let d1 := onPort d p (fun q => { q with hostReads := q.hostReads.filter (fun s => s.id != r.id) })
  onMove (setMem d1 (extCell d1 x (extBase x + tile * 256)) (sub data 0 256)) m.r m.item
    (fun m => { m with reading := NSet.del m.reading tile })

/-- HOST_COMPLETION: the bytes the host holds now, or a failure. A source tile of a move that cannot be read ends the move (03 R108). -/
def hostCompletes (d : Dev) (p id : Nat) (a : HostAnswer) : Dev :=
  match hostRead d p id with
  | .none => d
  | .request _ f x =>
    match a with
    | .ok data =>
      let sp := hostSpan f
      answerTier (setMem d (extCell d x sp.1) (sub data 0 sp.2)) f.id
    | .poisoned => finishFlying (leaveTable d f x) f cPOISON []
    | _ => failTier d f x
  | .move r m tile x =>
    match a with
    | .ok data => tileCame d p r m tile x data
    | .poisoned => abandonMove d m cUNCORR
    | _ => abandonMove d m cTIER

def execHostCompletion (port id : Nat) (a : HostAnswer) (s : State) : Host.Outcome State Fault Refusal :=
  s.runReq (fun d => hostCompletes d port id a)

/-- PCIE_CPL_TIMEOUT. -/
def cplTimeout (d : Dev) (p id : Nat) : Dev :=
  let timedOut (d : Dev) (since : Nat) (a : Acc) : Dev :=
    let d1 := advanceTo d (since + reg d (portPage p + 0x148))
    raiseFe (count d1 (portPage p) 0x830) (portPage p) 3 (feAcc d1 a a.off cTIER)
  match hostRead d p id with
  | .none => d
  | .request r f x => failTier (timedOut d r.since (accOf f.q x)) f x
  | .move r m tile x => abandonMove (timedOut d r.since { off := extBase x + tile * 256, job := m.job }) m cTIER

def execPcieCplTimeout (port id : Nat) (s : State) : Host.Outcome State Fault Refusal :=
  s.runReq (fun d => cplTimeout d port id)

end Sys2Proof.Machine
end

