-- ==== Sys2Proof/Machine/Engine.lean ====
section
/-! DEFINITION. Descriptors and the memory accesses of the engines and ring sequencers (01 R34, R36; 02 R67-R71; 06 R205).
An engine computes an item from reads, which may have to wait: then nothing of the item is done, and the engine's command
comes again. Its writes are requests of their own, in flight until their home has acknowledged them. -/

namespace Sys2Proof.Machine

open Sys2Proof

/-! ## Descriptors -/

def descOf (d : Dev) (r : DescRef) : Option Desc := d.descs.find? (fun x => x.r == r)

/-- The number of `k` bytes at byte `o` of a descriptor, and bits of it. -/
def dnum (x : Desc) (o k : Nat) : Nat := leAt x.raw o k

def dfld (x : Desc) (o lo w : Nat) : Nat := fld (leAt x.raw o 8) lo w

/-- How far behind the ring's consumer index a descriptor stands. -/
def ringPos (d : Dev) (r : DescRef) : Nat := (r.index + 2 ^ 32 - (ringOf d r.berth r.ring).consumer) % 2 ^ 32

/-- The configuration a descriptor runs under: its ring's, or that of its fetch where another has been applied since. -/
def ringFor (d : Dev) (x : Desc) : Ring := x.cfg.getD (ringOf d x.r.berth x.r.ring)

/-- Descriptors of the same ring and configuration before one. -/
def earlier (d : Dev) (r : DescRef) : List Desc :=
  d.descs.filter (fun x => x.r.berth == r.berth && x.r.ring == r.ring && x.r.index / 2 ^ 32 == r.index / 2 ^ 32 &&
    decide (ringPos d x.r < ringPos d r))

/-- A descriptor may start: those before it have started, and with ORDER have completed (02 R68, R69). -/
def startable (d : Dev) (x : Desc) : Bool :=
  let l := earlier d x.r
  l.all (fun y => y.phase == .running || y.phase == .finished) && (!x.order || l.isEmpty)

/-- The descriptor an engine's command works on: of that engine and opcode, running, or admitted and able to start, also on a ring that
has stopped since (DESIGN CHOICE, log 125). -/
def engineDesc (d : Dev) (r : DescRef) (engine opcode : Nat) : Option Desc :=
  match descOf d r with
  | some x =>
    if x.engine == engine && x.opcode == opcode && (x.phase == .running || (x.phase == .admitted && startable d x)) then some x
    else none
  | none => none

/-- A descriptor runs. -/
def runDesc (d : Dev) (r : DescRef) : Dev := onDesc d r (fun x => { x with phase := .running })

/-- The reads of an item that have been answered are let go. -/
def dropReads (d : Dev) (r : DescRef) (item : Nat) : Dev :=
  onDesc d r (fun x => { x with inbox := x.inbox.filter (fun a => a.item != item) })

/-- Every item of a descriptor has completed or failed. -/
def finishDesc (d : Dev) (r : DescRef) : Dev := onDesc d r (fun x => { x with phase := .finished, inbox := [] })

/-- A descriptor is refused whole (00 R21). One refused for a map epoch that is not yet committed is an error of its ring
(02 R65). -/
def refuseDesc (d : Dev) (r : DescRef) (code : Nat) : Dev :=
  let d1 := onDesc d r (fun x => { x with phase := .finished, refused := some code })
  match descOf d r with
  | some x =>
    if code == cSTALE && x.pre.contains cSTALE && epochIs d x.epoch == .unknown then
      let g := ringFor d x
      raiseFe d1 (pg 0x21 (bankOfBerth r.berth)) 2
        { unit := false, addr := d.xmap.node * 2 ^ 48 + g.descBase + r.index % 2 ^ g.log2Size * 64, src := epOf d r.berth, job := g.job,
          code := cSTALE }
    else d1
  | none => d1

/-- The order of whole-descriptor refusals (00 R21). -/
def refusalOrder : List Nat := [cABORTED, cFENCED, cDENIED, cREVOKED, cSTALE, cUNSUP, cLENGTH, cDEGRADED, cBUSY]

/-- The refusal that several give, if any; the code of a table that cannot be read is in no order with the others (log 91). -/
def firstRefusal (l : List Nat) : Option Nat :=
  match refusalOrder.find? (fun c => l.contains c) with
  | some c => some c
  | none => l.head?

/-- Go on with a descriptor where neither its fetch nor its engine refuses it whole. -/
def unlessRefused (d : Dev) (x : Desc) (l : List Nat) (k : Dev → Dev) : Dev :=
  match firstRefusal (x.pre ++ l) with
  | some c => refuseDesc d x.r c
  | none => k d

/-- A code where a condition holds. -/
def codeIf (b : Bool) (c : Nat) : List Nat := if b then [c] else []

/-- The status an item holds so far. -/
def itemStatus (d : Dev) (r : DescRef) (item : Nat) : Nat :=
  match descOf d r with
  | some x => NMap.get 0 x.statuses item
  | none => 0

/-! ## Reads -/

/-- What a read has come to: it waits, it failed with a code, or its bytes. -/
inductive Got where
  | wait | fail (code : Nat) | ok (data : List Byte)
  deriving DecidableEq, Repr

/-- The header of an engine's request: the descriptor's job and tide, the sequencer's end point, the current epoch
(01 R34; 02 R62, R71; 11 R357). -/
def engHdr (d : Dev) (r : DescRef) (job tide fmt node off n id : Nat) (data : List Byte) : Hdr :=
  { tc := 4, mark := false, acq := false, rel := false, scope := 0, reqId := .ofNat 16 id, src := .ofNat 18 (epOf d r.berth),
    job := .ofNat 12 job, offset := .ofNat 48 off, node := .ofNat 14 node, tide := .ofNat 32 tide,
    epoch := .ofNat 16 d.xmap.epoch, len := .ofNat 8 (n - 1), fmt := .ofNat 4 fmt, trial := 0,
    tchk := .ofNat 32 (if data.isEmpty then 0 else crc32c data), aux := 0, range := 0, rsvd := false }

/-- Send a request of a ring sequencer to another node (01 R34; 11 R363); an EADD waits for a home credit there (05 R164). -/
def sendEng (d : Dev) (r : DescRef) (item job tide : Nat) (op : Op) (fmt node off n : Nat) (data : List Byte) : Dev :=
  let id := d.salv.nextReq % 65536
  let h := engHdr d r job tide fmt node off n id data
  let ld := reqLand d r.berth off
  let bank := bankOfBerth r.berth
  let slots := 2 + (if data.isEmpty then 0 else spanSlots off n)
  let held := match descOf d r with | some x => x.qsets | none => 0
  let waits := op == .eadd && !mayAdd d r.berth node
  let d1 := if waits then d
    else sendOn d ld (if ld / 8 == bank then engPort d r item else 9) 4 slots (some r.berth) job false false (.req op h data) 0 held
  let o : OutReq := { reqId := id, berth := r.berth, landing := ld, node := node, offset := off, len := n, op := op, h := h, data := data,
                      item := item, waits := waits }
  onDesc { d1 with salv.nextReq := d1.salv.nextReq + 1 } r (fun x => { x with out := x.out ++ [o] })

/-- The code of an item that another device's STATUS decides: one that no request or item can have (00 R19, R20) counts as
UNCORRECTABLE (DESIGN CHOICE, log 136). -/
def peerCode (status : Nat) : Nat := if status == cPARTIAL || decide (cABORTED < status) then cUNCORR else status

/-- An answer that has come. -/
def gotOf (status n : Nat) (data : List Byte) : Got := if status == cOK then .ok (sub data 0 n) else .fail (peerCode status)

/-- Read `n` bytes within one tile for a descriptor, under a job and tide. An item of a device fenced out makes no further access to
another node (14 R441); this node's Toll answers its others. -/
def engRead (r : DescRef) (item job tide node off n : Nat) (d : Dev) : Got × Dev :=
  match descOf d r with
  | none => (.fail cABORTED, d)
  | some x =>
    match x.inbox.find? (fun a => a.item == item && a.node == node && a.off == off && (a.status != cOK || decide (n ≤ a.data.length))) with
    | some a => (gotOf a.status n a.data, d)
    | none =>
      let asked := x.out.any (fun o => o.op == .rd && o.item == item && o.node == node && o.offset == off) ||
        d.flying.any (fun f => f.q.op == .rd && f.q.h.offset.toNat == off && f.q.h.node.toNat == node &&
          (match f.q.origin with | .engine s i => s == r && i == item | _ => false))
      if asked then (.wait, d)
      else if !d.wharf.epValid then (.fail cBUSY, d)
      else if node != d.xmap.node && d.salv.fencedOut then (.fail cFENCED, d)
      else if node != d.xmap.node then (.wait, sendEng d r item job tide .rd 0 node off n [])
      else
        let d1 := enter d { op := .rd, origin := .engine r item, h := engHdr d r job tide 0 node off n 0 [] } (bankOfBerth r.berth)
        match (descOf d1 r).bind (fun y => if y.inbox.length == x.inbox.length then none else y.inbox.getLast?) with
        | some a => (gotOf a.status n a.data, d1)
        | none => (.wait, d1)

/-- The pieces of a range within aligned tiles: first byte and length of each. -/
def tilePieces (off n : Nat) : List (Nat × Nat) :=
  if n == 0 then []
  else (List.range ((off + n - 1) / 256 - off / 256 + 1)).map (fun k =>
    let a := max off ((off / 256 + k) * 256)
    let b := min (off + n) ((off / 256 + k + 1) * 256)
    (a, b - a))

/-- Two reads, the first before the second: the first failing code, then what waits. -/
def joinGot (a b : Got) : Got :=
  match a, b with
  | .wait, _ => .wait
  | .fail _, .wait => .wait
  | .fail c, _ => .fail c
  | .ok _, .wait => .wait
  | .ok _, .fail c => .fail c
  | .ok l, .ok m => .ok (l ++ m)

/-- Read the pieces of a range in rising order. -/
def readPieces (r : DescRef) (item job tide node : Nat) : List (Nat × Nat) → Dev → Got × Dev
  | [], d => (.ok [], d)
  | p :: ps, d =>
    let a := engRead r item job tide node p.1 p.2 d
    let b := readPieces r item job tide node ps a.2
    (joinGot a.1 b.1, b.2)

/-- Read a range of a node for a descriptor, under its own job and tide. -/
def descRead (d : Dev) (x : Desc) (item node off n : Nat) : Got × Dev :=
  readPieces x.r item x.job x.tide node (tilePieces off n) d

/-! ## Writes -/

/-- Write `n` bytes within one tile: a request in flight, whose failing answer is noted as the item's status. -/
def engWrite (r : DescRef) (item job tide : Nat) (op : Op) (fmt node off : Nat) (data : List Byte) (d : Dev) : Dev :=
  if !d.wharf.epValid then noteItem d r item cBUSY
  else if node != d.xmap.node && d.salv.fencedOut then noteItem d r item cFENCED
  else if node != d.xmap.node then sendEng d r item job tide op fmt node off data.length data
  else enter d { op := op, origin := .engine r item, h := engHdr d r job tide fmt node off data.length 0 data, data := data }
    (bankOfBerth r.berth)

/-- Write the pieces of a range. -/
def writePieces (r : DescRef) (item job tide : Nat) (node : Nat) : List (Nat × Nat) → List Byte → Dev → Dev
  | [], _, d => d
  | p :: ps, l, d => writePieces r item job tide node ps (l.drop p.2) (engWrite r item job tide .wr 0 node p.1 (l.take p.2) d)

/-- Write a range of a node for a descriptor, under its own job and tide. -/
def descWrite (d : Dev) (x : Desc) (item node off : Nat) (data : List Byte) : Dev :=
  writePieces x.r item x.job x.tide node (tilePieces off data.length) data d

/-- Add the granules of a range at their home, by EADD (05 R166). -/
def addPieces (r : DescRef) (item job tide fmt node : Nat) : Nat → Nat → List Byte → Dev → Dev
  | 0, _, _, d => d
  | k + 1, off, l, d =>
    addPieces r item job tide fmt node k (off + 64) (l.drop 64) (engWrite r item job tide .eadd fmt node off (sub l 0 64) d)

/-- Add a range at a node for a descriptor, under its own job and tide. -/
def descAdd (d : Dev) (x : Desc) (item fmt node off : Nat) (data : List Byte) : Dev :=
  addPieces x.r item x.job x.tide fmt node (ceilDiv data.length 64) off data d

/-- Requests of a descriptor not yet answered. -/
def descBusy (d : Dev) (r : DescRef) : Bool :=
  (match descOf d r with | some x => !x.out.isEmpty | none => false) ||
  d.flying.any (fun f => match f.q.origin with | .engine s _ => s == r | _ => false)

/-- Requests of one item not yet answered. -/
def itemBusy (d : Dev) (r : DescRef) (item : Nat) : Bool :=
  (match descOf d r with | some x => x.out.any (fun o => o.item == item) | none => false) ||
  d.flying.any (fun f => match f.q.origin with | .engine s i => s == r && i == item | _ => false)

/-- Item numbers beyond every item's: the reads of a descriptor's tables, and the accesses of a row under its lock. -/
def tableKey : Nat := 2 ^ 47

def lockKey (id : Nat) : Nat := 2 ^ 44 + id

/-! ## Items in order -/

/-- What an engine made of one item: it waits for a read, or it is done, its status noted where it failed. -/
inductive ItemIs where
  | waits | done
  deriving DecidableEq, Repr

/-- A descriptor's next item is done. -/
def passItem (x : Desc) : Desc := { x with nextItem := x.nextItem + 1, inbox := x.inbox.filter (fun a => a.item != x.nextItem) }

/-- Work on a descriptor's items in order from the next one, at most `k`, until one waits. -/
def runItems (r : DescRef) (f : Dev → Desc → Nat → ItemIs × Dev) : Nat → Dev → Dev
  | 0, d => d
  | k + 1, d =>
    match descOf d r with
    | none => d
    | some x =>
      if x.count ≤ x.nextItem then d
      else
        let s := f d x x.nextItem
        match s.1 with
        | .waits => s.2
        | .done => runItems r f k (onDesc s.2 r passItem)

/-- An item fails with a code. -/
def itemFails (d : Dev) (r : DescRef) (item code : Nat) : ItemIs × Dev := (.done, noteItem d r item code)

/-- Every item has been worked on. -/
def itemsDone (d : Dev) (r : DescRef) : Bool :=
  match descOf d r with
  | some x => decide (x.count ≤ x.nextItem)
  | none => false

/-- Run a descriptor's items one after the other; with the last one done the descriptor has completed. -/
def runAll (d : Dev) (x : Desc) (f : Dev → Desc → Nat → ItemIs × Dev) : Dev :=
  let d1 := runItems x.r f (x.count - x.nextItem) (runDesc d x.r)
  if itemsDone d1 x.r then finishDesc d1 x.r else d1

end Sys2Proof.Machine
end

