-- ==== Sys2Proof/Machine/Arith.lean ====
section
/-! DEFINITION. The formats of 07 as codes: decoding elements and blocks, forming a result under ROUND and SAT with its
exceptions, packing in memory and in beats, block-scaled streams (07 R224-R243, R249). -/

namespace Sys2Proof.Machine

open Sys2Proof

/-! ## Format codes (07 R224, R228) -/

/-- The floating-point format of a code below 9. -/
def fmtOf (c : Nat) : Fmt :=
  match c with
  | 0 => fp64 | 1 => fp32 | 2 => bf16 | 3 => fp16 | 4 => e4m3 | 5 => e5m2 | 6 => e3m2 | 7 => e2m3 | _ => e2m1

/-- Bits of an element in memory. -/
def fmtBits (c : Nat) : Nat :=
  match c with
  | 0 => 64 | 1 => 32 | 2 => 16 | 3 => 16 | 4 => 8 | 5 => 8 | 6 => 6 | 7 => 6 | 8 => 4 | 9 => 32 | 10 => 16 | 11 => 8 | _ => 4

/-- Bits of its container in a beat. -/
def boxBits (c : Nat) : Nat := if fmtBits c == 6 then 8 else fmtBits c

def isFloat (c : Nat) : Bool := decide (c < 9)

def isInt (c : Nat) : Bool := decide (9 ≤ c) && decide (c ≤ 12)

def blockScalable (c : Nat) : Bool := (decide (4 ≤ c) && decide (c ≤ 8)) || c == 11

/-- A code is defined. -/
def fmtDefined (c : Nat) : Bool := decide (c ≤ 12)

/-- A two's complement integer of `w` bits, and its bits. -/
def intOf (w n : Nat) : Int := if n % 2 ^ w < 2 ^ (w - 1) then (n % 2 ^ w : Nat) else ((n % 2 ^ w : Nat) : Int) - 2 ^ w

def bitsOfInt (w : Nat) (z : Int) : Nat := (z % (2 ^ w : Nat)).toNat

/-- An integer as a value. -/
def valInt (z : Int) : Val := .num (decide (z < 0)) z.natAbs 0

/-- The value of an element. -/
def decElem (c n : Nat) : Val := if isFloat c then (fmtOf c).dec (n % 2 ^ fmtBits c) else valInt (intOf (fmtBits c) n)

/-- A value times 2^k. -/
def Val.scale (k : Int) : Val → Val
  | .num s m e => .num s m (e + k)
  | v => v

/-- The value of an element of a block with an E8M0 scale (07 R229). -/
def decScaled (c scale n : Nat) : Val :=
  if scale == 0xFF then .nan
  else
    let v := if c == 11 then Val.scale (-6) (decElem c n) else decElem c n
    Val.scale ((scale : Int) - 127) v

def Val.isNan : Val → Bool
  | .nan => true
  | _ => false

def Val.isInf : Val → Bool
  | .inf _ => true
  | _ => false

def Val.isZero : Val → Bool
  | .num _ m _ => m == 0
  | _ => false

/-- `a` is below `b`, both no NaN; -0 is below +0 (07 R244). -/
def Val.below (a b : Val) : Bool :=
  let key (v : Val) : Int :=
    match v with
    | .inf s => if s then -1 else 1
    | _ => 0
  match a, b with
  | .num s m e, .num t n g =>
    let u : Int := if e ≤ g then e else g
    let x := signed s (m * 2 ^ (e - u).toNat)
    let y := signed t (n * 2 ^ (g - u).toNat)
    decide (x < y) || (m == 0 && n == 0 && s && !t)
  | _, _ => decide (key a < key b)

/-- A value's square. -/
def Val.sq (v : Val) : Val := v.mul v

/-! ## Division and square root, exact enough to round (07 R242, R245) -/

/-- The magnitude num / den × 2^e as a dyadic: at least 80 significant bits and a bit that says that more follow. -/
def quotVal (neg : Bool) (num den : Nat) (e : Int) : Val :=
  let k := 80 + bitLen den
  let q := num * 2 ^ k / den
  let sticky := b2n (num * 2 ^ k % den != 0)
  .num neg (2 * q + sticky) (e - k - 1)

/-- The quotient of two values. -/
def Val.div : Val → Val → Val
  | .nan, _ => .nan
  | _, .nan => .nan
  | .inf _, .inf _ => .nan
  | .inf a, .num b _ _ => .inf (a != b)
  | .num a _ _, .inf b => .num (a != b) 0 0
  | .num a m e, .num b n g =>
    if n == 0 then (if m == 0 then .nan else .inf (a != b))
    else quotVal (a != b) m n (e - g)

/-- The integer square root, bit by bit from bit `k` down: the root found so far is `r`. -/
def isqrt : Nat → Nat → Nat → Nat
  | 0, _, r => r
  | k + 1, n, r => if (r + 2 ^ k) * (r + 2 ^ k) ≤ n then isqrt k n (r + 2 ^ k) else isqrt k n r

/-- The square root: of a negative value NaN, of -0 itself. -/
def Val.sqrt : Val → Val
  | .nan => .nan
  | .inf s => if s then .nan else .inf false
  | .num s m e =>
    if m == 0 then .num s 0 e
    else if s then .nan
    else
      let k := 160 + (e % 2).toNat
      let n := m * 2 ^ k
      let r := isqrt ((bitLen n + 1) / 2 + 1) n 0
      .num false (2 * r + b2n (r * r != n)) ((e - k) / 2 - 1)

/-! ## Forming a result (07 R237, R240, R249) -/

/-- A result's bits, and whether an exception of 07 R249 was raised in writing it. -/
abbrev Res := Nat × Bool

/-- ±largest finite. -/
def Fmt.top (f : Fmt) (neg : Bool) : Nat := b2n neg * 2 ^ (f.eb + f.mb) + f.maxBits

/-- Form a floating-point result; that it is NaN raises nothing here but in a format that has none. -/
def formFloat (f : Fmt) (r : Rnd) (sat : Bool) (v : Val) : Res :=
  match v with
  | .nan => if f.infs || f.nans then (f.nanBits, false) else (0, true)
  | .inf s =>
    if f.infs then (if sat then (f.top s, true) else (f.infBits s, false))
    else if f.nans then (if sat then (f.top s, true) else (f.nanBits, true))
    else (f.top s, true)
  | .num s m e =>
    if m == 0 then (b2n s * 2 ^ (f.eb + f.mb), false)
    else
      let q := f.quant r s m e
      match f.magBits q.1 q.2 with
      | some b => (b2n s * 2 ^ (f.eb + f.mb) + b, false)
      | none =>
        if sat || r == .rtz then (f.top s, true)
        else if f.infs then (f.infBits s, true)
        else if f.nans then (f.nanBits, true)
        else (f.top s, true)

/-- A finite value rounded to an integer. -/
def toInt (r : Rnd) (neg : Bool) (m : Nat) (e : Int) : Int :=
  signed neg (if 0 ≤ e then m * 2 ^ e.toNat else roundShift r neg m (-e).toNat)

/-- Clamp to a signed range of `w` bits. -/
def clampInt (w : Nat) (z : Int) : Int :=
  if z < -(2 ^ (w - 1) : Nat) then -(2 ^ (w - 1) : Nat) else if (2 ^ (w - 1) : Nat) ≤ z then (2 ^ (w - 1) : Nat) - 1 else z

/-- An integer result of integer arithmetic: wrapped or clamped (07 R240, R243). -/
def formInt (w : Nat) (sat : Bool) (z : Int) : Res :=
  let c := clampInt w z
  (bitsOfInt w (if sat then c else z), c != z)

/-- An integer from a floating-point value (07 R240). -/
def formIntFromFloat (w : Nat) (r : Rnd) (v : Val) : Res :=
  match v with
  | .nan => (0, true)
  | .inf s => (bitsOfInt w (if s then -(2 ^ (w - 1) : Nat) else (2 ^ (w - 1) : Nat) - 1), true)
  | .num s m e =>
    let z := toInt r s m e
    (bitsOfInt w (clampInt w z), clampInt w z != z)

/-- Form an unscaled result in format `c`; `ints` says that it comes from integer arithmetic. -/
def formRes (c : Nat) (r : Rnd) (sat ints : Bool) (v : Val) : Res :=
  if isFloat c then formFloat (fmtOf c) r sat v
  else if ints then
    match v with
    | .num s m e => formInt (fmtBits c) sat (toInt .rtz s m e)
    | _ => formIntFromFloat (fmtBits c) r v
  else formIntFromFloat (fmtBits c) r v

/-! ## Blocks (07 R229, R232) -/

/-- The greatest exponent of an element format. -/
def emaxOf (c : Nat) : Int :=
  match c with
  | 4 => 8 | 5 => 15 | 6 => 4 | 7 => 2 | 8 => 2 | _ => 0

/-- floor(log2) of a finite non-zero magnitude. -/
def log2Val (m : Nat) (e : Int) : Int := (bitLen m : Int) - 1 + e

/-- The largest floor(log2) of a block's results, none where all are zero. -/
def blockTop : List Val → Option Int
  | [] => none
  | v :: l =>
    match v, blockTop l with
    | .num _ m e, none => if m == 0 then none else some (log2Val m e)
    | .num _ m e, some t => if m == 0 then some t else some (max t (log2Val m e))
    | _, t => t

/-- One element of a block, with 2^x taken out. -/
def formScaledElem (c : Nat) (r : Rnd) (x : Int) (v : Val) : Res :=
  match v with
  | .num s m e =>
    if c == 11 then
      let z := toInt r s m (e - x + 6)
      let t : Int := if 127 < z then 127 else if z < -127 then -127 else z
      (bitsOfInt 8 t, t != z)
    else formFloat (fmtOf c) r true (.num s m (e - x))
  | _ => (0, false)

/-- Form a block: its scale and elements, and where an exception was raised (07 R232): that of a block whose scale is 0xFF with its
last result, which completes it (log 139). `rs` gives each element's rounding. -/
def formBlock (c : Nat) (rs : List Rnd) (vs : List Val) : Nat × List Nat × List Bool :=
  if vs.any (fun v => v.isNan || v.isInf) then (0xFF, vs.map (fun _ => 0), vs.zipIdx.map (fun p => p.2 + 1 == vs.length))
  else
    let x : Int := match blockTop vs with
      | none => -127
      | some t => max (-127) (min 127 (t - emaxOf c))
    let es := (vs.zip rs).map (fun p => formScaledElem c p.2 x p.1)
    ((x + 127).toNat, es.map Prod.fst, es.map Prod.snd)

/-! ## Packing in memory (07 R227, R230) -/

/-- Bits of elements packed from the least significant on, as one number. -/
def packNum (w : Nat) : List Nat → Nat
  | [] => 0
  | e :: l => e % 2 ^ w + 2 ^ w * packNum w l

/-- Elements of `w` bits packed into whole bytes. -/
def packElems (w : Nat) (l : List Nat) : List Byte :=
  if w % 8 == 0 then l.flatMap (fun e => leBytes (w / 8) e)
  else
    -- 8 elements of 4 or 6 bits fill w whole bytes
    let groups := (List.range (ceilDiv l.length 8)).map (fun k => (l.drop (8 * k)).take 8)
    (groups.flatMap (fun g => leBytes w (packNum w g))).take (ceilDiv (l.length * w) 8)

/-- `n` elements of `w` bits, from bit `o` of a byte string on. -/
def unpackElems (w n o : Nat) (l : List Byte) : List Nat :=
  if w % 8 == 0 && o % 8 == 0 then
    (List.range n).map (fun k => leAt l (o / 8 + k * (w / 8)) (w / 8))
  else
    (List.range n).map (fun k => fld (leAt l ((o + k * w) / 8) 2) ((o + k * w) % 8) w)

/-- Bytes of a unit of 64 blocks. -/
def unitBytes (c : Nat) : Nat := 64 + 2048 * fmtBits c / 8

/-- Byte at which element `e` of a block-scaled stream lies (elements of a block fill whole bytes), and its scale. -/
def scaledElemAt (c e : Nat) : Nat := e / 2048 * unitBytes c + 64 + e % 2048 * fmtBits c / 8

def scaleAt (c e : Nat) : Nat := e / 2048 * unitBytes c + e % 2048 / 32

/-- Bytes of `n` elements of a stream. -/
def streamBytes (c : Nat) (bs : Bool) (n : Nat) : Nat :=
  if bs then n / 2048 * unitBytes c + (if n % 2048 == 0 then 0 else 64 + ceilDiv (n % 2048 * fmtBits c) 8)
  else ceilDiv (n * fmtBits c) 8

/-- Elements that a range of bytes holds. -/
def elemsIn (c : Nat) (bs : Bool) (bytes : Nat) : Nat :=
  if bs then
    let rem := bytes % unitBytes c
    bytes / unitBytes c * 2048 + (if 64 < rem then (rem - 64) * 8 / fmtBits c else 0)
  else bytes * 8 / fmtBits c

end Sys2Proof.Machine
end

