-- ==== Sys2Proof/Machine/RaftImg.lean ====
section
/-! DEFINITION. Configuration images of the Raft (06 R185, R188-R191; 07 R233, R234): their bytes as entries, and when they are
well formed. -/

namespace Sys2Proof.Machine

open Sys2Proof

/-! ## The bytes of an image -/

/-- An SU entry (06 R189). `resv`: a reserved bit is set. -/
structure SuEntry where
  col : Nat
  row : Nat
  op : Nat
  sub : Nat
  fa : Nat
  fb : Nat
  fo : Nat
  bs : Bool
  round : Nat
  sat : Bool
  srcA : Nat
  srcB : Nat
  srcC : Nat
  dst : Nat
  stream : Nat
  group : Nat
  k : Nat
  base : Nat
  len : Nat
  kref0 : Nat
  kref1 : Nat
  k0 : Nat
  k1 : Nat
  k2 : Nat
  resv : Bool
  deriving DecidableEq, Repr

def suEntry (l : List Byte) : SuEntry :=
  let a := leAt l 0 4
  let b := leAt l 4 4
  let c := leAt l 8 4
  let e := leAt l 0xC 4
  let f := leAt l 0x10 4
  { col := fld a 0 5, row := fld a 5 4, op := fld a 16 8, sub := fld a 24 4
    fa := fld b 0 4, fb := fld b 4 4, fo := fld b 8 4, bs := bit b 12, round := fld b 13 2, sat := bit b 15
    srcA := fld b 16 3, srcB := fld b 19 3, srcC := fld b 22 3, dst := fld b 25 4
    stream := fld c 0 4, group := fld c 8 16, k := fld c 24 8, base := fld e 0 18, len := fld f 0 19
    kref0 := leAt l 0x14 2, kref1 := leAt l 0x16 2, k0 := leAt l 0x18 8, k1 := leAt l 0x20 8, k2 := leAt l 0x28 8
    resv := fld a 9 7 != 0 || fld a 28 4 != 0 || fld b 29 3 != 0 || fld c 4 4 != 0 || fld e 18 14 != 0 || fld f 19 13 != 0 ||
      !allZero (sub l 0x30 16) }

/-- A preload record (06 R190). -/
structure Preload where
  col : Nat
  row : Nat
  off : Nat
  data : List Byte
  resv : Bool
  deriving DecidableEq, Repr

/-- An image (06 R188). -/
structure Image where
  magic : Nat
  ver : Nat
  nSu : Nat
  tag : Nat
  w : Nat
  h : Nat
  nPre : Nat
  total : Nat
  check : Nat
  resv : Bool
  entries : List SuEntry
  preloads : List Preload
  /-- The entries and records fit within TOTAL_LEN. -/
  fits : Bool
  deriving DecidableEq, Repr

/-- Preload records from byte `o` on, at most `n`, within `total` bytes; whether they fit. -/
def preloadsOf (l : List Byte) (size : Nat) : Nat → Nat → List Preload × Bool
  | 0, _ => ([], true)
  | n + 1, o =>
    let len := leAt l (o + 8) 4
    let next := o + 16 + (len + 15) / 16 * 16
    if o + 16 ≤ size && next ≤ size then
      let a := leAt l o 4
      let b := leAt l (o + 4) 4
      let p : Preload := { col := fld a 0 5, row := fld a 5 4, off := fld b 0 18, data := sub l (o + 16) len
                           resv := fld a 9 23 != 0 || fld b 18 14 != 0 || leAt l (o + 12) 4 != 0 || len % 8 != 0 ||
                             !allZero (sub l (o + 16 + len) ((len + 15) / 16 * 16 - len)) }
      let r := preloadsOf l size n next
      (p :: r.1, r.2)
    else ([], false)

/-- Read an image's bytes. -/
def imageOf (l : List Byte) : Image :=
  let a := leAt l 0x10 4
  let nSu := leAt l 6 2
  let size := leAt l 0x18 4
  let body := 0x40 + 64 * nSu
  let fits := decide (body ≤ size)
  let pre := if fits then preloadsOf l size (min (leAt l 0x14 4) (size / 16)) body else ([], false)
  { magic := leAt l 0 4, ver := leAt l 4 2, nSu := nSu, tag := leAt l 8 8, w := fld a 0 3, h := fld a 3 5
    nPre := leAt l 0x14 4, total := size, check := leAt l 0x1C 4
    resv := fld a 8 24 != 0 || !allZero (sub l 0x20 32)
    entries := (List.range (if fits then nSu else 0)).map (fun i => suEntry (sub l (0x40 + 64 * i) 64))
    preloads := pre.1
    fits := fits && pre.2 && decide (leAt l 0x14 4 ≤ size / 16) }

/-- CHECK: CRC-32C of the image with the field read as 0. -/
def imageCheck (l : List Byte) (size : Nat) : Nat := crc32c (putAt (sub l 0 size) 0x1C (List.replicate 4 0))

/-! ## Operations (06 R185; 07 R233) -/

/-- Operand ports an operation reads, A, B and C. -/
def portsOf (e : SuEntry) : Bool × Bool × Bool :=
  match e.op with
  | 1 | 3 | 4 | 8 | 0xB | 0xD | 0xE | 0xF | 0x11 => (true, false, false)
  | 5 | 6 | 0xC | 0x10 | 0x12 => (true, true, false)
  | 7 | 0xA => (true, true, true)
  | 9 => (true, e.sub != 2, false)
  | _ => (false, false, false)

/-- The operation's compute format (06 R185). -/
def computeFmt (e : SuEntry) : Nat := if e.op == 4 then e.fo else e.fa

/-- A side's direction bit and what it faces: west 1, east 2, north 3, south 4, as (column, row) offsets. -/
def sideOf (col row side : Nat) : Option (Nat × Nat) :=
  match side with
  | 1 => if col == 0 then none else some (col - 1, row)
  | 2 => some (col + 1, row)
  | 3 => if row == 0 then none else some (col, row - 1)
  | 4 => some (col, row + 1)
  | _ => none

/-- The side that faces back. -/
def backOf (side : Nat) : Nat := if side == 1 then 2 else if side == 2 then 1 else if side == 3 then 4 else 3

/-- The entry at a position. -/
def entryAt (l : List SuEntry) (p : Option (Nat × Nat)) : Option SuEntry :=
  match p with
  | some (c, r) => l.find? (fun e => e.col == c && e.row == r)
  | none => none

/-- The sides whose link feeds a used operand port. -/
def readsFrom (e : SuEntry) (side : Nat) : Bool :=
  let p := portsOf e
  (p.1 && e.srcA == side) || (p.2.1 && e.srcB == side) || (p.2.2 && e.srcC == side)

/-- A used port names K0, scratch, or a neighbour that sends here. -/
def portOk (l : List SuEntry) (e : SuEntry) (used : Bool) (src : Nat) : Bool :=
  if src == 7 then false
  else if !used then true
  else if src == 5 || src == 6 then true
  else match entryAt l (sideOf e.col e.row src) with
    | some n => bit n.dst (backOf src - 1)
    | none => false

/-- A DST bit names a neighbour that reads from here. -/
def dstOk (l : List SuEntry) (e : SuEntry) : Bool :=
  decide (popcount 4 e.dst ≤ 2) && [1, 2, 3, 4].all (fun s =>
    !bit e.dst (s - 1) || (match entryAt l (sideOf e.col e.row s) with
      | some n => readsFrom n (backOf s)
      | none => false))

/-- Remove the entries all of whose feeding neighbours have been removed, `n` times: what is left holds a cycle. -/
def peel : Nat → List SuEntry → List SuEntry
  | 0, l => l
  | n + 1, l =>
    peel n (l.filter (fun e => [1, 2, 3, 4].any (fun s => readsFrom e s && (entryAt l (sideOf e.col e.row s)).isSome)))

/-- FMT_OUT of ADD, MUL, FMA, AXPB, DOT and MATVEC: any float, or any integer from an unscaled integer. -/
def outOk (e : SuEntry) : Bool := isFloat e.fo || (isInt e.fo && isInt e.fa && !(e.bs && blockScalable e.fa))

/-- The formats and BS an operation allows (07 R233). -/
def formatsOk (e : SuEntry) : Bool :=
  let def2 := fmtDefined e.fa && fmtDefined e.fo
  let same := e.fb == e.fa
  let narrow (c : Nat) : Bool := c == 1 || c == 2 || c == 3 || c == 9 || c == 10
  match e.op with
  | 1 | 2 | 3 => def2 && e.fo == e.fa
  | 4 => def2
  | 5 | 6 | 7 => def2 && same && outOk e
  | 8 => def2 && outOk e
  | 9 | 0xA => def2 && same && !e.bs
  | 0xB => decide (e.fa ≤ 3) && decide (e.fo ≤ 3) && !e.bs
  | 0xC | 0xE => def2 && e.fa != 9 && same && outOk e
  | 0xD => def2 && e.fo == e.fa && !e.bs
  | 0xF => e.fa == 9 && fmtDefined e.fo && !e.bs
  | 0x10 => e.fa == 9 && !e.bs && ((e.fo == 1 && (e.fb == 1 || e.fb == 2 || e.fb == 3)) ||
      (e.fo == 9 && (e.fb == 9 || e.fb == 10 || e.fb == 11)))
  | 0x11 => e.fa == 9 && e.fo == 9 && !e.bs
  | 0x12 => fmtDefined e.fa && e.fb == 9 && narrow e.fo && !e.bs
  | 0 => true
  | _ => false

/-- SUBOP of an operation is defined. -/
def subOk (e : SuEntry) : Bool :=
  match e.op with
  | 5 => decide (e.sub ≤ 1)
  | 9 => decide (e.sub ≤ 2)
  | 0xB => decide (e.sub ≤ 4)
  | 0xD => decide (e.sub ≤ 1)
  | _ => e.sub == 0

/-- GROUP, K and scratch of an operation. -/
def partsOk (e : SuEntry) : Bool :=
  let usesGroup := e.op == 0xC || e.op == 0xD || e.op == 0xE || e.op == 0xF || e.op == 0x10 || e.op == 0x12
  let scratch := e.op == 3 || e.op == 0xF || e.op == 0xE || e.op == 0x10 || e.op == 0xD || e.op == 0x12
  (!usesGroup || e.group != 0) && (e.op != 0x12 || e.k != 0) && (!scratch || e.len != 0) &&
  (e.op != 2 || decide (4096 ≤ e.len)) && e.base % 512 == 0 && e.len % 512 == 0 && decide (e.base + e.len ≤ 262144)

/-- No two entries share a position. -/
def distinctSus : List SuEntry → Bool
  | [] => true
  | e :: l => !(l.any (fun f => f.col == e.col && f.row == e.row)) && distinctSus l

/-- An image is well formed (06 R191). -/
def imageOk (i : Image) : Bool :=
  let l := i.entries
  i.magic == 0x52414654 && i.ver == 1 && decide (1 ≤ i.nSu) && decide (i.nSu ≤ 512) && i.tag != 0 && !i.resv &&
  decide (1 ≤ i.w) && decide (i.w ≤ 4) && decide (1 ≤ i.h) && decide (i.h ≤ 16) && distinctSus l &&
  l.all (fun e =>
    let p := portsOf e
    !e.resv && decide (e.op ≤ 0x12) && decide (e.col < 8 * i.w) && decide (e.row < i.h) && e.round != 3 && subOk e && formatsOk e &&
    fmtDefined e.fa && fmtDefined e.fb && fmtDefined e.fo &&
    partsOk e && portOk l e p.1 e.srcA && portOk l e p.2.1 e.srcB && portOk l e p.2.2 e.srcC && dstOk l e) &&
  (peel l.length l).isEmpty &&
  i.preloads.all (fun p => !p.resv && (match entryAt l (some (p.col, p.row)) with
    | some e => decide (e.base ≤ p.off) && decide (p.off + p.data.length ≤ e.base + e.len)
    | none => false))

/-! ## Scratch as placed (06 R190, R198) -/

/-- The bytes of an entry's scratch range after the copy is placed: zeros and the preloads. -/
def scratchOf (i : Image) (e : SuEntry) : List Byte :=
  (i.preloads.filter (fun p => p.col == e.col && p.row == e.row)).foldl (fun l p => putAt l (p.off - e.base) p.data)
    (List.replicate e.len 0)

end Sys2Proof.Machine
end

