-- ==== Sys2Proof/Machine/RaftCalc.lean ====
section
/-! DEFINITION. What the stages of a copy do with one item (06 R185, R187, R209; 07 R228, R234-R249): the flow of elements on
every link, from the SOURCEs' elements to the SINKs', the partials of ACC_ITEM and SCATTER_ADD, and the exceptions. -/

namespace Sys2Proof.Machine

open Sys2Proof

/-! ## Flows -/

/-- What a link carries for one item: elements in containers of `w` bits, and their scales where block-scaled; where a read has
failed, which elements come of what could not be read, so that no index among them counts (06 R209). -/
structure Flow where
  w : Nat := 8
  els : List Nat := []
  scales : List Nat := []
  lost : List Bool := []
  deriving DecidableEq, Repr

/-- A container cut into smaller ones. -/
def cutBox (small n e : Nat) : List Nat := (List.range n).map (fun i => fld e (small * i) small)

/-- Elements as containers of `b` bits: the bits of a beat are what they are (07 R228). -/
def recast (a b : Nat) (l : List Nat) : List Nat :=
  if a == b then l
  else if b < a then l.flatMap (cutBox b (a / b))
  else (List.range (ceilDiv l.length (b / a))).map (fun k => packNum a ((l.drop (k * (b / a))).take (b / a)))

/-- The marks of lost elements in containers of `b` bits. -/
def recastLost (a b : Nat) (l : List Bool) : List Bool :=
  if a == b then l
  else if b < a then l.flatMap (List.replicate (a / b))
  else (List.range (ceilDiv l.length (b / a))).map (fun k => ((l.drop (k * (b / a))).take (b / a)).any id)

/-- An operand or result of a stage is block-scaled (07 R234). -/
def scaledAs (e : SuEntry) (c : Nat) : Bool := e.bs && blockScalable c

/-- The elements of a flow as a stage takes them, and their values. -/
def flowVals (e : SuEntry) (c : Nat) (f : Flow) : List Val :=
  let els := recast f.w (boxBits c) f.els
  if scaledAs e c then
    (els.zipIdx).map (fun p => decScaled c (f.scales.getD (p.2 / 32) (Config.missingScale (p.2 / 32) % 256)) p.1)
  else els.map (decElem c)

/-- A constant of a stage (07 R233). -/
def constVal (e : SuEntry) (k : Nat) : Val := decElem (if scaledAs e e.fa then 1 else e.fa) k

/-- The elements of a scratch range in a format (07 R230, R233). -/
def scratchVals (c : Nat) (bs : Bool) (l : List Byte) : List Val :=
  let n := elemsIn c bs l.length
  if bs then (List.range n).map (fun i =>
    decScaled c (leAt l (scaleAt c i) 1) (fld (leAt l (scaledElemAt c i) 2) (i * fmtBits c % 8) (fmtBits c)))
  else (unpackElems (fmtBits c) n 0 l).map (decElem c)

/-! ## Rounding of a stage (07 R237-R239) -/

/-- 64-bit shifts and the generator's step and draw. -/
def genStep (s : Nat) : Nat :=
  let a := (s ^^^ (s * 2 ^ 13)) % 2 ^ 64
  let b := a ^^^ (a / 2 ^ 7)
  (b ^^^ (b * 2 ^ 17)) % 2 ^ 64

def genDraw (s e : Nat) : Nat :=
  let mix := (s ^^^ (e * 0xD6E8FEB86659FD93 % 2 ^ 64)) * 0xBF58476D1CE4E5B9 % 2 ^ 64
  mix / 2 ^ 48

/-- The seed of an SU. -/
def genSeed (seed su : Nat) : Nat :=
  let s := (seed ^^^ (su * 0x9E3779B97F4A7C15 % 2 ^ 64)) % 2 ^ 64
  if s == 0 then 1 else s

/-- Elements of operand A in a beat: one firing. -/
def beatElems (e : SuEntry) : Nat := 4096 / boxBits e.fa

/-- The states of a generator after each of `n` firings, oldest first. -/
def genStates : Nat → Nat → List Nat
  | 0, _ => []
  | n + 1, s => genStep s :: genStates n (genStep s)

/-- Rounding of the result element `i`, which is element `j` of firing `f`. -/
def rndOf (e : SuEntry) (states : List Nat) (f j : Nat) : Rnd :=
  if e.round == 1 then .rtz else if e.round == 2 then .stoch (genDraw (states.getD f 1) j) else .rne

/-! ## FUNC (07 R245) -/

/-- 2^(2^-k) for k from 1 on, in units of 2^-192, `n` of them. -/
def rootsOfTwo : Nat → Nat → List Nat
  | 0, _ => []
  | n + 1, r =>
    let s := isqrt 200 (r * 2 ^ 192) 0
    s :: rootsOfTwo n s

/-- The product of the roots whose bit of a fraction is set; the fraction's bits from the top. -/
def expProduct : List Nat → Nat → Nat → Nat → Nat
  | [], _, _, acc => acc
  | r :: rs, frac, k, acc => expProduct rs frac (k - 1) (if bit frac (k - 1) then acc * r / 2 ^ 192 else acc)

/-- 2^v for a finite v, to more than 100 bits; far out of every range it is cut off. -/
def exp2Val (v : Val) : Val :=
  match v with
  | .num s m e =>
    let x := signed s (if 0 ≤ e then m * 2 ^ (min e.toNat 20) * 2 ^ 128 else m * 2 ^ 128 / 2 ^ (min (-e).toNat 2000))
    let z := max (-(2 ^ 16)) (min (2 ^ 16) (x / 2 ^ 128))
    let frac := (x % 2 ^ 128).toNat
    .num false (2 * expProduct (rootsOfTwo 128 (2 * 2 ^ 192)) frac 128 (2 ^ 192) + 1) (z - 193)
  | w => w

/-- The bits of log2 of y / 2^256, y from 2^256 to 2^257, `n` after the point. -/
def log2Bits : Nat → Nat → Nat → Nat
  | 0, _, acc => acc
  | n + 1, y, acc =>
    let q := y * y / 2 ^ 256
    if 2 ^ 257 ≤ q then log2Bits n (q / 2) (2 * acc + 1) else log2Bits n q (2 * acc)

/-- log2 of a positive finite value, to 160 bits after the point. -/
def log2Of (m : Nat) (e : Int) : Val :=
  let z := log2Val m e
  let y := m * 2 ^ 256 / 2 ^ (bitLen m - 1)
  let exact_ := m == 2 ^ (bitLen m - 1)
  let t : Int := z * 2 ^ 161 + (if exact_ then 0 else 2 * (log2Bits 160 y 0 : Int) + 1)
  .num (decide (t < 0)) t.natAbs (-161)

/-- A result within 2 units in the last place of a value: the nearest one moved by -2 to 2 places, as the module will,
where that stays within the bound (07 R245; log 10). -/
def near (f : Fmt) (off : Nat) (v : Val) : Nat :=
  let n := f.enc .rne v
  let mag := n % 2 ^ (f.eb + f.mb)
  let cand := n - mag + (if mag + off % 5 < 2 then mag else mag + off % 5 - 2)
  match v, f.dec cand, f.dec n with
  | .num s m e, .num _ m' e', .num _ m'' e'' =>
    let u : Int := (f.quant .rne s m'' e'').2
    let d := (Val.num s m e).add (Val.num (!s) m' e')
    (match d with
     | .num _ x g => if Val.below (.num false x g) (.num false 1 (u + 1)) || (m' == 0 && m'' == 0) then cand else n
     | _ => n)
  | _, _, _ => n

/-- A subnormal operand of a FUNC stage is a zero of the same sign (07 R242). -/
def flushSub (f : Fmt) (v : Val) : Val :=
  match v with
  | .num s m e => if m != 0 && log2Val m e < 1 - f.bias then .num s 0 e else v
  | w => w

/-- FUNC: a value to round, or the bits of a result known only to within 2 units; and whether it is a pole from a zero. -/
def funcOf (e : SuEntry) (bits : Nat) (v0 : Val) : (Val ⊕ Nat) × Bool :=
  let v := flushSub (fmtOf e.fa) v0
  -- a result that overflows is written as 07 R240 says
  let loose (x : Val) : (Val ⊕ Nat) × Bool :=
    match (fmtOf e.fo).dec ((fmtOf e.fo).enc .rne x) with
    | .num _ _ _ => (.inr (near (fmtOf e.fo) (Config.func e.sub e.fa bits e.fo) x), false)
    | _ => (.inl x, false)
  match e.sub, v with
  | 0, .num s m _ =>
    if m == 0 then (.inl (.inf s), true)
    else if e.round == 2 then loose ((Val.num false 1 0).div v) else (.inl ((Val.num false 1 0).div v), false)
  | 0, .inf s => (.inl (.num s 0 0), false)
  | 1, .num s m _ => if m != 0 && !s && e.round == 2 then loose v.sqrt else (.inl v.sqrt, false)
  | 1, .inf _ => (.inl v.sqrt, false)
  | 2, .num s m _ =>
    if m == 0 then (.inl (.inf s), true) else if s then (.inl .nan, false) else loose ((Val.num false 1 0).div v.sqrt)
  | 2, .inf s => (.inl (if s then .nan else .num false 0 0), false)
  | 3, .num _ _ _ => loose (exp2Val v)
  | 3, .inf s => (.inl (if s then .num false 0 0 else .inf false), false)
  | 4, .num s m g => if m == 0 then (.inl (.inf true), true) else if s then (.inl .nan, false) else loose (log2Of m g)
  | 4, .inf s => (.inl (if s then .nan else .inf false), false)
  | _, w => (.inl w, false)

/-! ## Results -/

/-- A result before it is formed: its value or bits, its firing and place in it, and whether the operation raised an
exception by itself. -/
structure Raw where
  v : Val ⊕ Nat
  firing : Nat
  place : Nat
  exc : Bool := false

/-- Number of different firings in which something was raised. The list is in rising order of firings. -/
def countFirings : List (Nat × Bool) → Option Nat → Nat
  | [], _ => 0
  | (f, b) :: l, last => if b && last != some f then 1 + countFirings l (some f) else countFirings l last

/-- Blocks of 32 results, formed one after the other. -/
def formBlocks (c : Nat) : Nat → List (Rnd × Val) → List (Nat × List Nat × List Bool)
  | 0, _ => []
  | n + 1, l => formBlock c ((l.take 32).map Prod.fst) ((l.take 32).map Prod.snd) :: formBlocks c n (l.drop 32)

/-- Form the results of a stage: the flow, and the number of firings that raised an exception. -/
def formAll (e : SuEntry) (ints : Bool) (states : List Nat) (l : List Raw) : Flow × Nat :=
  let rs := l.map (fun r => rndOf e states r.firing r.place)
  if scaledAs e e.fo then
    let vs := l.map (fun r => match r.v with | .inl v => v | .inr b => decElem e.fo b)
    let bl := formBlocks e.fo (ceilDiv l.length 32) (rs.zip vs)
    let raised := bl.flatMap (fun b => b.2.2)
    ({ w := boxBits e.fo, els := bl.flatMap (fun b => b.2.1), scales := bl.map Prod.fst },
     countFirings ((l.zip raised).map (fun p => (p.1.firing, p.1.exc || p.2))) none)
  else
    let out := (l.zip rs).map (fun p => match p.1.v with
      | .inl v => formRes e.fo p.2 e.sat ints v
      | .inr b => (b, false))
    ({ w := boxBits e.fo, els := out.map Prod.fst },
     countFirings ((l.zip out).map (fun p => (p.1.firing, p.1.exc || p.2.2))) none)

/-- A sum whose accumulator has gone past its format's range, no operand being infinite, overflows whatever it is written as: it stands
as a finite value beyond every format (07 R240). -/
def pastRange (v : Val) (ops : List Val) : Val :=
  match v with
  | .inf s => if ops.any Val.isInf then v else .num s 1 4096
  | _ => v

/-- The NaN of an invalid operation: produced from operands that are not NaN (07 R249). -/
def invalid (v : Val) (ops : List Val) : Bool := v.isNan && !(ops.any Val.isNan)

/-- Integer arithmetic throughout (07 R240). -/
def allInts (e : SuEntry) : Bool := isInt e.fa && !scaledAs e e.fa && isInt e.fo

/-! ## Accumulators (07 R236) -/

/-- An accumulator's kind: a floating-point format, or an integer width. -/
inductive AccKind where
  | fp (f : Fmt)
  | int (w : Nat)

def accKind (e : SuEntry) : AccKind :=
  if e.op == 0x10 then (if e.fo == 1 then .fp fp32 else .int 32)
  else if e.fa == 0 then .fp fp64
  else if isFloat e.fa || scaledAs e e.fa then .fp fp32
  else if e.fa == 9 then .int 64 else .int 32

/-- Add a value to an accumulator's bits. -/
def accAdd (k : AccKind) (acc : Nat) (v : Val) : Nat :=
  match k with
  | .fp f => f.enc .rne ((f.dec acc).add v)
  | .int w => match v with
    | .num s m e => (acc + bitsOfInt w (toInt .rtz s m e)) % 2 ^ w
    | _ => acc

def accVal (k : AccKind) (acc : Nat) : Val :=
  match k with
  | .fp f => f.dec acc
  | .int w => valInt (intOf w acc)

/-- Add a value to the accumulator with index `i`, in firing `f`: the accumulators, and the firings in which an addition
was an invalid operation (07 R249). -/
def accElem (k : AccKind) (m : NMap Nat × NSet) (i f : Nat) (v : Val) : NMap Nat × NSet :=
  let old := NMap.get 0 m.1 i
  let new := accAdd k old v
  (NMap.set 0 m.1 i new, if invalid (accVal k new) [accVal k old, v] then NSet.add m.2 f else m.2)

/-- The indices of a group in the order their products are added (log 24). -/
def sumSeq (e : SuEntry) (n : Nat) : List Nat := sortBy (fun i => Config.sumOrder e.fa e.group i) (List.range n)

/-- The sum of a group's products in its accumulator: block-scaled INT8 products are summed exactly within a block of the
stream first; `first` is the group's first element. -/
def groupSum (e : SuEntry) (first : Nat) (ps : List Val) : Nat :=
  let k := accKind e
  if e.fa == 11 && scaledAs e e.fa then
    let blocks := (List.range ((first % 32 + ps.length + 31) / 32)).map (fun b =>
      (((ps.zipIdx).filter (fun p => (first % 32 + p.2) / 32 == b)).map Prod.fst).foldl Val.add (.num false 0 0))
    (sumSeq e blocks.length).foldl (fun acc i => accAdd k acc (blocks.getD i (.num false 0 0))) 0
  else (sumSeq e ps.length).foldl (fun acc i => accAdd k acc (ps.getD i (.num false 0 0))) 0

/-! ## Stages -/

/-- What an operand port brings: a constant or scratch elements as values and as bits. -/
inductive Opnd where
  | none
  | flow (f : Flow)
  | const (v : Val) (bits : Nat)
  | scratch (l : List Val) (bits : List Nat)

/-- Elements of an operand that has a count of its own. -/
def opndCount (c : Nat) : Opnd → Option Nat
  | .flow f => some (recast f.w (boxBits c) f.els).length
  | _ => Option.none

/-- An operand as `n` values (log 25 for scratch). -/
def opndVals (e : SuEntry) (c n : Nat) : Opnd → List Val
  | .flow f => flowVals e c f
  | .const v _ => List.replicate n v
  | .scratch l _ => (List.range n).map (fun i => l.getD (Config.scratchIndex l.length i % l.length) (.num false 0 0))
  | .none => List.replicate n (.num false 0 0)

/-- An operand as bits. -/
def opndBits (c n : Nat) : Opnd → List Nat
  | .flow f => recast f.w (boxBits c) f.els
  | .const _ b => List.replicate n (b % 2 ^ fmtBits c)
  | .scratch _ l => (List.range n).map (fun i => l.getD (Config.scratchIndex l.length i % l.length) 0)
  | .none => List.replicate n 0

/-- The marks of an operand's lost elements; none where nothing is lost. -/
def opndLost (c : Nat) : Opnd → List Bool
  | .flow f => recastLost f.w (boxBits c) f.lost
  | _ => []

/-- The marks of groups of `g` elements, each for `k` results. -/
def lostGroups (g k : Nat) (l : List Bool) : List Bool :=
  if g == 0 then [] else (List.range (ceilDiv l.length g)).flatMap (fun i => List.replicate k (((l.drop (i * g)).take g).any id))

/-- An index that was read names a row beyond a table's `rows` (06 R209). -/
def indexBeyond (rows : Nat) (idx : List Int) (lost : List Bool) : Bool :=
  idx.zipIdx.any (fun p => !lost.getD p.2 false && (decide (p.1 < 0) || decide ((rows : Int) ≤ p.1)))

/-- The results of one stage: its flow, its partials (index → accumulator bits), exceptions, firings, or LENGTH. -/
structure StageRes where
  flow : Flow := {}
  partials : NMap Nat := []
  exc : Nat := 0
  firings : Nat := 0
  bad : Bool := false

/-- An elementwise operation on exact values (07 R235, R244). -/
def elementwise (e : SuEntry) (k0 k1 : Val) (a b c : Val) : Val :=
  let orNan (l : List Val) (v : Val) : Val := if l.any Val.isNan then .nan else v
  let mn (x y : Val) : Val := if Val.below y x then y else x
  let mx (x y : Val) : Val := if Val.below x y then y else x
  match e.op with
  | 5 => a.add (if e.sub == 1 then b.neg else b)
  | 6 => a.mul b
  | 7 => (a.mul b).add c
  | 8 => (k0.mul a).add k1
  | 9 => if e.sub == 0 then orNan [a, b] (mn a b) else if e.sub == 1 then orNan [a, b] (mx a b)
         else orNan [a, k0, k1] (mx k0 (mn a k1))
  | 0xA => orNan [a, b, c] (if c.isZero then b else a)
  | _ => a

/-- Operands an elementwise operation's NaN may come from. -/
def nanFrom (e : SuEntry) (k0 k1 : Val) (a b c : Val) : List Val :=
  match e.op with
  | 5 | 6 => [a, b]
  | 7 => [a, b, c]
  | 8 => [a, k0, k1]
  | _ => [a, b, c, k0, k1]

/-- HASH of a 32-bit element (07 R246). -/
def hash32 (k0 x : Nat) : Nat :=
  let m (n : Nat) : Nat := n % 2 ^ 32
  let h := m (x ^^^ m k0)
  let h := h ^^^ (h / 2 ^ 16)
  let h := m (h * 0x85EBCA6B)
  let h := h ^^^ (h / 2 ^ 13)
  let h := m (h * 0xC2B2AE35)
  h ^^^ (h / 2 ^ 16)

/-- Key `a` comes before `b` in TOPK: NaN after everything, zeros equal, equal keys by identifier (07 R247). -/
def keyBefore (a b : Val × Nat) : Bool :=
  let lt (x y : Val) : Bool :=
    if x.isNan then false else if y.isNan then true else if x.isZero && y.isZero then false else Val.below x y
  lt a.1 b.1 || (!lt b.1 a.1 && decide (a.2 < b.2))

/-- Insert a pair in TOPK's order, keeping `k`. -/
def keepSmallest (k : Nat) (l : List (Val × Nat)) (p : Val × Nat) : List (Val × Nat) :=
  ((l.takeWhile (fun q => keyBefore q p)) ++ [p] ++ (l.dropWhile (fun q => keyBefore q p))).take k

/-- The groups of `g` of a list, `n` of them. -/
def groupsOf {α : Type} (g : Nat) : Nat → List α → List (List α)
  | 0, _ => []
  | n + 1, l => l.take g :: groupsOf g n (l.drop g)

/-- The filler of a TOPK group (07 R247). -/
def topkFiller (c : Nat) : Nat := if isFloat c then (fmtOf c).nanBits else 2 ^ (fmtBits c - 1) - 1

/-- Run one stage on an item. `gen` is the SU's generator, `scr` its scratch as placed. -/
def runStage (e : SuEntry) (k0b k1b gen : Nat) (scr : List Byte) (a b c : Opnd) : StageRes :=
  let k0 := constVal e k0b
  let k1 := constVal e k1b
  let counts := [opndCount e.fa a, opndCount e.fb b, opndCount e.fb c].filterMap id
  let n := counts.headD 0
  let be := beatElems e
  let firings := ceilDiv n be
  let states := if e.round == 2 then genStates firings gen else []
  let g := if e.group == 0 then 1 else e.group
  let la := opndLost e.fa a
  let ls := [la, opndLost e.fb b, opndLost e.fb c]
  let lost := if ls.all List.isEmpty then [] else (List.range n).map (fun i => ls.any (fun l => l.getD i false))
  -- a block whose results are not all known has no known element
  let marked (o : Flow) (l : List Bool) : Flow := { o with lost := if scaledAs e e.fo then lostGroups 32 32 l else l }
  let aligned := counts.all (fun m => m == n)
  let groups := ceilDiv n g
  -- firing and place of the result of a group
  let at_ (i : Nat) : Nat × Nat :=
    let f := (min ((i + 1) * g) n - 1) / be
    (f, i - f * be / g)
  match e.op with
  | 1 | 3 => { flow := match a with | .flow f => f | _ => {}, firings := firings }
  | 4 | 5 | 6 | 7 | 8 | 9 | 0xA =>
    let l := ((opndVals e e.fa n a).zip ((opndVals e e.fb n b).zip (opndVals e e.fb n c))).zipIdx
    let raw := l.map (fun p =>
      let v := elementwise e k0 k1 p.1.1 p.1.2.1 p.1.2.2
      let r : Raw := { v := .inl v, firing := p.2 / be, place := p.2 % be
                       exc := invalid v (nanFrom e k0 k1 p.1.1 p.1.2.1 p.1.2.2) }
      r)
    let o := formAll e (allInts e) states raw
    { flow := marked o.1 lost, exc := o.2, firings := firings, bad := !aligned }
  | 0xB =>
    let l := ((opndVals e e.fa n a).zip (opndBits e.fa n a)).zipIdx
    let raw := l.map (fun p =>
      let v := funcOf e p.1.2 p.1.1
      let nan := match v.1 with | .inl x => invalid x [p.1.1] | .inr _ => false
      let r : Raw := { v := v.1, firing := p.2 / be, place := p.2 % be, exc := v.2 || nan }
      r)
    let o := formAll e false states raw
    { flow := marked o.1 lost, exc := o.2, firings := firings }
  | 0xC =>
    let ops := (opndVals e e.fa n a).zip (opndVals e e.fb n b)
    let raw := ((groupsOf g groups ops).zipIdx).map (fun p =>
      let l := p.1.map Prod.fst ++ p.1.map Prod.snd
      let v := pastRange (accVal (accKind e) (groupSum e (p.2 * g) (p.1.map (fun q => q.1.mul q.2)))) l
      let r : Raw := { v := .inl v, firing := (at_ p.2).1, place := (at_ p.2).2, exc := invalid v l }
      r)
    let o := formAll e (allInts e) states raw
    { flow := marked o.1 (lostGroups g 1 lost), exc := o.2, firings := firings, bad := !aligned }
  | 0xD =>
    let vs := opndVals e e.fa n a
    let k := accKind e
    let add (m : NMap Nat × NSet) (i : Nat) : NMap Nat × NSet :=
      accElem k m (i % g) (i / be) (if e.sub == 1 then (vs.getD i (.num false 0 0)).sq else vs.getD i (.num false 0 0))
    let ps := (sumSeq e n).foldl add ([], [])
    { flow := match a with | .flow f => f | _ => {}, partials := ps.1, exc := ps.2.length, firings := firings }
  | 0xE =>
    let mat := scratchVals e.fb (scaledAs e e.fb) scr
    let rows := mat.length / g
    let vs := opndVals e e.fa n a
    let raw := ((groupsOf g groups vs).zipIdx).flatMap (fun p => (List.range rows).map (fun r =>
      let row := (mat.drop (r * g)).take g
      let v := pastRange (accVal (accKind e) (groupSum e (p.2 * g) ((p.1.zip row).map (fun q => q.1.mul q.2)))) (p.1 ++ row)
      let x : Raw := { v := .inl v, firing := (at_ p.2).1, place := (at_ p.2).2 * rows + r, exc := invalid v (p.1 ++ row) }
      x))
    let o := formAll e (allInts e) states raw
    { flow := marked o.1 (lostGroups g rows lost), exc := o.2, firings := firings }
  | 0xF =>
    let table := unpackElems (fmtBits e.fo) (elemsIn e.fo false scr.length) 0 scr
    let rows := table.length / g
    let idx := (opndBits 9 n a).map (intOf 32)
    let row (z : Int) : List Nat := (List.range g).map (fun j => table.getD (z.toNat * g + j) 0)
    { flow := { w := boxBits e.fo, els := idx.flatMap row, lost := lostGroups 1 g la }, firings := firings, bad := indexBeyond rows idx la }
  | 0x10 =>
    let rows := scr.length / 4 / g
    let idx := (opndBits 9 n a).map (intOf 32)
    let vs := opndVals e e.fb (n * g) b
    let k := accKind e
    let row (m : NMap Nat × NSet) (i : Nat) : NMap Nat × NSet :=
      (((vs.drop (i * g)).take g).zipIdx).foldl (fun m q => accElem k m ((idx.getD i 0).toNat * g + q.2) (i / be) q.1) m
    let ps := (sumSeq e n).foldl row ([], [])
    { partials := ps.1, exc := ps.2.length, firings := firings, bad := indexBeyond rows idx la || vs.length != n * g }
  | 0x11 => { flow := { w := 32, els := (opndBits 9 n a).map (hash32 k0b), lost := la }, firings := firings }
  | 0x12 =>
    let pairs := (opndVals e e.fa n a).zip (opndBits 9 n b)
    let raw := ((groupsOf g groups pairs).zipIdx).flatMap (fun p =>
      let best := p.1.foldl (keepSmallest e.k) []
      (best.zipIdx.map (fun q => (some q, p.2))) ++ List.replicate (e.k - best.length) (Option.none, p.2))
    let out := raw.map (fun q => match q.1 with
      | some ((v, id), j) =>
        let r := formRes e.fo (rndOf e states (at_ q.2).1 ((at_ q.2).2 * e.k + j)) e.sat (isInt e.fa) v
        (r.1 + id * 2 ^ 32, ((at_ q.2).1, r.2))
      | Option.none => (topkFiller e.fo + 0xFFFFFFFF * 2 ^ 32, ((at_ q.2).1, false)))
    { flow := { w := 64, els := out.map Prod.fst, lost := lostGroups g e.k lost }
      exc := countFirings (out.map Prod.snd) Option.none, firings := firings, bad := !aligned }
  | _ => {}

/-! ## A whole item -/

/-- What a copy made of an item. -/
structure ItemRes where
  /-- Flows into the SINKs, by entry number. -/
  sinks : List (Nat × Flow) := []
  /-- Partials by entry number. -/
  partials : List (Nat × NMap Nat) := []
  /-- Firings of each SU that rounds stochastically, by entry number. -/
  firings : List (Nat × Nat) := []
  /-- Firings of all stages, and those that raised an exception. -/
  fired : Nat := 0
  exc : Nat := 0
  bad : Bool := false

/-- The constants, generators and scratch that an item's stages use. -/
structure StageEnv where
  k : Nat → Nat × Nat
  gen : Nat → Nat
  scr : Nat → List Byte

/-- The flow that comes out of a side's neighbour, once it is known. -/
def flowFrom (l : List SuEntry) (done : List (Nat × Nat × Flow)) (e : SuEntry) (src : Nat) : Option Flow :=
  match entryAt l (sideOf e.col e.row src) with
  | none => none
  | some n => (done.find? (fun d => d.1 == n.col && d.2.1 == n.row)).map (fun d => d.2.2)

/-- An operand, where it is known. -/
def opndOf (l : List SuEntry) (done : List (Nat × Nat × Flow)) (e : SuEntry) (used : Bool) (src c k0 : Nat) (scr : List Byte) :
    Option Opnd :=
  if !used then some .none
  else if src == 5 then some (.const (constVal e k0) k0)
  else if src == 6 then
    some (.scratch (scratchVals c (scaledAs e c) scr) (unpackElems (fmtBits c) (elemsIn c false scr.length) 0 scr))
  else (flowFrom l done e src).map Opnd.flow

/-- Run the stages that can run, one after the other (`todo` with their numbers): each at most once per step of fuel. -/
def runGraph (l : List SuEntry) (env : StageEnv) (sources : List (Nat × Flow)) :
    Nat → List (SuEntry × Nat) → List (Nat × Nat × Flow) → ItemRes → ItemRes
  | 0, _, _, r => r
  | fuel + 1, todo, done, r =>
    let ready (p : SuEntry × Nat) : Option (Opnd × Opnd × Opnd) :=
      let e := p.1
      let k := env.k p.2
      let q := portsOf e
      let scr := if e.srcA == 6 || e.srcB == 6 || e.srcC == 6 then env.scr p.2 else []
      match opndOf l done e q.1 e.srcA e.fa k.1 scr, opndOf l done e q.2.1 e.srcB e.fb k.1 scr,
            opndOf l done e q.2.2 e.srcC e.fb k.1 scr with
      | some a, some b, some c => some (a, b, c)
      | _, _, _ => none
    match todo.findSome? (fun p => (ready p).map (fun o => (p, o))) with
    | none => r
    | some (p, o) =>
      let e := p.1
      let i := p.2
      let k := env.k i
      let s : StageRes := if e.op == 2 then { flow := ((sources.find? (fun q => q.1 == i)).map Prod.snd).getD {} }
        else runStage e k.1 k.2 (env.gen i) (if e.op == 0xE || e.op == 0xF || e.op == 0x10 then env.scr i else []) o.1 o.2.1 o.2.2
      let r1 : ItemRes := { r with
        sinks := if e.op == 3 then r.sinks ++ [(i, s.flow)] else r.sinks
        partials := if e.op == 0xD || e.op == 0x10 then r.partials ++ [(i, s.partials)] else r.partials
        firings := if e.round == 2 then r.firings ++ [(i, s.firings)] else r.firings
        fired := r.fired + s.firings, exc := r.exc + s.exc, bad := r.bad || s.bad }
      runGraph l env sources fuel (todo.filter (fun q => q.2 != i)) (done ++ [(e.col, e.row, if e.op == 3 then {} else s.flow)]) r1

/-- Run an item through a layout. -/
def runItem (l : List SuEntry) (env : StageEnv) (sources : List (Nat × Flow)) : ItemRes :=
  runGraph l env sources l.length l.zipIdx [] {}

/-! ## Element counts (06 R203) -/

/-- Elements and container bits that leave a stage, from those of its operand A. -/
def countOut (e : SuEntry) (inp : Nat × Nat) : Nat × Nat :=
  let n := ceilDiv (inp.1 * inp.2) (boxBits e.fa)
  let g := if e.group == 0 then 1 else e.group
  match e.op with
  | 1 | 3 | 0xD => (n, boxBits e.fa)
  | 4 | 5 | 6 | 7 | 8 | 9 | 0xA | 0xB => (n, boxBits e.fo)
  | 0xC => (ceilDiv n g, boxBits e.fo)
  | 0xE => (ceilDiv n g * (elemsIn e.fb (scaledAs e e.fb) e.len / g), boxBits e.fo)
  | 0xF => (n * g, boxBits e.fo)
  | 0x11 => (n, 32)
  | 0x12 => (ceilDiv n g * e.k, 64)
  | _ => (0, 8)

/-- The counts of every stage, by position; `src` gives those of the SOURCEs by entry number. -/
def runCounts (l : List SuEntry) (src : Nat → Nat × Nat) :
    Nat → List (SuEntry × Nat) → List (Nat × Nat × Nat × Nat) → List (Nat × Nat × Nat × Nat)
  | 0, _, done => done
  | fuel + 1, todo, done =>
    let inp (e : SuEntry) : Option (Nat × Nat) :=
      let q := portsOf e
      if e.op == 2 || !q.1 then some (0, 8)
      else
        let side := if e.srcA == 5 || e.srcA == 6 then e.srcB else e.srcA
        if side == 0 || 5 ≤ side then some (0, 8)
        else match entryAt l (sideOf e.col e.row side) with
          | none => none
          | some n => (done.find? (fun d => d.1 == n.col && d.2.1 == n.row)).map (fun d => d.2.2)
    match todo.findSome? (fun p => (inp p.1).map (fun o => (p, o))) with
    | none => done
    | some (p, o) =>
      let c := if p.1.op == 2 then src p.2 else countOut p.1 o
      runCounts l src fuel (todo.filter (fun q => q.2 != p.2)) (done ++ [(p.1.col, p.1.row, c.1, c.2)])

end Sys2Proof.Machine
end

