-- ==== Sys2Proof/Machine/Copies.lean ====
section
/-! DEFINITION. The grid of the Raft, its spare columns, and copies of images: where one may stand, what it pushes out, who
holds it (06 R180, R181, R194-R200, R215-R218, R221-R223). -/

namespace Sys2Proof.Machine

open Sys2Proof

/-! ## The grid. Rows are numbered bank × 16 + row, clusters bank × 64 + cluster, SUs bank × 512 + SU. -/

def rowMap (d : Dev) (row : Nat) : RowMap := d.raft.rows.getD row {}

def onRow (d : Dev) (row : Nat) (f : RowMap → RowMap) : Dev := { d with raft.rows := modAt f d.raft.rows row }

/-- The physical columns that serve a row's logical columns (06 R217). -/
def physCols (m : RowMap) : List Nat := ((List.range 34).filter (fun p => p != m.skip0 && p != m.skip1)).take 32

/-- The physical SU that serves an SU, by row × 34 + physical column. -/
def suPhys (d : Dev) (su : Nat) : Nat := su / 32 * 34 + (physCols (rowMap d (su / 32))).getD (su % 32) 0

/-- An SU is out of service. -/
def suDown (d : Dev) (su : Nat) : Bool := NSet.mem d.raft.failed (suPhys d su)

/-- The SUs of a cluster (06 R180). -/
def clusterSus (k : Nat) : List Nat := (List.range 8).map (fun j => k / 64 * 512 + k % 64 / 4 * 32 + k % 4 * 8 + j)

/-- A cluster is faulted (06 R215). -/
def clusterDown (d : Dev) (k : Nat) : Bool := (clusterSus k).any (suDown d)

/-- Clusters of a rectangle. -/
def rectClusters (bank row col w h : Nat) : List Nat :=
  (List.range h).flatMap (fun i => (List.range w).map (fun j => bank * 64 + (row + i) * 4 + col + j))

/-- A rectangle lies in a berth's clusters, none of them faulted, and none still held by a descriptor of the berth that had it
before (02 R62). -/
def freeRect (d : Dev) (berth row col w h : Nat) : Bool :=
  let mask := (berthOf d berth).clusters.toNat
  (rectClusters (bankOfBerth berth) row col w h).all (fun k =>
    bit mask (k % 64) && !clusterDown d k && !clusterHeld d (fun b => b != berth) k)

/-! ## Placing (06 R196, R197, R200) -/

/-- What is to be placed. -/
structure Want where
  berth : Nat
  job : Nat
  tag : Nat
  check : Nat
  w : Nat
  h : Nat
  image : List Byte := []
  deriving DecidableEq, Repr

/-- A rectangle and a context. -/
structure Spot where
  row : Nat
  col : Nat
  ctx : Nat
  deriving DecidableEq, Repr

/-- Spots in the loader's order: rows, then columns, then contexts. -/
def spots (d : Dev) (a : Want) : List Spot :=
  (List.range (17 - a.h)).flatMap (fun i => (List.range (5 - a.w)).flatMap (fun j =>
    if freeRect d a.berth i j a.w a.h then [⟨i, j, 0⟩, ⟨i, j, 1⟩] else []))

/-- Scratch ranges of an image at a place: (SU, base, length); a built-in image takes the whole scratch of each SU. -/
def rangesAt (bank row col w h : Nat) (image : List Byte) : List (Nat × Nat × Nat) :=
  if image.isEmpty then (rectClusters bank row col w h).flatMap (fun k => (clusterSus k).map (fun s => (s, 0, 262144)))
  else ((imageOf image).entries.filter (fun e => e.len != 0)).map (fun e =>
    (bank * 512 + (row + e.row) * 32 + col * 8 + e.col, e.base, e.len))

/-- Some SU's ranges overlap. -/
def rangesMeet (a b : List (Nat × Nat × Nat)) : Bool :=
  a.any (fun x => b.any (fun y => x.1 == y.1 && decide (x.2.1 < y.2.1 + y.2.2) && decide (y.2.1 < x.2.1 + x.2.2)))

/-- A copy is idle. -/
def idleCopy (c : Copy) : Bool := c.placed && c.holder.isNone

/-- The copies that placing at a spot pushes out; none where one of them may not be evicted. -/
def spotNeeds (d : Dev) (a : Want) (s : Spot) : Option (List Copy) :=
  let bank := bankOfBerth a.berth
  let ks := rectClusters bank s.row s.col a.w a.h
  let rs := rangesAt bank s.row s.col a.w a.h a.image
  let hit (c : Copy) : Bool :=
    let mine := rectClusters c.bank c.row c.col c.w c.h
    ks.any (fun k => mine.contains k) && (c.ctx == s.ctx || rangesMeet rs (rangesAt c.bank c.row c.col c.w c.h c.image))
  let l := d.raft.copies.filter hit
  let own (c : Copy) : Bool := c.job == a.job && c.berth == a.berth && c.tag == a.tag && c.check == a.check
  if l.all (fun c => idleCopy c && !own c) then some l else none

/-- A copy of a context runs in no cluster that a copy which runs has. -/
def apart (a b : Copy) : Bool :=
  !(rectClusters a.bank a.row a.col a.w a.h).any (fun k => (rectClusters b.bank b.row b.col b.w b.h).contains k)

/-- The most recent use among copies; 0 where there are none. -/
def lastUsed (l : List Copy) : Nat := l.foldl (fun m c => max m (c.lastUse + 1)) 0

/-- Evict copies (06 R198). -/
def evictCopies (d : Dev) (ids : List Nat) : Dev :=
  let gone := d.raft.copies.filter (fun c => ids.contains c.id)
  gone.foldl (fun d c => count d (pg 0x50 c.bank) 0x828)
    { d with raft.copies := d.raft.copies.filter (fun c => !ids.contains c.id) }

/-- Place a copy: at the first spot in the loader's order that pushes nothing out, or what may be pushed out first, the copies used
least recently of all that some spot pushes out (06 R196, R197; log 128). Its number, and the device. -/
def placeCopy (d : Dev) (a : Want) (loader : Option (DescRef × Nat)) : Option (Nat × Dev) :=
  let l := (spots d a).filterMap (fun s => (spotNeeds d a s).map (fun cs => (s, cs)))
  let oldest := ((sortBy id ((l.filter (fun p => !p.2.isEmpty)).map (fun p => lastUsed p.2))).head?).getD 0
  match l.find? (fun p => p.2.isEmpty || lastUsed p.2 == oldest) with
  | none => none
  | some (s, cs) =>
    let d1 := evictCopies d (cs.map (·.id))
    let c : Copy := { id := d1.raft.nextCopy, bank := bankOfBerth a.berth, berth := a.berth, job := a.job, tag := a.tag
                      check := a.check, row := s.row, col := s.col, w := a.w, h := a.h, ctx := s.ctx, image := a.image
                      placed := loader.isNone, loader := loader, lastUse := d1.raft.nextCopy }
    some (c.id, { d1 with raft.copies := d1.raft.copies ++ [c], raft.nextCopy := d1.raft.nextCopy + 1 })

/-- How many copies an empty berth takes, counted up to `n`. -/
def capacityFor : Nat → Dev → Want → Nat
  | 0, _, _ => 0
  | n + 1, d, a =>
    let busy (d : Dev) : Dev := { d with raft.copies := d.raft.copies.map (fun c => { c with placed := false }) }
    match placeCopy d a none with
    | none => 0
    | some p => 1 + capacityFor n (busy p.2) a

/-! ## Holding copies -/

def copyOf (d : Dev) (id : Nat) : Option Copy := d.raft.copies.find? (fun c => c.id == id)

def onCopy (d : Dev) (id : Nat) (f : Copy → Copy) : Dev := { d with raft.copies := modFirst (fun c => c.id == id) f d.raft.copies }

/-- Copies that new descriptors of a job may use. -/
def usableCopies (d : Dev) (job berth tag : Nat) : List Copy :=
  d.raft.copies.filter (fun c => c.job == job && c.berth == berth && c.tag == tag && !c.stale && !c.retired)

/-- A copy can be granted to a descriptor of its job: idle, no row of it stopped for a remap (06 R218), and apart from the copies
that the descriptor holds, beside which it could not run. -/
def takeable (d : Dev) (r : DescRef) (c : Copy) : Bool :=
  idleCopy c && !c.stale && !c.retired && (rectClusters c.bank c.row c.col c.w c.h).all (fun k => !(rowMap d (k / 4)).stopped) &&
  d.raft.copies.all (fun o => o.holder != some r || apart c o)

/-- A copy that is granted begins to run: its clusters run its context (06 R198). -/
def turnOn (d : Dev) (c : Copy) : Dev :=
  if d.raft.copies.all (fun o => !o.on || apart c o) then
    let ctx := (rectClusters c.bank c.row c.col c.w c.h).foldl (fun m k => NMap.set 0 m k c.ctx) d.raft.ctx
    onCopy { d with raft.ctx := ctx } c.id (fun c => { c with on := true })
  else d

/-- Clusters that have come free run the copies that wait for them, in the order of the grants. -/
def switchOn (d : Dev) : Dev :=
  (sortBy (·.lastUse) (d.raft.copies.filter (fun c => c.holder.isSome && !c.on && !c.retired))).foldl turnOn d

/-- A copy without what a descriptor leaves in it. -/
def blankCopy (c : Copy) : Copy :=
  { c with on := false, hand := [], writing := none, running := [], committed := [], consts := [], gens := [] }

/-- A copy is granted to a descriptor (06 R197); its running values are zero (R187). -/
def takeCopy (d : Dev) (r : DescRef) (c : Copy) : Dev :=
  let d := accrue d r.berth
  let d1 := onCopy { d with raft.nextCopy := d.raft.nextCopy + 1 } c.id
    (fun c => { blankCopy c with holder := some r, lastUse := d.raft.nextCopy })
  switchOn (onDesc d1 r (fun x => { x with copies := x.copies ++ [c.id] }))

/-- A descriptor of a berth gives clusters up: its holdings and those of the berth that has had to wait for them are brought up to now
(12 R396, R397). -/
def givers (d : Dev) (berth : Nat) : Dev :=
  let others := (d.xmap.current.berths.map Prod.fst).filter (fun b =>
    b != berth && bankOfBerth b == bankOfBerth berth && (clustersOf d b).length != popcount 64 (berthOf d b).clusters.toNat)
  (berth :: others).foldl accrue d

/-- A descriptor has completed with its copies: those that are stale, retired or on clusters that have left the berth are
evicted (06 R194, R199, R215). -/
def releaseCopies (d : Dev) (r : DescRef) : Dev :=
  let mine := d.raft.copies.filter (fun c => c.holder == some r)
  let d := if mine.isEmpty then d else givers d r.berth
  let put (c : Copy) : Copy := if c.holder == some r then { blankCopy c with holder := none } else c
  switchOn (evictCopies { d with raft.copies := d.raft.copies.map put } ((mine.filter (fun c => c.stale || c.retired)).map (·.id)))

/-! ## Units of work on copies (06 R204, R214, R215; 10 R312) -/

/-- Units a descriptor is made of, and how many a copy takes at once. -/
def unitsIn (x : Desc) : Nat := x.units.getD x.count

def batchOf (x : Desc) : Nat := if x.engine == 0x40 && x.opcode == 0x10 then 32 else 1

/-- Copies of a descriptor that are not retired, and those of them that run. -/
def activeCopies (d : Dev) (x : Desc) : List Copy := d.raft.copies.filter (fun c => x.copies.contains c.id && !c.retired)

def runningCopies (d : Dev) (x : Desc) : List Copy := (activeCopies d x).filter (·.on)

/-- What the next free copy takes: a unit to be run again, or the next ones in order. -/
def nextUnits (x : Desc) : List Nat :=
  match x.redo with
  | i :: _ => [i]
  | [] => (List.range (min (batchOf x) (unitsIn x - x.nextItem))).map (x.nextItem + ·)

/-- A free copy takes units. -/
def handTo (r : DescRef) (d : Dev) (c : Copy) : Dev :=
  match descOf d r with
  | none => d
  | some x =>
    let l := nextUnits x
    onDesc (onCopy d c.id (fun c => { c with hand := l })) r (fun x =>
      if x.redo.isEmpty then { x with nextItem := x.nextItem + l.length } else { x with redo := x.redo.drop 1 })

/-- The free copies of a descriptor take units. -/
def handOut (d : Dev) (r : DescRef) : Dev :=
  match descOf d r with
  | none => d
  | some x => ((runningCopies d x).filter (fun c => c.hand.isEmpty)).foldl (handTo r) d

/-- Units that copies work on, and the copy that works on one. -/
def inHand (d : Dev) (x : Desc) : List Nat := (runningCopies d x).filterMap (fun c => c.hand.head?)

def copyFor (d : Dev) (x : Desc) (unit : Nat) : Option Copy := (runningCopies d x).find? (fun c => c.hand.head? == some unit)

/-- Mark of a unit that stays tainted after its re-runs; it fails once no code that comes before a taint's applies to it (06 R209). -/
def spoilt : Nat := 1

def isSpoilt (d : Dev) (r : DescRef) (unit : Nat) : Bool := (descOf d r).any (fun y => NMap.get 0 y.marks unit == spoilt)

/-- What a copy has read once for a batch is let go: an item number beyond every item's stands for those reads (10 R312). -/
def batchKey (copy : Nat) : Nat := 2 ^ 49 + copy

def endBatch (d : Dev) (r : DescRef) (copy : Nat) : Dev :=
  onDesc (dropReads d r (batchKey copy)) r (fun x => { x with marks := NMap.set 0 x.marks (batchKey copy) 0 })

/-- A copy has finished with the unit it works on: its reads are let go, and it takes a further one. -/
def letGo (d : Dev) (r : DescRef) (unit : Nat) : Dev :=
  match (descOf d r).bind (fun x => copyFor d x unit) with
  | none => d
  | some c =>
    let d1 := dropReads (onCopy d c.id (fun c => { c with hand := c.hand.drop 1 })) r unit
    handOut (if (c.hand.drop 1).isEmpty then endBatch d1 r c.id else d1) r

/-- No unit of a descriptor is left. -/
def unitsDone (d : Dev) (r : DescRef) : Bool :=
  match descOf d r with
  | some x => decide (unitsIn x ≤ x.nextItem) && x.redo.isEmpty && (activeCopies d x).all (fun c => c.hand.isEmpty)
  | none => false

/-- Work on the units in hand, in the order of the copies, at most `k` of them, until those in hand all wait: `stuck` have been
found to wait. -/
def runUnits (r : DescRef) (f : Dev → Desc → Nat → ItemIs × Dev) : Nat → List Nat → Dev → Dev
  | 0, _, d => d
  | k + 1, stuck, d =>
    match descOf d r with
    | none => d
    | some x =>
      match (inHand d x).find? (fun i => !stuck.contains i) with
      | none => d
      | some i =>
        let s := f d x i
        match s.1 with
        | .waits => runUnits r f k (i :: stuck) s.2
        | .done => runUnits r f k stuck (letGo s.2 r i)


/-- Mark of an item of an OPT_STEP whose gradients are still to be zeroed (08 R265). -/
def zeroDue : Nat := 2

/-- A copy may commit a unit: the writes of the one before, those that zero its gradients with them, are acknowledged (06 R206). -/
def mayCommit (d : Dev) (x : Desc) (unit : Nat) : Bool :=
  match copyFor d x unit with
  | some c => (match c.writing with
    | some i => !itemBusy d x.r i && !(descOf d x.r).any (fun y => NMap.get 0 y.marks i == zeroDue)
    | none => true)
  | none => false

/-- A copy commits a unit, whose writes have the item number `key` (06 R206). -/
def commitUnit (d : Dev) (x : Desc) (unit key : Nat) : Dev :=
  match copyFor d x unit with
  | some c => onCopy d c.id (fun c => { c with committed := NSet.add c.committed unit, writing := some key })
  | none => d

/-- A descriptor waits for copies to come free for it: an earlier one of its berth is served first (06 R204). -/
def awaitsCopy (d : Dev) (y : Desc) : Bool :=
  y.phase == .running && (y.needCopy ||
    (y.engine == 0x10 && y.opcode == 2 && y.copies.isEmpty && !y.table.isEmpty &&
      (usableCopies d y.job y.r.berth (dnum y 0x18 8)).any (·.placed)))

/-- Another descriptor of the berth has waited for copies longer. -/
def behindOthers (d : Dev) (x : Desc) : Bool :=
  (d.descs.takeWhile (fun y => y.r != x.r)).any (fun y => y.r.berth == x.r.berth && awaitsCopy d y)

/-- CHECK of a built-in image, as held by the Pilot (log 12). -/
def builtinWant (x : Desc) (tag w h : Nat) : Want :=
  { berth := x.r.berth, job := x.job, tag := tag, check := Config.builtinCheck tag % 2 ^ 32, w := w, h := h }

/-- A descriptor takes a copy of a built-in image, placing one where the job has none idle (06 R200); none where it must
wait. -/
def takeBuiltin (d : Dev) (x : Desc) (tag w h : Nat) : Option Dev :=
  match (usableCopies d x.job x.r.berth tag).find? (takeable d x.r) with
  | some c => some (takeCopy d x.r c)
  | none =>
    match placeCopy d (builtinWant x tag w h) none with
    | none => none
    | some p => match copyOf p.2 p.1 with
      | some c => if takeable p.2 x.r c then some (takeCopy (count p.2 (pg 0x50 c.bank) 0x820) x.r c) else none
      | none => none

/-! ## Registers (06 R220-R223) -/

/-- A copy in a context of a cluster. -/
def copyIn (d : Dev) (k ctx : Nat) : Option Copy :=
  d.raft.copies.find? (fun c => c.ctx == ctx && (rectClusters c.bank c.row c.col c.w c.h).contains k)

/-- CL_TAG0, CL_TAG1. -/
def readClTag (d : Dev) (k ctx : Nat) : Nat :=
  match copyIn d k ctx with
  | some c => c.tag
  | none => 0

/-- The berth that holds a cluster. -/
def clusterBerth (d : Dev) (k : Nat) : Option Nat :=
  (d.xmap.current.berths.find? (fun e => bankOfBerth e.1 == k / 64 && bit e.2.clusters.toNat (k % 64))).map Prod.fst

/-- CL_STAT. -/
def readClStat (d : Dev) (k : Nat) : Nat :=
  let b := clusterBerth d k
  let job (ctx : Nat) : Nat := match copyIn d k ctx with | some c => c.job | none => 0
  let has (ctx : Nat) : Nat := b2n (copyIn d k ctx).isSome
  let busy := d.raft.copies.any (fun c => c.on && (rectClusters c.bank c.row c.col c.w c.h).contains k)
  let down := ofBits ((List.range 8).filter (fun j => suDown d ((clusterSus k).getD j 0)))
  b.getD 0 + b2n b.isSome * 2 ^ 8 + b2n (clusterDown d k) * 2 ^ 9 + b2n busy * 2 ^ 10 + NMap.get 0 d.raft.ctx k * 2 ^ 11 +
    has 0 * 2 ^ 12 + has 1 * 2 ^ 13 + down * 2 ^ 14 + job 0 * 2 ^ 32 + job 1 * 2 ^ 44

/-- RAFT_ROWMAP of a row. -/
def readRowMap (d : Dev) (row : Nat) : Nat :=
  let m := rowMap d row
  m.skip0 + m.skip1 * 2 ^ 6 + b2n (!m.pends.isEmpty) * 2 ^ 12 + m.pends.headD 63 * 2 ^ 13 + b2n m.extra * 2 ^ 19

/-- SPARE_MAP of a Raft page. -/
def readRaftSpares (d : Dev) (bank : Nat) : Nat :=
  let rows := List.range 16
  total (rows.map (fun r => ((physCols (rowMap d (bank * 16 + r))).filter (fun p => 32 ≤ p)).length)) +
    ofBits (rows.filter (fun r => (rowMap d (bank * 16 + r)).extra)) * 2 ^ 6

end Sys2Proof.Machine
end

