-- ==== Sys2Proof/Machine/Raft.lean ====
section
/-! DEFINITION. The Raft's descriptors and faults (06 R192-R218): LOAD, RUN, EVICT, the placing of copies, the commit of an
item, the end of a RUN, SU faults and the remap of a row. -/

namespace Sys2Proof.Machine

open Sys2Proof

/-! ## Whole-descriptor refusals (06 R192, R201) -/

def raftRefusals (x : Desc) : List Nat :=
  let bad := match x.opcode with
    | 1 => dfld x 0x18 48 16 != 0 || dfld x 0x20 33 31 != 0 || !allZero (sub x.raw 0x28 24) || dfld x 0x18 0 6 != 0
    | 2 => dfld x 0x20 53 11 != 0 || dfld x 0x28 42 22 != 0 || dfld x 0x38 60 4 != 0 || dfld x 0x20 0 5 != 0 ||
        dfld x 0x38 0 3 != 0 || dfld x 0x20 48 5 == 0 || decide (16 < dfld x 0x20 48 5) || dfld x 0x18 63 1 != 0
    | 3 => !allZero (sub x.raw 0x20 32)
    | _ => true
  codeIf bad cUNSUP

/-! ## What waits for copies -/

/-- A LOAD's image has been read and some of its items are not yet resolved. -/
def loadOpen (x : Desc) : Bool :=
  x.engine == 0x10 && x.opcode == 1 && x.phase == .running && !x.table.isEmpty

/-- The tag of an image as read. -/
def tableTag (x : Desc) : Nat := leAt x.table 8 8

/-- A LOAD of the tag by the job waits or runs; one that has not read its image may be of any tag. -/
def loadPending (d : Dev) (job berth tag : Nat) : Bool :=
  d.descs.any (fun x => x.engine == 0x10 && x.opcode == 1 && x.job == job && x.r.berth == berth &&
    (x.phase == .admitted || x.phase == .running) && (x.table.isEmpty || tableTag x == tag))

/-- Every item takes a code. -/
def noteAll (d : Dev) (r : DescRef) (code : Nat) : Dev :=
  onDesc d r (fun x => { x with statuses := (List.range x.count).map (fun i => (i, code)), nextItem := x.count })

/-- Stream table, image footprints and items of a RUN. -/
def runTag (x : Desc) : Nat := dnum x 0x18 8

/-! ## LOAD (06 R193, R194, R197) -/

/-- What a LOAD places. -/
def loadWant (x : Desc) : Want :=
  let i := imageOf x.table
  { berth := x.r.berth, job := x.job, tag := i.tag, check := i.check, w := i.w, h := i.h, image := x.table }

/-- The code of an image that has been read, in the order of 06 R193. -/
def imageCode (d : Dev) (x : Desc) (l : List Byte) : Nat :=
  let i := imageOf l
  if !i.fits then cLENGTH
  else if imageCheck l i.total != i.check then cUNCORR
  else if !imageOk i || bit i.tag 63 then cUNSUP
  else if (spots d { berth := x.r.berth, job := x.job, tag := i.tag, check := i.check, w := i.w, h := i.h }).isEmpty then cLENGTH
  else cOK

/-- Read the image of a LOAD. -/
def readImage (d : Dev) (x : Desc) : Got × Dev :=
  let base := dfld x 0x18 0 48
  let n := dnum x 0x20 4
  let a := descRead d x tableKey d.xmap.node base (min 64 n)
  match a.1 with
  | .ok head =>
    let size := leAt head 0x18 4
    if n < 64 || size < 64 || n < size then (.fail cLENGTH, a.2) else descRead a.2 x tableKey d.xmap.node base size
  | g => (g, a.2)

/-- Old copies of a tag with another CHECK become stale; the idle ones are evicted (06 R194). -/
def staleOld (d : Dev) (a : Want) : Dev :=
  let old (c : Copy) : Bool := c.job == a.job && c.berth == a.berth && c.tag == a.tag && c.check != a.check
  let ids := (d.raft.copies.filter (fun c => old c && idleCopy c)).map (·.id)
  evictCopies { d with raft.copies := d.raft.copies.map (fun c => if old c then { c with stale := true } else c) } ids

/-- Copies that count for a LOAD. -/
def loadCopies (d : Dev) (a : Want) : List Copy :=
  (usableCopies d a.job a.berth a.tag).filter (fun c => c.check == a.check)

/-- Resolve a LOAD's next item: held, placed, or failed; none where it waits for room. -/
def loadItem (d : Dev) (x : Desc) (waits : Bool) : Option Dev :=
  let a := loadWant x
  let next (d : Dev) : Dev := onDesc d x.r (fun x => { x with nextItem := x.nextItem + 1 })
  if x.nextItem < (loadCopies d a).length then some (next d)
  else match if waits && behindOthers d x then none else placeCopy d a (some (x.r, x.nextItem)) with
    | some p => some (next p.2)
    | none =>
      if capacityFor (x.nextItem + 1) { d with raft.copies := [] } a ≤ x.nextItem then some (next (noteItem d x.r x.nextItem cLENGTH))
      else if waits then none
      else some (next (noteItem d x.r x.nextItem cBUSY))

/-- Resolve a LOAD's items, at most `k`. -/
def loadItems (r : DescRef) (waits : Bool) : Nat → Dev → Dev
  | 0, d => d
  | k + 1, d =>
    match descOf d r with
    | none => d
    | some x =>
      if x.count ≤ x.nextItem then d
      else match loadItem d x waits with
        | some d1 => loadItems r waits k d1
        | none => d

/-- A LOAD's items wait for room (06 R192, R219). -/
def loadWaits (d : Dev) (x : Desc) : Bool := dfld x 0x20 32 1 == 1 && reg d (pg 0x50 (bankOfBerth x.r.berth) + 0x100) != 0

/-- Go on with a LOAD. -/
def loadOn (d : Dev) (r : DescRef) : Dev :=
  match descOf d r with
  | some x => if loadOpen x then loadItems r (loadWaits d x) (x.count - x.nextItem) d else d
  | none => d

/-- A LOAD has completed: RUNs that waited for it without a copy take its code (06 R203). -/
def endLoad (d : Dev) (x : Desc) : Dev :=
  let d1 := finishDesc d x.r
  let code := itemStatus d x.r 0
  let tagOk (y : Desc) : Bool := x.table.isEmpty || runTag y == tableTag x
  let waiting := d1.descs.filter (fun y => y.engine == 0x10 && y.opcode == 2 && y.job == x.job && y.r.berth == x.r.berth &&
    y.phase == .running && y.copies.isEmpty && !y.table.isEmpty && tagOk y)
  waiting.foldl (fun d y =>
    if code != cOK && (usableCopies d y.job y.r.berth (runTag y)).isEmpty && !loadPending d y.job y.r.berth (runTag y) then
      refuseDesc d y.r ((firstRefusal (y.pre ++ [code])).getD code)
    else d) d1

/-- A LOAD whose items are all resolved and whose copies are all placed has completed. -/
def loadDone (d : Dev) (x : Desc) : Dev :=
  if loadOpen x && decide (x.count ≤ x.nextItem) && (loadCopies d (loadWant x)).all (·.placed) then endLoad d x else d

/-! ## RUN: the stream table (06 R202, R203; 07 R231) -/

/-- A stream table entry. -/
structure Stream where
  base : Nat
  node : Nat
  dir : Nat
  fmt : Nat
  bs : Bool
  indexed : Bool
  idx : Nat
  per : Nat
  len : Nat
  row : Nat
  bad : Bool
  deriving DecidableEq, Repr

def streamOf (l : List Byte) : Stream :=
  let a := leAt l 0 8
  let b := leAt l 8 4
  let row := leAt l 0x18 4
  let ix := bit b 5
  { base := fld a 0 48, node := fld a 48 14, dir := fld a 62 2, fmt := fld b 0 4, bs := bit b 4, indexed := ix, idx := fld b 6 4
    per := leAt l 0xC 4, len := leAt l 0x10 8, row := row
    bad := fld b 10 22 != 0 || leAt l 0x1C 4 != 0 || fld a 62 2 == 3 || decide (12 < fld b 0 4) ||
      (if ix then fld a 62 2 != 0 || row % 64 != 0 else row != 0) }

/-- The streams of a RUN. -/
def streamsOf (x : Desc) : List Stream := (List.range (dfld x 0x20 48 5)).map (fun i => streamOf (sub x.table (32 * i) 32))

def noStream : Stream :=
  { base := 0, node := 0, dir := 3, fmt := 15, bs := false, indexed := false, idx := 0, per := 0, len := 0, row := 0, bad := true }

/-- Words of the parameter block. -/
def paramWords (x : Desc) : Nat := if dfld x 0x38 0 48 == 0 then 0 else dfld x 0x38 48 12

/-- Elements of a row of an indexed stream, and of an item of a stream. -/
def rowElems (t : Stream) : Nat := elemsIn t.fmt t.bs t.row

def itemElems (t : Stream) : Nat := if t.indexed then t.per * rowElems t else t.per

/-- A stage that names a stream. -/
def streamed (e : SuEntry) : Bool := e.op == 2 || e.op == 3 || e.op == 0xD || e.op == 0x10

/-- Running values of a stage. -/
def runningCount (e : SuEntry) : Nat := if e.op == 0xD then e.group else e.len / 4

/-- Elements that enter each SINK in an item: entry number and count in the SINK's containers. -/
def sinkCounts (l : List SuEntry) (ss : List Stream) : List (Nat × Nat) :=
  let src (i : Nat) : Nat × Nat :=
    match l[i]? with
    | some e => (itemElems (ss.getD e.stream noStream), boxBits e.fa)
    | none => (0, 8)
  let done := runCounts l src l.length l.zipIdx []
  (l.zipIdx.filter (fun p => p.1.op == 3)).map (fun p =>
    (p.2, ((done.find? (fun q => q.1 == p.1.col && q.2.1 == p.1.row)).map (fun q => q.2.2.1)).getD 0))

/-- Refusals of a RUN, once the image and the stream table are known. -/
def runRefusals (x : Desc) (i : Image) : List Nat :=
  let l := i.entries
  let ss := streamsOf x
  let n := ss.length
  let words := paramWords x
  let last := dnum x 0x28 4 + x.count
  let st (e : SuEntry) : Stream := ss.getD e.stream noStream
  let stageBad (e : SuEntry) : Bool :=
    (streamed e && (decide (n ≤ e.stream) || (if e.op == 2 then (st e).dir != 0 else !((st e).dir == 1 || (st e).dir == 2)))) ||
    (e.kref0 != 0xFFFF && decide (words ≤ e.kref0)) || (e.kref1 != 0xFFFF && decide (words ≤ e.kref1)) ||
    (e.op == 2 && ((st e).fmt != e.fa || (st e).bs != scaledAs e e.fa)) ||
    (e.op == 3 && ((st e).fmt != e.fo || (st e).bs != scaledAs e e.fo))
  let streamBad (t : Stream) : Bool :=
    t.bad || (t.bs && (!blockScalable t.fmt || t.per % 32 != 0)) ||
    (t.dir == 2 && (!(t.fmt == 1 || t.fmt == 2 || t.fmt == 9) || t.base % 64 != 0 || streamBytes t.fmt t.bs t.per % 64 != 0)) ||
    (t.indexed && (decide (n ≤ t.idx) || (let q := ss.getD t.idx noStream
      q.dir != 0 || q.fmt != 9 || q.indexed)))
  let streamLong (t : Stream) : Bool :=
    if t.indexed then decide ((ss.getD t.idx noStream).len < last * t.per * 4) else decide (t.len < streamBytes t.fmt t.bs (last * t.per))
  let sinkLong (p : Nat × Nat) : Bool := match l[p.1]? with
    | some e => decide (e.len < 2 * streamBytes e.fo (scaledAs e e.fo) p.2)
    | none => false
  let endLong (e : SuEntry) : Bool :=
    (e.op == 0xD || e.op == 0x10) && decide ((st e).len < streamBytes (st e).fmt (st e).bs (runningCount e))
  codeIf (l.any stageBad || ss.any streamBad) cUNSUP ++
    codeIf (ss.any streamLong || (sinkCounts l ss).any sinkLong || l.any endLong) cLENGTH

/-! ## RUN: taking copies (06 R204) -/

/-- Constants and generators that a RUN gives a copy. -/
def setUpCopy (d : Dev) (x : Desc) (i : Image) (c : Copy) : Dev :=
  let seed := dnum x 0x30 8
  let word (k : Nat) : Nat := leAt x.params (8 * k) 8
  let put (c : Copy) (p : SuEntry × Nat) : Copy :=
    let e := p.1
    let c1 := if e.kref0 == 0xFFFF then c else { c with consts := NMap.set 0 c.consts (2 * p.2) (word e.kref0 + 1) }
    let c2 := if e.kref1 == 0xFFFF then c1 else { c1 with consts := NMap.set 0 c1.consts (2 * p.2 + 1) (word e.kref1 + 1) }
    let su := c.bank * 512 + (c.row + e.row) * 32 + c.col * 8 + e.col
    if e.round == 2 then { c2 with gens := NMap.set 0 c2.gens p.2 (genSeed seed su) } else c2
  onCopy (takeCopy d x.r c) c.id (fun c => i.entries.zipIdx.foldl put c)

/-- Grant a RUN copies, at most `k`: the first idle ones, apart from each other. -/
def grantRun (r : DescRef) (i : Image) : Nat → List Copy → Dev → Dev
  | 0, _, d => d
  | _, [], d => d
  | k + 1, c :: cs, d =>
    match descOf d r with
    | none => d
    | some x => if takeable d r c then grantRun r i k cs (setUpCopy d x i c) else grantRun r i (k + 1) cs d

/-- Start a RUN whose tables have been read: refuse it, let it wait, or give it copies and them its first items. -/
def runStart (d : Dev) (r : DescRef) : Dev :=
  match descOf d r with
  | none => d
  | some x =>
    let tag := runTag x
    let own := usableCopies d x.job r.berth tag
    if own.isEmpty && !loadPending d x.job r.berth tag then unlessRefused d x [cUNSUP] id
    else match own.find? (·.placed) with
      | none => d
      | some c =>
        let i := imageOf c.image
        unlessRefused d x (runRefusals x i) (fun d =>
          if x.count == 0 then finishDesc d r
          else if behindOthers d x then d
          else
            let most := dfld x 0x28 32 8
            handOut (grantRun r i (if most == 0 then own.length else most) own d) r)

/-- A RUN whose tables have been read waits for copies. -/
def runWaits (x : Desc) : Bool :=
  x.engine == 0x10 && x.opcode == 2 && x.phase == .running && x.copies.isEmpty && !x.table.isEmpty

/-- After copies have come free: LOADs that wait for room and RUNs that wait for copies, in the order they started, and the items of
those whose copies now run. -/
def raftOn (d : Dev) : Dev :=
  d.descs.foldl (fun d y =>
    match descOf d y.r with
    | some x => if loadOpen x then loadDone (loadOn d x.r) ((descOf (loadOn d x.r) x.r).getD x)
                else if runWaits x then runStart d x.r
                else if x.copies.isEmpty then d else handOut d x.r
    | none => d) d

/-! ## RUN: reading an item (06 R205, R209) -/

/-- The parts of an element run of a block-scaled stream, unit by unit: the scales' bytes and the elements' bytes. -/
def bsParts (c first n : Nat) : List ((Nat × Nat) × (Nat × Nat)) :=
  if n == 0 then []
  else (List.range ((first + n - 1) / 2048 - first / 2048 + 1)).map (fun k =>
    let u := first / 2048 + k
    let a := max first (u * 2048)
    let b := min (first + n) ((u + 1) * 2048)
    ((scaleAt c a, ceilDiv (b - a) 32), (scaledElemAt c a, ceilDiv ((b - a) * fmtBits c) 8)))

/-- Byte ranges of an element run: for a block-scaled stream all scales' parts, then all elements' parts. -/
def runParts (t : Stream) (first n : Nat) : List (Nat × Nat) :=
  if t.bs then (bsParts t.fmt first n).map Prod.fst ++ (bsParts t.fmt first n).map Prod.snd
  else if n == 0 then []
  else
    let a := first * fmtBits t.fmt / 8
    [(a, ceilDiv ((first + n) * fmtBits t.fmt) 8 - a)]

/-- What reading pieces of tiles has come to: whether some still wait, the first failing code, and the bytes with zeros in place of
those that could not be read, which are 0xFF in `mask`. -/
structure PartsGot where
  waits : Bool := false
  code : Nat := 0
  data : List Byte := []
  mask : List Byte := []

/-- Read pieces of tiles, whole tile by whole tile, with at most `most` reads outstanding; `out` are so far. -/
def readTileParts (x : Desc) (item node most : Nat) : List (Nat × Nat) → Nat → Dev → PartsGot × Dev
  | [], _, d => ({}, d)
  | p :: ps, out, d =>
    if most ≤ out then ({ waits := true }, d)
    else
      let a := engRead x.r item x.job x.tide node (p.1 / 256 * 256) 256 d
      let b := readTileParts x item node most ps (if a.1 == .wait then out + 1 else out) a.2
      let zeros := List.replicate p.2 (0 : Byte)
      let g : PartsGot := match a.1 with
        | .wait => { b.1 with waits := true }
        | .fail c => { b.1 with code := c, data := zeros ++ b.1.data, mask := List.replicate p.2 255 ++ b.1.mask }
        | .ok l => { b.1 with data := sub l (p.1 % 256) p.2 ++ b.1.data, mask := zeros ++ b.1.mask }
      (g, b.2)

/-- Read byte ranges of a stream. -/
def readParts (x : Desc) (item node base most : Nat) (l : List (Nat × Nat)) (d : Dev) : PartsGot × Dev :=
  readTileParts x item node most (l.flatMap (fun p => tilePieces (base + p.1) p.2)) 0 d

/-- The flow of an element run, from the bytes of its parts. -/
def runFlow (t : Stream) (first n : Nat) (l : List Byte) : Flow :=
  let w := fmtBits t.fmt
  if t.bs then
    let blocks := ceilDiv n 32
    { w := boxBits t.fmt, els := unpackElems w n 0 (l.drop blocks), scales := unpackElems 8 blocks 0 l }
  else { w := boxBits t.fmt, els := unpackElems w n (first * w % 8) l }

/-- Which elements of a run come of bytes that a mask has. -/
def runLost (t : Stream) (first n : Nat) (mask : List Byte) : List Bool :=
  let f := runFlow t first n mask
  f.els.zipIdx.map (fun p => p.1 != 0 || (t.bs && f.scales.getD (p.2 / 32) 0 != 0))

/-- What reading a SOURCE's item came to. -/
structure SrcIs where
  waits : Bool := false
  flow : Flow := {}
  code : Nat := 0
  bad : Bool := false

/-- Zeros in place of what could not be read, so that element counts can still be compared. -/
def zerosOf (l : List (Nat × Nat)) : List Byte := List.replicate (total (l.map Prod.snd)) 0

/-- Read an element run, with at most `most` reads outstanding. -/
def readRun (d : Dev) (x : Desc) (t : Stream) (item first n : Nat) (most : Nat := 512) : SrcIs × Dev :=
  let ps := runParts t first n
  let g := readParts x item t.node t.base most ps d
  if g.1.waits then ({ waits := true }, g.2)
  else
    let lost := if g.1.code == 0 then [] else runLost t first n g.1.mask
    ({ code := g.1.code, flow := { runFlow t first n g.1.data with lost := lost } }, g.2)

/-- One row's flow after another's. -/
def joinFlow (a b : Flow) : Flow :=
  let marks (f : Flow) : List Bool := if f.lost.isEmpty then List.replicate f.els.length false else f.lost
  { w := b.w, els := a.els ++ b.els, scales := a.scales ++ b.scales
    lost := if a.lost.isEmpty && b.lost.isEmpty then [] else marks a ++ marks b }

/-- Zeros in place of a row that is not read. -/
def blankRow (t : Stream) : Flow :=
  { runFlow t 0 (rowElems t) (zerosOf (runParts t 0 (rowElems t))) with lost := List.replicate (rowElems t) true }

/-- An index names a row whose end lies beyond LEN. -/
def rowBeyond (t : Stream) (i : Nat) : Bool := decide (intOf 32 i < 0) || decide (t.len < ((intOf 32 i).toNat + 1) * t.row)

/-- Read the rows named by the indices, `most` reads outstanding at most; one whose end lies beyond LEN is not read. -/
def readRows (x : Desc) (t : Stream) (item most : Nat) : List Nat → SrcIs → Dev → SrcIs × Dev
  | [], s, d => (s, d)
  | i :: is, s, d =>
    let z := intOf 32 i
    let n := rowElems t
    if rowBeyond t i then
      readRows x t item most is { s with bad := true, flow := joinFlow s.flow (blankRow t) } d
    else
      let q := { t with base := t.base + z.toNat * t.row }
      let r := readRun d x q item 0 n most
      let open_ := if r.1.waits then ceilDiv t.row 256 + 1 else 0
      readRows x t item (most - open_) is { waits := s.waits || r.1.waits, flow := joinFlow s.flow r.1.flow
                                            code := if s.code == 0 then r.1.code else s.code, bad := s.bad } r.2

/-- Reads that a SOURCE keeps outstanding at most (06 R205). -/
def readsAtOnce (e : SuEntry) : Nat := min 512 (e.len / 256)

/-- Read a SOURCE's item. Where a read of its index stream fails, the rows are not read: zeros stand for them in the counts, and the
indices that were read are held against LEN. -/
def readSource (d : Dev) (x : Desc) (ss : List Stream) (item : Nat) (e : SuEntry) : SrcIs × Dev :=
  let t := ss.getD e.stream noStream
  let first := (dnum x 0x28 4 + item) * t.per
  let most := readsAtOnce e
  if t.indexed then
    let r := readRun d x (ss.getD t.idx noStream) item first t.per most
    if r.1.waits then r
    else if r.1.code != 0 then
      ({ code := r.1.code, flow := (List.replicate t.per (blankRow t)).foldl joinFlow { w := boxBits t.fmt }
         bad := r.1.flow.els.zipIdx.any (fun p => !r.1.flow.lost.getD p.2 false && rowBeyond t p.1) }, r.2)
    else readRows x t item most r.1.flow.els { flow := { w := boxBits t.fmt } } r.2
  else readRun d x t item first t.per most

/-- Read the SOURCEs of an item, in the order of their streams: by entry number. -/
def readSources (x : Desc) (ss : List Stream) (item : Nat) : List (SuEntry × Nat) → Dev → List (Nat × SrcIs) × Dev
  | [], d => ([], d)
  | p :: ps, d =>
    let a := readSource d x ss item p.1
    let b := readSources x ss item ps a.2
    ((p.2, a.1) :: b.1, b.2)

/-! ## RUN: committing an item (06 R206, R209, R214) -/

/-- An item fails. -/
def failItem (d : Dev) (r : DescRef) (item code : Nat) : Dev :=
  noteItem (count d (pg 0x50 (bankOfBerth r.berth)) 0x808) r item code

/-- Bits in the bytes at the ends of an element run that belong to no element (log 27). -/
def padEnds (t : Stream) (first n : Nat) (l : List Byte) : List Byte :=
  let w := fmtBits t.fmt
  let lo := first * w % 8
  let hi := (first + n) * w % 8
  let at0 := t.base + first * w / 8
  let one (i keepLo keepHi : Nat) (b : Byte) : Byte :=
    byte (setFld (Config.padByte (at0 + i)).toNat keepLo (keepHi - keepLo) (b.toNat / 2 ^ keepLo))
  let l1 := if lo == 0 then l else modAt (one 0 lo 8) l 0
  if hi == 0 then l1 else modAt (one (l.length - 1) (if l.length == 1 then lo else 0) hi) l1 (l.length - 1)

/-- The bytes of an element run of a stream that is not block-scaled. -/
def packRun (t : Stream) (first : Nat) (els : List Nat) : List Byte :=
  let w := fmtBits t.fmt
  let lead := first * w % 8
  if lead == 0 && w % 8 == 0 then packElems w els
  else
    let n := ceilDiv (lead + w * els.length) 8
    padEnds t first els.length (leBytes n (packNum w els * 2 ^ lead))

/-- Write an element run: by store, or by EADD (06 R206). -/
def writeRun (d : Dev) (x : Desc) (item : Nat) (t : Stream) (first : Nat) (f : Flow) : Dev :=
  let els := recast f.w (boxBits t.fmt) f.els
  let n := els.length
  if n == 0 then d
  else if t.bs then
    let scale (k : Nat) : Nat := f.scales.getD k (Config.missingScale k % 256)
    (bsParts t.fmt first n).foldl (fun (p : Nat × Dev) q =>
      let k := q.2.2 * 8 / fmtBits t.fmt
      let d1 := descWrite p.2 x item t.node (t.base + q.1.1) ((List.range q.1.2).map (fun i => byte (scale (p.1 / 32 + i))))
      (p.1 + k, descWrite d1 x item t.node (t.base + q.2.1) (packElems (fmtBits t.fmt) ((els.drop p.1).take k)))) (0, d) |>.2
  else
    let off := t.base + first * fmtBits t.fmt / 8
    let l := packRun t first els
    if t.dir == 2 then descAdd d x item t.fmt t.node off l else descWrite d x item t.node off l

/-- The results that a SINK writes of an item. -/
def sinkRun (t : Stream) (f : Flow) : Flow :=
  { f with w := boxBits t.fmt, els := (recast f.w (boxBits t.fmt) f.els).take t.per }

/-- Fold an item's partials into the running values (06 R187). -/
def foldPartials (l : List SuEntry) (running : NMap Nat) (ps : List (Nat × NMap Nat)) : NMap Nat :=
  ps.foldl (fun m p => match l[p.1]? with
    | some e =>
      let k := accKind e
      p.2.foldl (fun m q => NMap.set 0 m (p.1 * 2 ^ 18 + q.1) (accAdd k (NMap.get 0 m (p.1 * 2 ^ 18 + q.1)) (accVal k q.2))) m
    | none => m) running

/-- A generator after `n` firings. -/
def genAfter : Nat → Nat → Nat
  | 0, s => s
  | n + 1, s => genAfter n (genStep s)

/-- What a copy's stages use. -/
def envOf (i : Image) (c : Copy) : StageEnv :=
  let k (e : Option SuEntry) (n : Nat) : Nat :=
    let v := NMap.get 0 c.consts n
    if v == 0 then (match e with | some e => if n % 2 == 0 then e.k0 else e.k1 | none => 0) else v - 1
  { k := fun n => (k (i.entries[n]?) (2 * n), k (i.entries[n]?) (2 * n + 1))
    gen := fun n => NMap.get 1 c.gens n
    scr := fun n => match i.entries[n]? with
      | some e => scratchOf i e
      | none => [] }

/-- The status an item ends with under conditions 1 to 3 of 06 R209. -/
def itemCode (srcs : List (Nat × SrcIs)) (res : ItemRes) : Nat :=
  if res.bad || srcs.any (fun p => p.2.bad) then cLENGTH
  else ((srcs.find? (fun p => p.2.code != 0)).map (fun p => p.2.code)).getD 0

/-- What an item's stages did: exceptions counted, generators stepped. Of an item that fails, nobody can say how many beats its stages
had taken before its copy dropped the rest (06 R209; log 129): a free share of its firings. -/
def noteFirings (d : Dev) (c : Copy) (res : ItemRes) (whole : Bool) : Dev :=
  let v := freeVal d
  let d0 := if whole then d else v.2
  let part (n : Nat) : Nat := if whole then n else v.1 % (n + 1)
  let gens := res.firings.foldl (fun m f => NMap.set 0 m f.1 (genAfter (part f.2) (NMap.get 1 m f.1))) c.gens
  onCopy (count d0 (pg 0x50 c.bank) 0x830 (if whole then res.exc else v.1 % (res.fired + 1))) c.id (fun c => { c with gens := gens })

/-- Write what an item's SINKs hold. -/
def writeSinks (x : Desc) (i : Image) (item : Nat) (l : List (Nat × Flow)) (d : Dev) : Dev :=
  let ss := streamsOf x
  l.foldl (fun d s => match i.entries[s.1]? with
    | some e =>
      let t := ss.getD e.stream noStream
      writeRun d x item t ((dnum x 0x28 4 + item) * t.per) (sinkRun t s.2)
    | none => d) d

/-- ITEM_COMMIT of an item in hand: it waits for its reads and for the writes of the item before it, fails, or commits. -/
def commitItem (d : Dev) (x : Desc) (item : Nat) : ItemIs × Dev :=
  match copyFor d x item with
  | none => (.waits, d)
  | some c =>
    let i := imageOf c.image
    let srcs := sortBy (fun p => p.1.stream) (i.entries.zipIdx.filter (fun p => p.1.op == 2))
    let g := readSources x (streamsOf x) item srcs d
    if g.1.any (fun p => p.2.waits) then (.waits, g.2)
    else
      let res := runItem i.entries (envOf i c) (g.1.map (fun p => (p.1, p.2.flow)))
      let code := itemCode g.1 res
      if code != 0 then (.done, failItem (noteFirings g.2 c res false) x.r item code)
      else if isSpoilt g.2 x.r item then (.done, failItem (noteFirings g.2 c res false) x.r item cUNCORR)
      else if !mayCommit g.2 x item then (.waits, g.2)
      else
        let d1 := commitUnit (count (noteFirings g.2 c res true) (pg 0x50 c.bank) 0x800) x item item
        let d2 := onCopy d1 c.id (fun c => { c with running := foldPartials i.entries c.running res.partials })
        (.done, writeSinks x i item res.sinks d2)

/-- Units that no copy can run any more (06 R209, R215), each dealt with by `f`, at most `k` of them, until one waits. -/
def failRest (r : DescRef) (f : Dev → Desc → Nat → ItemIs × Dev) : Nat → Dev → Dev
  | 0, d => d
  | k + 1, d =>
    match descOf d r with
    | none => d
    | some x =>
      match nextUnits x with
      | [] => d
      | i :: _ =>
        let s := f d x i
        let pass (x : Desc) : Desc := if x.redo.isEmpty then { x with nextItem := x.nextItem + 1 } else { x with redo := x.redo.drop 1 }
        match s.1 with
        | .waits => s.2
        | .done => failRest r f k (dropReads (onDesc s.2 r pass) r i)

/-- Units of a descriptor that no copy has in hand. -/
def unitsLeft (x : Desc) : Nat := x.redo.length + (unitsIn x - x.nextItem)

/-- An item for which no copy remains. -/
def itemWithout (d : Dev) (x : Desc) (item : Nat) : ItemIs × Dev := (.done, failItem d x.r item cDEGRADED)

/-- An item of a RUN for which no copy remains. One that stays tainted has run: what its reads and indices came to comes first, then its
taint (06 R209). -/
def runItemWithout (d : Dev) (x : Desc) (item : Nat) : ItemIs × Dev :=
  match d.raft.copies.find? (fun c => x.copies.contains c.id) with
  | none => itemWithout d x item
  | some c =>
    if !isSpoilt d x.r item then itemWithout d x item
    else
      let i := imageOf c.image
      let srcs := sortBy (fun p => p.1.stream) (i.entries.zipIdx.filter (fun p => p.1.op == 2))
      let g := readSources x (streamsOf x) item srcs d
      if g.1.any (fun p => p.2.waits) then (.waits, g.2)
      else
        let code := itemCode g.1 (runItem i.entries (envOf i c) (g.1.map (fun p => (p.1, p.2.flow))))
        (.done, failItem g.2 x.r item (if code == 0 then cUNCORR else code))

/-- A RUN without an active copy takes another idle one of its image, or its items that are left fail. -/
def runWithout (d : Dev) (r : DescRef) : Dev :=
  match descOf d r with
  | none => d
  | some x =>
    if x.engine != 0x10 || x.opcode != 2 || x.phase != .running || x.copies.isEmpty || !(activeCopies d x).isEmpty then d
    else match (usableCopies d x.job r.berth (runTag x)).find? (takeable d r) with
      | some c => handOut (setUpCopy d x (imageOf c.image) c) r
      | none => failRest r runItemWithout (unitsLeft x) d

/-! ## RUN: the end (06 R207, R212, R216) -/

/-- The flow of a stage's running values in its stream's format (07 R236). -/
def runningFlow (c : Copy) (n : Nat) (e : SuEntry) (t : Stream) : Flow :=
  let k := accKind e
  let m := runningCount e
  let vals := (List.range m).map (fun i => accVal k (NMap.get 0 c.running (n * 2 ^ 18 + i)))
  let be := 4096 / boxBits t.fmt
  let states := if e.round == 2 then genStates (ceilDiv m be) (NMap.get 1 c.gens n) else []
  let rs := (List.range m).map (fun i => rndOf e states (i / be) (i % be))
  if t.bs then
    let bl := formBlocks t.fmt (ceilDiv m 32) (rs.zip vals)
    { w := boxBits t.fmt, els := bl.flatMap (fun b => b.2.1), scales := bl.map Prod.fst }
  else
    let ints := isInt t.fmt && (match k with | .int _ => true | .fp _ => false)
    { w := boxBits t.fmt, els := (vals.zip rs).map (fun p => (formRes t.fmt p.2 e.sat ints p.1).1) }

/-- The end-of-run writes of a copy, or the loss of its running values (06 R216). -/
def endCopy (x : Desc) (d : Dev) (c : Copy) : Dev :=
  match c.committed.getLast? with
  | none => d
  | some last =>
    let i := imageOf c.image
    let ss := streamsOf x
    let accs := i.entries.zipIdx.filter (fun p => p.1.op == 0xD || p.1.op == 0x10)
    let lost (e : SuEntry) : Bool := suDown d (c.bank * 512 + (c.row + e.row) * 32 + c.col * 8 + e.col)
    let d1 := accs.foldl (fun d p =>
      if lost p.1 then d
      else
        let t := ss.getD p.1.stream noStream
        writeRun d x last t 0 (runningFlow c p.2 p.1 t)) d
    if accs.any (fun p => lost p.1) then c.committed.foldl (fun d i => noteItem d x.r i cUNCORR) d1 else d1

/-- RUN_END. -/
def runEnd (d : Dev) (x : Desc) : Dev :=
  let d1 := (d.raft.copies.filter (fun c => x.copies.contains c.id)).foldl (endCopy x) d
  raftOn (releaseCopies (finishDesc d1 x.r) x.r)

/-! ## Commands on descriptors -/

/-- RAFT_LOAD: read the image, check it, then place copies for what is short. -/
def raftLoad (d : Dev) (r : DescRef) : Dev :=
  match engineDesc d r 0x10 1 with
  | none => d
  | some x =>
    let d1 := runDesc d r
    if x.count == 0 then finishDesc d1 r
    else if !x.table.isEmpty then raftOn d1
    else
      let g := readImage d1 x
      match g.1 with
      | .wait => g.2
      | .fail c => endLoad (noteAll g.2 r c) x
      | .ok l =>
        let c := imageCode g.2 x l
        if c != cOK then endLoad (noteAll g.2 r c) { x with table := l }
        else
          let d2 := onDesc g.2 r (fun x => { x with table := l, since := d.sys.ltc })
          raftOn (staleOld d2 (loadWant { x with table := l }))

def execRaftLoad (r : DescRef) (s : State) : Host.Outcome State Fault Refusal :=
  s.runReq (fun d => raftLoad d r)

/-- COPY_PLACED: the copy's entries and preloads are written; its LOAD and RUNs go on (06 R193, R198). One that has become stale
meanwhile is evicted at once (R194). -/
def copyPlaced (d : Dev) (id : Nat) : Dev :=
  match copyOf d id with
  | none => d
  | some c =>
    if c.placed then d
    else
      let d1 := onCopy (count d (pg 0x50 c.bank) 0x820) id (fun c => { c with placed := true, loader := none })
      raftOn (if c.stale then evictCopies d1 [id] else d1)

def execCopyPlaced (copy : Nat) (s : State) : Host.Outcome State Fault Refusal :=
  s.runReq (fun d => copyPlaced d copy)

/-- RAFT_LOAD_WAIT_EXPIRY: the items that wait for room complete with BUSY_RETRY (06 R197); a descriptor that waits for a
copy of a built-in image is refused with it (08 R254). -/
def loadWaitExpiry (d : Dev) (r : DescRef) : Dev :=
  match descOf d r with
  | none => d
  | some x =>
    if loadOpen x && decide (x.nextItem < x.count) then
      let t := x.since + reg d (pg 0x50 (bankOfBerth r.berth) + 0x100)
      raftOn (loadItems r false (x.count - x.nextItem) (advanceTo d t))
    else if x.needCopy && x.phase == .running then
      raftOn (unlessRefused (advanceTo d (x.since + reg d (pg 0x50 (bankOfBerth r.berth) + 0x100))) x [cBUSY] id)
    else d

def execRaftLoadWaitExpiry (r : DescRef) (s : State) : Host.Outcome State Fault Refusal :=
  s.runReq (fun d => loadWaitExpiry d r)

/-- RAFT_RUN: read the stream table and the parameter block, then start. -/
def raftRun (d : Dev) (r : DescRef) : Dev :=
  match engineDesc d r 0x10 2 with
  | none => d
  | some x =>
    let d1 := runDesc d r
    if !x.copies.isEmpty then handOut d1 r
    else if !x.table.isEmpty then runStart d1 r
    else
      let node := d.xmap.node
      let a := descRead d1 x tableKey node (dfld x 0x20 0 48) (32 * dfld x 0x20 48 5)
      let b := descRead a.2 x tableKey node (dfld x 0x38 0 48) (8 * paramWords x)
      match joinGot a.1 b.1, a.1, b.1 with
      | .fail c, _, _ => unlessRefused b.2 x [c] id
      | .ok _, .ok t, .ok p => runStart (onDesc b.2 r (fun x => { x with table := t, params := p })) r
      | _, _, _ => b.2

def execRaftRun (r : DescRef) (s : State) : Host.Outcome State Fault Refusal :=
  s.runReq (fun d => raftRun d r)

/-- RAFT_EVICT (06 R195). -/
def raftEvict (d : Dev) (r : DescRef) : Dev :=
  match engineDesc d r 0x10 3 with
  | none => d
  | some x =>
    let tag := runTag x
    let mine := d.raft.copies.filter (fun c => c.job == x.job && c.berth == r.berth && c.tag == tag)
    let idle := (mine.filter idleCopy).take x.count
    let busy := (List.range (min x.count mine.length - idle.length)).map (fun i => idle.length + i)
    let d1 := evictCopies (runDesc d r) (idle.map (·.id))
    raftOn (finishDesc (busy.foldl (fun d i => noteItem d r i cBUSY) d1) r)

def execRaftEvict (r : DescRef) (s : State) : Host.Outcome State Fault Refusal :=
  s.runReq (fun d => raftEvict d r)

/-- The RUN that a command on its items works on. -/
def runningRun (d : Dev) (r : DescRef) : Option Desc :=
  match descOf d r with
  | some x => if x.engine == 0x10 && x.opcode == 2 && x.phase == .running && !x.copies.isEmpty then some x else none
  | none => none

/-- ITEM_COMMIT: an item in hand commits or fails, and its copy takes a further one. -/
def itemCommit (d : Dev) (r : DescRef) (item : Nat) : Dev :=
  match runningRun d r with
  | none => d
  | some x =>
    let s := commitItem d x item
    match s.1 with
    | .waits => s.2
    | .done => letGo s.2 r item

def execItemCommit (r : DescRef) (item : Nat) (s : State) : Host.Outcome State Fault Refusal :=
  s.runReq (fun d => itemCommit d r item)

/-- RUN_END: every item has completed or failed. -/
def execRunEnd (r : DescRef) (s : State) : Host.Outcome State Fault Refusal :=
  s.runReq (fun d => match runningRun d r with
    | some x => if unitsDone d r then runEnd d x else d
    | none => d)

/-! ## SU faults (06 R213-R217) -/

def onLock (d : Dev) (id : Nat) (f : LockUse → LockUse) : Dev :=
  { d with purser.locks := modFirst (fun l => l.id == id) (fun l => { l with holder := f l.holder }) d.purser.locks }

/-- The copy that runs in an SU. -/
def runningIn (d : Dev) (su : Nat) : Option Copy :=
  let k := su / 512 * 64 + su % 512 / 32 * 4 + su % 32 / 8
  d.raft.copies.find? (fun c => c.on && (rectClusters c.bank c.row c.col c.w c.h).contains k)

/-- A descriptor's tainted items are run again: a RUN's with RETRY, an engine's always (06 R214; log 130). -/
def rerunsItems (x : Desc) : Bool := x.engine != 0x10 || dfld x 0x28 41 1 == 1

/-- A unit is tainted, counted, and let run again from its first read where its re-runs are not used up: whether they are (06 R214). -/
def taintUnit (d : Dev) (x : Desc) (unit : Nat) : Bool × Dev :=
  let page := pg 0x50 (bankOfBerth x.r.berth)
  let runs := NMap.get 0 x.retries unit
  let d1 := count d page 0x810
  if rerunsItems x && decide (runs < reg d (page + 0x108)) then
    (false, onDesc (dropReads (count d1 page 0x818) x.r unit) x.r (fun x =>
      { x with retries := NMap.set 0 x.retries unit (runs + 1), found := x.found.filter (fun f => f.item != unit) }))
  else (true, d1)

/-- A tainted unit goes back: to be run again, or, its re-runs used up, with what it has read, since an index, a count or a read that
fails it comes before its taint (06 R209; 09 R294, R300; 10 R323). -/
def taintItem (x : Desc) (d : Dev) (unit : Nat) : Dev :=
  let t := taintUnit d x unit
  onDesc t.2 x.r (fun x => { x with redo := x.redo ++ [unit]
                                    marks := if t.1 then NMap.set 0 x.marks unit spoilt else x.marks })

/-- What a copy has in work is tainted: a unit in hand, and a row it updates (09 R299). -/
def taintCopy (d : Dev) (c : Copy) : Dev :=
  match c.holder.bind (descOf d) with
  | none => d
  | some x =>
    if x.phase != .running then d
    else
      let d1 := (c.hand.take 1).foldl (taintItem x) d
      let d2 := onCopy d1 c.id (fun c => { c with hand := c.hand.drop 1 })
      let d3 := handOut (if (c.hand.drop 1).isEmpty then endBatch d2 x.r c.id else d2) x.r
      d3.purser.locks.foldl (fun d l =>
        if l.holder.r != x.r || l.holder.migrate || l.holder.acted || l.holder.copy != c.id then d
        else
          let t := taintUnit d x (lockKey l.id)
          if t.1 then onLock t.2 l.id (fun u => { u with acted := true, status := cUNCORR }) else t.2) d3

/-- A copy that is retired gives back what it has in hand, the unit in work tainted (06 R214, R215). -/
def giveBack (d : Dev) (c : Copy) : Dev :=
  match c.holder with
  | none => d
  | some r =>
    let d1 := endBatch (taintCopy d c) r c.id
    match copyOf d1 c.id with
    | none => d1
    | some e => onDesc (onCopy d1 c.id (fun c => { c with hand := [] })) r (fun x => { x with redo := x.redo ++ e.hand })

/-- Copies on a faulted cluster are retired; those no descriptor holds are evicted (06 R215), and placed again where a LOAD waits
for them. -/
def retireCopies (d : Dev) (k : Nat) : Dev :=
  let hit (c : Copy) : Bool := (rectClusters c.bank c.row c.col c.w c.h).contains k
  let held := d.raft.copies.filter (fun c => hit c && c.holder.isSome)
  let gone := d.raft.copies.filter (fun c => hit c && c.holder.isNone)
  let d1 := { d with raft.copies := d.raft.copies.map (fun c => if hit c then { c with retired := true } else c) }
  let d2 := placeAgain (evictCopies (held.foldl giveBack d1) (gone.map (·.id))) gone
  raftOn (held.foldl (fun d c => match c.holder with
    | some r => runWithout d r
    | none => d) d2)

/-- The failed SU's physical column gets a pending remap, or the row has run out of spares (06 R217). -/
def pendColumn (d : Dev) (su : Nat) : Dev :=
  let row := su / 32
  let bank := su / 512
  let m := rowMap d row
  let col := suPhys d su % 34
  let skips := (if m.skip0 == 63 then 0 else 1) + (if m.skip1 == 63 then 0 else 1) + m.pends.length + m.saved.length
  if m.saved.contains col then d
  else if skips < 2 then
    let stop := bit (reg d (pg 0x50 bank + 0x118)) 0
    raise (onRow d row (fun m => { m with pends := m.pends ++ [col], stopped := m.stopped || stop })) (pg 0x50 bank) 1
  else raiseFe (onRow d row (fun m => { m with extra := true })) (pg 0x50 bank) 3 (feUnit su)

/-- An SU is taken out of service. -/
def suOut (d : Dev) (su : Nat) : Dev :=
  if suDown d su then d
  else
    let bank := su / 512
    let k := bank * 64 + su % 512 / 32 * 4 + su % 32 / 8
    let phys := suPhys d su
    let d1 := raiseFe (raiseFe d (pg 0x50 bank) 0 (feUnit su)) (pgI 0x51 64 k) 0 (feUnit (su % 32))
    let d2 := degrade (pendColumn { d1 with raft.failed := NSet.add d1.raft.failed phys } su) bank
    retireCopies d2 k

/-- The unit that an SU's copy works on is tainted. -/
def taintIn (d : Dev) (su : Nat) : Dev :=
  match runningIn d su with
  | some c => taintCopy d c
  | none => d

/-- A check fails whose second failure within 1,000,000 ARITH cycles, 500,000 LTC cycles, takes the SU out; else the beat is tainted. -/
def secondFail (d : Dev) (su kind : Nat) : Dev :=
  let key := suPhys d su * 2 + kind
  let last := NMap.get 0 d.raft.lastFail key
  if last != 0 && decide (d.sys.ltc + 1 - last ≤ 500000) then suOut d su
  else taintIn { d with raft.lastFail := NMap.set 0 d.raft.lastFail key (d.sys.ltc + 1) } su

/-- SU_FAULT (06 R213). What an SU that is taken out has in work is tainted as its copy is retired (R215). -/
def suFault (d : Dev) (su : Nat) (check : SuCheck) : Dev :=
  let k := su / 512 * 64 + su % 512 / 32 * 4 + su % 32 / 8
  let page := pgI 0x51 64 k
  match check with
  | .scratchSingle => count d page 0x808
  | .scratchDouble => raiseFe (suOut (count d page 0x810) su) page 1 (feUnit (su % 32))
  | .residue => secondFail (count d page 0x818) su 0
  | .link => secondFail (count d page 0x818) su 1
  | .contextParity => suOut (count d page 0x818) su

def execSuFault (su : Nat) (check : SuCheck) (s : State) : Host.Outcome State Fault Refusal :=
  s.runReq (fun d => if bankLive d (su / 512) then suFault d su check else d)

/-! ## Remap (06 R218, R220) -/

/-- A write of RAFT_REMAP_CTL: AUTO stops rows with a pending remap from now on, GO stops them once. -/
def writeRemapCtl (d : Dev) (bank v : Nat) : Dev :=
  let d1 := setReg d (pg 0x50 bank + 0x118) (v % 2)
  if v % 4 == 0 then d1
  else (List.range 16).foldl (fun d r => onRow d (bank * 16 + r) (fun m => if m.pends.isEmpty then m else { m with stopped := true })) d1

/-- A row skips a further column. -/
def skipColumn (m : RowMap) (p : Nat) : RowMap :=
  if m.skip0 == 63 then { m with skip0 := p }
  else if p < m.skip0 then { m with skip0 := p, skip1 := m.skip0 }
  else { m with skip1 := p }

/-- REMAP_APPLY: no descriptor holds a cluster of the row; its copies are evicted and its columns served anew. -/
def remapApply (d : Dev) (bank row : Nat) : Dev :=
  let n := bank * 16 + row
  let m := rowMap d n
  let on (c : Copy) : Bool := c.bank == bank && decide (c.row ≤ row) && decide (row < c.row + c.h)
  let mine := d.raft.copies.filter on
  if m.pends.isEmpty || !m.stopped || mine.any (fun c => !idleCopy c) then d
  else
    let d1 := evictCopies d (mine.map (·.id))
    let d2 := onRow d1 n (fun m => { (m.pends.foldl skipColumn m) with pends := [], stopped := false })
    raftOn (raise d2 (pg 0x50 bank) 2)

def execRemapApply (bank row : Nat) (s : State) : Host.Outcome State Fault Refusal :=
  s.runReq (fun d => remapApply d bank row)

end Sys2Proof.Machine
end

