-- ==== Sys2Proof/Machine/Train.lean ====
section
/-! DEFINITION. The training-state engines (08 R253-R271): OPT_STEP, NORM and MERGE on built-in images. -/

namespace Sys2Proof.Machine

open Sys2Proof

/-! ## Whole-descriptor refusals that the 64 bytes show (08 R253, R255, R256, R260, R268, R270, R271, R273, R279, R282) -/

def gradOk (c : Nat) (bs : Bool) : Bool :=
  (decide (1 ≤ c) && decide (c ≤ 5)) && (!bs || c == 4 || c == 5)

def log2Ok (n : Nat) : Bool := decide (11 ≤ n) && decide (n ≤ 16)

def optBad (x : Desc) : Bool :=
  let f := dnum x 0x24 4
  let storedOk (c : Nat) : Bool := c == 1 || c == 2
  let w := fld f 16 4
  dfld x 0x18 48 16 != 0 || bit f 31 || dfld x 0x28 48 16 != 0 || dfld x 0x38 8 56 != 0 || decide (1 < fld f 0 4) ||
  !storedOk (fld f 4 4) || !storedOk (fld f 8 4) || !gradOk (fld f 12 4) (bit f 20) ||
  (bit f 21 && !((w == 2 || w == 3 || w == 4) && (!bit f 22 || w == 4))) || !log2Ok (fld f 27 4) ||
  dfld x 0x18 0 6 != 0 || dfld x 0x28 0 6 != 0

def normBad (x : Desc) : Bool :=
  let f := dnum x 0x24 4
  dfld x 0x18 48 16 != 0 || fld f 0 12 != 0 || fld f 16 4 != 0 || fld f 21 6 != 0 || bit f 31 || dfld x 0x28 62 2 != 0 ||
  dnum x 0x30 8 != 0 || dfld x 0x38 8 56 != 0 || !gradOk (fld f 12 4) (bit f 20) || !log2Ok (fld f 27 4) ||
  dfld x 0x18 0 6 != 0 || dfld x 0x28 0 6 != 0

def mergeBad (x : Desc) : Bool :=
  dfld x 0x18 48 16 != 0 || dfld x 0x20 16 48 != 0 || dfld x 0x28 40 24 != 0 || dnum x 0x38 8 != 0 || dfld x 0x20 0 3 == 0 ||
  !log2Ok (dfld x 0x20 4 4) || dfld x 0x18 0 4 != 0

def trainRefusals (x : Desc) : List Nat :=
  match x.opcode with
  | 1 => codeIf (optBad x) cUNSUP
  | 2 => codeIf (normBad x) cUNSUP
  | 3 => codeIf (mergeBad x) cUNSUP
  | 0x10 =>
    codeIf (dfld x 0x18 48 16 != 0 || dfld x 0x20 36 28 != 0 || dfld x 0x28 48 16 != 0 || dfld x 0x30 32 32 != 0 ||
      dnum x 0x38 8 != 0 || dfld x 0x28 0 6 != 0) cUNSUP ++
    codeIf (decide (dnum x 0x20 4 < x.count * 32) || decide (31 < x.count)) cLENGTH
  | 0x11 => codeIf (!allZero (sub x.raw 0x18 12) || dfld x 0x20 36 28 != 0 || !allZero (sub x.raw 0x28 24)) cUNSUP
  | 0x12 =>
    codeIf (!allZero (sub x.raw 0x18 12) || dfld x 0x20 36 28 != 0 || !allZero (sub x.raw 0x28 24)) cUNSUP ++
    codeIf (decide (1 < x.count)) cLENGTH
  | _ => [cUNSUP]

/-! ## Copies of built-in images (08 R254) -/

/-- Take up to `k` copies of a built-in image. -/
def takeCopies (r : DescRef) (tag w h : Nat) : Nat → Dev → Dev
  | 0, d => d
  | k + 1, d =>
    match (descOf d r).bind (fun x => takeBuiltin d x tag w h) with
    | some d1 => takeCopies r tag w h k d1
    | none => d

/-- The built-in image that a descriptor runs on, and at most how many copies (0: as many as fit). -/
structure BuiltIn where
  tag : Nat
  w : Nat
  h : Nat
  limit : Nat
  deriving DecidableEq, Repr

/-- Take copies of a built-in image, up to the descriptor's limit. -/
def takeUp (d : Dev) (r : DescRef) (b : BuiltIn) : Dev := takeCopies r b.tag b.w b.h (if b.limit == 0 then 128 else b.limit) d

/-- The berth is too small for one copy, even when empty. -/
def berthTooSmall (d : Dev) (x : Desc) (b : BuiltIn) : Bool :=
  capacityFor 1 { d with raft.copies := [] } (builtinWant x b.tag b.w b.h) == 0

/-- The end of a descriptor that holds copies. -/
def endCopies (d : Dev) (r : DescRef) : Dev := raftOn (releaseCopies (finishDesc d r) r)

/-- A descriptor waits for a copy as a LOAD item with WAIT set would, or is refused. -/
def awaitCopy (d : Dev) (x : Desc) : Dev :=
  if reg d (pg 0x50 (bankOfBerth x.r.berth) + 0x100) == 0 then refuseDesc d x.r cBUSY
  else if x.needCopy then d
  else onDesc d x.r (fun x => { x with needCopy := true, since := d.sys.ltc })

/-- Begin a descriptor that runs on a built-in image (08 R254): refused whole by what its fetch found, by the codes `l`, or for want of a
copy; or it waits for one; or with the copies it has got it goes on by `k`. With a COUNT of 0 it needs none. -/
def withCopies (d : Dev) (x : Desc) (b : BuiltIn) (l : List Nat) (k : Dev → Dev) : Dev :=
  unlessRefused d x (l ++ codeIf (berthTooSmall d x b) cLENGTH) (fun d =>
    if x.count == 0 then k d
    else
      let d1 := if behindOthers d x then d else takeUp d x.r b
      match descOf d1 x.r with
      | some y => if y.copies.isEmpty then awaitCopy d1 y else k (onDesc d1 x.r (fun x => { x with needCopy := false }))
      | none => d1)

/-- Work of a descriptor that has copies: `f` on each unit in hand, or `rest` on those left when no copy is (06 R209, R215); once
`done`, its end `fin`. -/
def onCopies (d : Dev) (x : Desc) (b : BuiltIn) (f rest : Dev → Desc → Nat → ItemIs × Dev) (done : Dev → DescRef → Bool)
    (fin : Desc → Dev → Dev) : Dev :=
  let d1 := if (activeCopies d x).isEmpty then takeUp d x.r b else d
  match descOf d1 x.r with
  | none => d1
  | some y =>
    let held := total ((activeCopies d1 y).map (fun c => c.hand.length + 1))
    let d2 := if (activeCopies d1 y).isEmpty then failRest y.r rest (unitsLeft y) d1
      else runUnits y.r f (unitsLeft y + held) [] (handOut d1 y.r)
    match descOf d2 y.r with
    | some z => if done d2 z.r then fin z d2 else d2
    | none => d2

/-- A unit for which no copy remains: one that stays tainted has run, and takes the code that `f` finds for it; another fails (06 R209,
R215). -/
def spoiltOr (f : Dev → Desc → Nat → ItemIs × Dev) (d : Dev) (x : Desc) (unit : Nat) : ItemIs × Dev :=
  if isSpoilt d x.r unit then f d x unit else itemWithout d x unit

/-- Run a descriptor's items on copies of a built-in image; `l` are the codes it may be refused with, `fin` issues what its end
writes. -/
def runOnCopies (d : Dev) (x : Desc) (b : BuiltIn) (l : List Nat) (f : Dev → Desc → Nat → ItemIs × Dev) (done : Dev → DescRef → Bool)
    (fin : Desc → Dev → Dev) : Dev :=
  let go (d : Dev) : Dev := match descOf d x.r with
    | some y => if y.count == 0 then finishDesc d y.r
                else onCopies d y b f (spoiltOr f) done (fun z d => endCopies (fin z d) z.r)
    | none => d
  if x.copies.isEmpty then withCopies d x b l go else go d

/-- An item has committed on its copy. -/
def tsCommit (d : Dev) (x : Desc) (item : Nat) : Dev := commitUnit (count d (pg 0x50 (bankOfBerth x.r.berth)) 0x800) x item item

/-- An item fails. -/
def tsFails (d : Dev) (r : DescRef) (item code : Nat) : ItemIs × Dev :=
  itemFails (count d (pg 0x50 (bankOfBerth r.berth)) 0x808) r item code

/-! ## Element runs -/

def runAt (node base fmt : Nat) (bs : Bool) : Stream :=
  { noStream with base := base, node := node, dir := 1, fmt := fmt, bs := bs, bad := false }

/-- The values of an element run. -/
def runVals (t : Stream) (f : Flow) : List Val :=
  if t.bs then (f.els.zipIdx).map (fun p => decScaled t.fmt (f.scales.getD (p.2 / 32) 0xFF) p.1) else f.els.map (decElem t.fmt)

/-- Read element runs in their order. -/
def readRuns (x : Desc) (item first n : Nat) : List Stream → Dev → List SrcIs × Dev
  | [], d => ([], d)
  | t :: ts, d =>
    let a := readRun d x t item first n
    let b := readRuns x item first n ts a.2
    (a.1 :: b.1, b.2)

/-- The code of the first failing read. -/
def readsCode (l : List SrcIs) : Nat := ((l.find? (fun s => s.code != 0)).map (·.code)).getD 0

/-- Form an element run in a format, and the elements that raised an exception. -/
def formRun (t : Stream) (sat : Bool) (l : List (Rnd × Val)) : Flow × List Bool :=
  if t.bs then
    let bl := formBlocks t.fmt (ceilDiv l.length 32) l
    ({ w := boxBits t.fmt, els := bl.flatMap (fun b => b.2.1), scales := bl.map Prod.fst }, bl.flatMap (fun b => b.2.2))
  else
    let out := l.map (fun p => formRes t.fmt p.1 sat false p.2)
    ({ w := boxBits t.fmt, els := out.map Prod.fst }, out.map Prod.snd)

/-- Firings of `be` elements in which an exception was raised (07 R249). -/
def firingsOf (be : Nat) (l : List Bool) : Nat := countFirings (l.zipIdx.map (fun p => (p.2 / be, p.1))) none

/-- Zero an element run, its scales with it. -/
def zeroRun (d : Dev) (x : Desc) (item : Nat) (t : Stream) (first n : Nat) : Dev :=
  (runParts t first n).foldl (fun d p => descWrite d x item t.node (t.base + p.1) (List.replicate p.2 0)) d

/-- A rounding: stochastic by a free draw (the SU that rounds is not seen, 08 R254), or to nearest. -/
def drawAt (sr : Bool) (fresh i : Nat) : Rnd := if sr then .stoch ((Config.free (fresh + i)).toNat % 65536) else .rne

/-! ## FP32 operations (07 R235, R241, R242) -/

/-- An FP32 value and whether an exception was raised on the way to it. -/
abbrev F32 := Nat × Bool

/-- An operation raised an invalid operation, or one of its operands had raised something. -/
def f32Bad (v : Val) (ops : List F32) : Bool := ops.any Prod.snd || (v.isNan && !ops.any (fun o => (fp32.dec o.1).isNan))

/-- An operation's result, rounded; a finite one that overflows raises an exception (07 R249). -/
def f32 (v : Val) (ops : List F32) (exc : Bool := false) : F32 :=
  let bits := fp32.enc .rne v
  (bits, exc || f32Bad v ops || ((fp32.dec bits).isInf && !v.isInf))

def f32Val (a : F32) : Val := fp32.dec a.1

def f32Mul (a b : F32) : F32 := f32 ((f32Val a).mul (f32Val b)) [a, b]

def f32Add (a b : F32) : F32 := f32 ((f32Val a).add (f32Val b)) [a, b]

/-- a × b + c, not yet rounded, and whether forming it raised an exception. -/
def f32FmaVal (a b c : F32) : Val × Bool :=
  let v := ((f32Val a).mul (f32Val b)).add (f32Val c)
  (v, f32Bad v [a, b, c])

def f32Fma (a b c : F32) : F32 := f32 (f32FmaVal a b c).1 [a, b, c]

def f32Sqrt (a : F32) : F32 := f32 (f32Val a).sqrt [a]

def f32Recip (a : F32) : F32 := f32 ((Val.num false 1 0).div (f32Val a)) [a] (f32Val a).isZero

def f32Neg (a : F32) : F32 := (fp32.enc .rne (f32Val a).neg, a.2)

def f32One : F32 := (0x3F800000, false)

/-- 1 - a. -/
def f32Rest (a : F32) : F32 := f32Add f32One (f32Neg a)

/-! ## State tables (08 R257, R258) -/

/-- An entry of a state table. -/
structure TsEntry where
  p : Nat
  m : Nat
  v : Nat
  g : Nat
  w : Nat
  elems : Nat
  lrMul : Nat
  wdMul : Nat
  /-- Reserved bits of the words at 0x00 to 0x20 and 0x28 by word, and of 0x38. -/
  resv : List Bool
  deriving DecidableEq, Repr

def tsEntry (l : List Byte) : TsEntry :=
  let at_ (o : Nat) : Nat := fld (leAt l o 8) 0 48
  { p := at_ 0, m := at_ 8, v := at_ 0x10, g := at_ 0x18, w := at_ 0x20, elems := fld (leAt l 0x28 8) 0 40
    lrMul := leAt l 0x30 4, wdMul := leAt l 0x34 4
    resv := ([0, 8, 0x10, 0x18, 0x20].map (fun o => fld (leAt l o 8) 48 16 != 0)) ++
      [fld (leAt l 0x28 8) 40 24 != 0, leAt l 0x38 8 != 0] }

def tsEntries (x : Desc) : List TsEntry := (List.range (x.table.length / 64)).map (fun i => tsEntry (sub x.table (64 * i) 64))

/-- Items of a tensor. -/
def tensorItems (log2 : Nat) (e : TsEntry) : Nat := ceilDiv e.elems (2 ^ log2)

/-- The tensor, first element and length of an item. -/
def itemAt (log2 : Nat) : List TsEntry → Nat → Option (TsEntry × Nat × Nat)
  | [], _ => none
  | e :: l, i =>
    if i < tensorItems log2 e then some (e, i * 2 ^ log2, min (2 ^ log2) (e.elems - i * 2 ^ log2))
    else itemAt log2 l (i - tensorItems log2 e)

/-- Read a state table, whole entries only, and a parameter block of `words` 4-byte words. -/
def readTables (d : Dev) (x : Desc) (words : Nat) : Got × Dev :=
  let n := dnum x 0x20 4 / 64 * 64
  let a := descRead d x tableKey d.xmap.node (dfld x 0x18 0 48) n
  let b := descRead a.2 x tableKey d.xmap.node (dfld x 0x28 0 48) (4 * words)
  (joinGot a.1 b.1, b.2)

/-- The tables have been read: `words` is not 0 or the entries are there. -/
def haveTables (x : Desc) : Bool := !x.table.isEmpty || !x.params.isEmpty

/-- Read the tables once, then go on with what they say. -/
def withTables (d : Dev) (x : Desc) (words : Nat) (k : Dev → Desc → Dev) : Dev :=
  if haveTables x then k d x
  else
    let g := readTables d x words
    match g.1 with
    | .wait => g.2
    | .fail c => unlessRefused g.2 x [c] id
    | .ok l =>
      let n := dnum x 0x20 4 / 64 * 64
      let put (x : Desc) : Desc := { x with table := l.take n, params := l.drop n }
      k (onDesc g.2 x.r put) (put x)

/-! ## OPT_STEP (08 R255-R267) -/

/-- Word `i` of the parameter block. -/
def param (x : Desc) (i : Nat) : Nat := leAt x.params (4 * i) 4

/-- Refusals of an OPT_STEP by its tables (08 R258, R260). -/
def optRefusals (x : Desc) : List Nat :=
  let f := dnum x 0x24 4
  let adam := fld f 0 4 == 0
  let es := tsEntries x
  let off64 (n : Nat) : Bool := n % 64 != 0
  let bad (e : TsEntry) : Bool :=
    e.resv.any id || off64 e.p || off64 e.m || off64 e.v || off64 e.g || off64 e.w || (adam && e.v == 0) || (!adam && e.v != 0) ||
    (!bit f 21 && e.w != 0)
  let words := List.range 16
  let finite (n : Nat) : Bool := fld n 23 8 != 255
  let zeroed := (if adam then [8] else [2, 3, 5, 6]) ++ [9, 10, 11, 12, 13, 14, 15]
  codeIf (es.any bad || words.any (fun i => !finite (param x i)) || zeroed.any (fun i => param x i != 0)) cUNSUP ++
    codeIf (dnum x 0x20 4 % 64 != 0 || decide (total (es.map (tensorItems (fld f 27 4))) < x.count)) cLENGTH

/-- The factors formed once for a tensor: lr, wd, 1 - beta1, 1 - beta2, 1 - damp. -/
structure OptK where
  lr : F32
  wd : F32
  ob1 : F32
  ob2 : F32
  od : F32

def optK (x : Desc) (e : TsEntry) : OptK :=
  let w (i : Nat) : F32 := (param x i, false)
  { lr := f32Mul (w 0) (e.lrMul, false), wd := f32Mul (w 4) (e.wdMul, false), ob1 := f32Rest (w 1), ob2 := f32Rest (w 2)
    od := f32Rest (w 8) }

/-- An element after a step: the bits of P, M and V, and whether an exception was raised. -/
structure OptElem where
  p : Nat
  m : Nat
  v : Nat
  exc : Bool

/-- Round a value into a storage format (08 R263): its bits, its FP32 value, and exceptions. -/
def storeAs (c : Nat) (r : Rnd) (a : Val × Bool) : Nat × F32 :=
  let b := formFloat (fmtOf c) r false a.1
  (b.1, (fp32.enc .rne (decElem c b.1), a.2 || b.2))

/-- The Adam-type recipe (08 R261). -/
def adamElem (x : Desc) (k : OptK) (fp fm : Nat) (coupled : Bool) (rp rm rv : Rnd) (p0 m0 v0 grad : F32) : OptElem :=
  let w (i : Nat) : F32 := (param x i, false)
  let g0 := f32Mul (w 7) grad
  let g := if coupled then f32Fma k.wd p0 g0 else g0
  let m := storeAs fm rm (f32FmaVal (w 1) m0 (f32Mul k.ob1 g))
  let v := storeAs fm rv (f32FmaVal (w 2) v0 (f32Mul k.ob2 (f32Mul g g)))
  let den := f32Add (f32Sqrt (f32Mul v.2 (w 6))) (w 3)
  let u0 := f32Mul (f32Mul m.2 (w 5)) (f32Recip den)
  let u := if coupled then u0 else f32Fma k.wd p0 u0
  let p := storeAs fp rp (f32FmaVal (f32Neg k.lr) u p0)
  { p := p.1, m := m.1, v := v.1, exc := p.2.2 || v.2.2 || m.2.2 }

/-- The momentum-type recipe (08 R262). -/
def momElem (x : Desc) (k : OptK) (fp fm : Nat) (coupled nesterov : Bool) (rp rm : Rnd) (p0 b0 grad : F32) : OptElem :=
  let w (i : Nat) : F32 := (param x i, false)
  let g0 := f32Mul (w 7) grad
  let g := if coupled then f32Fma k.wd p0 g0 else g0
  let b := storeAs fm rm (f32FmaVal (w 1) b0 (f32Mul k.od g))
  let s0 := if nesterov then f32Fma (w 1) b.2 g else b.2
  let s := if coupled then s0 else f32Fma k.wd p0 s0
  let p := storeAs fp rp (f32FmaVal (f32Neg k.lr) s p0)
  { p := p.1, m := b.1, v := 0, exc := p.2.2 || b.2.2 }

/-- A value as FP32. -/
def asF32 (v : Val) : F32 := (fp32.enc .rne v, false)

/-- Commit an item of an OPT_STEP whose streams have been read: its writes. -/
def optCommit (d : Dev) (x : Desc) (item : Nat) (e : TsEntry) (first n : Nat) (got : List SrcIs) : Dev :=
  let f := dnum x 0x24 4
  let adam := fld f 0 4 == 0
  let node := d.xmap.node
  let sp := runAt node e.p (fld f 4 4) false
  let sm := runAt node e.m (fld f 8 4) false
  let sv := runAt node e.v (fld f 8 4) false
  let sw := runAt node e.w (fld f 16 4) (bit f 22)
  let sg := runAt node e.g (fld f 12 4) (bit f 20)
  let flow (i : Nat) : Flow := (got.getD i {}).flow
  let sr := bit f 23
  let k := optK x e
  let grads := runVals sg (flow (if adam then 3 else 2))
  let zero := List.replicate n (Val.num false 0 0)
  let ins := (runVals sp (flow 0)).zip ((runVals sm (flow 1)).zip ((if adam then runVals sv (flow 2) else zero).zip grads))
  let out := ins.zipIdx.map (fun q =>
    let r (j : Nat) : Rnd := drawAt sr d.fresh (3 * q.2 + j)
    let p0 := asF32 q.1.1
    let m0 := asF32 q.1.2.1
    let v0 := asF32 q.1.2.2.1
    let g := asF32 q.1.2.2.2
    if adam then adamElem x k sp.fmt sm.fmt (bit f 25) (r 0) (r 1) (r 2) p0 m0 v0 g
    else momElem x k sp.fmt sm.fmt (bit f 25) (bit f 26) (r 0) (r 1) p0 m0 g)
  let w := formRun sw true (out.map (fun o => (Rnd.rne, decElem sp.fmt o.p)))
  let exc := (out.map (·.exc)).zipIdx.map (fun q => q.1 || (bit f 21 && w.2.getD q.2 false))
  let page := pg 0x50 (bankOfBerth x.r.berth)
  let bad := (grads.filter (fun v => v.isNan || v.isInf)).length
  let d1 := count (count (count (tsCommit d x item) page 0x840 n) page 0x848 bad) page 0x830 (firingsOf 32 exc)
  let d2 := if sr then { d1 with fresh := d1.fresh + 3 * n } else d1
  let put (t : Stream) (l : List Nat) (d : Dev) : Dev := writeRun d x item t first { w := boxBits t.fmt, els := l }
  let d3 := put sm (out.map (·.m)) (put sp (out.map (·.p)) d2)
  let d4 := if adam then put sv (out.map (·.v)) d3 else d3
  if bit f 21 then writeRun d4 x item sw first w.1 else d4

/-- The gradients of an item that has committed are zeroed once its other writes have been acknowledged OK (08 R265). -/
def optZero (d : Dev) (x : Desc) (item : Nat) : Dev :=
  let f := dnum x 0x24 4
  match itemAt (fld f 27 4) (tsEntries x) item with
  | none => d
  | some (e, first, n) =>
    if NMap.get 0 x.marks item != zeroDue || itemBusy d x.r item then d
    else
      let d1 := onDesc d x.r (fun x => { x with marks := NMap.set 0 x.marks item 0 })
      if itemStatus d x.r item == cOK then zeroRun d1 x item (runAt d.xmap.node e.g (fld f 12 4) (bit f 20)) first n else d1

/-- Zero the gradients of every item whose turn it is. -/
def optZeros (d : Dev) (r : DescRef) : Dev :=
  match descOf d r with
  | some x => ((x.marks.filter (fun m => m.2 == zeroDue)).map Prod.fst).foldl (fun d i => optZero d x i) d
  | none => d

/-- One item of an OPT_STEP. -/
def optItem (d : Dev) (x : Desc) (item : Nat) : ItemIs × Dev :=
  let f := dnum x 0x24 4
  match itemAt (fld f 27 4) (tsEntries x) item with
  | none => (.done, d)
  | some (e, first, n) =>
    let node := d.xmap.node
    let ss := [runAt node e.p (fld f 4 4) false, runAt node e.m (fld f 8 4) false] ++
      (if fld f 0 4 == 0 then [runAt node e.v (fld f 8 4) false] else []) ++ [runAt node e.g (fld f 12 4) (bit f 20)]
    let g := readRuns x item first n ss d
    if g.1.any (·.waits) then (.waits, g.2)
    else if readsCode g.1 != cOK then tsFails g.2 x.r item (readsCode g.1)
    else if isSpoilt g.2 x.r item then tsFails g.2 x.r item cUNCORR
    else if !mayCommit g.2 x item then (.waits, g.2)
    else
      let d1 := optCommit g.2 x item e first n g.1
      (.done, if bit f 24 then optZeros (onDesc d1 x.r (fun x => { x with marks := NMap.set 0 x.marks item zeroDue })) x.r else d1)

/-- Every item is done, and every gradient that is to be zeroed has been. -/
def optDone (d : Dev) (r : DescRef) : Bool :=
  unitsDone d r && (match descOf d r with
    | some x => !x.marks.any (fun m => m.2 == zeroDue)
    | none => true)

/-- OPT_STEP. -/
def optStep (d : Dev) (r : DescRef) : Dev :=
  match engineDesc d r 0x20 1 with
  | none => d
  | some x =>
    withTables (runDesc d r) x 16 (fun d x =>
      let adam := dfld x 0x24 0 4 == 0
      let b : BuiltIn := { tag := if adam then 0x8000000000002001 else 0x8000000000002002, w := if adam then 4 else 2, h := 1
                           limit := dfld x 0x38 0 8 }
      runOnCopies (optZeros d r) x b (optRefusals x) optItem optDone (fun _ d => d))

def execOptStep (r : DescRef) (s : State) : Host.Outcome State Fault Refusal :=
  s.runReq (fun d => optStep d r)

/-! ## NORM (08 R268, R269) -/

def normRefusals (x : Desc) : List Nat :=
  let es := tsEntries x
  codeIf (es.any (fun e => e.g % 64 != 0 || e.resv.getD 3 false || e.resv.getD 5 false)) cUNSUP ++
    codeIf (dnum x 0x20 4 % 64 != 0 || decide (total (es.map (tensorItems (dfld x 0x24 27 4))) < x.count)) cLENGTH

/-- One item: its partial and its counts are folded into its copy's running values: sum, non-finite, scanned. -/
def normItem (d : Dev) (x : Desc) (item : Nat) : ItemIs × Dev :=
  let f := dnum x 0x24 4
  match itemAt (fld f 27 4) (tsEntries x) item with
  | none => (.done, d)
  | some (e, first, n) =>
    let t := runAt d.xmap.node e.g (fld f 12 4) (bit f 20)
    let g := readRuns x item first n [t] d
    if g.1.any (·.waits) then (.waits, g.2)
    else
      let code := readsCode g.1
      if code != cOK then tsFails g.2 x.r item code
      else if isSpoilt g.2 x.r item then tsFails g.2 x.r item cUNCORR
      else if !mayCommit g.2 x item then (.waits, g.2)
      else
        let vals := runVals t ((g.1.getD 0 {}).flow)
        let finite := vals.filter (fun v => !v.isNan && !v.isInf)
        let part := finite.foldl (fun a v => accAdd (.fp fp32) a v.sq) 0
        let bad := vals.length - finite.length
        let d1 := count (tsCommit g.2 x item) (pg 0x50 (bankOfBerth x.r.berth)) 0x850 n
        match copyFor d1 x item with
        | none => (.done, d1)
        | some c =>
          let put (c : Copy) : Copy :=
            let a := NMap.set 0 c.running 0 (accAdd (.fp fp32) (NMap.get 0 c.running 0) (fp32.dec part))
            let b := NMap.set 0 a 1 (NMap.get 0 a 1 + bad)
            { c with running := NMap.set 0 b 2 (NMap.get 0 b 2 + n) }
          (.done, onCopy d1 c.id put)

/-- The two EADDs of each copy that committed an item; a retired copy's values are lost (06 R216). -/
def normEnd (x : Desc) (d : Dev) : Dev :=
  let node := dfld x 0x28 48 14
  let base := dfld x 0x28 0 48
  (d.raft.copies.filter (fun c => x.copies.contains c.id)).foldl (fun d c =>
    match c.committed.getLast? with
    | none => d
    | some last =>
      -- which of a retired copy's SUs held them is not seen: whether they are lost is a free choice (log 130)
      let v := freeVal d
      if c.retired && v.1 % 2 == 1 then c.committed.foldl (fun d i => noteItem d x.r i cUNCORR) v.2
      else
        let d := if c.retired then v.2 else d
        let sums := leBytes 4 (NMap.get 0 c.running 0) ++ List.replicate 60 0
        let counts := leBytes 4 (NMap.get 0 c.running 1) ++ leBytes 4 (NMap.get 0 c.running 2) ++ List.replicate 56 0
        descAdd (descAdd d x last 1 node base sums) x last 9 node (base + 64) counts) d

/-- NORM. -/
def normDesc (d : Dev) (r : DescRef) : Dev :=
  match engineDesc d r 0x20 2 with
  | none => d
  | some x =>
    withTables (runDesc d r) x 0 (fun d x =>
      runOnCopies d x { tag := 0x8000000000002003, w := 1, h := 1, limit := dfld x 0x38 0 8 } (normRefusals x) normItem unitsDone normEnd)

def execNorm (r : DescRef) (s : State) : Host.Outcome State Fault Refusal :=
  s.runReq (fun d => normDesc d r)

/-! ## MERGE (08 R270, R271) -/

/-- An operand. -/
structure MergeOp where
  t : Stream
  scale : Nat
  bad : Bool

def mergeOp (l : List Byte) : MergeOp :=
  let a := leAt l 0 8
  let b := leAt l 8 8
  { t := runAt (fld a 48 14) (fld a 0 48) (fld b 0 4) (bit b 4), scale := fld b 32 32
    bad := fld a 62 2 != 0 || fld b 5 27 != 0 || fld b 55 8 == 255 || !gradOk (fld b 0 4) (bit b 4) }

def mergeOps (x : Desc) : List MergeOp := (List.range (x.table.length / 16)).map (fun i => mergeOp (sub x.table (16 * i) 16))

def mergeRefusals (d : Dev) (x : Desc) : List Nat :=
  let ops := mergeOps x
  codeIf (ops.any (·.bad) || (ops.map (fun o => o.t.node)).headD 0 != d.xmap.node) cUNSUP ++
    codeIf (decide (ceilDiv (dfld x 0x28 0 40) (2 ^ dfld x 0x20 4 4) < x.count)) cLENGTH

/-- The scaled sum of one element over the operands: the value to round. -/
def mergeElem (scales : List Nat) (vals : List Val) : Val × Bool :=
  let ops := (scales.map (fun s => ((s, false) : F32))).zip (vals.map asF32)
  match ops with
  | [] => (.num false 0 0, false)
  | o :: os =>
    let acc := os.foldl (fun (a : F32) q => f32Fma q.1 q.2 a) (f32Mul o.1 o.2)
    (f32Val acc, acc.2)

/-- The `i`th element of each list. -/
def column (ls : List (List Val)) (i : Nat) : List Val := ls.map (fun l => l.getD i (.num false 0 0))

/-- One item of a MERGE. -/
def mergeItem (d : Dev) (x : Desc) (item : Nat) : ItemIs × Dev :=
  let ops := mergeOps x
  let size := 2 ^ dfld x 0x20 4 4
  let first := item * size
  let n := min size (dfld x 0x28 0 40 - first)
  let g := readRuns x item first n (ops.map (·.t)) d
  if g.1.any (·.waits) then (.waits, g.2)
  else
    let code := readsCode g.1
    if code != cOK then tsFails g.2 x.r item code
    else if isSpoilt g.2 x.r item then tsFails g.2 x.r item cUNCORR
    else if !mayCommit g.2 x item then (.waits, g.2)
    else
      let vals := (ops.zip g.1).map (fun p => runVals p.1.t p.2.flow)
      let sr := dfld x 0x20 3 1 == 1
      let out := (List.range n).map (fun i => (drawAt sr g.2.fresh i, mergeElem (ops.map (·.scale)) (column vals i)))
      match ops with
      | [] => (.done, g.2)
      | o :: _ =>
        let w := formRun o.t false (out.map (fun p => (p.1, p.2.1)))
        let exc := (out.zip w.2).map (fun p => p.1.2.2 || p.2)
        let page := pg 0x50 (bankOfBerth x.r.berth)
        let d1 := count (count (tsCommit g.2 x item) page 0x858 n) page 0x830 (firingsOf 32 exc)
        let d2 := if sr then { d1 with fresh := d1.fresh + n } else d1
        (.done, writeRun d2 x item o.t first w.1)

/-- TS_MERGE: the operand table is read once. -/
def mergeDesc (d : Dev) (r : DescRef) : Dev :=
  match engineDesc d r 0x20 3 with
  | none => d
  | some x =>
    let d1 := runDesc d r
    let go (d : Dev) (x : Desc) : Dev :=
      runOnCopies d x { tag := 0x8000000000002004, w := 1, h := 1, limit := dfld x 0x20 8 8 } (mergeRefusals d x) mergeItem unitsDone
        (fun _ d => d)
    if !x.table.isEmpty then go d1 x
    else
      let g := descRead d1 x tableKey d.xmap.node (dfld x 0x18 0 48) (16 * (dfld x 0x20 0 3 + 1))
      match g.1 with
      | .wait => g.2
      | .fail c => unlessRefused g.2 x [c] id
      | .ok l => go (onDesc g.2 r (fun x => { x with table := l })) { x with table := l }

def execTsMerge (r : DescRef) (s : State) : Host.Outcome State Fault Refusal :=
  s.runReq (fun d => mergeDesc d r)

end Sys2Proof.Machine
end

