-- ==== Sys2Proof/Machine/Purser.lean ====
section
/-! DEFINITION. The Purser (09): table slots and versions, the resolution of indices, GATHER, UPDATE under row locks, MIGRATE and
forwarding. -/

namespace Sys2Proof.Machine

open Sys2Proof

/-! ## Whole-descriptor refusals that the 64 bytes show (09 R283, R288, R290, R302, R305) -/

def purserRefusals (x : Desc) : List Nat :=
  let f := dnum x 0x20 4
  let head := dfld x 0x18 48 16 != 0 || dfld x 0x18 0 6 != 0 || dnum x 0x38 8 != 0 || fld f 20 12 != 0
  let no (o k : Nat) : Bool := dnum x o k != 0
  let fx := fld f 15 4
  let fxOk := fx == 1 || fx == 2 || fx == 3
  let one := codeIf (decide (1 < x.count)) cLENGTH
  match x.opcode with
  | 1 | 2 => codeIf (head || fld f 10 10 != 0 || no 0x24 4 || no 0x28 8 || no 0x30 8) cUNSUP ++ one
  | 3 => codeIf (head || fld f 10 10 != 0 || no 0x28 8 || no 0x30 8) cUNSUP ++ one
  | 0x10 => codeIf (head || fld f 11 2 == 3 || fld f 13 2 != 0 || bit f 19 || !fxOk || no 0x28 4 || dfld x 0x28 40 24 != 0 ||
      no 0x30 8) cUNSUP
  | 0x11 => codeIf (head || fld f 11 2 != 0 || fld f 13 2 == 3 || !fxOk || no 0x28 4 || dfld x 0x28 40 24 != 0 ||
      dnum x 0x24 4 == 0) cUNSUP
  | 0x20 => codeIf (head || fld f 10 10 != 0 || no 0x2C 4 || no 0x30 8) cUNSUP ++
      codeIf (decide (dnum x 0x28 4 < x.count * 16)) cLENGTH
  | _ => [cUNSUP]

/-! ## Table records (09 R286, R287) -/

structure Table where
  base : Nat
  base2 : Nat
  rows : Nat
  rows2 : Nat
  state : Nat
  state2 : Nat
  dim : Nat
  fmt : Nat
  map : Nat
  key : Nat
  limit : Nat
  reader : Nat
  readerEn : Bool
  bad : Bool
  deriving DecidableEq, Repr

def tableOfBytes (l : List Byte) : Table :=
  let w (i : Nat) : Nat := leAt l (8 * i) 8
  let dim := fld (w 6) 0 13
  let fmt := fld (w 6) 16 4
  let map := fld (w 6) 20 2
  let composed := decide (2 ≤ map)
  let rows := fld (w 2) 0 40
  let rows2 := fld (w 3) 0 40
  let at_ (i : Nat) : Nat := fld (w i) 0 48
  let resv := [0, 1, 4, 5].any (fun i => fld (w i) 48 16 != 0) || [2, 3].any (fun i => fld (w i) 40 24 != 0) ||
    fld (w 6) 13 3 != 0 || fld (w 6) 22 10 != 0 || fld (w 7) 53 11 != 0
  { base := at_ 0, base2 := at_ 1, rows := rows, rows2 := rows2, state := at_ 4, state2 := at_ 5, dim := dim, fmt := fmt, map := map
    key := fld (w 6) 32 32, limit := fld (w 7) 0 40, reader := fld (w 7) 40 12, readerEn := bit (w 7) 52
    bad := resv || at_ 0 % 64 != 0 || rows == 0 || (map == 1 && decide (2 ^ 32 < rows)) || at_ 4 % 4 != 0 || at_ 5 % 4 != 0 ||
      (if composed then at_ 1 % 64 != 0 || rows2 == 0 else at_ 1 != 0 || rows2 != 0 || at_ 5 != 0) || dim == 0 || decide (4096 < dim) ||
      !(decide (1 ≤ fmt) && decide (fmt ≤ 5)) || (map != 1 && (fld (w 6) 32 32 != 0 || fld (w 7) 0 40 != 0)) }

/-- Bytes of a vector of `n` elements, in whole granules. -/
def vecBytes (fmt n : Nat) : Nat := ceilDiv (n * (fmtBits fmt / 8)) 64 * 64

def rowBytes (t : Table) : Nat := vecBytes t.fmt t.dim

/-! ## Slots (09 R285, R288, R301) -/

def tableSlot (d : Dev) (n : Nat) : TableSlot := NMap.get {} d.purser.slots n

def setTable (d : Dev) (n : Nat) (t : TableSlot) : Dev := { d with purser.slots := NMap.set {} d.purser.slots n t }

/-- Slot of a descriptor, by bank × 1,024 + slot. -/
def purserSlot (x : Desc) : Nat := bankOfBerth x.r.berth * 1024 + dfld x 0x20 0 10

/-- The refusals that a slot gives a descriptor: another job's naming a slot that is held, any but a DEFINE naming a free one, and one
that names a slot being freed (09 R285, R288). -/
def slotRefusals (d : Dev) (x : Desc) : List Nat :=
  let s := tableSlot d (purserSlot x)
  let t := tableOfBytes s.record
  let allowed := s.job == x.job || (x.opcode == 0x10 && t.readerEn && t.reader == x.job)
  if s.st == .free then codeIf (x.opcode != 1) cUNSUP
  else codeIf (!allowed) cDENIED ++ codeIf (x.opcode == 1 || s.st == .freeing) cUNSUP

/-- The version a descriptor has bound, and its table. -/
def boundOf (d : Dev) (r : DescRef) : Option (Nat × Nat × Table) :=
  match d.purser.bound.find? (fun b => b.r == r) with
  | none => none
  | some b =>
    let n := b.bank * 1024 + b.slot
    let s := tableSlot d n
    some (n, b.version, tableOfBytes (if b.version == s.version then s.record else s.oldRec))

/-- Bind a slot's current version (09 R301). -/
def bindTable (d : Dev) (x : Desc) : Dev :=
  let n := purserSlot x
  let b : Bound := { r := x.r, bank := n / 1024, slot := n % 1024, version := (tableSlot d n).version }
  { d with purser.bound := d.purser.bound ++ [b] }

/-- Some descriptor is bound to a version of a slot (0: to any). -/
def tableBound (d : Dev) (n version : Nat) : Bool :=
  d.purser.bound.any (fun b => b.bank * 1024 + b.slot == n && (version == 0 || b.version == version))

/-- Release the forwarding entries of a version of a slot (0: of any). -/
def dropFwd (d : Dev) (n version : Nat) : Dev :=
  { d with purser.fwd := d.purser.fwd.filter (fun f =>
      !(f.key.bank * 1024 + f.key.slot == n && (version == 0 || f.key.version == version))) }

/-- PURSER_VERSION_DRAINED: a SWITCH's old version, or a slot that is being freed, has no descriptor left (09 R288, R303). -/
def tableDrained (d : Dev) (n : Nat) : Dev :=
  let s := tableSlot d n
  let d1 := if s.oldVersion != 0 && !tableBound d n s.oldVersion then
      let d2 := setTable (dropFwd d n s.oldVersion) n { s with oldVersion := 0, oldRec := [], switcher := none }
      match s.switcher with
      | some r => finishDesc d2 r
      | none => d2
    else d
  if (tableSlot d1 n).st == .freeing && !tableBound d1 n 0 then
    let d2 := setTable (dropFwd d1 n 0) n {}
    match s.freer with
    | some r => finishDesc d2 r
    | none => d2
  else d1

def execPurserVersionDrained (bank slot : Nat) (s : State) : Host.Outcome State Fault Refusal :=
  s.runReq (fun d => tableDrained d (bank * 1024 + slot))

/-- Read a block of a descriptor's arguments: its bytes, or the code of the read that fails as a refusal among those of `l`, where
nothing before it refuses the descriptor already (09 R285, R288). -/
def withBlock (d : Dev) (x : Desc) (off n : Nat) (l : List Nat) (k : Dev → List Byte → Dev) : Dev :=
  if l.contains cDENIED then unlessRefused d x l id
  else
    let g := descRead d x tableKey d.xmap.node off n
    match g.1 with
    | .wait => g.2
    | .fail c => unlessRefused g.2 x (l ++ [c]) id
    | .ok b => k g.2 b

/-- A descriptor that has passed every refusal performs its one item, or with a COUNT of 0 nothing (02 R69). -/
def perform (x : Desc) (k : Dev → Dev) (d : Dev) : Dev := if x.count == 0 then finishDesc d x.r else k d

/-- DEFINE. -/
def defineTable (d : Dev) (r : DescRef) : Dev :=
  match engineDesc d r 0x30 1 with
  | none => d
  | some x =>
    let l := slotRefusals d x
    withBlock (runDesc d r) x (dfld x 0x18 0 48) 64 l (fun d b =>
      unlessRefused d x (l ++ codeIf (tableOfBytes b).bad cUNSUP) (perform x (fun d =>
        finishDesc (setTable d (purserSlot x) { st := .defined, job := x.job, record := b, version := 1 }) r)))

def execPurserDefine (r : DescRef) (s : State) : Host.Outcome State Fault Refusal :=
  s.runReq (fun d => defineTable d r)

/-- FREE: no descriptor binds the slot any more; the descriptor completes when those bound have. -/
def execPurserFree (r : DescRef) (s : State) : Host.Outcome State Fault Refusal :=
  s.runReq (fun d => match engineDesc d r 0x30 2 with
    | none => d
    | some x =>
      let d1 := runDesc d r
      let n := purserSlot x
      let s := tableSlot d n
      if s.freer == some r then d1
      else unlessRefused d1 x (slotRefusals d x) (perform x (fun d => setTable d n { s with st := .freeing, freer := some r })))

/-- SWITCH (09 R302). -/
def switchTable (d : Dev) (x : Desc) (l : List Byte) : Dev :=
  let n := purserSlot x
  let s := tableSlot d n
  let t := tableOfBytes l
  let old := tableOfBytes s.record
  let bad := t.bad || t.dim != old.dim || t.fmt != old.fmt || t.map != old.map
  unlessRefused d x (slotRefusals d x ++ codeIf bad cUNSUP ++ codeIf (s.oldVersion != 0) cBUSY) (fun d =>
    if dnum x 0x24 4 != s.version then refuseDesc d x.r cVERSION
    else perform x (fun d =>
      let v := if s.version == 0xFFFFFFFF then 1 else s.version + 1
      setTable (count d (pg 0x60 (n / 1024)) 0x838) n
        { s with record := l, version := v, oldVersion := s.version, oldRec := s.record, switcher := some x.r }) d)

def execPurserSwitch (r : DescRef) (s : State) : Host.Outcome State Fault Refusal :=
  s.runReq (fun d => match engineDesc d r 0x30 3 with
    | none => d
    | some x =>
      let d1 := runDesc d r
      let l := slotRefusals d x ++ codeIf ((tableSlot d (purserSlot x)).oldVersion != 0) cBUSY
      if (tableSlot d (purserSlot x)).switcher == some r then d1
      else withBlock d1 x (dfld x 0x18 0 48) 64 l (fun d b => switchTable d x b))

/-! ## Resolving indices (09 R289, R305) -/

/-- Mix of 07 R246 with K0 = 0. -/
def mix32 (x : Nat) : Nat := hash32 0 (x % 2 ^ 32)

/-- The rows of an index: (remainder table, row). None where it is invalid. -/
def resolveRows (t : Table) (i : Nat) : Option (List (Bool × Nat)) :=
  match t.map with
  | 0 => if i < t.rows then some [(false, i)] else none
  | 1 =>
    if t.limit != 0 && t.limit ≤ i then none
    else
      let h := mix32 (i % 2 ^ 32 ^^^ t.key)
      some [(false, mix32 ((i / 2 ^ 32) ^^^ h) % t.rows)]
  | _ => if i < t.rows * t.rows2 then some [(false, i / t.rows2), (true, i % t.rows2)] else none

def keyOf (n version : Nat) (p : Bool × Nat) : RowKey :=
  { bank := n / 1024, slot := n % 1024, version := version, sub := p.1, row := p.2 }

/-- The forwarding entry of a row. -/
def fwdOf (d : Dev) (k : RowKey) : Option Nat := (d.purser.fwd.find? (fun f => f.key == k)).map (·.loc)

/-- Home of a row, and its location now. -/
def rowHome (t : Table) (k : RowKey) : Nat := (if k.sub then t.base2 else t.base) + k.row * rowBytes t

def rowLoc (d : Dev) (t : Table) (k : RowKey) : Nat := (fwdOf d k).getD (rowHome t k)

/-! ## Argument blocks (09 R291, R292) -/

structure Args where
  idx : Nat
  idxLen : Nat
  nbags : Nat
  wgt : Nat
  wgtLen : Nat
  offsLen : Nat
  offs : Nat
  data : Nat
  node : Nat
  dataLen : Nat
  lr : Nat
  eps : Nat
  gscale : Nat
  bad : Bool

def argsOf (l : List Byte) : Args :=
  let w (o : Nat) : Nat := leAt l o 8
  { idx := fld (w 0) 0 48, idxLen := leAt l 8 4, nbags := leAt l 0xC 4, wgt := fld (w 0x10) 0 48, wgtLen := leAt l 0x18 4
    offsLen := leAt l 0x1C 4, offs := fld (w 0x20) 0 48, data := fld (w 0x28) 0 48, node := fld (w 0x28) 48 14
    dataLen := w 0x30, lr := leAt l 0x40 4, eps := leAt l 0x44 4, gscale := leAt l 0x48 4
    bad := [0, 0x10, 0x20].any (fun o => fld (w o) 48 16 != 0) || fld (w 0x28) 62 2 != 0 || w 0x38 != 0 || leAt l 0x4C 4 != 0 ||
      !allZero (sub l 0x50 48) }

/-- Bag offset `b` of a descriptor. -/
def bagOff (x : Desc) (b : Nat) : Nat := leAt x.params (4 * b) 4

/-- Bags: each item is its own where the descriptor has none. -/
def bagCount (x : Desc) (a : Args) : Nat := if a.nbags == 0 then x.count else a.nbags

/-- Items of a bag: the first, and how many. -/
def bagItems (x : Desc) (a : Args) (b : Nat) : Nat × Nat :=
  if a.nbags == 0 then (b, 1) else (bagOff x b, bagOff x (b + 1) - bagOff x b)

/-- The bag of an item. -/
def bagOf (x : Desc) (a : Args) (i : Nat) : Nat :=
  if a.nbags == 0 then i else ((List.range a.nbags).find? (fun b => decide (i < bagOff x (b + 1)))).getD 0

def idxBytes (x : Desc) : Nat := if dfld x 0x20 10 1 == 1 then 8 else 4

def fmtX (x : Desc) : Nat := dfld x 0x20 15 4

/-- Refusals of a GATHER or UPDATE by its argument block, its table, and, where they have been read, its offsets. -/
def argRefusals (x : Desc) (a : Args) (t : Table) (haveOffs : Bool := true) : List Nat :=
  let f := dnum x 0x20 4
  let gather := x.opcode == 0x10
  let finite (n : Nat) : Bool := fld n 23 8 != 255
  let composed := decide (2 ≤ t.map)
  let unsup := a.bad || (gather && (if fld f 11 2 == 0 then a.nbags != 0 else a.nbags == 0)) ||
    (!gather && (decide (4 ≤ t.fmt) || !finite a.lr || !finite a.eps || !finite a.gscale ||
      (fld f 13 2 == 2 && (t.state == 0 || (composed && t.state2 == 0)))))
  let offs := (List.range (a.nbags + 1)).map (bagOff x)
  let falls := (offs.zip (offs.drop 1)).any (fun p => decide (p.2 < p.1))
  let long := decide (a.idxLen < x.count * idxBytes x) || (a.wgt != 0 && decide (a.wgtLen < x.count * 4)) ||
    (a.nbags != 0 && (decide (a.offsLen < (a.nbags + 1) * 4) ||
      (haveOffs && (bagOff x 0 != 0 || falls || bagOff x a.nbags != x.count)))) ||
    decide (a.dataLen < bagCount x a * vecBytes (fmtX x) t.dim)
  codeIf unsup cUNSUP ++ codeIf long cLENGTH

/-- A descriptor is refused with VERSION_CONFLICT once no refusal of R21 is left (09 R292, R302, R305; 10 R321): copies that it has got
go back. -/
def versionRefused (d : Dev) (r : DescRef) : Dev := raftOn (releaseCopies (refuseDesc d r cVERSION) r)

/-- What a slot and an argument block refuse a GATHER or UPDATE with; a slot that is not its job's shows it nothing of its table. -/
def blockRefusals (d : Dev) (x : Desc) (a : Args) (haveOffs : Bool) : List Nat :=
  let l := slotRefusals d x
  l ++ (if l.isEmpty then argRefusals x a (tableOfBytes (tableSlot d (purserSlot x)).record) haveOffs else codeIf a.bad cUNSUP)

/-- Begin a GATHER or UPDATE whose arguments have been read: its checks, its copies, then the binding of its slot (09 R301). -/
def beginArgs (d : Dev) (x : Desc) (b : BuiltIn) (k : Dev → Dev) : Dev :=
  let s := tableSlot d (purserSlot x)
  let a := argsOf x.table
  let v := dnum x 0x24 4
  withCopies d x b (blockRefusals d x a true) (fun d =>
    if v != 0 && v != s.version then versionRefused d x.r
    else perform x (fun d => k (bindTable (onDesc d x.r (fun x => { x with units := if x.opcode == 0x10 then some (bagCount x a) else none })) x)) d)

/-- Read the argument block and the offsets once, begin the descriptor, then go on. -/
def withArgs (d : Dev) (x : Desc) (b : BuiltIn) (k : Dev → Dev) : Dev :=
  if !x.copies.isEmpty then k d
  else if !x.table.isEmpty then beginArgs d x b k
  else
    withBlock d x (dfld x 0x18 0 48) 128 (slotRefusals d x) (fun d l =>
      let g := argsOf l
      let put (offs : List Byte) (x : Desc) : Desc := { x with table := l, params := offs }
      if g.nbags == 0 || g.offsLen < (g.nbags + 1) * 4 then beginArgs (onDesc d x.r (put [])) (put [] x) b k
      else withBlock d x g.offs ((g.nbags + 1) * 4) (blockRefusals d x g false) (fun d offs =>
        beginArgs (onDesc d x.r (put offs)) (put offs x) b k))

/-! ## Items -/

/-- Index and weight of an item. -/
inductive IdxIs where
  | wait
  | null
  | invalid
  | fail (code : Nat)
  | rows (l : List (Bool × Nat)) (w : Nat)

/-- Read an item's index and weight, and resolve it; `u` is the unit that a copy works on. -/
def readIndex (d : Dev) (x : Desc) (a : Args) (t : Table) (u i : Nat) : IdxIs × Dev :=
  let node := d.xmap.node
  let k := idxBytes x
  let g := descRead d x u node (a.idx + k * i) k
  let w := if a.wgt == 0 then (Got.ok (leBytes 4 0x3F800000), g.2) else descRead g.2 x u node (a.wgt + 4 * i) 4
  match g.1 with
  | .wait => (.wait, w.2)
  | .fail c => (match w.1 with | .wait => .wait | _ => .fail c, w.2)
  | .ok l =>
    let n := leAt l 0 k
    if n == 2 ^ (8 * k) - 1 then (.null, w.2)
    else match resolveRows t n with
      | none => (.invalid, w.2)
      | some rows => match w.1 with
        | .wait => (.wait, w.2)
        | .fail c => (.fail c, w.2)
        | .ok b => (.rows rows (leAt b 0 4), w.2)

/-- Read the elements of rows, at their present locations. -/
def readRows32 (x : Desc) (item : Nat) (t : Table) : List RowKey → Dev → Got × Dev
  | [], d => (.ok [], d)
  | k :: ks, d =>
    let a := descRead d x item d.xmap.node (rowLoc d t k) (t.dim * (fmtBits t.fmt / 8))
    let b := readRows32 x item t ks a.2
    (joinGot a.1 b.1, b.2)

/-- The elements of a vector, decoded to FP32. -/
def vec32 (fmt n : Nat) (l : List Byte) : List F32 := (unpackElems (fmtBits fmt) n 0 l).map (fun e => asF32 (decElem fmt e))

/-- Count what an index came to. -/
def countIndex (d : Dev) (n : Nat) (keys : List RowKey) (i : IdxIs) : Dev :=
  let page := pg 0x60 (n / 1024)
  match i with
  | .null => count d page 0x808
  | .invalid => raise (count d page 0x810) page 1
  | .rows _ _ => count (count d page 0x800) page 0x828 (keys.filter (fun k => (fwdOf d k).isSome)).length
  | _ => d

/-! ## GATHER (09 R293, R294) -/

/-- What became of a GATHER item: its status, and its weight and vector where it is kept. -/
structure ItemVec where
  waits : Bool := false
  status : Nat := 0
  kept : Option (F32 × List F32) := none
  idx : IdxIs := .null
  keys : List RowKey := []

/-- Read an item. -/
def gatherItem (d : Dev) (x : Desc) (a : Args) (n version : Nat) (t : Table) (u i : Nat) : ItemVec × Dev :=
  let g := readIndex d x a t u i
  match g.1 with
  | .wait => ({ waits := true }, g.2)
  | .null => ({ idx := .null }, g.2)
  | .invalid => ({ status := cLENGTH, idx := .invalid }, g.2)
  | .fail c => ({ status := c, idx := .fail c }, g.2)
  | .rows rows w =>
    let keys := rows.map (keyOf n version)
    let v := readRows32 x u t keys g.2
    let r : ItemVec := { idx := g.1, keys := keys }
    match v.1 with
    | .wait => ({ r with waits := true }, v.2)
    | .fail c => ({ r with status := c }, v.2)
    | .ok l =>
      let one := vec32 t.fmt t.dim l
      let two := vec32 t.fmt t.dim (l.drop (t.dim * (fmtBits t.fmt / 8)))
      let vec := if t.map == 2 then List.zipWith f32Add one two else if t.map == 3 then List.zipWith f32Mul one two else one
      ({ r with kept := some ((w, false), vec) }, v.2)

def gatherItems (x : Desc) (a : Args) (n version : Nat) (t : Table) (u : Nat) : List Nat → Dev → List ItemVec × Dev
  | [], d => ([], d)
  | i :: is, d =>
    let p := gatherItem d x a n version t u i
    let q := gatherItems x a n version t u is p.2
    (p.1 :: q.1, q.2)

/-- The pooled vector of a bag. -/
def poolVec (dim pool : Nat) (l : List (F32 × List F32)) : List F32 :=
  let acc := l.foldl (fun acc p => List.zipWith (fun s v => f32Add s (f32Mul p.1 v)) acc p.2) (List.replicate dim (0, false))
  if pool == 2 && !l.isEmpty then acc.map (fun s => f32 ((f32Val s).div (.num false l.length 0)) [s]) else acc

/-- An item number beyond every item's stands for the writes of a bag. -/
def bagKey (b : Nat) : Nat := 2 ^ 43 + b

/-- Items of a bag. -/
def itemsOfBag (x : Desc) (a : Args) (b : Nat) : List Nat := (List.range (bagItems x a b).2).map (fun k => (bagItems x a b).1 + k)

/-- An item of the Purser is done: the index counted, its status noted. -/
def noteLookup (d : Dev) (x : Desc) (n item : Nat) (idx : IdxIs) (keys : List RowKey) (status : Nat) : Dev :=
  let page := pg 0x50 (bankOfBerth x.r.berth)
  let d1 := countIndex d n keys idx
  if status == cOK then count d1 page 0x800 else noteItem (count d1 page 0x808) x.r item status


/-- One bag of a GATHER. The items of a bag that stays tainted are not kept (09 R294 row 5). -/
def gatherBag (a : Args) (n version : Nat) (t : Table) (d : Dev) (x : Desc) (b : Nat) : ItemIs × Dev :=
  let items := itemsOfBag x a b
  let g := gatherItems x a n version t b items d
  if g.1.any (·.waits) || !mayCommit g.2 x b then (.waits, g.2)
  else
    let spoils := isSpoilt g.2 x.r b
    let vecs := g.1.map (fun v => if spoils && v.kept.isSome then { v with kept := none, status := cUNCORR } else v)
    let out := poolVec t.dim (dfld x 0x20 11 2) (vecs.filterMap (·.kept))
    let d1 := (items.zip vecs).foldl (fun d p => noteLookup d x n p.1 p.2.idx p.2.keys p.2.status) g.2
    let res := out.map (fun v => formFloat (fmtOf (fmtX x)) .rne false (f32Val v))
    let exc := (res.zip out).map (fun p => p.1.2 || p.2.2)
    let d2 := commitUnit (count d1 (pg 0x50 (bankOfBerth x.r.berth)) 0x830 (firingsOf 64 exc)) x b (bagKey b)
    (.done, descWrite d2 x (bagKey b) a.node (a.data + b * vecBytes (fmtX x) t.dim) (packElems (fmtBits (fmtX x)) (res.map Prod.fst)))

/-- Read the indices of items that no copy runs: what each comes to, nothing of it done (09 R294, R300). -/
def indicesOf (x : Desc) (a : Args) (t : Table) (u : Nat) : List Nat → Dev → List (Nat × IdxIs) × Dev
  | [], d => ([], d)
  | i :: is, d =>
    let p := readIndex d x a t u i
    let q := indicesOf x a t u is p.2
    ((i, p.1) :: q.1, q.2)

/-- The items of a bag for which no copy remains: a null or invalid index, or one that cannot be read, comes before that (09 R294). -/
def itemsWithout (x : Desc) (a : Args) (n : Nat) (t : Table) (u : Nat) (items : List Nat) (d : Dev) : ItemIs × Dev :=
  let g := indicesOf x a t u items d
  if g.1.any (fun p => match p.2 with | .wait => true | _ => false) then (.waits, g.2)
  else
    let one (d : Dev) (p : Nat × IdxIs) : Dev := match p.2 with
      | .null => noteLookup d x n p.1 .null [] cOK
      | .invalid => noteLookup d x n p.1 .invalid [] cLENGTH
      | .fail c => noteLookup d x n p.1 (.fail c) [] c
      | _ => failItem d x.r p.1 cDEGRADED
    (.done, g.1.foldl one g.2)

/-- A bag for which no copy remains. The items of one that stays tainted have had their rows read: a row that failed, then the taint come
first (09 R294 rows 4 to 6); nothing writes the bag. -/
def bagWithout (a : Args) (n version : Nat) (t : Table) (d : Dev) (x : Desc) (b : Nat) : ItemIs × Dev :=
  let items := itemsOfBag x a b
  if isSpoilt d x.r b then
    let g := gatherItems x a n version t b items d
    if g.1.any (·.waits) then (.waits, g.2)
    else (.done, (items.zip g.1).foldl (fun d p =>
      noteLookup d x n p.1 p.2.idx p.2.keys (if p.2.kept.isSome then cUNCORR else p.2.status)) g.2)
  else itemsWithout x a n t b items d

/-- GATHER. -/
def gatherDesc (d : Dev) (r : DescRef) : Dev :=
  match engineDesc d r 0x30 0x10 with
  | none => d
  | some x =>
    let b : BuiltIn := { tag := 0x8000000000003001, w := 1, h := 1, limit := dfld x 0x28 32 8 }
    withArgs (runDesc d r) x b (fun d =>
      match descOf d r, boundOf d r with
      | some y, some (n, version, t) =>
        let a := argsOf y.table
        onCopies d y b (gatherBag a n version t) (bagWithout a n version t) unitsDone (fun z d => endCopies d z.r)
      | _, _ => d)

def execGather (r : DescRef) (s : State) : Host.Outcome State Fault Refusal :=
  s.runReq (fun d => gatherDesc d r)

/-- The writes of a bag that failed are the status of its items that are OK otherwise (09 R294 row 7). -/
def foldBags (d : Dev) (x : Desc) : Dev :=
  if x.engine == 0x30 && x.opcode == 0x10 then
    let a := argsOf x.table
    (x.statuses.filter (fun p => decide (2 ^ 43 ≤ p.1) && decide (p.1 < 2 ^ 44))).foldl (fun d p =>
      let it := bagItems x a (p.1 - 2 ^ 43)
      ((List.range it.2).map (fun k => it.1 + k)).foldl (fun d i => noteItem d x.r i p.2) d) d
  else d

/-! ## Row locks (09 R299) -/

def locksIn (d : Dev) (bank : Nat) : Nat := (d.purser.locks.filter (fun l => l.key.bank == bank)).length

def lockFree (d : Dev) (k : RowKey) : Bool :=
  !(d.purser.locks.any (fun l => l.key == k)) && decide (locksIn d k.bank < 4096)

def lockOf (d : Dev) (id : Nat) : Option RowLock := d.purser.locks.find? (fun l => l.id == id)


/-- Mark of an UPDATE whose items have been merged. -/
def mergedKey : Nat := 2 ^ 48

/-- A descriptor of the Purser with nothing left that holds or waits for a lock has completed. -/
def purserFinish (d : Dev) (r : DescRef) : Dev :=
  match descOf d r with
  | none => d
  | some x =>
    if x.phase == .running && x.count ≤ x.nextItem && (x.opcode != 0x11 || NMap.get 0 x.marks mergedKey == 1) && !d.purser.locks.any (fun l => l.holder.r == r) &&
        !d.purser.waits.any (fun w => w.use.r == r) then endCopies d r
    else d

/-- A lock is released: the status of its use goes to the items that it stands for. -/
def freeLock (d : Dev) (l : RowLock) (code : Nat) : Dev :=
  let d1 := { d with purser.locks := d.purser.locks.filter (fun m => m.id != l.id) }
  let d2 := if code == cOK then d1 else l.holder.items.foldl (fun d i => noteItem d l.holder.r i code) d1
  purserFinish d2 l.holder.r

/-- The new elements of a row, and its accumulator: values to round and whether exceptions were raised (09 R298). -/
def updateRow (x : Desc) (a : Args) (t : Table) (gm : List F32) (row : List F32) (s : F32) : List (Val × Bool) × F32 :=
  let lr : F32 := (a.lr, false)
  let plain (v : Val) (ops : List F32) : Val × Bool := (v, f32Bad v ops)
  match dfld x 0x20 13 2 with
  | 0 => (List.zipWith (fun g p => plain ((f32Val p).add (f32Val g)) [g, p]) gm row, s)
  | 1 => (List.zipWith (fun g p => f32FmaVal (f32Neg lr) g p) gm row, s)
  | _ =>
    let q := gm.foldl (fun q g => f32Fma g g q) (0, false)
    let s1 := f32Add s (f32 ((f32Val q).div (.num false t.dim 0)) [q])
    let rec_ := f32Recip (f32Add (f32Sqrt s1) (a.eps, false))
    (List.zipWith (fun g p =>
      let m := f32Mul (f32Mul lr g) rec_
      plain ((f32Val p).add (f32Val m).neg) [p, m]) gm row, s1)

/-- A row update under its lock: read the row where it is now, write it there (09 R299 steps 2 and 3). -/
def workUpdate (d : Dev) (l : RowLock) (x : Desc) (t : Table) : Dev :=
  let a := argsOf x.table
  let item := lockKey l.id
  let node := d.xmap.node
  let loc := rowLoc d t l.key
  let ada := dfld x 0x20 13 2 == 2
  let st := (if l.key.sub then t.state2 else t.state) + 4 * l.key.row
  let g := descRead d x item node loc (t.dim * (fmtBits t.fmt / 8))
  let h := if ada then descRead g.2 x item node st 4 else (Got.ok [], g.2)
  match joinGot g.1 h.1 with
  | .wait => h.2
  | .fail c => onLock h.2 l.id (fun u => { u with acted := true, status := c })
  | .ok b =>
    let k := t.dim * (fmtBits t.fmt / 8)
    let sr := dfld x 0x20 19 1 == 1
    let out := updateRow x a t (l.holder.gm.map (fun n => ((n, false) : F32))) (vec32 t.fmt t.dim (b.take k)) (leAt b k 4, false)
    let res := out.1.zipIdx.map (fun p => (formFloat (fmtOf t.fmt) (drawAt sr h.2.fresh p.2) false p.1.1, p.1.2))
    let d1 := count h.2 (pg 0x50 (bankOfBerth x.r.berth)) 0x830 (firingsOf 128 (res.map (fun p => p.1.2 || p.2)))
    let d2 := if sr then { d1 with fresh := d1.fresh + t.dim } else d1
    let d3 := descWrite d2 x item node loc (packElems (fmtBits t.fmt) (res.map (fun p => p.1.1)))
    let d4 := if ada then descWrite d3 x item node st (leBytes 4 out.2.1) else d3
    dropReads (onLock d4 l.id (fun u => { u with acted := true })) x.r item

/-- A migration under its lock: copy the row, where it has to be copied (09 R306, R307). -/
def workMigrate (d : Dev) (l : RowLock) (x : Desc) (t : Table) : Dev :=
  let bank := l.key.bank
  let loc := rowLoc d t l.key
  let dest := if l.holder.dest == 0 then rowHome t l.key else l.holder.dest
  let known := (fwdOf d l.key).isSome
  let full := decide (65536 ≤ (d.purser.fwd.filter (fun f => f.key.bank == bank)).length)
  if l.holder.dest != 0 && !known && l.holder.dest != loc && full then freeLock (raise (count d (pg 0x60 bank) 0x848) (pg 0x60 bank) 0) l cBUSY
  else if (l.holder.dest == 0 && !known) || l.holder.dest == loc then freeLock d l cOK
  else
    let g := descRead d x (lockKey l.id) d.xmap.node loc (rowBytes t)
    match g.1 with
    | .wait => g.2
    | .fail c => freeLock g.2 l c
    | .ok b =>
      dropReads (onLock (descWrite g.2 x (lockKey l.id) d.xmap.node dest b) l.id (fun u => { u with acted := true })) x.r (lockKey l.id)

/-- The copy that a row of an UPDATE belongs to (09 R297); none where no copy remains. -/
def rowCopy (d : Dev) (x : Desc) (k : RowKey) : Option Copy :=
  let l := activeCopies d x
  l[Config.rowHash k.slot k.sub k.row % l.length]?

/-- Go on with a row of an UPDATE on its copy; a row whose copy is retired belongs to another one from then on. -/
def rowWork (d : Dev) (l : RowLock) (x : Desc) (t : Table) : Dev :=
  match (activeCopies d x).find? (fun c => c.id == l.holder.copy) with
  | some c => if c.on then workUpdate d l x t else d
  | none => match rowCopy d x l.key with
    | some c =>
      let d1 := onLock d l.id (fun u => { u with copy := c.id })
      if c.on then workUpdate d1 l x t else d1
    | none => d

/-- Go on with what holds a lock and has not acted. -/
def lockWork (d : Dev) (id : Nat) : Dev :=
  match lockOf d id with
  | none => d
  | some l =>
    if l.holder.acted then d
    else match descOf d l.holder.r, boundOf d l.holder.r with
      | some x, some (_, _, t) => if l.holder.migrate then workMigrate d l x t else rowWork d l x t
      | _, _ => d

/-- Take a lock. -/
def takeLock (d : Dev) (k : RowKey) (u : LockUse) : Dev :=
  let id := d.purser.nextLock
  lockWork { d with purser.locks := d.purser.locks ++ [{ id := id, key := k, holder := u }], purser.nextLock := id + 1 } id

/-- Ask for a row's lock: take it, or wait behind those that wait for it. -/
def askLock (d : Dev) (k : RowKey) (u : LockUse) : Dev :=
  if lockFree d k && !d.purser.waits.any (fun w => w.key == k) then takeLock d k u
  else { d with purser.waits := d.purser.waits ++ [{ key := k, use := { u with since := d.sys.ltc } }] }

/-- Go on with the locks that a descriptor holds. -/
def workLocks (d : Dev) (r : DescRef) : Dev :=
  ((d.purser.locks.filter (fun l => l.holder.r == r && !l.holder.acted)).map (·.id)).foldl lockWork d

/-- ROW_LOCK_GRANT: the first waiter of a bank whose row's lock is free takes it. -/
def lockGrant (d : Dev) (bank : Nat) : Dev :=
  match d.purser.waits.find? (fun w => w.key.bank == bank && lockFree d w.key) with
  | none => d
  | some w =>
    let first (v : LockWait) : Bool := v.key == w.key
    takeLock (count { d with purser.waits := delFirst first d.purser.waits } (pg 0x60 bank) 0x840 (d.sys.ltc - w.use.since)) w.key w.use

def execRowLockGrant (bank : Nat) (s : State) : Host.Outcome State Fault Refusal :=
  s.runReq (fun d => lockGrant d bank)

/-- ROW_UPDATE_DONE: the row's writes are acknowledged or have failed. -/
def rowDone (d : Dev) (bank id : Nat) : Dev :=
  match lockOf d id with
  | none => d
  | some l =>
    if l.key.bank != bank || l.holder.migrate || !l.holder.acted || itemBusy d l.holder.r (lockKey id) then d
    else
      let code := if l.holder.status != 0 then l.holder.status else itemStatus d l.holder.r (lockKey id)
      freeLock (if code == cOK then count d (pg 0x60 bank) 0x818 else d) l code

def execRowUpdateDone (bank lock : Nat) (s : State) : Host.Outcome State Fault Refusal :=
  s.runReq (fun d => rowDone d bank lock)

/-- Set, replace or remove a forwarding entry. -/
def setFwd (d : Dev) (k : RowKey) (dest : Nat) : Dev :=
  let rest := d.purser.fwd.filter (fun f => f.key != k)
  { d with purser.fwd := if dest == 0 then rest else rest ++ [{ key := k, loc := dest }] }

/-- MIGRATE_FLIP: the copy is acknowledged, the entry changes and the lock is released. -/
def migrateFlip (d : Dev) (bank id : Nat) : Dev :=
  match lockOf d id with
  | none => d
  | some l =>
    if l.key.bank != bank || !l.holder.migrate || !l.holder.acted || itemBusy d l.holder.r (lockKey id) then d
    else
      let code := itemStatus d l.holder.r (lockKey id)
      if code == cOK then freeLock (count (setFwd d l.key l.holder.dest) (pg 0x60 bank) 0x830) l cOK else freeLock d l code

def execMigrateFlip (bank lock : Nat) (s : State) : Host.Outcome State Fault Refusal :=
  s.runReq (fun d => migrateFlip d bank lock)

/-! ## UPDATE (09 R296-R300) -/

/-- An item's contributions, by row, or its status. -/
structure Contrib where
  waits : Bool := false
  status : Nat := 0
  rows : List (RowKey × List F32) := []
  idx : IdxIs := .null
  keys : List RowKey := []

/-- Read an item's gradient and form its contributions. -/
def contribOf (d : Dev) (x : Desc) (a : Args) (n version : Nat) (t : Table) (i : Nat) : Contrib × Dev :=
  let g := readIndex d x a t i i
  match g.1 with
  | .wait => ({ waits := true }, g.2)
  | .null => ({ idx := .null }, g.2)
  | .invalid => ({ status := cLENGTH, idx := .invalid }, g.2)
  | .fail c => ({ status := c, idx := .fail c }, g.2)
  | .rows rows w =>
    let keys := rows.map (keyOf n version)
    let r : Contrib := { idx := g.1, keys := keys }
    let gv := descRead g.2 x i a.node (a.data + bagOf x a i * vecBytes (fmtX x) t.dim) (t.dim * (fmtBits (fmtX x) / 8))
    let rv := if t.map == 3 then readRows32 x i t keys gv.2 else (Got.ok [], gv.2)
    match joinGot gv.1 rv.1, gv.1, rv.1 with
    | .ok _, .ok gl, .ok rl =>
      let scale := f32Mul (a.gscale, false) (w, false)
      let c := (vec32 (fmtX x) t.dim gl).map (fun e => f32Mul scale e)
      let one := vec32 t.fmt t.dim rl
      let two := vec32 t.fmt t.dim (rl.drop (t.dim * (fmtBits t.fmt / 8)))
      let parts := if t.map == 3 then [List.zipWith f32Mul c two, List.zipWith f32Mul c one] else [c, c]
      ({ r with rows := keys.zip parts }, rv.2)
    | .fail e, _, _ => ({ r with status := e }, rv.2)
    | _, _, _ => ({ r with waits := true }, rv.2)

/-- One item of an UPDATE: its contributions wait for those of the others. -/
def updateItem (a : Args) (n version : Nat) (t : Table) (d : Dev) (x : Desc) (item : Nat) : ItemIs × Dev :=
  let g := contribOf d x a n version t item
  if g.1.waits then (.waits, g.2)
  else if isSpoilt g.2 x.r item && !g.1.rows.isEmpty then (.done, noteLookup g.2 x n item g.1.idx g.1.keys cUNCORR)
  else
    let shares := g.1.rows.map (fun p => ({ r := x.r, item := item, key := p.1, vals := p.2.map Prod.fst } : Share))
    let d1 := noteLookup g.2 x n item g.1.idx g.1.keys g.1.status
    (.done, { d1 with purser.shares := d1.purser.shares ++ shares })

/-- An item of an UPDATE for which no copy remains: what cannot be read comes first, then a taint that has stayed (09 R300). -/
def updateWithout (a : Args) (n version : Nat) (t : Table) (d : Dev) (x : Desc) (item : Nat) : ItemIs × Dev :=
  let g := contribOf d x a n version t item
  if g.1.waits then (.waits, g.2)
  else if g.1.rows.isEmpty then (.done, noteLookup g.2 x n item g.1.idx g.1.keys g.1.status)
  else (.done, failItem g.2 x.r item (if isSpoilt g.2 x.r item then cUNCORR else cDEGRADED))

/-- The distinct rows of a list, in order of their first mention. -/
def distinctKeys : List RowKey → List RowKey → List RowKey
  | [], seen => seen
  | k :: ks, seen => distinctKeys ks (if seen.contains k then seen else seen ++ [k])

/-- The merged gradient of a row: its contributions added in FP32, in no order that the spec fixes (log 28). -/
def mergeRow (r : DescRef) (k : RowKey) (l : List Share) : List Nat :=
  let l1 := sortBy (fun s => Config.mergeOrder r.index k.row s.item) l
  let f (s : Share) : List F32 := s.vals.map (fun n => (n, false))
  let sum := match l1 with
    | [] => []
    | p :: ps => ps.foldl (fun acc q => List.zipWith f32Add acc (f q)) (f p)
  sum.map Prod.fst

/-- Merge the items of an UPDATE: each distinct row goes to its copy, which asks for its lock (09 R297, R299). -/
def mergeRows (d : Dev) (x : Desc) (n : Nat) : Dev :=
  let all := d.purser.shares.filter (fun s => s.r == x.r)
  let keys := distinctKeys (all.map (·.key)) []
  let d1 := { d with purser.shares := d.purser.shares.filter (fun s => s.r != x.r) }
  let d2 := onDesc (count d1 (pg 0x60 (n / 1024)) 0x820 (all.length - keys.length)) x.r
    (fun x => { x with marks := NMap.set 0 x.marks mergedKey 1 })
  keys.foldl (fun d k =>
    let mine := all.filter (fun s => s.key == k)
    let c := ((rowCopy d x k).map (·.id)).getD 0
    askLock d k { r := x.r, migrate := false, items := mine.map (·.item), copy := c, gm := mergeRow x.r k mine }) d2

/-- Rows of an UPDATE that no copy is left for: their items fail (09 R300). -/
def dropRows (d : Dev) (x : Desc) : Dev :=
  let mine (u : LockUse) : Bool := u.r == x.r && !u.acted
  let gone := ((d.purser.waits.map (·.use)) ++ (d.purser.locks.map (·.holder))).filter mine
  let d1 := gone.foldl (fun d u => u.items.foldl (fun d i => failItem d u.r i cDEGRADED) d) d
  { d1 with purser.locks := d1.purser.locks.filter (fun l => !mine l.holder), purser.waits := d1.purser.waits.filter (fun w => !mine w.use) }

/-- An UPDATE whose items are merged goes on with its rows, on another copy where its own are all retired. -/
def updateRows (d : Dev) (x : Desc) (b : BuiltIn) : Dev :=
  let d1 := if (activeCopies d x).isEmpty then takeUp d x.r b else d
  match descOf d1 x.r with
  | none => d1
  | some y => purserFinish (if (activeCopies d1 y).isEmpty then dropRows d1 y else workLocks d1 y.r) y.r

/-- UPDATE. -/
def updateDesc (d : Dev) (r : DescRef) : Dev :=
  match engineDesc d r 0x30 0x11 with
  | none => d
  | some x =>
    let b : BuiltIn := { tag := 0x8000000000003002, w := 2, h := 1, limit := dfld x 0x28 32 8 }
    withArgs (runDesc d r) x b (fun d =>
      match descOf d r, boundOf d r with
      | some y, some (n, version, t) =>
        let a := argsOf y.table
        if NMap.get 0 y.marks mergedKey == 1 then updateRows d y b
        else onCopies d y b (updateItem a n version t) (updateWithout a n version t) unitsDone
          (fun z d => purserFinish (mergeRows d z n) z.r)
      | _, _ => d)

def execUpdate (r : DescRef) (s : State) : Host.Outcome State Fault Refusal :=
  s.runReq (fun d => updateDesc d r)

/-! ## MIGRATE (09 R305-R307) -/

/-- One item: its checks, then its row's lock. -/
def migrateItem (n version : Nat) (t : Table) (d : Dev) (x : Desc) (item : Nat) : ItemIs × Dev :=
  let g := descRead d x item d.xmap.node (dfld x 0x18 0 48 + 16 * item) 16
  match g.1 with
  | .wait => (.waits, g.2)
  | .fail c => itemFails g.2 x.r item c
  | .ok l =>
    let a := leAt l 0 8
    let b := leAt l 8 8
    let sub := bit a 40
    let composed := decide (2 ≤ t.map)
    if fld a 41 23 != 0 || fld b 48 16 != 0 || b % 64 != 0 || (sub && !composed) then itemFails g.2 x.r item cUNSUP
    else if (if sub then t.rows2 else t.rows) ≤ fld a 0 40 then itemFails g.2 x.r item cLENGTH
    else (.done, askLock g.2 (keyOf n version (sub, fld a 0 40)) { r := x.r, migrate := true, items := [item], dest := fld b 0 48 })

/-- MIGRATE: bind the slot, then each item asks for its row's lock. -/
def migrateDesc (d : Dev) (r : DescRef) : Dev :=
  match engineDesc d r 0x30 0x20 with
  | none => d
  | some x =>
    let d1 := runDesc d r
    let s := tableSlot d (purserSlot x)
    let go (d : Dev) : Dev :=
      match boundOf d r with
      | none => d
      | some (n, version, t) => purserFinish (runItems r (migrateItem n version t) (x.count - x.nextItem) (workLocks d r)) r
    if (boundOf d r).isSome then go d1
    else unlessRefused d1 x (slotRefusals d x) (fun d =>
      if dnum x 0x24 4 != s.version then refuseDesc d r cVERSION else go (bindTable d x))

def execMigrate (r : DescRef) (s : State) : Host.Outcome State Fault Refusal :=
  s.runReq (fun d => migrateDesc d r)

/-! ## Registers (09 R309, R310) -/

/-- Slot that a bank's PURSER_SLOT_SEL shows. -/
def purserSel (d : Dev) (bank : Nat) : TableSlot := tableSlot d (bank * 1024 + fld (reg d (pg 0x60 bank + 0x100)) 0 10)

def readPurserData (d : Dev) (bank i : Nat) : Nat := leAt (purserSel d bank).record (8 * i) 8

def readPurserStat (d : Dev) (bank : Nat) : Nat :=
  let s := purserSel d bank
  let t := tableOfBytes s.record
  match s.st with
  | .free => 0
  | st =>
    (if st == .freeing then 3 else if s.oldVersion != 0 then 2 else 1) + s.job * 2 ^ 2 + t.reader * 2 ^ 14 + b2n t.readerEn * 2 ^ 26 +
      s.version * 2 ^ 32

def readFwdUsed (d : Dev) (bank : Nat) : Nat := (d.purser.fwd.filter (fun f => f.key.bank == bank)).length

def readSlotsUsed (d : Dev) (bank : Nat) : Nat :=
  (d.purser.slots.filter (fun s => s.1 / 1024 == bank && s.2.st != .free)).length

end Sys2Proof.Machine
end

