-- ==== Sys2Proof/Machine/Sounding.lean ====
section
/-! DEFINITION. Sounding and the punts (10): index slots, QUERY, COMBINE, APPEND, MERGE, PQ_SCAN. -/

namespace Sys2Proof.Machine

open Sys2Proof

/-! ## Whole-descriptor refusals that the 64 bytes show (10 R311, R314, R320, R321, R325, R328, R329, R331) -/

def argsBad (x : Desc) : Bool := dfld x 0x18 48 16 != 0 || dfld x 0x18 0 6 != 0

def soundRefusals (x : Desc) : List Nat :=
  let one := codeIf (decide (1 < x.count)) cLENGTH
  match x.opcode with
  | 1 | 2 | 0x21 => codeIf (argsBad x || dfld x 0x20 8 56 != 0 || !allZero (sub x.raw 0x28 24)) cUNSUP ++ one
  | 0x10 => codeIf (argsBad x || dfld x 0x28 48 16 != 0 || dfld x 0x30 62 2 != 0 || dfld x 0x30 0 2 != 0 || dnum x 0x38 8 != 0 ||
      dfld x 0x20 8 8 == 0 || dfld x 0x20 16 8 == 0) cUNSUP
  | 0x11 => codeIf (argsBad x || dfld x 0x20 7 1 != 0 || dnum x 0x24 4 != 0 || !allZero (sub x.raw 0x28 24) || dfld x 0x20 0 7 == 0 ||
      decide (64 < dfld x 0x20 0 7) || dfld x 0x20 8 8 == 0 || dfld x 0x20 16 8 == 0 ||
      decide (dfld x 0x20 0 7 * dfld x 0x20 8 8 < dfld x 0x20 16 8)) cUNSUP
  | 0x20 => codeIf (argsBad x || dfld x 0x20 8 56 != 0 || dnum x 0x2C 4 != 0 || dfld x 0x30 48 16 != 0 || dnum x 0x38 8 != 0) cUNSUP
  | _ => [cUNSUP]

/-- Bytes of a result block of K pairs (10 R320). -/
def rStride (k : Nat) : Nat := 64 + ceilDiv (8 * k) 64 * 64

def puntRefusals (x : Desc) : List Nat :=
  let m := dfld x 0x20 0 7
  let k := dfld x 0x20 8 8
  codeIf (x.opcode != 1 || dfld x 0x18 48 16 != 0 || dfld x 0x20 7 1 != 0 || dfld x 0x20 16 48 != 0 || dfld x 0x28 48 16 != 0 ||
    dfld x 0x30 48 16 != 0 || dnum x 0x3C 4 != 0 || decide (m < 4) || decide (64 < m) || k == 0) cUNSUP ++
  codeIf (decide (dnum x 0x38 4 < x.count * rStride k)) cLENGTH

/-! ## Index records (10 R314, R315, R327) -/

structure Index where
  cent : Nat
  book : Nat
  dir : Nat
  side : Nat
  cap : Nat
  nlist : Nat
  dim : Nat
  m : Nat
  fmt : Nat
  inner : Bool
  reader : Nat
  readerEn : Bool
  mseq : Nat
  bad : Bool
  deriving DecidableEq, Repr

def indexOf (l : List Byte) : Index :=
  let w (i : Nat) : Nat := leAt l (8 * i) 8
  let at_ (i : Nat) : Nat := fld (w i) 0 48
  let dim := fld (w 5) 0 12
  let m := fld (w 5) 12 7
  let fmt := fld (w 5) 19 4
  let cap := fld (w 4) 0 15
  let nlist := fld (w 4) 32 17
  { cent := at_ 0, book := at_ 1, dir := at_ 2, side := at_ 3, cap := cap, nlist := nlist, dim := dim, m := m, fmt := fmt
    inner := bit (w 5) 23, reader := fld (w 5) 24 12, readerEn := bit (w 5) 36, mseq := at_ 6
    bad := [0, 1, 2, 3, 6].any (fun i => fld (w i) 48 16 != 0) || fld (w 4) 15 17 != 0 || fld (w 4) 49 15 != 0 || fld (w 5) 37 27 != 0 ||
      w 7 != 0 || [0, 1, 2].any (fun i => at_ i % 64 != 0) || at_ 3 % 256 != 0 || cap == 0 || decide (16384 < cap) || nlist == 0 ||
      decide (65536 < nlist) || dim == 0 || decide (2048 < dim) || decide (m < 4) || decide (64 < m) || dim % (if m == 0 then 1 else m) != 0 ||
      !(fmt == 1 || fmt == 2 || fmt == 3) }

def eStride (m : Nat) : Nat := ceilDiv (4 + m) 8 * 8

def perTile (m : Nat) : Nat := 256 / eStride m

def sStride (m : Nat) : Nat := ceilDiv (16 + m) 16 * 16

/-! ## Slots (10 R313, R314, R319) -/

/-- The filler ID (10 R315; 07 R247). -/
def fillerId : Nat := 0xFFFFFFFF

def indexSlot (d : Dev) (n : Nat) : IndexSlot := NMap.get {} d.sound.slots n

def setIndex (d : Dev) (n : Nat) (s : IndexSlot) : Dev := { d with sound.slots := NMap.set {} d.sound.slots n s }

def onIndex (d : Dev) (n : Nat) (f : IndexSlot → IndexSlot) : Dev := setIndex d n (f (indexSlot d n))

/-- Slot of a descriptor, by bank × 256 + slot. -/
def soundSlot (x : Desc) : Nat := bankOfBerth x.r.berth * 256 + dfld x 0x20 0 8

/-- The refusals that a slot gives a descriptor: another job's naming a slot that is held, any but a DEFINE naming a free one, and one
that names a slot being freed (10 R313, R314). -/
def indexRefusals (d : Dev) (x : Desc) : List Nat :=
  let s := indexSlot d (soundSlot x)
  let t := indexOf s.record
  let allowed := s.job == x.job || (x.opcode == 0x10 && t.readerEn && t.reader == x.job)
  if s.st == .free then codeIf (x.opcode != 1) cUNSUP
  else codeIf (!allowed) cDENIED ++ codeIf (x.opcode == 1 || s.st == .freeing) cUNSUP

/-- The side area lies in near store or on the stacks (10 R316). -/
def sideFast (d : Dev) (t : Index) : Bool :=
  let touches (x : Extent) : Bool := decide (extBase x < t.side + t.cap * sStride t.m) && decide (t.side < extBase x + extBytes x)
  !d.toll.extents.any (fun x => touches x && (x.e.tier == .flash || x.e.tier == .host))

def qboundOf (d : Dev) (r : DescRef) : Option QBound := d.sound.bound.find? (fun q => q.b.r == r)

/-- Bind a slot (10 R319). -/
def bindIndex (d : Dev) (x : Desc) (version snap : Nat) : Dev :=
  let n := soundSlot x
  let s := indexSlot d n
  let q : QBound := { b := { r := x.r, bank := n / 256, slot := n % 256, version := version }, dir := (indexOf s.record).dir
                      mseq := s.mseq, snap := snap, voids := s.voids }
  { d with sound.bound := d.sound.bound ++ [q] }

/-- A descriptor other than `r` is bound to a version of a slot (0: to any). -/
def indexBound (d : Dev) (n version : Nat) (r : Option DescRef) : Bool :=
  d.sound.bound.any (fun q => q.b.bank * 256 + q.b.slot == n && (version == 0 || q.b.version == version) && some q.b.r != r)

/-- A descriptor of the Purser or of Sounding has completed: it is bound no longer. -/
def unbind (d : Dev) (r : DescRef) : Dev :=
  { d with purser.bound := d.purser.bound.filter (fun b => b.r != r), sound.bound := d.sound.bound.filter (fun q => q.b.r != r) }

/-- SOUND_VERSION_DRAINED (10 R314, R329). -/
def indexDrained (d : Dev) (n : Nat) : Dev :=
  let s := indexSlot d n
  let d1 := if s.oldVersion != 0 && !indexBound d n s.oldVersion s.merger then
      let d2 := setIndex d n { s with oldVersion := 0, merger := none }
      match s.merger with
      | some r => finishDesc d2 r
      | none => d2
    else d
  if (indexSlot d1 n).st == .freeing && !indexBound d1 n 0 none then
    let d2 := setIndex d1 n {}
    match s.freer with
    | some r => finishDesc d2 r
    | none => d2
  else d1

def execSoundVersionDrained (bank slot : Nat) (s : State) : Host.Outcome State Fault Refusal :=
  s.runReq (fun d => indexDrained d (bank * 256 + slot))

/-- DEFINE. -/
def defineIndex (d : Dev) (r : DescRef) : Dev :=
  match engineDesc d r 0x40 1 with
  | none => d
  | some x =>
    let l := indexRefusals d x
    withBlock (runDesc d r) x (dfld x 0x18 0 48) 64 l (fun d b =>
      let t := indexOf b
      unlessRefused d x (l ++ codeIf t.bad cUNSUP) (perform x (fun d =>
        finishDesc (setIndex d (soundSlot x)
          { st := .defined, job := x.job, record := b, version := 1, mseq := t.mseq, vseq := t.mseq, lastSeq := t.mseq }) r)))

def execSoundDefine (r : DescRef) (s : State) : Host.Outcome State Fault Refusal :=
  s.runReq (fun d => defineIndex d r)

/-- FREE. -/
def execSoundFree (r : DescRef) (s : State) : Host.Outcome State Fault Refusal :=
  s.runReq (fun d => match engineDesc d r 0x40 2 with
    | none => d
    | some x =>
      let d1 := runDesc d r
      let n := soundSlot x
      let s := indexSlot d n
      if s.freer == some r then d1
      else unlessRefused d1 x (indexRefusals d x) (perform x (fun d => setIndex d n { s with st := .freeing, freer := some r })))

/-! ## Scores (10 R317) -/

/-- The score of two vectors: smaller is nearer. -/
def scoreOf (dim m : Nat) (inner : Bool) (a b : List F32) : F32 :=
  let terms := List.zipWith (fun x y => if inner then f32Mul x y else (let e := f32Add x (f32Neg y); f32Mul e e)) a b
  let order := sortBy (fun i => Config.scoreOrder dim m i) (List.range terms.length)
  let sum := match order with
    | [] => (0, false)
    | i :: is => is.foldl (fun acc j => f32Add acc (terms.getD j (0, false))) (terms.getD i (0, false))
  if inner then f32Neg sum else sum

/-- The lists a query probes: those with the smallest scores. -/
def probed (t : Index) (q : List F32) (cents : List Byte) (nprobe : Nat) : List Nat :=
  let vb := vecBytes t.fmt t.dim
  let scores := (List.range t.nlist).map (fun l =>
    (f32Val (scoreOf t.dim t.m t.inner q (vec32 t.fmt t.dim (cents.drop (l * vb)))), l))
  (scores.foldl (keepSmallest nprobe) []).map Prod.snd

/-- The distance table, by subspace × 256 + code. -/
def distTable (t : Index) (q : List F32) (book : List Byte) : List F32 :=
  let n := t.dim / t.m
  let words := vec32 t.fmt (t.m * 256 * n) book
  (List.range (t.m * 256)).map (fun i => scoreOf t.dim t.m t.inner ((q.drop (i / 256 * n)).take n) ((words.drop (i * n)).take n))

/-- The key of an entry's codes. -/
def codeKey (table : List F32) (m : Nat) (codes : List Byte) : F32 :=
  (List.range (m - 1)).foldl (fun acc i => f32Add acc (table.getD ((i + 1) * 256 + leAt codes (i + 1) 1) (0, false)))
    (table.getD (leAt codes 0 1) (0, false))

/-- A list entry: its ID and codes. -/
structure Entry_ where
  id : Nat
  codes : List Byte
  deriving DecidableEq, Repr

/-- The entries of a tile. -/
def tileEntries (m n : Nat) (l : List Byte) : List Entry_ :=
  (List.range n).map (fun j => { id := leAt l (j * eStride m) 4, codes := sub l (j * eStride m + 4) m })

/-- Keep the best `k` of entries. -/
def scanEntries (k m : Nat) (table : List F32) (best : List (Val × Nat)) (es : List Entry_) : List (Val × Nat) :=
  es.foldl (fun b e => keepSmallest k b (f32Val (codeKey table m e.codes), e.id)) best

/-! ## Side records (10 R318, R327) -/

structure SideRec where
  seq : Nat
  kind : Nat
  list : Nat
  id : Nat
  codes : List Byte
  deriving DecidableEq, Repr

def sideRec (m seq : Nat) (l : List Byte) : SideRec :=
  { seq := seq, kind := fld (leAt l 0 8) 48 2, list := leAt l 8 2, id := leAt l 12 4, codes := sub l 0x10 m }

/-- How many sequences lie from `a`, left out, to `b`: sequences have 48 bits and wrap (10 R327, R334; log 140). -/
def seqGap (a b : Nat) : Nat := (b % 2 ^ 48 + 2 ^ 48 - a % 2 ^ 48) % 2 ^ 48

/-- Sequence `b` comes after `a`. -/
def seqAfter (a b : Nat) : Bool := decide (0 < seqGap a b) && decide (seqGap a b < 2 ^ 47)

/-- The next sequence. -/
def seqNext (a : Nat) : Nat := (a + 1) % 2 ^ 48

/-- Where a sequence's record lies (10 R327). -/
def sidePlace (t : Index) (s : Nat) : Nat := t.side + seqGap 1 s % t.cap * sStride t.m

/-- The sequences that a binding reads, rising. -/
def sideSeqs (q : QBound) : List Nat :=
  ((List.range (seqGap q.mseq q.snap)).map (fun i => (q.mseq + 1 + i) % 2 ^ 48)).filter (fun s => !NSet.mem q.voids s)

/-- Read the side records of a binding. -/
def readSide (x : Desc) (item : Nat) (t : Index) : List Nat → Dev → Got × Dev
  | [], d => (.ok [], d)
  | s :: ss, d =>
    let a := descRead d x item d.xmap.node (sidePlace t s) (sStride t.m)
    let b := readSide x item t ss a.2
    (joinGot a.1 b.1, b.2)

/-- The records, and of each ID only the highest. -/
def latestRecs (l : List SideRec) : List SideRec := l.filter (fun r => !l.any (fun s => s.id == r.id && seqAfter r.seq s.seq))

/-! ## List tiles (10 R315, R330) -/

/-- A tile of a list: its offset and entries. -/
structure ListTile where
  off : Nat
  n : Nat
  deriving DecidableEq, Repr

/-- Tiles of a list of `n` entries at `base`. -/
def listTiles (m base n : Nat) : List ListTile :=
  let p := perTile m
  (List.range (ceilDiv n p)).map (fun k => { off := base + k * 256, n := min p (n - k * p) })

/-- The flash channel whose punt scans a tile; none where the copy reads it: it is not on flash, it is staged, or its channel
is down. -/
def puntOf (d : Dev) (off : Nat) : Option Nat :=
  match extAt d off with
  | none => none
  | some x =>
    if x.e.tier != .flash then none
    else
      let g := extCell d x (off / 256 * 256)
      let c := flashChanOf d g
      if d.tiers.staged.any (fun t => t.addr == g) || (d.tiers.flash.getD c {}).down || !bankLive d (c / 16) || missingTile x off then none
      else some c

/-- What the Toll says of a punt's read of a tile, a request of its descriptor like another (01 R34; 10 R313). -/
def puntToll (d : Dev) (x : Desc) (off : Nat) : TollSays × Dev :=
  tollCheck d (bankOfBerth x.r.berth) .rd (engHdr d x.r x.job x.tide 0 d.xmap.node (off / 256 * 256) 256 0 []) true

/-- A scan waits for a tile whose extent is held, or which REBUILD has still to fill in. -/
def puntWaits (d : Dev) (x : Desc) (off : Nat) : Bool :=
  match (puntToll d x off).1 with
  | .held _ => true
  | .pass (some e) => missingTile e off
  | _ => false

/-- What a punt reads of a tile. -/
def puntRead (d : Dev) (x : Desc) (off : Nat) : Nat × List Byte × Dev :=
  let t := puntToll d x off
  match t.1 with
  | .refuse c => (c, [], t.2)
  | .pass (some e) =>
    if !d.wharf.epValid then (cBUSY, [], t.2)
    else
      let r := readPlain t.2 e { off := off, job := x.job, src := epOf d x.r.berth, berth := e.e.berth } (off / 256 * 256) 256
      (if r.1 == cOK || r.1 == cPOISON then r.1 else cUNCORR, r.2.1, r.2.2)
  | _ => (cDENIED, [], t.2)

/-- A channel's punt. -/
def puntAt (d : Dev) (c : Nat) : Punt := d.sound.punts.getD c {}

def onPunt (d : Dev) (c : Nat) (f : Punt → Punt) : Dev := { d with sound.punts := modAt f d.sound.punts c }

/-- A place in the tiles of an item is with a punt, or a punt has returned it. -/
def withPunt (d : Dev) (r : DescRef) (item pos : Nat) : Bool :=
  d.sound.punts.any (fun p => p.scans.any (fun s => s.r == r && s.item == item && s.tiles.any (fun t => t.1 == pos))) ||
  (descOf d r).any (fun y => y.found.any (fun f => f.item == item && f.tiles.contains pos))

/-- A punt's queue is full: the scan waits, which is counted once (10 R330). -/
def scanFull (d : Dev) (s : Scan) (c : Nat) : Dev :=
  let key := 2 ^ 50 + (s.item * 65536 + s.list) * 32 + c
  if (descOf d s.r).any (fun y => NMap.get 0 y.marks key == 1) then d
  else
    let page := pgI 0x62 16 c
    onDesc (raise (count d page 0x818) page 0) s.r (fun y => { y with marks := NMap.set 0 y.marks key 1 })

/-- Queue a scan at a channel's punt, which takes the distance table of the first in its queue. -/
def queueScan (d : Dev) (s : Scan) (c : Nat) : Dev :=
  if 16 ≤ (puntAt d c).scans.length then scanFull d s c
  else
    let put (p : Punt) : Punt := { table := if p.scans.isEmpty then s.table else p.table, scans := p.scans ++ [s] }
    count (onPunt d c put) (pg 0x61 (bankOfBerth s.r.berth)) 0x838

/-- A tile of an item: its place among them, its list, and where it is. -/
structure TileAt where
  pos : Nat
  list : Nat
  t : ListTile
  deriving DecidableEq, Repr

/-- Queue the scans of the tiles that punts are to read and have not been given: one for each list on each channel. -/
def queueScans (d : Dev) (s : Scan) (l : List TileAt) : Dev :=
  let todo := (l.filter (fun e => !withPunt d s.r s.item e.pos)).filterMap (fun e => (puntOf d e.t.off).map (fun c => (e, c)))
  let groups := (todo.map (fun p => (p.1.list, p.2))).eraseDups
  groups.foldl (fun d g =>
    let mine := (todo.filter (fun p => p.1.list == g.1 && p.2 == g.2)).map (fun p => (p.1.pos, p.1.t.off, p.1.t.n))
    queueScan d { s with list := g.1, tiles := mine } g.2) d

/-- Score the entries of tiles: best pairs, entries scored, and whether an exception was raised. -/
def scoreEntries (k m : Nat) (table : List F32) (filter : List Nat) (l : List Entry_) : List (Val × Nat) × Nat × Bool :=
  let es := l.filter (fun e => e.id != fillerId && !filter.contains e.id)
  (scanEntries k m table [] es, es.length, es.any (fun e => (codeKey table m e.codes).2))

/-- Distance-table values as FP32 operands. -/
def tableF32 (l : List Nat) : List F32 := l.map (fun n => (n, false))

/-- A punt reads the tiles of a scan. -/
def scanRead (x : Desc) (c : Nat) : List (Nat × Nat × Nat) → Dev → List (Nat × Nat × Got) × Dev
  | [], d => ([], d)
  | t :: ts, d =>
    let r := puntRead d x t.2.1
    let d1 := if r.1 == cUNCORR then raiseFe r.2.2 (pgI 0x62 16 c) 1
        { unit := false, addr := d.xmap.node * 2 ^ 48 + t.2.1, job := x.job, code := r.1 } else r.2.2
    let q := scanRead x c ts d1
    ((t.1, t.2.2, if r.1 == cOK then .ok r.2.1 else .fail r.1) :: q.1, q.2)

/-- PUNT_SCAN_DONE: the scan at the head of a punt's queue has read and scored its tiles and returns its best pairs (10 R330). -/
def scanDone (d : Dev) (c : Nat) : Dev :=
  match (puntAt d c).scans with
  | [] => d
  | s :: rest =>
    let page := pgI 0x62 16 c
    let next (p : Punt) : Punt := { table := (rest.head?.map (·.table)).getD p.table, scans := rest }
    let entries := total (s.tiles.map (fun t => t.2.2))
    let d1 := count (count (count (onPunt d c next) page 0x800) page 0x808 entries) page 0x810 (256 * s.tiles.length)
    match descOf d1 s.r with
    | none => d1
    | some x =>
      if s.tiles.any (fun t => puntWaits d x t.2.1) then d else
      let g := scanRead x c s.tiles d1
      let es := g.1.flatMap (fun t => match t.2.2 with | .ok l => tileEntries s.m t.2.1 l | _ => [])
      let v := scoreEntries s.k s.m (tableF32 (puntAt d c).table) s.filter es
      let bad := g.1.findSome? (fun t => match t.2.2 with | .fail k => some (t.1, k) | _ => none)
      let f : Found := { item := s.item, tiles := s.tiles.map Prod.fst, best := v.1.map (fun p => (fp32.enc .rne p.1, p.2))
                         entries := v.2.1, raised := v.2.2, bad := bad }
      onDesc g.2 s.r (fun y => { y with found := y.found ++ [f] })

def execPuntScanDone (channel : Nat) (s : State) : Host.Outcome State Fault Refusal :=
  s.runReq (fun d => if bankLive d (channel / 16) then scanDone d channel else d)

/-- Read the tiles that the copy reads itself. -/
def copyTiles (x : Desc) (item : Nat) : List TileAt → Dev → List (TileAt × Got) × Dev
  | [], d => ([], d)
  | e :: es, d =>
    let a := descRead d x item d.xmap.node e.t.off 256
    let b := copyTiles x item es a.2
    ((e, a.1) :: b.1, b.2)

/-- What scanning the tiles of an item has come to: best pairs, entries scored, exceptions, the first failing code. -/
structure Scanned where
  waits : Bool := false
  best : List (Val × Nat) := []
  entries : Nat := 0
  raised : Bool := false
  code : Nat := 0

/-- Scan the tiles of an item (`s` says with what): those on flash at the punts, the others by the copy. -/
def scanItem (d : Dev) (x : Desc) (s : Scan) (l : List TileAt) : Scanned × Dev :=
  let d1 := queueScans d s l
  let own := l.filter (fun e => !withPunt d1 x.r s.item e.pos && (puntOf d1 e.t.off).isNone)
  let g := copyTiles x s.item own d1
  let found := ((descOf g.2 x.r).map (·.found)).getD [] |>.filter (fun f => f.item == s.item)
  let here (e : TileAt) : Bool := found.any (fun f => f.tiles.contains e.pos) || own.contains e
  if !l.all here || g.1.any (fun p => p.2 == .wait) then ({ waits := true }, g.2)
  else
    let v := scoreEntries s.k s.m (tableF32 s.table) s.filter
      (g.1.flatMap (fun p => match p.2 with | .ok b => tileEntries s.m p.1.t.n b | _ => []))
    let fails := (found.filterMap (·.bad)) ++ (g.1.filterMap (fun p => match p.2 with | .fail c => some (p.1.pos, c) | _ => none))
    let pairs := found.flatMap (fun f => f.best.map (fun p => (fp32.dec p.1, p.2)))
    ({ best := pairs.foldl (keepSmallest s.k) v.1, entries := v.2.1 + total (found.map (·.entries))
       raised := v.2.2 || found.any (·.raised), code := ((sortBy Prod.fst fails).head?.map Prod.snd).getD 0 }, g.2)

/-- The places of the tiles of lists. -/
def placeTiles (l : List (Nat × List ListTile)) : List TileAt :=
  ((l.flatMap (fun p => p.2.map (fun t => (p.1, t)))).zipIdx).map (fun q => { pos := q.2, list := q.1.1, t := q.1.2 })

/-- An item is done with its scans. -/
def dropFound (d : Dev) (r : DescRef) (item : Nat) : Dev :=
  onDesc d r (fun y => { y with found := y.found.filter (fun f => f.item != item) })

/-! ## Result blocks (10 R322) -/

structure Block where
  status : Nat
  snap : Nat
  version : Nat
  lists : Nat
  entries : Nat
  best : List (Val × Nat)

def blockBytes (k : Nat) (b : Block) : List Byte :=
  let pairs := b.best.flatMap (fun p => leBytes 4 (fp32.enc .rne p.1) ++ leBytes 4 p.2)
  let fill := (List.range (k - b.best.length)).flatMap (fun _ => leBytes 4 (topkFiller 1) ++ leBytes 4 fillerId)
  let l := leBytes 8 (b.status + b.best.length * 256) ++ leBytes 8 b.snap ++ leBytes 4 b.version ++ leBytes 4 b.lists ++
    leBytes 8 b.entries ++ List.replicate 32 0 ++ pairs ++ fill
  sub l 0 (rStride k)

/-! ## QUERY (10 R317-R324) -/

/-- The argument block of a QUERY. -/
structure QArgs where
  qvec : Nat
  qlen : Nat
  res : Nat
  node : Nat
  rlen : Nat
  bad : Bool

def qargsOf (l : List Byte) : QArgs :=
  let w (o : Nat) : Nat := leAt l o 8
  { qvec := fld (w 0) 0 48, qlen := leAt l 8 4, res := fld (w 0x10) 0 48, node := fld (w 0x10) 48 14, rlen := leAt l 0x18 4
    bad := fld (w 0) 48 16 != 0 || leAt l 0xC 4 != 0 || fld (w 0x10) 62 2 != 0 || leAt l 0x1C 4 != 0 || !allZero (sub l 0x20 32) }

/-- An exception was raised in stages that software cannot see: how many firings raised it is not stated. -/
def countFree (d : Dev) (page : Nat) (raised : Bool) : Dev :=
  if raised then
    let v := freeVal d
    count v.2 page 0x830 v.1
  else d

/-- A batch has read its side records, which is counted once (10 R319). -/
def noteSide (d : Dev) (x : Desc) (page key n : Nat) : Dev :=
  if (descOf d x.r).any (fun y => NMap.get 0 y.marks key == 1) then d
  else onDesc (count d page 0x810 n) x.r (fun y => { y with marks := NMap.set 0 y.marks key 1 })

/-- One query (10 R317). The centroid table and the side records are read once for the batch. -/
def queryItem (t : Index) (q : QBound) (d : Dev) (x : Desc) (item : Nat) : ItemIs × Dev :=
  let a := qargsOf x.table
  let node := d.xmap.node
  let vb := vecBytes t.fmt t.dim
  let k := dfld x 0x20 16 8
  let spage := pg 0x61 q.b.bank
  let bk := batchKey (((copyFor d x item).map (·.id)).getD 0)
  let r1 := descRead d x item node (a.qvec + item * vb) (t.dim * (fmtBits t.fmt / 8))
  let r2 := descRead r1.2 x bk node t.cent (t.nlist * vb)
  let r3 := descRead r2.2 x item node t.book (t.dim * 256 * (fmtBits t.fmt / 8))
  let r4 := descRead r3.2 x item node q.dir (t.nlist * 16)
  let seqs := sideSeqs q
  let r5 := readSide x bk t seqs r4.2
  match joinGot r1.1 (joinGot r2.1 (joinGot r3.1 (joinGot r4.1 r5.1))), r1.1, r2.1, r3.1, r4.1, r5.1 with
  | .fail c, _, _, _, _, _ => tsFails r5.2 x.r item c
  | .ok _, .ok qb, .ok cents, .ok book, .ok dir, .ok side =>
    let d0 := noteSide r5.2 x spage bk seqs.length
    let qv := vec32 t.fmt t.dim qb
    let lists := probed t qv cents (dfld x 0x20 8 8)
    let recs := latestRecs (seqs.zipIdx.map (fun p => sideRec t.m p.1 (sub side (p.2 * sStride t.m) (sStride t.m))))
    let tiles := placeTiles (lists.map (fun l => (l, listTiles t.m (fld (leAt dir (16 * l) 8) 0 48) (leAt dir (16 * l + 8) 4))))
    let table := distTable t qv book
    let s := scanItem d0 x { r := x.r, item := item, list := 0, tiles := [], m := t.m, k := k, table := table.map Prod.fst
                             filter := recs.map (·.id) } tiles
    if s.1.waits then (.waits, s.2)
    else if s.1.code == cOK && isSpoilt s.2 x.r item then (let f := tsFails s.2 x.r item cUNCORR; (f.1, dropFound f.2 x.r item))
    else if (copyFor s.2 x item).isNone then (let f := tsFails s.2 x.r item s.1.code; (f.1, dropFound f.2 x.r item))
    else if !mayCommit s.2 x item then (.waits, s.2)
    else
      let ins := (recs.filter (fun r => r.kind == 1 && lists.contains r.list)).map (fun r => ({ id := r.id, codes := r.codes } : Entry_))
      let n := s.1.entries + ins.length
      let raised := s.1.raised || table.any Prod.snd || ins.any (fun e => (codeKey table t.m e.codes).2)
      let d1 := countFree (count (count (tsCommit s.2 x item) spage 0x800) spage 0x808 n) (pg 0x50 q.b.bank) raised
      let d2 := if s.1.code == cOK then d1 else noteItem d1 x.r item s.1.code
      let blk : Block := { status := s.1.code, snap := q.snap, version := q.b.version, lists := lists.length, entries := n
                           best := scanEntries k t.m table s.1.best ins }
      (.done, dropFound (descWrite d2 x item a.node (a.res + item * rStride k) (blockBytes k blk)) x.r item)
  | _, _, _, _, _, _ => (.waits, r5.2)

/-- Item key of the EADDs of a QUERY's counter. -/
def doneKey : Nat := 2 ^ 45

/-- Each copy of a QUERY adds 1 to the counter (10 R324). -/
def queryEnd (x : Desc) (d : Dev) : Dev :=
  let off := dfld x 0x30 0 48
  if off == 0 then d
  else
    let one := putAt (List.replicate 64 0) (off % 64 / 4 * 4) (leBytes 4 1)
    (activeCopies d x).foldl (fun d _ => descAdd d x doneKey 9 (dfld x 0x30 48 14) (off / 64 * 64) one) d

/-- Begin a QUERY whose argument block has been read: its checks, its copies, then the binding of its slot (10 R319, R321). -/
def beginQuery (d : Dev) (x : Desc) (b : BuiltIn) (k : Dev → Dev) : Dev :=
  let a := qargsOf x.table
  let slot := indexRefusals d x
  let s := indexSlot d (soundSlot x)
  let t := indexOf s.record
  let v := dnum x 0x24 4
  let snap := dfld x 0x28 0 48
  let l := if slot.isEmpty then
      codeIf (a.bad || !sideFast d t) cUNSUP ++
        codeIf (decide (a.qlen < x.count * vecBytes t.fmt t.dim) || decide (a.rlen < x.count * rStride (dfld x 0x20 16 8))) cLENGTH
    else codeIf a.bad cUNSUP
  withCopies d x b (slot ++ l) (fun d =>
    if (v != 0 && v != s.version) || (snap != 0 && decide (seqGap s.mseq s.vseq < seqGap s.mseq snap)) then versionRefused d x.r
    else perform x (fun d => k (bindIndex d x s.version (if snap == 0 then s.vseq else snap))) d)

/-- QUERY. -/
def queryDesc (d : Dev) (r : DescRef) : Dev :=
  match engineDesc d r 0x40 0x10 with
  | none => d
  | some x =>
    let b : BuiltIn := { tag := 0x8000000000004001, w := 2, h := 1, limit := dfld x 0x20 24 8 }
    let go (d : Dev) : Dev :=
      match descOf d r, qboundOf d r with
      | some y, some q =>
        let f := queryItem (indexOf (indexSlot d (soundSlot x)).record) q
        onCopies d y b f (spoiltOr f)
          (fun d r => unitsDone d r && (dfld x 0x30 0 48 == 0 || !descBusy d r)) (fun z d => endCopies (queryEnd z d) z.r)
      | _, _ => d
    let d1 := runDesc d r
    if !x.copies.isEmpty then go d1
    else if !x.table.isEmpty then beginQuery d1 x b go
    else withBlock d1 x (dfld x 0x18 0 48) 64 (indexRefusals d1 x) (fun d l =>
      beginQuery (onDesc d r (fun x => { x with table := l })) { x with table := l } b go)

def execQuery (r : DescRef) (s : State) : Host.Outcome State Fault Refusal :=
  s.runReq (fun d => queryDesc d r)

/-- A failing counter write is the status of the items that are OK otherwise (10 R324). -/
def foldDone (d : Dev) (x : Desc) : Dev :=
  let c := NMap.get 0 x.statuses doneKey
  if x.engine == 0x40 && x.opcode == 0x10 && c != 0 then (List.range x.count).foldl (fun d i => noteItem d x.r i c) d else d

/-! ## COMBINE (10 R325, R326) -/

structure CArgs where
  inp : Nat
  inLen : Nat
  done : Nat
  out : Nat
  node : Nat
  outLen : Nat
  bad : Bool

def cargsOf (l : List Byte) : CArgs :=
  let w (o : Nat) : Nat := leAt l o 8
  { inp := fld (w 0) 0 48, inLen := leAt l 8 4, done := fld (w 0x10) 0 48, out := fld (w 0x18) 0 48, node := fld (w 0x18) 48 14
    outLen := leAt l 0x20 4
    bad := fld (w 0) 48 16 != 0 || leAt l 0xC 4 != 0 || fld (w 0x10) 48 16 != 0 || fld (w 0x10) 0 6 != 0 || fld (w 0x18) 62 2 != 0 ||
      leAt l 0x24 4 != 0 || !allZero (sub l 0x28 24) }

def shardsOf (x : Desc) : Nat := dfld x 0x20 0 7

/-- Read the blocks of the shards that are present for a query, in shard order. -/
def readBlocks (x : Desc) (item : Nat) (a : CArgs) (kIn : Nat) : List Nat → Dev → Got × Dev
  | [], d => (.ok [], d)
  | s :: ss, d =>
    let g := descRead d x item d.xmap.node (a.inp + (s * x.count + item) * rStride kIn) (rStride kIn)
    let h := readBlocks x item a kIn ss g.2
    (joinGot g.1 h.1, h.2)

/-- Shards that are present, once that is decided (one byte for each shard). -/
def presentShards (x : Desc) : List Nat := (List.range (shardsOf x)).filter (fun s => leAt x.params s 1 == 1)

/-- Marks from here on are the codes that the shards give a COMBINE's items: they give way to the code of a write that fails (10
R326). -/
def shardKey : Nat := 2 ^ 60

/-- Items of a COMBINE whose writes have not failed take the code of their shards. -/
def foldShards (d : Dev) (x : Desc) : Dev :=
  if x.engine == 0x40 && x.opcode == 0x11 then
    (x.marks.filter (fun m => decide (shardKey ≤ m.1))).foldl (fun d m => noteItem d x.r (m.1 - shardKey) m.2) d
  else d

/-- The built-in image of a COMBINE. -/
def combineOn (x : Desc) : BuiltIn := { tag := 0x8000000000004002, w := 1, h := 1, limit := dfld x 0x20 24 8 }

/-- Merge the blocks of one query (10 R326). A STATUS byte of a block that no item can carry (00 R19, R20) counts as UNCORRECTABLE
(DESIGN CHOICE, log 136). -/
def combineItem (d : Dev) (x : Desc) (item : Nat) : ItemIs × Dev :=
  let a := cargsOf x.table
  let kIn := dfld x 0x20 8 8
  let kOut := dfld x 0x20 16 8
  let shards := presentShards x
  let g := readBlocks x item a kIn shards d
  match g.1 with
  | .wait => (.waits, g.2)
  | .fail c => tsFails g.2 x.r item c
  | .ok l =>
    if isSpoilt g.2 x.r item then tsFails g.2 x.r item cUNCORR else
    if !mayCommit g.2 x item then (.waits, g.2) else
    let blocks := shards.zipIdx.map (fun p => (p.1, sub l (p.2 * rStride kIn) (rStride kIn)))
    let bad (s : Nat) : Option Nat :=
      match blocks.find? (fun b => b.1 == s) with
      | none => some cAGED
      | some b => if leAt b.2 0 1 == cOK then none else some (peerCode (leAt b.2 0 1))
    let code := ((List.range (shardsOf x)).findSome? bad).getD cOK
    let pairs := blocks.flatMap (fun b => (List.range (min kIn (leAt b.2 1 1))).map (fun i =>
      (fp32.dec (leAt b.2 (64 + 8 * i) 4), leAt b.2 (68 + 8 * i) 4)))
    let best := pairs.foldl (keepSmallest kOut) []
    let blk : Block := { status := code, snap := 0, version := 0, lists := shards.length
                         entries := total (blocks.map (fun b => leAt b.2 0x18 8)) % 2 ^ 64, best := best }
    let spage := pg 0x61 (bankOfBerth x.r.berth)
    let d1 := tsCommit g.2 x item
    let d2 := onDesc (if code == cAGED then count d1 spage 0x830 else d1) x.r
      (fun y => { y with marks := NMap.set 0 y.marks (shardKey + item) code })
    (.done, descWrite d2 x item a.node (a.out + item * rStride kOut) (blockBytes kOut blk))

/-- Merge, once the shards that are present are known. -/
def combineRun (d : Dev) (x : Desc) : Dev := onCopies d x (combineOn x) combineItem (spoiltOr combineItem) unitsDone (fun z d => endCopies d z.r)

/-- The item number of the reads of a COMBINE's counters. -/
def countersKey : Nat := 2 ^ 48

/-- Decide which shards are present by their counters; without `late`, only when all are. -/
def combineLook (d : Dev) (x : Desc) (late : Bool) : Dev :=
  let a := cargsOf x.table
  let n := shardsOf x
  let g := descRead d x countersKey d.xmap.node a.done (4 * n)
  match g.1 with
  | .wait => g.2
  | got =>
    let l := match got with | .ok b => b | _ => []
    let here (s : Nat) : Bool := decide (0 < intOf 32 (leAt l (4 * s) 4))
    let all := (List.range n).all here
    if all || late then
      let put (x : Desc) : Desc := { x with params := (List.range n).map (fun s => byte (b2n (here s))) }
      let d1 := dropReads (onDesc g.2 x.r put) x.r countersKey
      match descOf d1 x.r with
      | some y => combineRun (if all then d1 else raise d1 (pg 0x61 (bankOfBerth x.r.berth)) 1) y
      | none => d1
    else dropReads g.2 x.r countersKey

/-- Refusals of a COMBINE by its argument block (10 R325). -/
def combineRefusals (x : Desc) (a : CArgs) : List Nat :=
  codeIf a.bad cUNSUP ++ codeIf (decide (a.inLen < shardsOf x * x.count * rStride (dfld x 0x20 8 8)) ||
    decide (a.outLen < x.count * rStride (dfld x 0x20 16 8))) cLENGTH

/-- COMBINE: read the argument block, take copies, then wait for the counters. -/
def combineDesc (d : Dev) (r : DescRef) : Dev :=
  match engineDesc d r 0x40 0x11 with
  | none => d
  | some x =>
    let begin_ (x : Desc) (d : Dev) : Dev := withCopies d x (combineOn x) (combineRefusals x (cargsOf x.table)) (perform x (fun d =>
      combineLook (onDesc d r (fun x => { x with since := d.sys.ltc })) x false))
    let d1 := runDesc d r
    if !x.params.isEmpty then (match descOf d1 r with | some y => combineRun d1 y | none => d1)
    else if !x.copies.isEmpty then combineLook d1 x false
    else if !x.table.isEmpty then begin_ x d1
    else withBlock d1 x (dfld x 0x18 0 48) 64 [] (fun d l => begin_ { x with table := l } (onDesc d r (fun x => { x with table := l })))

def execCombine (r : DescRef) (s : State) : Host.Outcome State Fault Refusal :=
  s.runReq (fun d => combineDesc d r)

/-- A COMBINE that waits for its counters. -/
def combineWaiting (d : Dev) (r : DescRef) : Option Desc :=
  match descOf d r with
  | some x => if x.engine == 0x40 && x.opcode == 0x11 && x.phase == .running && !x.copies.isEmpty && x.params.isEmpty then some x else none
  | none => none

/-- COMBINE_COUNTERS_READY. -/
def execCombineCountersReady (r : DescRef) (s : State) : Host.Outcome State Fault Refusal :=
  s.runReq (fun d => match combineWaiting d r with
    | some x => combineLook d x false
    | none => d)

/-- SOUND_COMBINE_WAIT_EXPIRY. -/
def execSoundCombineWaitExpiry (r : DescRef) (s : State) : Host.Outcome State Fault Refusal :=
  s.runReq (fun d => match combineWaiting d r with
    | some x => combineLook (advanceTo d (x.since + reg d (pg 0x61 (bankOfBerth r.berth) + 0x160))) x true
    | none => d)

/-! ## APPEND (10 R327, R328) -/

/-- Move the visible sequence past records that are written or void. -/
def passSeqs : Nat → IndexSlot → IndexSlot
  | 0, s => s
  | k + 1, s =>
    let n := seqNext s.vseq
    if NSet.mem s.written n then passSeqs k { s with vseq := n, written := NSet.del s.written n }
    else if NSet.mem s.voids n then passSeqs k { s with vseq := n }
    else s

/-- The highest sequence an APPEND has assigned, where it has assigned one. -/
def appendLast (x : Desc) : Option Nat := let m := NMap.get 0 x.marks 0; if m == 0 then none else some (m - 1)

/-- An APPEND whose records the visible sequence has passed stores SEQ_OUT and has completed. -/
def appendDone (d : Dev) (n : Nat) (x : Desc) : Dev :=
  if x.engine == 0x40 && x.opcode == 0x20 && x.phase == .running && x.count ≤ x.nextItem &&
      !(appendLast x).any (seqAfter (indexSlot d n).vseq) &&
      (qboundOf d x.r).isSome then
    let out := dfld x 0x30 0 48
    finishDesc (if out == 0 then d else descWrite d x (2 ^ 42) d.xmap.node out (leBytes 8 ((appendLast x).getD 0))) x.r
  else d

/-- One record. -/
def appendItem (n : Nat) (t : Index) (d : Dev) (x : Desc) (item : Nat) : ItemIs × Dev :=
  let ss := sStride t.m
  let g := descRead d x item d.xmap.node (dfld x 0x18 0 48 + item * ss) ss
  match g.1 with
  | .wait => (.waits, g.2)
  | .fail c => itemFails g.2 x.r item c
  | .ok l =>
    let r := sideRec t.m 0 l
    let s := indexSlot g.2 n
    let seq := seqNext s.lastSeq
    if fld (leAt l 0 8) 0 48 != 0 || fld (leAt l 0 8) 50 14 != 0 || leAt l 10 2 != 0 || r.kind == 0 || r.kind == 3 || r.id == fillerId ||
        (r.kind == 2 && (r.list != 0 || !allZero r.codes)) then itemFails g.2 x.r item cUNSUP
    else if r.kind == 1 && t.nlist ≤ r.list then itemFails g.2 x.r item cLENGTH
    else if t.cap < seqGap s.mseq seq then itemFails g.2 x.r item cBUSY
    else
      let d1 := setIndex g.2 n { s with lastSeq := seq, open_ := s.open_ ++ [(seq, x.r, item)] }
      let d2 := onDesc (count d1 (pg 0x61 (n / 256)) 0x818) x.r (fun x => { x with marks := NMap.set 0 x.marks 0 (seq + 1) })
      (.done, descWrite d2 x item d.xmap.node (sidePlace t seq) (putAt l 0 (leBytes 6 seq)))

/-- APPEND. -/
def appendDesc (d : Dev) (r : DescRef) : Dev :=
  match engineDesc d r 0x40 0x20 with
  | none => d
  | some x =>
    let d1 := runDesc d r
    let n := soundSlot x
    let s := indexSlot d n
    let t := indexOf s.record
    let go (d : Dev) : Dev :=
      let d2 := runItems r (appendItem n t) (x.count - x.nextItem) d
      match descOf d2 r with
      | some y => appendDone d2 n y
      | none => d2
    if (qboundOf d r).isSome then go d1
    else unlessRefused d1 x (indexRefusals d x ++ codeIf (s.st != .free && !sideFast d t) cUNSUP ++
      codeIf (decide (dnum x 0x28 4 < x.count * sStride t.m)) cLENGTH ++ codeIf (decide (64 ≤ s.voids.length)) cBUSY)
      (fun d => go (bindIndex d x 0 s.vseq))

def execAppend (r : DescRef) (s : State) : Host.Outcome State Fault Refusal :=
  s.runReq (fun d => appendDesc d r)

/-- SIDE_RECORD_WRITTEN: the record is acknowledged, or its sequence is void. -/
def recordWritten (d : Dev) (n seq : Nat) : Dev :=
  let s := indexSlot d n
  match s.open_.find? (fun o => o.1 == seq) with
  | none => d
  | some (_, r, item) =>
    if itemBusy d r item then d
    else
      let ok := itemStatus d r item == cOK
      let s1 := { s with open_ := s.open_.filter (fun o => o.1 != seq), written := if ok then NSet.add s.written seq else s.written
                         voids := if ok then s.voids else NSet.add s.voids seq }
      let page := pg 0x61 (n / 256)
      let d1 := setIndex (if ok then d else raise (count d page 0x820) page 0) n (passSeqs (seqGap s1.vseq s1.lastSeq) s1)
      d1.descs.foldl (fun d x => if soundSlot x == n then appendDone d n x else d) d1

def execSideRecordWritten (bank slot seq : Nat) (s : State) : Host.Outcome State Fault Refusal :=
  s.runReq (fun d => recordWritten d (bank * 256 + slot) seq)

/-! ## MERGE (10 R329) -/

/-- A MERGE ends with a code; the slot is unchanged. -/
def mergeFails (d : Dev) (n : Nat) (r : DescRef) (code : Nat) : Dev :=
  finishDesc (noteItem (onIndex d n (fun s => { s with merging := none })) r 0 code) r

/-- The bytes of an entry. -/
def entryBytes (m : Nat) (e : Entry_) : List Byte := sub (leBytes 4 e.id ++ e.codes) 0 (eStride m)

/-- Read the tiles of lists as the device's own reads, whatever their tier. -/
def readPlainTiles (x : Desc) : List ListTile → Dev → Got × Dev
  | [], d => (.ok [], d)
  | t :: ts, d =>
    let a := descRead d x 0 d.xmap.node t.off 256
    let b := readPlainTiles x ts a.2
    (joinGot a.1 b.1, b.2)

/-- Cut the bytes of tiles into their entries. -/
def cutTiles (m : Nat) : List ListTile → List Byte → List Entry_
  | [], _ => []
  | t :: ts, l => tileEntries m t.n l ++ cutTiles m ts (l.drop 256)

/-- Places of lists: base and entries, from `base` on. -/
def placeLists (m : Nat) : List (List Entry_) → Nat → List (Nat × List Entry_)
  | [], _ => []
  | l :: ls, base => (base, l) :: placeLists m ls (base + ceilDiv l.length (perTile m) * 256)

/-- Write a list's tiles. -/
def writeList (x : Desc) (m base : Nat) (es : List Entry_) (d : Dev) : Dev :=
  let p := perTile m
  (List.range (ceilDiv es.length p)).foldl (fun d k =>
    descWrite d x 0 d.xmap.node (base + k * 256) (((es.drop (k * p)).take p).flatMap (entryBytes m))) d

/-- Count, place and write, from what has been read. -/
def mergeWrite (d : Dev) (x : Desc) (n : Nat) (t : Index) (q : QBound) (l dir side tiles : List Byte) : Dev :=
  let destDir := fld (leAt l 0 8) 0 48
  let lists := (List.range t.nlist).map (fun i => listTiles t.m (fld (leAt dir (16 * i) 8) 0 48) (leAt dir (16 * i + 8) 4))
  let recs := latestRecs ((sideSeqs q).zipIdx.map (fun p => sideRec t.m p.1 (sub side (p.2 * sStride t.m) (sStride t.m))))
  let cut := (lists.foldl (fun (p : List Byte × List (List Entry_)) ts =>
    (p.1.drop (256 * ts.length), p.2 ++ [cutTiles t.m ts p.1])) (tiles, [])).2
  let new := cut.zipIdx.map (fun p =>
    p.1.filter (fun e => e.id != fillerId && !recs.any (fun r => r.id == e.id)) ++
      (recs.filter (fun r => r.kind == 1 && r.list == p.2)).map (fun r => ({ id := r.id, codes := r.codes } : Entry_)))
  let area := fld (leAt l 8 8) 0 48
  let size := total (new.map (fun es => ceilDiv es.length (perTile t.m) * 256))
  if leAt l 0x10 8 < size then mergeFails d n x.r cLENGTH
  else
    let places := placeLists t.m new area
    let d1 := places.foldl (fun d p => writeList x t.m p.1 p.2 d) d
    let entries := places.flatMap (fun p => leBytes 8 p.1 ++ leBytes 8 p.2.length)
    let d2 := descWrite d1 x 0 d.xmap.node destDir entries
    onDesc d2 x.r (fun x => { x with table := l, nextItem := x.count, inbox := [] })

/-- Read all that a MERGE needs; then write. -/
def mergeRead (d : Dev) (x : Desc) (n : Nat) (q : QBound) (l : List Byte) : Dev :=
  let t := indexOf (indexSlot d n).record
  let node := d.xmap.node
  let r1 := descRead d x 0 node q.dir (t.nlist * 16)
  let r2 := readSide x 0 t (sideSeqs q) r1.2
  match joinGot r1.1 r2.1, r1.1, r2.1 with
  | .fail c, _, _ => mergeFails r2.2 n x.r c
  | .ok _, .ok dir, .ok side =>
    let ts := (List.range t.nlist).flatMap (fun i => listTiles t.m (fld (leAt dir (16 * i) 8) 0 48) (leAt dir (16 * i + 8) 4))
    let g := readPlainTiles x ts r2.2
    match g.1 with
    | .wait => g.2
    | .fail c => mergeFails g.2 n x.r c
    | .ok tiles => mergeWrite g.2 x n t q l dir side tiles
  | _, _, _ => r2.2

/-- The block of a MERGE's arguments has a reserved field that is not 0. -/
def mergeBlockBad (l : List Byte) : Bool :=
  fld (leAt l 0 8) 48 16 != 0 || fld (leAt l 8 8) 48 16 != 0 || fld (leAt l 8 8) 0 8 != 0 || !allZero (sub l 0x18 40)

/-- SOUND_MERGE: its checks and the binding of its slot, then its reads and writes. -/
def soundMerge (d : Dev) (r : DescRef) : Dev :=
  match engineDesc d r 0x40 0x21 with
  | none => d
  | some x =>
    let d1 := runDesc d r
    let n := soundSlot x
    let s := indexSlot d n
    let mine := s.merging.any (fun m => m.1 == r)
    let go (d : Dev) (b : List Byte) : Dev := match qboundOf d r with
      | some q => mergeRead d x n q b
      | none => d
    if s.merger == some r || (mine && x.count ≤ x.nextItem) then d1
    else if mine then go d1 x.params
    else
      let l := indexRefusals d x ++ codeIf (s.merging.isSome || s.oldVersion != 0) cBUSY
      withBlock d1 x (dfld x 0x18 0 48) 64 l (fun d b =>
        unlessRefused d x (l ++ codeIf (mergeBlockBad b) cUNSUP) (perform x (fun d =>
          let d2 := onIndex (onDesc d r (fun x => { x with params := b })) n
            (fun s => { s with merging := some (r, fld (leAt b 0 8) 0 48, s.vseq) })
          go (bindIndex d2 x s.version s.vseq) b)))

def execSoundMerge (r : DescRef) (s : State) : Host.Outcome State Fault Refusal :=
  s.runReq (fun d => soundMerge d r)

/-- SOUND_MERGE_SWITCH: every write is acknowledged; the slot takes the new directory, or the MERGE fails. -/
def mergeSwitch (d : Dev) (n : Nat) : Dev :=
  let s := indexSlot d n
  match s.merging with
  | none => d
  | some (r, dir, snap) =>
    match descOf d r with
    | none => d
    | some x =>
      if x.nextItem < x.count || descBusy d r then d
      else if itemStatus d r 0 != cOK then mergeFails d n r (itemStatus d r 0)
      else
        let v := if s.version == 0xFFFFFFFF then 1 else s.version + 1
        let rec1 := putAt (putAt s.record 0x10 (leBytes 8 dir)) 0x30 (leBytes 8 snap)
        setIndex (count d (pg 0x61 (n / 256)) 0x828) n
          { s with record := rec1, version := v, mseq := snap, voids := s.voids.filter (seqAfter snap)
                   oldVersion := s.version, merging := none, merger := some r }

def execSoundMergeSwitch (bank slot : Nat) (s : State) : Host.Outcome State Fault Refusal :=
  s.runReq (fun d => mergeSwitch d (bank * 256 + slot))

/-! ## PQ_SCAN (10 R331) -/

/-- One range. SNAP, VERSION and LISTS of its result block are not stated: free values. -/
def pqItem (table : List Nat) (d : Dev) (x : Desc) (item : Nat) : ItemIs × Dev :=
  let m := dfld x 0x20 0 7
  let k := dfld x 0x20 8 8
  let g := descRead d x item d.xmap.node (dfld x 0x28 0 48 + 16 * item) 16
  match g.1 with
  | .wait => (.waits, g.2)
  | .fail c => itemFails g.2 x.r item c
  | .ok l =>
    let base := fld (leAt l 0 8) 0 48
    let n := leAt l 8 4
    let onFlash := match extAt d base with
      | some e => e.e.tier == .flash
      | none => true
    if fld (leAt l 0 8) 48 16 != 0 || leAt l 12 4 != 0 || !onFlash then itemFails g.2 x.r item cUNSUP
    else
      let s := scanItem g.2 x { r := x.r, item := item, list := 0, tiles := [], m := m, k := k, table := table, filter := [] }
        (placeTiles [(0, listTiles m base n)])
      if s.1.waits then (.waits, s.2)
      else
        let v1 := freeVal s.2
        let v2 := freeVal v1.2
        let v3 := freeVal v2.2
        let d1 := if s.1.code == cOK then v3.2 else noteItem v3.2 x.r item s.1.code
        let blk : Block := { status := s.1.code, snap := v1.1 % 2 ^ 48, version := v2.1 % 2 ^ 32, lists := v3.1 % 2 ^ 32
                             entries := s.1.entries, best := s.1.best }
        (.done, dropFound (descWrite d1 x item d.xmap.node (dfld x 0x30 0 48 + item * rStride k) (blockBytes k blk)) x.r item)

/-- PQ_SCAN: the distance table is read once. -/
def pqScan (d : Dev) (r : DescRef) : Dev :=
  match engineDesc d r 0x60 1 with
  | none => d
  | some x =>
    let d1 := runDesc d r
    let m := dfld x 0x20 0 7
    let go (d : Dev) (x : Desc) : Dev := runAll d x (pqItem (unpackElems 32 (m * 256) 0 x.table))
    if !x.table.isEmpty then go d1 x
    else if x.count == 0 then unlessRefused d1 x [] (fun d => finishDesc d r)
    else withBlock d1 x (dfld x 0x18 0 48) (m * 1024) [] (fun d l =>
      unlessRefused d x [] (fun d => go (onDesc d r (fun x => { x with table := l })) { x with table := l }))

def execPqScan (r : DescRef) (s : State) : Host.Outcome State Fault Refusal :=
  s.runReq (fun d => pqScan d r)

/-! ## Registers (10 R332-R334) -/

def soundSel (d : Dev) (bank : Nat) : IndexSlot := indexSlot d (bank * 256 + fld (reg d (pg 0x61 bank + 0x100)) 0 8)

def readSoundData (d : Dev) (bank i : Nat) : Nat := leAt (soundSel d bank).record (8 * i) 8

def readSoundStat (d : Dev) (bank : Nat) : Nat :=
  let s := soundSel d bank
  let t := indexOf s.record
  match s.st with
  | .free => 0
  | st =>
    (if st == .freeing then 3 else if s.oldVersion != 0 then 2 else 1) + s.job * 2 ^ 2 + t.reader * 2 ^ 14 + b2n t.readerEn * 2 ^ 26 +
      b2n s.merging.isSome * 2 ^ 27 + s.voids.length % 128 * 2 ^ 28

end Sys2Proof.Machine
end

