-- ==== Sys2Proof/Machine/Tow.lean ====
section
/-! DEFINITION. The Tow's descriptors (03 R102-R111): MOVE, PIN, UNPIN, PERSIST, the phases of a move, and the drain of the
flash staging area (03 R97). -/

namespace Sys2Proof.Machine

open Sys2Proof

/-! ## Descriptors and items -/

/-- Whole-descriptor refusals of a Tow descriptor (03 R102). -/
def towRefusals (x : Desc) : List Nat :=
  let resv := dfld x 0x18 48 16 != 0 || dfld x 0x20 34 30 != 0 || !allZero (sub x.raw 0x28 24)
  codeIf (resv || x.opcode == 0 || decide (4 < x.opcode)) cUNSUP ++ codeIf (decide (dnum x 0x20 4 < x.count * 16)) cLENGTH

/-- A Tow item (03 R103). -/
structure TowItem where
  off : Nat
  destBase : Nat
  destTier : Nat
  bad : Bool
  deriving DecidableEq, Repr

def towItem (l : List Byte) : TowItem :=
  let a := leAt l 0 8
  let b := leAt l 8 8
  { off := fld a 0 48, destBase := fld b 0 26, destTier := fld b 26 3,
    bad := fld a 0 21 != 0 || fld a 48 16 != 0 || fld b 29 35 != 0 || decide (3 < fld b 26 3) }

/-- The job is the extent's owner or its guest. -/
def holdsExtent (x : Extent) (job : Nat) : Bool :=
  x.e.ownerJob == job || (x.e.guestJob == job && x.e.guestRights != 0)

/-- Conditions 1 to 3 of 03 R104 on an item, or its extent. -/
def towExtent (d : Dev) (x : Desc) (t : TowItem) (write : Bool) : Nat × Option Extent :=
  if t.bad then (cUNSUP, none)
  else match extOf d (t.off / 2 ^ 21) with
    | none => (cDENIED, none)
    | some e =>
      if !(if write then hasRights e x.job true else holdsExtent e x.job) then (cDENIED, none)
      else if e.revoking then (cREVOKED, none)
      else (cOK, some e)

/-- Read an item of a Tow descriptor and do something with its extent. -/
def onTowItem (write : Bool) (k : Dev → TowItem → Extent → Dev × Nat) (d : Dev) (x : Desc) (item : Nat) : ItemIs × Dev :=
  let g := descRead d x item d.xmap.node (dfld x 0x18 0 48 + 16 * item) 16
  match g.1 with
  | .wait => (.waits, g.2)
  | .fail c => itemFails g.2 x.r item c
  | .ok l =>
    let t := towItem l
    match towExtent g.2 x t write with
    | (_, some e) =>
      -- a location homed in a bank that is held in reset (01 R27)
      let s := if g.2.sys.westHeld && extBank e == 1 then (g.2, cDEGRADED) else k g.2 t e
      if s.2 == cOK then (.done, s.1) else itemFails s.1 x.r item s.2
    | (c, none) => itemFails g.2 x.r item c

/-- Run a Tow descriptor's items; the Tow's queues end it. -/
def runTow (d : Dev) (r : DescRef) (opcode : Nat) (write : Bool) (k : Desc → Nat → Dev → TowItem → Extent → Dev × Nat) : Dev :=
  match engineDesc d r 0x50 opcode with
  | none => d
  | some x =>
    towFinish (runItems r (fun d x i => onTowItem write (k x i) d x i) (x.count - x.nextItem) (runDesc d r))

/-! ## MOVE -/

/-- MOVE items that wait in a bank's queue (03 R109). -/
def queuedMoves (d : Dev) (bank : Nat) : Nat := (d.tiers.moves.filter (fun m => m.bank == bank && !moveRuns m)).length

/-- A MOVE item arrives at the Tow of its extent's home bank; an extent of an open snapshot slot stays (08 R278). Where that refusal stands
among the rows of 03 R104 is open: it comes before row 4 (DESIGN CHOICE, log 159). -/
def moveItem (x : Desc) (item : Nat) (d : Dev) (t : TowItem) (e : Extent) : Dev × Nat :=
  let tier := tierOf t.destTier
  let bank := extBank e
  let flags := dnum x 0x24 4
  if snapUses d e.e.base then (d, cBUSY)
  else if tier == e.e.tier && (moveHead d e.e.base).isNone then (movePin d (bit flags 0) bank x.job e.e.base, cOK)
  else
    let c := if tier == e.e.tier then cOK else destCode d e tier t.destBase
    if c != cOK then (d, c)
    else if 4096 ≤ queuedMoves d bank then (d, cBUSY)
    else
      let m : MoveItem := { r := x.r, item := item, bank := bank, base := e.e.base, job := x.job, destTier := tier,
                            destBase := t.destBase, pin := bit flags 0, waitPins := bit flags 1, phase := .queued }
      ({ d with tiers.moves := d.tiers.moves ++ [m] }, cOK)

def execMove (r : DescRef) (s : State) : Host.Outcome State Fault Refusal :=
  s.runReq (fun d => runTow d r 1 false moveItem)

/-! ## Pins (03 R110) -/

def execPin (r : DescRef) (s : State) : Host.Outcome State Fault Refusal :=
  s.runReq (fun d => runTow d r 2 false (fun x _ d _ e => addPin d (extBank e) x.job e.e.base))

/-- Take one pin off. -/
def unpinItem (x : Desc) (_ : Nat) (d : Dev) (_ : TowItem) (e : Extent) : Dev × Nat :=
  (setPin d (extBank e) x.job e.e.base (pinCount d x.job e.e.base - 1), cOK)

def execUnpin (r : DescRef) (s : State) : Host.Outcome State Fault Refusal :=
  s.runReq (fun d => runTow d r 3 false unpinItem)

/-! ## PERSIST and the staging area (03 R97, R105) -/

/-- A PERSIST item waits while a tile of its extent is staged. -/
def persistItem (x : Desc) (item : Nat) (d : Dev) (_ : TowItem) (e : Extent) : Dev × Nat :=
  if stagedTiles d e then
    ({ d with tiers.persists := d.tiers.persists ++ [{ r := x.r, item := item, base := e.e.base }] }, cOK)
  else (d, cOK)

def execPersist (r : DescRef) (s : State) : Host.Outcome State Fault Refusal :=
  s.runReq (fun d => runTow d r 4 true persistItem)

/-- Write the staged tiles of a bank to flash. -/
def drainStage (d : Dev) (bank : Nat) : Dev :=
  let d1 := (d.tiers.staged.filter (fun t => t.bank == bank)).foldl drainTile d
  { d1 with tiers.staged := d1.tiers.staged.filter (fun t => t.bank != bank) }
where
  /-- One tile; a granule that cannot be corrected in the staging area is found so, and stays poisoned (03 R80). -/
  drainTile (d : Dev) (t : StagedTile) : Dev :=
    let bad := (granulesIn t.addr 0 256).filter (faulty d)
    let found (d : Dev) (g : Nat) : Dev :=
      let d1 := nearUe d { off := 0 } t.bank g
      { d1 with tiers.faults := NSet.del d1.tiers.faults g }
    toFlash (bad.foldl found d) t

/-- Stores that wait in the table come again once there is room, the cycles of their stalls added up (03 R97, R115). -/
def wakeStage (d : Dev) (bank : Nat) : Dev :=
  let mine := d.flying.filter (fun f => f.homeBank == bank && (match f.wait with | .stage _ _ => true | _ => false))
  mine.foldl (fun d f => match flyingOf d f.id, extOf d f.base with
    | some f, some x =>
      if stageRoom d bank (extCell d x (f.q.h.offset.toNat / 256 * 256)) then attempt (setWait (leaveTable d f x) f.id .quay) f.id false else d
    | _, _ => d) d

/-- FLASH_STAGE_DRAIN. -/
def execFlashStageDrain (bank : Nat) (s : State) : Host.Outcome State Fault Refusal :=
  s.runReq (fun d => wakeStage (drainStage d bank) bank)

/-! ## The phases of a move (03 R106-R108) -/

/-- The switch phase: requests that reach test 4 are held. -/
def toSwitch (d : Dev) (m : MoveItem) : Dev :=
  onMove (onExt d m.base (fun x => { x with held := true })) m.r m.item (fun m => { m with phase := .switching })

/-- MOVE_COPY_DONE: another pass, or the switch. A pass that still waits for the host is not done. -/
def copyDone (d : Dev) (base : Nat) : Dev :=
  match runningMove d base, extOf d base with
  | some m, some x =>
    let passes := reg d (pg 0x33 m.bank + 0x120)
    let next (k : Nat) : Dev :=
      if m.marked.length < 4096 || passes < k then toSwitch d m
      else onMove d m.r m.item (fun m => { m with
        phase := .recopy k, marked := [], again := if x.e.tier == .host then m.marked else [] })
    if !copyPassed x m then d
    else match m.phase with
      | .copy => next 1
      | .recopy k => next (k + 1)
      | _ => d
  | _, _ => d

def execMoveCopyDone (base : Nat) (s : State) : Host.Outcome State Fault Refusal :=
  s.runReq (fun d => copyDone d base)

/-- Copy a tile in its stored form to the destination: the code of what fails, and the device. -/
def moveTile (x y : Extent) (d : Dev) (tile : Nat) : Nat × Dev :=
  let off := extBase x + tile * 256
  let dst := extCell d y off
  let zeros := List.replicate 256 (0 : Byte)
  let src : Nat × List Byte × Dev :=
    -- a tile that reads as zero is zero at the destination, where ZERO is cleared: encrypted, in an encrypted extent
    if zeroTile x off then
      (cOK, (match keysOf d x with | some k => xtsTile true k.data k.tweak (off / 256) zeros | none => zeros), d)
    else readGranules { off := off, berth := x.e.berth } (granulesIn (extCell d x off) 0 256) d
  if src.1 != cOK then (if src.1 == cTIER then cTIER else cUNCORR, src.2.2)
  else
    let bad := (granulesIn dst 0 256).any (fun g => wholeCheck src.2.2 g != cOK)
    if bad || !tierUp src.2.2 y.e.tier (extBank y) then (cTIER, src.2.2)
    else
      let d1 := storeGranules (touched dst 0 256 src.2.1) src.2.2
      if y.e.tier == .host then
        (cOK, emit d1 (.hostWrite (extBank y) (dst - (hostBase + extBank y * 2 ^ 58)) src.2.1))
      else (cOK, d1)

/-- Copy tiles in rising order until one fails. -/
def moveTiles (x y : Extent) : List Nat → Dev → Nat × Dev
  | [], d => (cOK, d)
  | t :: ts, d =>
    let r := moveTile x y d t
    if r.1 == cOK then moveTiles x y ts r.2 else r

/-- The source's staged tiles go with the source. -/
def dropStaged (d : Dev) (x : Extent) : Dev :=
  let first := extCell d x (extBase x)
  { d with tiers.staged := d.tiers.staged.filter (fun t => !(x.e.tier == .flash && decide (first ≤ t.addr) && decide (t.addr < first + extBytes x))) }

/-- MOVE_SWITCH: every request that passed before the hold is acknowledged, no line is owned and no accumulator open, and the host
has answered every read; the tiles are at the destination, TIER and LOCAL_BASE change, ZERO is cleared, the read-side caches drop the
extent and the held requests go on (03 R106, R107; 04 R124; 05 R158, R169). The destination's range is checked as the move starts and not
again here (DESIGN CHOICE, log 159). -/
def moveSwitch (d : Dev) (base : Nat) : Dev :=
  match runningMove d base, extOf d base with
  | some m, some x =>
    if m.phase != .switching || drainCount d base != 0 || !extQuiet d x || !copyPassed x m ||
        (x.e.tier == .host && !m.marked.isEmpty) then d
    else
      let y := { x with e := { x.e with tier := m.destTier, localBase := m.destBase, zero := false }, written := [] }
      if !tierUp d x.e.tier m.bank then abandonMove d m cTIER
      else
        let r := moveTiles x y (List.range (extBytes x / 256)) d
        if r.1 != cOK then abandonMove r.2 m r.1
        else
          let d1 := onExt (dropStaged r.2 x) base (fun z => { y with held := z.held, moving := z.moving })
          let d2 := movePin (cacheDrop d1 (fun c => covers x c.offset)) m.pin m.bank m.job base
          endHold (endMove d2 m cOK) y
  | _, _ => d

def execMoveSwitch (base : Nat) (s : State) : Host.Outcome State Fault Refusal :=
  s.runReq (fun d => towFinish (moveSwitch d base))

/-- MOVE_ABANDON (03 R108). -/
def execMoveAbandon (base : Nat) (why : MoveFailure) (s : State) : Host.Outcome State Fault Refusal :=
  s.runReq (fun d => match runningMove d base with
    | some m => towFinish (abandonMove d m (match why with | .sourceUnreadable => cUNCORR | _ => cTIER))
    | none => d)

/-- TOW_PIN_WAIT_EXPIRY (03 R111): the eviction completes with BUSY_RETRY, and the queue moves up. -/
def pinWaitExpiry (d : Dev) (base : Nat) : Dev :=
  match moveHead d base with
  | none => d
  | some m =>
    match m.phase with
    | .pinWait since =>
      if pinned d base then endMove (advanceTo d (since + reg d (pg 0x33 m.bank + 0x118))) m cBUSY else d
    | _ => d

def execTowPinWaitExpiry (base : Nat) (s : State) : Host.Outcome State Fault Refusal :=
  s.runReq (fun d => towFinish (towOn (pinWaitExpiry d base)))

end Sys2Proof.Machine
end

