-- ==== Sys2Proof/Machine/Rings.lean ====
section
/-! DEFINITION. Ring sequencers (02 R67-R72): the fetch of a descriptor and its whole-descriptor checks (00 R21), the
no-op, and completion: status vector, record, consumer index, notification. -/

namespace Sys2Proof.Machine

open Sys2Proof

/-! ## The sequencer's own accesses (02 R71) -/

/-- Items that stand for a descriptor's completion record and status vector. -/
def recordKey : Nat := 2 ^ 40 + 1

def vectorKey : Nat := 2 ^ 41

/-- Slot of an index in its ring. -/
def slotIn (g : Ring) (index : Nat) : Nat := index % 2 ^ g.log2Size

/-- Write under the ring's job, with that job's current tide number. -/
def seqWrite (d : Dev) (r : DescRef) (job item node off : Nat) (data : List Byte) : Dev :=
  writePieces r item job (jobOf d job).tide node (tilePieces off data.length) data d

/-- A ring stops at a slot with a code (02 R71; 17 R523, R541). An access that fails on a ring already stopped takes the place of
the one recorded (log 125). -/
def stopRing (d : Dev) (r : DescRef) (code : Nat) : Dev :=
  let g := ringOf d r.berth r.ring
  raiseFe (setRing d r.berth r.ring { g with stopped := true, code := code, slot := slotIn g r.index })
    (pg 0x21 (bankOfBerth r.berth)) 1 (feUnit (r.berth * 64 + r.ring) code)

/-- A completion's write has failed: the ring stops, but for a descriptor of a configuration that has been replaced (log 94). -/
def stopFor (d : Dev) (x : Desc) (code : Nat) : Dev := if x.cfg.isSome then d else stopRing d x.r code

/-- A descriptor is gone; where it has kept a ring or queue sets that left its berth, the berth's holdings are brought up to now
(02 R62; 12 R397). -/
def dropDesc (d : Dev) (r : DescRef) : Dev :=
  let b := berthOf d r.berth
  let kept := decide (b.rings ≤ r.ring) || d.descs.any (fun x => x.r == r && decide (b.qsets < x.qsets))
  let d := if kept then accrue d r.berth else d
  { d with descs := d.descs.filter (fun x => x.r != r) }

/-- A descriptor begins to be fetched; a ring that has left its berth is held by it again (02 R62; 12 R397). -/
def addDesc (d : Dev) (x : Desc) : Dev :=
  let d := if (berthOf d x.r.berth).rings ≤ x.r.ring then accrue d x.r.berth else d
  { d with descs := d.descs ++ [x] }

/-! ## DESCRIPTOR_FETCH -/

/-- A descriptor as its 64 bytes spell it (02 R68). -/
def descOfBytes (r : DescRef) (l : List Byte) : Desc :=
  let a := leAt l 0 8
  { r := r, id := fld a 0 16, engine := fld a 16 8, opcode := fld a 24 8, job := fld a 32 12, sv := bit a 44, notify := bit a 45,
    order := bit a 46, count := leAt l 0xC 4, svRef := leAt l 0x10 4, tide := leAt l 8 4, epoch := fld a 48 16, raw := l }

/-- Refusals that the engine-specific bytes show. -/
def engineRefusals (x : Desc) : List Nat :=
  match x.engine with
  | 0x01 => codeIf (x.opcode != 0 || !allZero (sub x.raw 0x18 40)) cUNSUP
  | 0x10 => raftRefusals x
  | 0x20 => trainRefusals x
  | 0x30 => purserRefusals x
  | 0x40 => soundRefusals x
  | 0x50 => towRefusals x
  | 0x60 => puntRefusals x
  | _ => [cUNSUP]

/-- Whole-descriptor refusals as the sequencer finds them (00 R21; 02 R68, R69; 14 R440, R441; 16 R494). -/
def seqRefusals (d : Dev) (x : Desc) : List Nat :=
  let g := ringOf d x.r.berth x.r.ring
  codeIf (d.sys.phase != .none) cABORTED ++
  codeIf (d.salv.fencedOut || x.tide != (jobOf d g.job).tide) cFENCED ++
  codeIf (x.job != g.job) cDENIED ++
  codeIf (epochIs d x.epoch != .resolvable) cSTALE ++
  codeIf (bit (leAt x.raw 4 4) 15 || leAt x.raw 0x14 4 != 0) cUNSUP ++
  codeIf (x.sv && decide (0 < x.count) && decide (g.svLen * 65536 < x.svRef * 64 + x.count)) cLENGTH ++
  engineRefusals x

/-- Engines that may find a refusal whole which comes before one that the fetch has found: of a slot, a record, an image, an
argument block (00 R21). -/
def engineDecides (x : Desc) : Bool :=
  match x.engine with
  | 0x10 => x.opcode == 2
  | 0x20 => [1, 2, 3, 0x10, 0x11].contains x.opcode
  | 0x30 => [1, 2, 3, 0x10, 0x11, 0x20].contains x.opcode
  | 0x40 => [1, 2, 0x10, 0x11, 0x20, 0x21].contains x.opcode
  | 0x60 => x.opcode == 1
  | _ => false

/-- Admit a fetched descriptor, or refuse it whole: at once, unless its engine may find a code that comes first. -/
def admitDesc (d : Dev) (r : DescRef) (l : List Byte) : Dev :=
  let x := descOfBytes r l
  let g := ringOf d r.berth r.ring
  let codes := seqRefusals d x
  let d1 := setRing (onDesc d r (fun _ => { x with qsets := (berthOf d r.berth).qsets, pre := codes })) r.berth r.ring
    { g with fetched := (r.index + 1) % 2 ^ 32 }
  match firstRefusal codes with
  | none => d1
  | some c => if engineDecides x && c != cABORTED && c != cFENCED && c != cDENIED then d1 else refuseDesc d1 r c

/-- Fetch the next descriptor of a ring: the read may have to wait, and a failed one stops the ring. -/
def fetchDesc (d : Dev) (berth ring : Nat) : Dev :=
  let g := ringOf d berth ring
  let r : DescRef := { berth := berth, ring := ring, index := g.gen * 2 ^ 32 + g.fetched }
  if !bankLive d (bankOfBerth berth) || !g.enable || g.stopped || g.fetched == g.producer then d
  else
    let blank : Desc := { r := r, id := 0, engine := 0, opcode := 0, job := g.job, sv := false, notify := false, order := false,
                          count := 0, svRef := 0, tide := 0, epoch := 0, raw := [], phase := .fetching }
    let d1 := if (descOf d r).isNone then addDesc d blank else d
    let a := engRead r fetchKey g.job (jobOf d g.job).tide d.xmap.node (g.descBase + slotIn g r.index * 64) 64 d1
    match a.1 with
    | .wait => a.2
    | .fail c => stopRing (dropDesc a.2 r) r c
    | .ok l => admitDesc a.2 r l

def execDescriptorFetch (berth ring : Nat) (s : State) : Host.Outcome State Fault Refusal :=
  s.runReq (fun d => fetchDesc d berth ring)

/-- RING_CONTROL_NOOP: nothing is done. -/
def execRingControlNoop (r : DescRef) (s : State) : Host.Outcome State Fault Refusal :=
  s.runReq (fun d => match engineDesc d r 0x01 0 with
    | some _ => finishDesc d r
    | none => d)

/-! ## DESCRIPTOR_COMPLETE (00 R20, R21; 02 R70-R72; 01 R36) -/

/-- Status codes of a descriptor's items, in order. -/
def itemCodes (x : Desc) : List Nat := (List.range x.count).map (fun i => NMap.get 0 x.statuses i)

/-- STATUS of a record. -/
def recordStatus (x : Desc) : Nat :=
  match x.refused with
  | some c => c
  | none =>
    let l := itemCodes x
    if l.all (fun c => c == cOK) then cOK
    else if l.all (fun c => c == l.headD 0) then l.headD 0
    else cPARTIAL

/-- A status vector is written for a descriptor that performs its items. -/
def hasVector (x : Desc) : Bool := x.sv && x.refused.isNone && decide (0 < x.count)

/-- The 16 bytes of a record. -/
def recordBytes (g : Ring) (x : Desc) : List Byte :=
  let l := if x.refused.isSome then [] else itemCodes x
  let done := (l.filter (fun c => c == cOK)).length
  let first := (l.findIdx? (fun c => c != cOK)).getD 0
  let phase := b2n (x.r.index / 2 ^ g.log2Size % 2 == 0)
  leBytes 2 x.id ++ [byte (recordStatus x), byte (phase + 2 * b2n (hasVector x))] ++ leBytes 4 done ++ leBytes 4 first ++
    leBytes 4 (if hasVector x then x.svRef else 0)

/-- The consumer index moves past slots whose records have been written. -/
def advance : Nat → Ring → Ring
  | 0, g => g
  | k + 1, g =>
    if NSet.mem g.recorded g.consumer then
      advance k { g with recorded := NSet.del g.recorded g.consumer, consumer := (g.consumer + 1) % 2 ^ 32 }
    else g

/-- Send a notification by MSI-X: function 0 or an absent vector sets DB_BAD (13 R413; log 150). -/
def notifyMsix (d : Dev) (r : DescRef) (a : Nat) : Dev :=
  let fn := fld a 59 3
  let vec := fld a 0 11
  if fn == 0 || !vectorThere fn vec then doorbellBad d r.berth r.ring
  else sendMsix d (b2n (bit a 62)) fn vec

/-- Send a notification store: to this node at once, to another through a Landing (02 R72; 11 R363). -/
def notifyStore (d : Dev) (x : Desc) (g : Ring) (a : Nat) : Dev :=
  let r := x.r
  let node := fld a 48 14
  let off := fld a 0 48
  let data := leBytes 8 (slotIn g r.index)
  let tide := (jobOf d g.job).tide
  if !d.wharf.epValid then notifyDone d r.berth r.ring cBUSY
  else if node == d.xmap.node then engWrite r notifyKey g.job tide .wr 0 node off data d
  else if d.salv.fencedOut then notifyDone d r.berth r.ring cFENCED
  else
    let id := d.salv.nextReq % 65536
    let h := engHdr d r g.job tide 0 node off 8 id data
    let ld := reqLand d r.berth off
    let d1 := sendOn d ld (if ld / 8 == bankOfBerth r.berth then 17 else 9) 4 (2 + spanSlots off 8) (some r.berth) g.job false false
      (.req .wr h data) 0 x.qsets
    let now := ringOf d1 r.berth r.ring
    let o : OutReq := { reqId := id, berth := r.berth, landing := ld, node := node, offset := off, len := 8, op := .wr, h := h, data := data }
    setRing { d1 with salv.nextReq := d1.salv.nextReq + 1 } r.berth r.ring { now with notes := now.notes ++ [o] }

/-- The ring's notification. -/
def notify (d : Dev) (x : Desc) : Dev :=
  let g := ringFor d x
  let a := g.notifyAddr.toNat
  if !x.notify || a == 0 then d
  else if bit a 63 then notifyMsix d x.r a
  else notifyStore d x g a

/-- The record is visible: the slot may be reused, the descriptor binds nothing any more. Each record has a notification of its own,
although 02 R72 lets records completed together share one (DESIGN CHOICE, log 154). -/
def recorded (d : Dev) (x : Desc) : Dev :=
  let g := ringOf d x.r.berth x.r.ring
  let d1 := dropDesc (unbind d x.r) x.r
  if x.cfg.isSome then notify d1 x
  else
    let g1 := advance (d.descs.length + g.recorded.length + 1) { g with recorded := NSet.add g.recorded (x.r.index % 2 ^ 32) }
    notify (setRing d1 x.r.berth x.r.ring g1) x

/-- One stage of a completion: the status vector, the record, then its end. Each write must have been acknowledged before
the next (01 R36); a failed one stops the ring. -/
def completeStage (d : Dev) (r : DescRef) : Dev :=
  match descOf d r with
  | none => d
  | some x =>
    if x.phase != .finished || descBusy d r || !bankLive d (bankOfBerth r.berth) then d
    else
      let g := ringFor d x
      let fails (key : Nat) : Nat := NMap.get 0 x.statuses key
      match x.stage with
      | 0 =>
        let d1 := onDesc (foldShards (foldDone (foldBags d x) x) x) r (fun x => { x with stage := 1 })
        match descOf d1 r with
        | none => d1
        | some y =>
          if hasVector y then seqWrite d1 r g.job vectorKey d.xmap.node (g.svBase + y.svRef * 64) ((itemCodes y).map byte) else d1
      | 1 =>
        if fails vectorKey != 0 then stopFor (dropDesc (unbind d r) r) x (fails vectorKey)
        else seqWrite (onDesc d r (fun x => { x with stage := 2 })) r g.job recordKey d.xmap.node (g.cplBase + slotIn g r.index * 16)
          (recordBytes g x)
      | _ =>
        if fails recordKey != 0 then stopFor (dropDesc (unbind d r) r) x (fails recordKey)
        else recorded d x

/-- DESCRIPTOR_COMPLETE: as far as the writes' acknowledgements let it go. -/
def execDescriptorComplete (r : DescRef) (s : State) : Host.Outcome State Fault Refusal :=
  s.runReq (fun d => completeStage (completeStage (completeStage d r) r) r)

end Sys2Proof.Machine
end

