-- ==== Sys2Proof/Machine/Snapshot.lean ====
section
/-! DEFINITION. Snapshots (08 R272-R282): opening, the consistency point, the copying, sealing and dropping. Slots are numbered
bank × 16 + slot. -/

namespace Sys2Proof.Machine

open Sys2Proof

/-- Slot of a snapshot descriptor. -/
def slotOfDesc (x : Desc) : Nat := bankOfBerth x.r.berth * 16 + dfld x 0x24 0 4

/-! ## SNAP_OPEN (08 R273-R275) -/

/-- An item of the list: SRC, BOUNCE and DEST in 2 MiB units, and whether it is malformed. -/
structure SnapArg where
  src : Nat
  bounce : Nat
  dest : Nat
  bad : Bool
  deriving DecidableEq, Repr

def snapArg (l : List Byte) : SnapArg :=
  let w (i : Nat) : Nat := leAt l (8 * i) 8
  let off (i : Nat) : Nat := fld (w i) 21 27
  { src := off 0, bounce := off 1, dest := off 2
    bad := leAt l 0x18 8 != 0 || [0, 1, 2].any (fun i => fld (w i) 0 21 != 0 || fld (w i) 48 16 != 0) }

/-- The extents an item names. -/
def snapBases (a : SnapArg) : List Nat := [a.src, a.dest] ++ (if a.bounce == 0 then [] else [a.bounce])

def fastTier (t : Tier) : Bool := t == .near || t == .stack

/-- The status of an item by 08 R274; `all` are the extents that the whole list names. -/
def snapCode (d : Dev) (x : Desc) (all : List Nat) (a : SnapArg) : Nat :=
  let bank := bankOfBerth x.r.berth
  if a.bad then cUNSUP
  else match extOf d a.src, extOf d a.dest, (if a.bounce == 0 then extOf d a.src else extOf d a.bounce) with
    | some s, some t, some b =>
      let es := [s, t] ++ (if a.bounce == 0 then [] else [b])
      if !hasRights s x.job false || !hasRights t x.job true || (a.bounce != 0 && !hasRights b x.job true) then cDENIED
      else if !fastTier s.e.tier || t.e.tier != .flash || !fastTier b.e.tier || es.any (fun e => e.e.size != s.e.size) ||
          es.any (fun e => extBank e != bank) || (snapBases a).any (fun n => decide (1 < (all.filter (fun m => m == n)).length)) then cUNSUP
      else if es.any (·.revoking) then cREVOKED
      else if es.any (fun e => e.token != .owned || e.moving || snapUses d e.e.base) then cBUSY
      else cOK
    | _, _, _ => cDENIED

/-- Requests to a source are held; from then on its accumulators are written back and its owned lines recalled (08 R275; see
`quietHeld`). -/
def holdSource (d : Dev) (base : Nat) : Dev := onExt d base (fun x => { x with held := true })

/-- Zero a byte range of this node for a descriptor, under an item number of its own. -/
def zeroBitmap (d : Dev) (x : Desc) (bytes : Nat) : Dev :=
  descWrite d x (2 ^ 42) d.xmap.node (dfld x 0x28 0 48) (List.replicate bytes 0)

/-- Open a slot with the items that pass. -/
def openSlot (d : Dev) (x : Desc) (args : List SnapArg) : Dev :=
  let all := args.flatMap snapBases
  let codes := args.map (snapCode d x all)
  let d1 := (codes.zipIdx).foldl (fun d p => if p.1 == cOK then d else noteItem d x.r p.2 p.1) d
  let good := ((args.zip codes).filter (fun p => p.2 == cOK)).map Prod.fst
  if good.isEmpty then finishDesc d1 x.r
  else
    let items := good.map (fun a =>
      let i : SnapItem := { src := a.src, bounce := a.bounce, dest := a.dest
                            tiles := match extOf d a.src with | some e => extBytes e / 256 | none => 0 }
      i)
    let n := slotOfDesc x
    let d2 := accrue d1 x.r.berth
    let d3 := onSnap d2 n (fun _ =>
      { st := .holding, job := x.job, berth := x.r.berth, bitmap := dfld x 0x28 0 48, since := d.sys.ltc, items := items
        opener := some x.r })
    let d4 := zeroBitmap d3 x (dnum x 0x30 4)
    (good.map (·.src)).foldl holdSource d4

/-- SNAP_OPEN. -/
def snapOpen (d : Dev) (r : DescRef) : Dev :=
  match engineDesc d r 0x20 0x10 with
  | none => d
  | some x =>
    let d1 := runDesc d r
    let n := slotOfDesc x
    let busy := codeIf ((snapSlot d n).st != .free) cBUSY
    if (snapSlot d n).opener == some r then d1
    else if x.count == 0 then unlessRefused d1 x busy (fun d => finishDesc d r)
    else withBlock d1 x (dfld x 0x18 0 48) (32 * x.count) busy (fun d l =>
      let args := (List.range x.count).map (fun i => snapArg (sub l (32 * i) 32))
      let need := total (args.map (fun a => match extOf d a.src with | some e => extBytes e / 2048 | none => 0))
      unlessRefused d x (codeIf (decide (dnum x 0x30 4 < need)) cLENGTH ++ busy) (fun d => openSlot d x args))

def execSnapOpen (r : DescRef) (s : State) : Host.Outcome State Fault Refusal :=
  s.runReq (fun d => snapOpen d r)

/-! ## The consistency point (08 R275) -/

/-- Nothing ordered before the hold is left on a source. -/
def sourceQuiet (d : Dev) (base : Nat) : Bool :=
  match extOf d base with
  | none => true
  | some x => drainCount d base == 0 && extQuiet d x

/-- The bitmap's zeroes have been written. -/
def bitmapZero (d : Dev) (s : SnapSlot) : Bool :=
  match s.opener with
  | some r => !descBusy d r
  | none => true

/-- Held requests of an extent go on. -/
def unhold (d : Dev) (base : Nat) : Dev := releaseHeld (onExt d base (fun x => { x with held := false })) base

/-- SNAP_POINT: the point is taken, the held requests go on, SNAP_OPEN completes. -/
def snapPoint (d : Dev) (n : Nat) : Dev :=
  let s := snapSlot d n
  let srcs := s.items.map (·.src)
  if s.st != .holding || s.dropper.isSome || !srcs.all (sourceQuiet d) || !bitmapZero d s then d
  else
    let d1 := onSnap (count d (pg 0x33 (n / 16)) 0x858 (d.sys.ltc - s.since)) n (fun s => { s with st := .copying, opener := none })
    let d2 := srcs.foldl unhold d1
    match s.opener with
    | some r => finishDesc d2 r
    | none => d2

def execSnapPoint (bank slot : Nat) (s : State) : Host.Outcome State Fault Refusal :=
  s.runReq (fun d => snapPoint d (bank * 16 + slot))

/-! ## Copying and draining (08 R276, R277) -/

/-- Requests of the Tow in flight for a slot. -/
def snapFlying (d : Dev) (slot : Nat) : List Flying :=
  d.flying.filter (fun f => match f.q.origin with | .snap n _ _ _ => n == slot | _ => false)

/-- The Tow reads a tile of an extent for an item, as memory holds it; a tile that is missing is reconstructed from peers first
(08 R276; 14 R436, R452). What it has read is in `formed` once the read has been answered. -/
def snapRead (d : Dev) (x : Extent) (slot item tile job : Nat) (part : SnapPart) : Dev :=
  let mine (f : Flying) : Bool := f.q.origin == .snap slot item tile part
  if (snapSlot d slot).formed.any (fun g => g.item == item && g.tile == tile) || d.flying.any mine then d
  else attemptOwn (ownReq d x .rd (extBase x + tile * 256) 256 [] (.snap slot item tile part) job) d.nextFlying

/-- What has been read of a tile. -/
def snapGot (d : Dev) (slot item tile : Nat) : Option SnapGot :=
  (snapSlot d slot).formed.find? (fun g => g.item == item && g.tile == tile)

/-- The Tow writes bytes for an item: a write of the device, with the copies and deltas of a protected extent (08 R276; 14 R445). -/
def snapWrite (d : Dev) (x : Extent) (off : Nat) (l : List Byte) (slot item tile job : Nat) (part : SnapPart) : Dev :=
  attempt (ownWrite d x off l (.snap slot item tile part) job) d.nextFlying true

/-- What has been read of a tile goes on to an extent, or the tile is lost where it could not be read (08 R277). -/
def snapOnward (d : Dev) (x : Extent) (g : SnapGot) (slot job : Nat) (part : SnapPart) : Dev :=
  let d1 := onSnap d slot (fun s => { s with formed := s.formed.filter (fun h => !(h.item == g.item && h.tile == g.tile)) })
  if g.status == cOK then snapWrite d1 x (extBase x + g.tile * 256) g.data slot g.item g.tile job part
  else snapLost (if part == .image && g.status != cOK then poisonTile d1 x g.tile else d1) slot g.item g.tile g.status

/-- The byte of the copy bitmap that holds a tile's bit: the bitmap covers the items in list order (08 R274). -/
def bitmapByte (s : SnapSlot) (n : Nat) : Byte :=
  let at_ (k : Nat) : Bool := go s.items k
  byte (ofBits ((List.range 8).filter (fun i => at_ (n / 8 * 8 + i))))
where
  /-- Bit `k` over a list of items. -/
  go : List SnapItem → Nat → Bool
    | [], _ => false
    | i :: is, k => if k < i.tiles then NSet.mem i.copied k else go is (k - i.tiles)

/-- Set a tile's bit in the copy bitmap of a slot, at BITMAP on this node (08 R274, R276). -/
def setBitmap (d : Dev) (slot item tile : Nat) : Dev :=
  let s := snapSlot d slot
  let n := total ((s.items.take item).map (fun i => i.tiles)) + tile
  match extAt d (s.bitmap + n / 8) with
  | none => d
  | some x => snapWrite d x (s.bitmap + n / 8) [bitmapByte s n] slot item tile s.job .bit

/-- A copy that finds no room in the staging area waits, and so do the writes that wait for it (08 R276; 03 R115). -/
def copyFull (d : Dev) (slot item tile berth : Nat) (waits : Flying → Bool) : Dev :=
  let d1 := match (snapSlot d slot).full with
    | some f => if f.1 == item && f.2.1 == tile then d
                else onSnap (stall d berth 4 0) slot (fun s => { s with full := some (item, tile, d.sys.ltc) })
    | none => onSnap (stall d berth 4 0) slot (fun s => { s with full := some (item, tile, d.sys.ltc) })
  d1.flying.foldl (fun d f => match f.wait, extOf d f.base with
    | .snap since none, some x =>
      if waits f then setWait (stall d x.e.berth 4 0) f.id (.snap since (some d.sys.ltc)) else d
    | _, _ => d) d1

/-- A copy waits for room no longer. -/
def copyRoom (d : Dev) (slot item tile berth : Nat) : Dev :=
  match (snapSlot d slot).full with
  | some f => if f.1 == item && f.2.1 == tile then
      onSnap (stallTime d berth 4 (d.sys.ltc - f.2.2)) slot (fun s => { s with full := none }) else d
  | none => d

/-- Copy one source tile of a snapshot to its bounce extent, or to its destination through the staging area, and set its
bit (08 R276). A tile that is being reconstructed is copied once it has been. -/
def snapCopy (d : Dev) (slot item tile : Nat) : Dev :=
  let s := snapSlot d slot
  match s.items[item]? with
  | none => d
  | some i =>
    match extOf d i.src, extOf d (if i.bounce == 0 then i.dest else i.bounce) with
    | some src, some dst =>
      if i.bounce == 0 && !stageRoom d (slot / 16) (extCell d dst (extBase dst + tile * 256)) then
        copyFull d slot item tile dst.e.berth (fun f => f.base == src.e.base && tileIn src f.q.h.offset.toNat == tile)
      else
        let d1 := snapRead (copyRoom d slot item tile dst.e.berth) src slot item tile s.job .source
        match snapGot d1 slot item tile with
        | none => d1
        | some g =>
          let d2 := onSnap d1 slot (fun s => { s with ahead := s.ahead.filter (fun a => a != (item, tile)) })
          let d3 := count (onSnapItem d2 slot item (fun i => { i with copied := NSet.add i.copied tile })) (pg 0x33 (slot / 16)) 0x850
          setBitmap (snapOnward d3 dst g slot s.job .image) slot item tile
    | _, _ => onSnapItem d slot item (fun i => { i with failed := true, status := cREVOKED })

/-- SNAP_TILE_COPIED. -/
def snapTileCopied (d : Dev) (n item tile : Nat) : Dev :=
  let s := snapSlot d n
  match s.items[item]? with
  | none => d
  | some i =>
    if s.st != .copying || i.failed || i.tiles ≤ tile || NSet.mem i.copied tile || !copyNext s item tile then d
    else endSnapWaits (noteDraining (snapCopy d n item tile) n)

def execSnapTileCopied (bank slot item tile : Nat) (s : State) : Host.Outcome State Fault Refusal :=
  s.runReq (fun d => snapTileCopied d (bank * 16 + slot) item tile)

/-- Staged tiles of an extent reach flash (03 R97, R98). -/
def flushStage (d : Dev) (x : Extent) : Dev :=
  let first := extCell d x (extBase x)
  let mine (t : StagedTile) : Bool := decide (first ≤ t.addr) && decide (t.addr < first + extBytes x)
  let d1 := (d.tiers.staged.filter mine).foldl toFlash d
  { d1 with tiers.staged := d1.tiers.staged.filter (fun t => !mine t) }

/-- Flash has failed for an extent: a stripe of its tiles has more pages on channels out of service than parity rebuilds (03 R99; 14
R439). -/
def flashBroken (d : Dev) (x : Extent) : Bool :=
  let down := (List.range 16).filter (fun c => (d.tiers.flash.getD (extBank x * 16 + c) {}).down)
  decide (1 < down.length) && (List.range (extBytes x / 256)).any (fun t => decide (1 < flashDown d (extCell d x (extBase x + t * 256))))

/-- Copy a tile of an item on from its bounce extent to its destination, through the flash staging area (08 R276, 03 R97): where that has
no room, what it holds of the destination reaches flash first. -/
def drainTile (slot item : Nat) (src dst : Extent) (job : Nat) (d : Dev) (tile : Nat) : Dev :=
  let room (d : Dev) : Bool := stageRoom d (slot / 16) (extCell d dst (extBase dst + tile * 256))
  let d := if room d then d else flushStage d dst
  if !room d then d
  else
    let d1 := snapRead d src slot item tile job .bounce
    match snapGot d1 slot item tile with
    | none => d1
    | some g => snapOnward (onSnapItem d1 slot item (fun i => { i with drained := NSet.add i.drained tile })) dst g slot job .final

/-- Every tile that goes over a bounce extent has been copied on. -/
def itemDrained (i : SnapItem) : Bool := i.failed || i.bounce == 0 || decide (i.tiles ≤ i.drained.length)

/-- SEAL reports and frees its slot, once every item is done (08 R277). -/
def sealOn (d : Dev) (n : Nat) : Dev :=
  let s := snapSlot d n
  if s.st == .free || s.st == .holding || s.dropper.isSome || !s.items.all (·.done) then d
  else
    let d1 := onSnap d n (fun s => { s with st := .done })
    match s.sealer.bind (descOf d1) with
    | none => d1
    | some x =>
      let d2 := (s.items.take x.count).zipIdx.foldl (fun d p => if p.1.status == 0 then d else noteItem d x.r p.2 p.1.status) d1
      finishDesc (onSnap (accrue d2 s.berth) n (fun _ => {})) x.r

/-- An item is done: every tile is copied out and on flash, and no access for it is in flight (08 R277). -/
def endItem (d : Dev) (n item : Nat) (t : Extent) : Dev :=
  let ours (f : Flying) : Bool := match f.q.origin with | .snap _ i _ _ => i == item | _ => false
  if (snapFlying d n).any ours then d
  else
    let code := if flashBroken d t then cTIER else cOK
    sealOn (onSnapItem (flushStage d t) n item (fun i => { i with done := true, status := if i.status == 0 then code else i.status })) n

/-- A dropped slot is freed, and its DROP completes, once no copy is in flight (08 R278). -/
def dropOn (d : Dev) (n : Nat) : Dev :=
  let s := snapSlot d n
  match s.dropper with
  | none => d
  | some r => if (snapFlying d n).isEmpty then finishDesc (onSnap (accrue d s.berth) n (fun _ => {})) r else d

/-- SNAP_ITEM_DONE: every tile is copied out, and is on flash. A tile of the bounce extent that has to be reconstructed, or that finds no
room, keeps the item from its end. -/
def snapItemDone (d : Dev) (n item : Nat) : Dev :=
  let s := snapSlot d n
  match s.items[item]? with
  | none => d
  | some i =>
    if s.dropper.isSome then dropOn d n
    else if i.done then sealOn d n
    else if s.st == .holding || s.st == .free || !itemCopied i then d
    else match extOf d i.dest, extOf d (if i.bounce == 0 then i.dest else i.bounce) with
      | some t, some b =>
        let left := if itemDrained i then [] else (List.range i.tiles).filter (fun k => !NSet.mem i.drained k)
        let d1 := left.foldl (drainTile n item b t s.job) d
        match (snapSlot d1 n).items[item]? with
        | some j => if itemDrained j then endItem d1 n item t else d1
        | none => d1
      | _, _ => sealOn (onSnapItem d n item (fun i => { i with done := true, failed := true, status := cREVOKED })) n

def execSnapItemDone (bank slot item : Nat) (s : State) : Host.Outcome State Fault Refusal :=
  s.runReq (fun d => snapItemDone d (bank * 16 + slot) item)

/-! ## SNAP_SEAL and SNAP_DROP (08 R277-R279) -/

/-- SNAP_SEAL. -/
def snapSeal (d : Dev) (r : DescRef) : Dev :=
  match engineDesc d r 0x20 0x11 with
  | none => d
  | some x =>
    let d1 := runDesc d r
    let n := slotOfDesc x
    let s := snapSlot d n
    -- a slot that is being dropped is free for a SEAL
    let free := s.st == .free || s.dropper.isSome
    if s.sealer == some r then sealOn d1 n
    else
      match firstRefusal (x.pre ++ codeIf free cUNSUP ++ codeIf (!free && s.job != x.job) cDENIED ++
        codeIf (!free && decide (s.items.length < x.count)) cLENGTH) with
      | some c => refuseDesc d1 r c
      | none => if x.count == 0 then finishDesc d1 r else sealOn (onSnap d1 n (fun s => { s with sealer := some r })) n

def execSnapSeal (r : DescRef) (s : State) : Host.Outcome State Fault Refusal :=
  s.runReq (fun d => snapSeal d r)

/-- A slot stops without completing: an OPEN and a SEAL that wait end with a code on each item, held requests and
waiting writes go on (08 R278). -/
def haltSlot (d : Dev) (n code : Nat) : Dev :=
  let s := snapSlot d n
  let d1 := onSnap d n (fun s => { stopItems (fun _ => true) code s with opener := none, sealer := none, st := if s.st == .holding then .draining else s.st })
  let d2 := if s.st == .holding then (s.items.map (·.src)).foldl unhold d1 else d1
  let endAll (d : Dev) (r : Option DescRef) : Dev := match r.bind (descOf d) with
    | some x => finishDesc ((List.range x.count).foldl (fun d i => noteItem d x.r i code) d) x.r
    | none => d
  endSnapWaits (endAll (endAll d2 s.opener) s.sealer)

/-- A slot is freed at once, with what is in flight for it: a reset and the loss of the Causeway end that as well (08 R278). -/
def dropSlot (d : Dev) (n code : Nat) : Dev :=
  if (snapSlot d n).st == .free then d else onSnap (haltSlot (accrue d (snapSlot d n).berth) n code) n (fun _ => {})

/-- SNAP_DROP. A slot that another DROP frees already is free for this one. -/
def snapDrop (d : Dev) (r : DescRef) : Dev :=
  match engineDesc d r 0x20 0x12 with
  | none => d
  | some x =>
    let d1 := runDesc d r
    let n := slotOfDesc x
    let s := snapSlot d n
    if s.dropper == some r then dropOn d1 n
    else if x.count == 0 then finishDesc d1 r
    else if s.st == .free || s.dropper.isSome || s.job != x.job then finishDesc (noteItem d1 r 0 cDENIED) r
    else dropOn (onSnap (haltSlot d1 n cABORTED) n (fun s => { s with dropper := some r })) n

def execSnapDrop (r : DescRef) (s : State) : Host.Outcome State Fault Refusal :=
  s.runReq (fun d => snapDrop d r)

/-- SNAP_SLOT (08 R281). -/
def readSnapSlot (d : Dev) (n : Nat) : Nat :=
  let s := snapSlot d n
  let left (i : SnapItem) : Nat :=
    if i.done then 0
    else
      let out := if i.bounce == 0 then i.copied else i.drained
      i.tiles - out.length + (match extOf d i.dest with
        | some x => (d.tiers.staged.filter (fun t => decide (extCell d x (extBase x) ≤ t.addr) &&
            NSet.mem out ((t.addr - extCell d x (extBase x)) / 256))).length
        | none => 0)
  let st := match s.st with
    | .free => 0 | .holding => 1 | .copying => 2 | .draining => 3 | .done => 4
  let code := if s.st != .free && s.st != .holding && s.items.all (·.done) then 4 else st
  code + s.job * 2 ^ 3 + total (s.items.map left) % 2 ^ 32 * 2 ^ 16 + s.items.length * 2 ^ 48

end Sys2Proof.Machine
end

