-- ==== Sys2Proof/Machine/Causeway.lean ====
section
/-! DEFINITION. The Causeway (01 R24-R27; 03 R90, R91): frames, lane groups, its loss, and the West bank held in reset and
back. -/

namespace Sys2Proof.Machine

open Sys2Proof

/-- Unit number of a lane group in a first-error record (17 R523): East to West is direction 0. -/
def groupUnit (toWest : Bool) (g : Nat) : Nat := (if toWest then 0 else 34) + g

/-! ## Frames (01 R25) -/

/-- A check failure of a group is counted in the window that runs (01 R26). A window begins with the first failure after the last has
run out, one for all groups of a direction (DESIGN CHOICE, log 127). -/
def countErr (d : Dev) (toWest : Bool) (g : Nat) : Dev :=
  let c := cwDir d toWest
  let fresh := decide (c.window + reg d (pg 0x03 0 + 0x150) ≤ d.sys.ltc)
  let errs := if fresh then [] else c.errs
  onCw d toWest (fun c => { c with window := if fresh then d.sys.ltc else c.window, errs := NMap.set 0 errs g (NMap.get 0 errs g + 1) })

/-- CAUSEWAY_FRAME_RX: a frame in order is acknowledged and delivered once, a resent one that has been delivered only acknowledged; a
bad one is counted, and stays in the replay buffer to be sent again. -/
def frameRx (d : Dev) (toWest : Bool) (p : CwPair) (cls g seq : Nat) (good : Bool) : Dev :=
  let next := NMap.get 0 (cwDir d toWest).rxNext (cwKey p cls)
  if !live d || !NSet.mem (cwDir d toWest).inService g then d
  else if !good then countErr d toWest g
  else if next < seq then d
  else onCw d toWest (fun c => { c with
    replay := c.replay.filter (fun f => !(f.pair == p && f.cls == cls && f.seq == seq))
    rxNext := if next == seq then NMap.set 0 c.rxNext (cwKey p cls) (seq + 1) else c.rxNext })

def execCausewayFrameRx (toWest : Bool) (flow : CwFlow) (group seq : Nat) (good : Bool) (s : State) :
    Host.Outcome State Fault Refusal :=
  s.run (fun d => frameRx d toWest flow.pair flow.cls group seq good)

/-! ## Lane groups (01 R26) -/

/-- A frame in flight on a retired group is sent again on another, while one is left. -/
def replayOn (left : NSet) (g : Nat) (f : CwFrame) : CwFrame :=
  if f.group == g then { f with group := (left[f.seq % left.length]?).getD g } else f

/-- LANE_GROUP_RETIRE: the group's check failures of the window exceed CW_LANE_ERR_LIMIT. -/
def retireGroup (d : Dev) (toWest : Bool) (g : Nat) : Dev :=
  let c := cwDir d toWest
  if !live d || !NSet.mem c.inService g || NMap.get 0 c.errs g ≤ reg d (pg 0x03 0 + 0x148) then d
  else
    let d1 := onCw d toWest (fun c => { c with inService := NSet.del c.inService g, retired := NSet.add c.retired g,
                                               errs := NMap.set 0 c.errs g 0
                                               replay := c.replay.map (replayOn (NSet.del c.inService g) g) })
    degrade (count (raiseFe d1 (pg 0x03 0) 0 (feUnit (groupUnit toWest g))) (pg 0x03 0) 0x810) 0

def execLaneGroupRetire (toWest : Bool) (group : Nat) (s : State) : Host.Outcome State Fault Refusal :=
  s.run (fun d => retireGroup d toWest group)

/-- SPARE_GROUP_TRAINED: one of the two spares takes the place of a retired group. -/
def spareTrained (d : Dev) (toWest : Bool) (g : Nat) : Dev :=
  let c := cwDir d toWest
  if !live d || 34 ≤ g || NSet.mem c.inService g || NSet.mem c.retired g || 2 ≤ c.spares || c.retired.length ≤ c.spares then d
  else onCw d toWest (fun c => { c with inService := NSet.add c.inService g, spares := c.spares + 1 })

def execSpareGroupTrained (toWest : Bool) (group : Nat) (s : State) : Host.Outcome State Fault Refusal :=
  s.run (fun d => spareTrained d toWest group)

/-- CW_STAT (16 R508) and SPARE_MAP of the clock and reset page (17 R525). -/
def readCwStat (d : Dev) : Nat := d.cw.toWest.inService.length + d.cw.toEast.inService.length * 2 ^ 8

def readCwSpares (d : Dev) : Nat := d.cw.toWest.spares + d.cw.toEast.spares * 4

/-! ## Loss of the Causeway (01 R27; 03 R90) -/

/-- Deltas whose parity lies on a site of the West bank are not acknowledged: their stripes are logged. -/
def logWestDeltas (d : Dev) : Dev :=
  let west (x : Nat × Nat × Nat × List Byte) : Bool := bankOfSite (holderOf d (parityPos x.1 x.2.1) x.1 x.2.1) == 1
  let d1 := (d.tiers.deltas.filter west).foldl (fun d x => logStripe d 0 x.1 x.2.1) d
  { d1 with tiers.deltas := d1.tiers.deltas.filter (fun x => !west x) }

/-- What the West bank's Wharf and Landings hold is gone. -/
def dropWestLinks (d : Dev) : Dev :=
  let l : Landing := { downAt := some d.sys.ltc }
  let d1 := { d with
    wharf.frames := d.wharf.frames.filter (fun f => f.bank == 0)
    wharf.gused := NMap.keep (fun k => decide (k < 512)) d.wharf.gused
    wharf.sheld := NMap.keep (fun k => decide (k < 512)) d.wharf.sheld
    wharf.shusedWest := 0
    lands := d.lands.take 8 ++ List.replicate 8 l
    sched.tts := d.sched.tts.take 8 ++ List.replicate 8 resetTimetable
    quay.lossList := d.quay.lossList.filter (fun e => decide (e.landing < 8))
    quay.losses := d.quay.losses.filter (fun e => decide (e.landing < 8)) }
  resetPort d1 1

/-- An extent homed in the West bank. -/
def westExt (d : Dev) (base : Nat) : Bool := (extOf d base).any (fun x => extBank x == 1)

/-- MOVE and PERSIST items that wait in the West bank complete with ABORTED. -/
def abortItems (d : Dev) : Dev :=
  let d1 := (d.tiers.moves.filter (fun m => m.bank == 1)).foldl (fun d m => noteItem d m.r m.item cABORTED) d
  (d1.tiers.persists.filter (fun p => westExt d p.base)).foldl (fun d p => noteItem d p.r p.item cABORTED) d1

/-- The berths of the West bank have held what they hold until now (12 R396, R397). -/
def accrueWest (d : Dev) : Dev :=
  let l := d.xmap.current.berths.map Prod.fst ++ d.descs.map (·.r.berth) ++ d.raft.copies.map (·.berth)
  ((l.filter (fun b => bankOfBerth b == 1)).eraseDups).foldl accrue d

/-- Scans of the East bank's descriptors at punts of the West bank end with ABORTED. -/
def abortScans (d : Dev) : Dev :=
  ((d.sound.punts.drop 16).flatMap (·.scans)).foldl (fun d s =>
    let f : Found := { item := s.item, tiles := s.tiles.map Prod.fst, best := [], entries := 0, raised := false, bad := some (0, cABORTED) }
    onDesc d s.r (fun y => { y with found := f :: y.found })) d

/-- What the West bank's home agent, engines and tiers hold is gone; the contents of its tiers stay. -/
def dropWestState (d : Dev) : Dev :=
  let hi (k : Nat) : Bool := decide (k < 2 ^ 18)
  let still (g : Ring) : Ring := { g with enable := false, consumer := g.producer, fetched := g.producer, recorded := [] }
  let westDesc (r : DescRef) : Bool := bankOfBerth r.berth == 1
  let d1 := abortScans (abortItems ((List.range 16).foldl (fun d i => dropSlot d (16 + i) cABORTED) (accrueWest d)))
  { d1 with
    quay.dir := d1.quay.dir.filter (fun e => e.bank == 0)
    quay.trans := d1.quay.trans.filter (fun t => t.bank == 0)
    quay.setWait := d1.quay.setWait.filter (fun e => hi e.1)
    quay.sweeps := d1.quay.sweeps.filter (fun e => e.1 == 0)
    quay.credits := NMap.keep hi d1.quay.credits
    quay.credSrcs := d1.quay.credSrcs.filter hi
    quay.accumWait := d1.quay.accumWait.filter (fun e => e.1 == 0)
    quay.accums := d1.quay.accums.filter (fun a => a.bank == 0)
    quay.cache := d1.quay.cache.filter (fun c => c.bank == 0)
    tiers.moves := d1.tiers.moves.filter (fun m => m.bank == 0)
    tiers.persists := d1.tiers.persists.filter (fun m => !westDesc m.r && !westExt d1 m.base)
    tiers.pins := d1.tiers.pins.filter (fun m => m.bank == 0)
    toll.extents := d1.toll.extents.map (fun x => if extBank x == 1 then { x with moving := false, held := false } else x)
    descs := d1.descs.filter (fun x => !westDesc x.r)
    xmap.rings := d1.xmap.rings.map (fun e => if 8192 ≤ e.1 then (e.1, still e.2) else e)
    raft.copies := d1.raft.copies.filter (fun c => c.bank == 0)
    raft.ctx := NMap.keep (fun k => decide (k < 64)) d1.raft.ctx
    purser.slots := NMap.keep (fun k => decide (k < 1024)) d1.purser.slots
    purser.fwd := d1.purser.fwd.filter (fun f => f.key.bank == 0)
    purser.locks := d1.purser.locks.filter (fun l => l.key.bank == 0)
    purser.waits := d1.purser.waits.filter (fun l => l.key.bank == 0)
    purser.bound := d1.purser.bound.filter (fun b => b.bank == 0)
    purser.shares := d1.purser.shares.filter (fun s => !westDesc s.r)
    sound.slots := NMap.keep (fun k => decide (k < 256)) d1.sound.slots
    sound.bound := d1.sound.bound.filter (fun q => q.b.bank == 0)
    sound.punts := d1.sound.punts.take 16 ++ List.replicate 16 {}
    salv.protect := d1.salv.protect.filter (fun p => p.out.h.src.toNat % 2 == 0)
    salv.recons := d1.salv.recons.filter (fun r => match extOf d1 r.base with | some x => extBank x == 0 | none => true) }

/-- A request was received in the West bank, or is the West bank's own. -/
def fromWest (f : Flying) : Bool :=
  match f.q.origin with
  | .landing n => decide (8 ≤ n)
  | .comb n _ => decide (8 ≤ n)
  | .pcie p _ _ _ => p == 1
  | .engine r _ => bankOfBerth r.berth == 1
  | .internal => f.homeBank == 1
  | .customs => false
  | .snap slot _ _ _ => decide (16 ≤ slot)

/-- Requests in flight across the Causeway complete in the East bank with ABORTED; those received in the West bank have no
one to answer. -/
def abortAcross (d : Dev) : Dev :=
  let d1 := { d with flying := d.flying.filter (fun f => !fromWest f) }
  (d1.flying.filter (fun f => f.homeBank == 1)).foldl (fun d f => finishFlying d f cABORTED []) d1

/-- Requests that descriptors have sent through Landings of the West bank complete with ABORTED. -/
def abortOut (d : Dev) : Dev :=
  d.descs.foldl (fun d x => (x.out.filter (fun o => decide (8 ≤ o.landing))).foldl (fun d o => descGot d x o cABORTED []) d) d

/-- CAUSEWAY_LOSS: no lane group remains in a direction, whichever of the two (DEDUCED, log 98); the West bank is held in reset. -/
def causewayLoss (d : Dev) : Dev :=
  if !live d || d.sys.westHeld || !(d.cw.toWest.inService.isEmpty || d.cw.toEast.inService.isEmpty) then d
  else
    let d1 := dropWestState (dropWestLinks (logWestDeltas d))
    let d2 := abortOut (abortAcross { d1 with sys.westHeld := true, sys.cwLost := true, cw := {} })
    degrade ((List.range 8).foldl (fun d i => resendSnoops d (some (8 + i))) d2) 0

def execCausewayLoss (s : State) : Host.Outcome State Fault Refusal :=
  s.runReq causewayLoss

/-! ## Retraining, and the West bank's return -/

/-- Add an entry to the Logbook, which holds 8,192: the oldest is overwritten (16 R502). ELAPSED is 0 at BEGIN and counts the LTC, 800 cycles
a µs, once it runs; the time that passes before LTC 0, and where the LTC stands still, is a free value (log 31). -/
def addLog (d : Dev) (step outcome detail cause : Nat) : Dev :=
  let v := freeVal d
  let us := if step == 0 && outcome == 0 then 0 else if live d then d.sys.startUs else d.sys.startUs + v.1 % 2 ^ 32
  let e : LogEntry := { step := step, outcome := outcome, detail := detail, start := d.sys.startNo
                        elapsed := min (us + d.sys.ltc / 800) (2 ^ 32 - 1), cause := cause }
  let d1 := emit (count { v.2 with sys.startUs := us, sys.logbook := (e :: d.sys.logbook).take 8192 } (pg 0x80 0) 0x800) (.console (.step e))
  if d.sys.logbook.length < 8192 then d1 else raise d1 (pg 0x80 0) 2

/-- CAUSEWAY_RETRAIN: an attempt of the Pilot, with the lane groups that trained in each direction. -/
def causewayRetrain (d : Dev) (toWest toEast : Nat) : Dev :=
  if !live d || !d.sys.cwLost then d
  else
    let dir (n : Nat) : CwDir := { inService := List.range (min n 32), retired := (List.range 34).drop n, window := d.sys.ltc }
    let ok := decide (0 < toWest) && decide (0 < toEast)
    let few := decide (toWest < 32) || decide (toEast < 32)
    let d1 := if !ok then addLog d 0x07 4 0 0x10 else if few then addLog d 0x07 2 0 1 else addLog d 0x07 1 0 0
    if ok then { d1 with cw.toWest := dir toWest, cw.toEast := dir toEast, sys.cwLost := false } else d1

def execCausewayRetrain (groupsToWest groupsToEast : Nat) (s : State) : Host.Outcome State Fault Refusal :=
  s.run (fun d => causewayRetrain d groupsToWest groupsToEast)

/-- WEST_BANK_REJOIN: the West bank runs again, the logged parity is recomputed, and service is reported restored. -/
def westRejoin (d : Dev) : Dev :=
  if !live d || !d.sys.westHeld || d.sys.cwLost then d
  else
    let d1 := { d with sys.westHeld := false }
    recomputeDone (recomputeDone (trainPort d1 1) 0) 1

def execWestBankRejoin (s : State) : Host.Outcome State Fault Refusal :=
  s.runReq westRejoin

end Sys2Proof.Machine
end

