-- ==== Sys2Proof/Machine/Keccak.lean ====
section
/-! DEFINITION. SHAKE256 and SHA3-512 (FIPS 202), and the curve arithmetic of X448 (RFC 7748) and Ed448 (RFC 8032), which
Customs uses (15 R462). -/

namespace Sys2Proof.Machine

open Sys2Proof

/-! ## Keccak-f[1600] -/

/-- The bits from which the round constants are made: the low bit of an 8-bit register that starts at 1 and is shifted, with feedback
into bits 0, 4, 5 and 6; the next `n` of them. -/
def feedbackBits : Nat → Nat → List Bool
  | 0, _ => []
  | n + 1, r => bit r 0 :: feedbackBits n (if r < 128 then 2 * r else (2 * r - 256) ^^^ 0x71)

/-- A round constant from its seven bits: bit `j` stands at place 2^j - 1. -/
def roundConst (l : List Bool) : Nat := total ((List.range 7).map (fun j => b2n (l.getD j false) * 2 ^ (2 ^ j - 1)))

/-- The constants of the 24 rounds. -/
def roundConsts : List Nat :=
  let l := feedbackBits 168 1
  (List.range 24).map (fun r => roundConst (l.drop (7 * r)))

/-- The walk from lane (1, 0) over the 24 lanes but (0, 0), (x, y) going to (y, 2x + 3y); its next `n` lanes, each as x + 5 y. -/
def laneWalk : Nat → Nat → Nat → List Nat
  | 0, _, _ => []
  | n + 1, x, y => (x + 5 * y) :: laneWalk n y ((2 * x + 3 * y) % 5)

/-- How far rho turns a lane: the triangular number of its place in the walk. -/
def turnOf (i : Nat) : Nat :=
  match (laneWalk 24 1 0).findIdx? (fun j => j == i) with
  | some t => (t + 1) * (t + 2) / 2 % 64
  | none => 0

/-- A lane turned towards its high bits. -/
def turn64 (v n : Nat) : Nat := v * 2 ^ n % 2 ^ 64 + v / 2 ^ (64 - n)

/-- The 25 lanes that a function of x and y gives. -/
def lanesBy (f : Nat → Nat → Nat) : Array Nat := ((List.range 25).map (fun i => f (i % 5) (i / 5))).toArray

/-- Lane (x, y), indices modulo 5. -/
def lane (a : Array Nat) (x y : Nat) : Nat := a.getD (x % 5 + 5 * (y % 5)) 0

/-- Theta: each lane takes up the parities of two columns. -/
def theta (a : Array Nat) : Array Nat :=
  let par := ((List.range 5).map (fun x => (List.range 5).foldl (fun p y => p ^^^ lane a x y) 0)).toArray
  let near := ((List.range 5).map (fun x => par.getD ((x + 4) % 5) 0 ^^^ turn64 (par.getD ((x + 1) % 5) 0) 1)).toArray
  lanesBy (fun x y => lane a x y ^^^ near.getD x 0)

/-- Rho and pi: the lane at (x, y) is the turned one from (x + 3 y, x). -/
def rhoPi (a : Array Nat) : Array Nat :=
  lanesBy (fun x y =>
    let from_ := (x + 3 * y) % 5 + 5 * x
    turn64 (a.getD from_ 0) (turnOf from_))

/-- Chi, and iota with a round's constant. -/
def chiIota (rc : Nat) (a : Array Nat) : Array Nat :=
  lanesBy (fun x y =>
    let mixed := lane a x y ^^^ (lane a (x + 2) y - land64 (lane a (x + 2) y) (lane a (x + 1) y))
    if x + y == 0 then mixed ^^^ rc else mixed)

def keccakF (a : Array Nat) : Array Nat := roundConsts.foldl (fun a rc => chiIota rc (rhoPi (theta a))) a

/-- A block XORed into the state. -/
def absorb (a : Array Nat) (block : List Byte) : Array Nat :=
  lanesBy (fun x y => lane a x y ^^^ leAt block (8 * (x + 5 * y)) 8)

/-- The state's bytes. -/
def stateBytes (a : Array Nat) : List Byte := a.toList.flatMap (leBytes 8)

/-- Output of `n` blocks of `rate` bytes. -/
def squeeze (rate : Nat) : Nat → Array Nat → List Byte
  | 0, _ => []
  | n + 1, a => (stateBytes a).take rate ++ squeeze rate n (keccakF a)

/-- The sponge over a message, with a domain suffix and its padding, `out` bytes of output. -/
def sponge (rate suffix out : Nat) (m : List Byte) : List Byte :=
  let short := m.length % rate
  let pad := if short + 1 == rate then [byte (suffix + 0x80)]
    else [byte suffix] ++ List.replicate (rate - short - 2) 0 ++ [0x80]
  let l := m ++ pad
  let a := (chunks (l.length / rate) rate l).foldl (fun a b => keccakF (absorb a b)) (Array.replicate 25 0)
  (squeeze rate (ceilDiv out rate) a).take out

def shake256 (out : Nat) (m : List Byte) : List Byte := sponge 136 0x1F out m

def sha3x512 (m : List Byte) : List Byte := sponge 72 0x06 64 m

/-! ## The field of 2^448 - 2^224 - 1 -/

def p448 : Nat := 2 ^ 448 - 2 ^ 224 - 1

/-- `b ^ e` in the field, over the lowest `k` bits of `e`. -/
def powMod : Nat → Nat → Nat → Nat → Nat
  | 0, _, _, acc => acc
  | k + 1, b, e, acc => powMod k (b * b % p448) (e / 2) (if e % 2 == 1 then acc * b % p448 else acc)

def fpow (b e : Nat) : Nat := powMod 448 (b % p448) e 1

def finv (a : Nat) : Nat := fpow a (p448 - 2)

def fsub (a b : Nat) : Nat := (a % p448 + p448 - b % p448) % p448

/-! ## X448 -/

/-- The ladder's state. -/
structure Ladder where
  x2 : Nat
  z2 : Nat
  x3 : Nat
  z3 : Nat
  deriving DecidableEq, Repr

/-- A step of the ladder for a bit of the scalar. -/
def ladderStep (u k : Nat) (s : Ladder) (i : Nat) : Ladder :=
  let sw := bit k i
  let x2 := if sw then s.x3 else s.x2
  let z2 := if sw then s.z3 else s.z2
  let x3 := if sw then s.x2 else s.x3
  let z3 := if sw then s.z2 else s.z3
  let aa := (x2 + z2) * (x2 + z2) % p448
  let b := fsub x2 z2
  let bb := b * b % p448
  let e := fsub aa bb
  let da := fsub x3 z3 * (x2 + z2) % p448
  let cb := (x3 + z3) * b % p448
  let f := fsub da cb
  let nx3 := (da + cb) * (da + cb) % p448
  let nz3 := u * (f * f % p448) % p448
  let nx2 := aa * bb % p448
  let nz2 := e * (aa + 39081 * e) % p448
  if sw then { x2 := nx3, z2 := nz3, x3 := nx2, z3 := nz2 } else { x2 := nx2, z2 := nz2, x3 := nx3, z3 := nz3 }

/-- A scalar of 56 bytes, clamped. -/
def clamp448 (l : List Byte) : Nat :=
  let k := leNat (l.take 56)
  k / 4 * 4 % 2 ^ 447 + 2 ^ 447

/-- X448 of a private key and a public key. -/
def x448 (k u : List Byte) : List Byte :=
  let n := clamp448 k
  let v := leNat (u.take 56) % p448
  let s := ((List.range 448).reverse).foldl (ladderStep v n) { x2 := 1, z2 := 0, x3 := v, z3 := 1 }
  leBytes 56 (s.x2 * finv s.z2 % p448)

/-- The public key of a private key: X448 with the base point 5. -/
def x448Pub (k : List Byte) : List Byte := x448 k (leBytes 56 5)

/-! ## Ed448 -/

/-- A point, projective. -/
structure EdPoint where
  x : Nat
  y : Nat
  z : Nat
  deriving DecidableEq, Repr

def edD : Nat := p448 - 39081

/-- Order of the base point. -/
def edL : Nat := 2 ^ 446 - 13818066809895115352007386748515426880336692474882178609894547503885

def edBase : EdPoint :=
  { x := 224580040295924300187604334099896036246789641632564134246125461686950415467406032909029192869357953282578032075146446173674602635247710
    y := 298819210078481492676017930443930673437544040154080242095928241372331506189835876003536878655418784733982303233503462500531545062832660
    z := 1 }

def edZero : EdPoint := { x := 0, y := 1, z := 1 }

def edAdd (p q : EdPoint) : EdPoint :=
  let a := p.z * q.z % p448
  let b := a * a % p448
  let c := p.x * q.x % p448
  let d := p.y * q.y % p448
  let e := edD * (c * d % p448) % p448
  let f := fsub b e
  let g := (b + e) % p448
  let h := (p.x + p.y) * (q.x + q.y) % p448
  { x := a * f % p448 * fsub h (c + d) % p448, y := a * g % p448 * fsub d c % p448, z := f * g % p448 }

/-- `k` times a point, over the lowest `n` bits. -/
def edMulBits : Nat → Nat → EdPoint → EdPoint → EdPoint
  | 0, _, _, acc => acc
  | n + 1, k, p, acc => edMulBits n (k / 2) (edAdd p p) (if k % 2 == 1 then edAdd acc p else acc)

def edMul (k : Nat) (p : EdPoint) : EdPoint := edMulBits 456 k p edZero

def edEq (p q : EdPoint) : Bool := p.x * q.z % p448 == q.x * p.z % p448 && p.y * q.z % p448 == q.y * p.z % p448

/-- A point as 57 bytes. -/
def edEncode (p : EdPoint) : List Byte :=
  let zi := finv p.z
  leBytes 57 (p.y * zi % p448 + p.x * zi % p448 % 2 * 2 ^ 455)

/-- The point of 57 bytes, where they spell one. -/
def edDecode (l : List Byte) : Option EdPoint :=
  let n := leNat (l.take 57)
  let sign := n / 2 ^ 455
  let y := n % 2 ^ 455
  if l.length < 57 || p448 ≤ y then none
  else
    let yy := y * y % p448
    let u := fsub yy 1
    let v := fsub (edD * yy) 1
    let u3v := u * (u * u % p448) % p448 * v % p448
    let x := u3v * fpow (u3v * (u * u % p448) % p448 * (v * v % p448)) ((p448 - 3) / 4) % p448
    if v * (x * x % p448) % p448 != u then none
    else if x == 0 && sign == 1 then none
    else some { x := if x % 2 == sign then x else p448 - x, y := y, z := 1 }

/-- The prefix of every hash, with an empty context. -/
def edDom : List Byte := [0x53, 0x69, 0x67, 0x45, 0x64, 0x34, 0x34, 0x38, 0, 0]

/-- Secret scalar and prefix of a private key. -/
def edExpand (sk : List Byte) : Nat × List Byte :=
  let h := shake256 114 sk
  (clamp448 (h.take 57), h.drop 57)

def edPub (sk : List Byte) : List Byte := edEncode (edMul (edExpand sk).1 edBase)

/-- A signature, 114 bytes. -/
def edSign (sk m : List Byte) : List Byte :=
  let s := edExpand sk
  let r := leNat (shake256 114 (edDom ++ s.2 ++ m)) % edL
  let rb := edEncode (edMul r edBase)
  let k := leNat (shake256 114 (edDom ++ rb ++ edPub sk ++ m)) % edL
  rb ++ leBytes 57 ((r + k * s.1) % edL)

/-- A signature of a message verifies under a public key. -/
def edVerify (pk m sig : List Byte) : Bool :=
  let rb := sig.take 57
  let s := leNat ((sig.drop 57).take 57)
  match edDecode pk, edDecode rb with
  | some a, some r =>
    let k := leNat (shake256 114 (edDom ++ rb ++ pk ++ m)) % edL
    sig.length == 114 && decide (s < edL) && edEq (edMul (4 * s) edBase) (edAdd (edMul 4 r) (edMul (4 * k) a))
  | _, _ => false

end Sys2Proof.Machine
end

