-- ==== Sys2Proof/Machine/Customs.lean ====
section
/-! DEFINITION. Customs (15): the layered identity, firmware images, job keys, debug unlock, the access policy, and their
registers. -/

namespace Sys2Proof.Machine

open Sys2Proof

def custPage : Nat := pg 0x02 0

/-- Bytes of an ASCII string. -/
def ascii (s : String) : List Byte := s.toList.map (fun c => byte c.toNat)

/-! ## Firmware images (15 R465-R467) -/

def imageBanks (d : Dev) (type : Nat) : ImageBanks := d.cust.banks.getD (type - 1) {}

def onBanks (d : Dev) (type : Nat) (f : ImageBanks → ImageBanks) : Dev :=
  { d with cust.banks := modAt f d.cust.banks (type - 1) }

/-- What a bank of a TYPE holds; an empty one holds the image it was made with. -/
def bankBytes (b : ImageBanks) (type : Nat) (isB : Bool) : List Byte :=
  let l := if isB then b.b else b.a
  if l.isEmpty then Config.factoryImage type isB else l

/-- What runs of a TYPE. -/
def runningBytes (d : Dev) (type : Nat) : List Byte :=
  let b := imageBanks d type
  if b.running.isEmpty then Config.factoryImage type b.runsB else b.running

/-- The digest of a vendor key in the fuses. -/
def fusedDigest (k : Nat) : List Byte := (List.range 32).map (Config.keyDigestByte k)

/-- The first check of 15 R466 that an image of a TYPE fails, or 0. A LENGTH outside its range, and a TYPE other than the one
named, count as FORMAT (log 32). -/
def imageReason (fz : Fuses) (type : Nat) (l : List Byte) : Nat :=
  let w1 := leAt l 4 4
  let length := leAt l 0x10 4
  let pub := sub l 0x58 57
  let reserved := fld w1 10 22 == 0 && leAt l 0x14 4 == 0 && allZero (sub l 0x91 111) && allZero (sub l 0x172 142)
  let svn := leAt l 8 4
  let key := fld w1 8 2
  if leAt l 0 4 != 0x55544843 || fld w1 0 8 != type || !reserved || length == 0 || decide (67108864 < length) ||
      l.length != 512 + length then 1
  else if shake256 32 pub != fusedDigest key || fz.revoked.getD key false then 2
  else if !edVerify pub (l.take 256) (sub l 0x100 114) then 3
  else if shake256 64 (l.drop 512) != sub l 0x18 64 then 4
  else if svn < fz.svn.getD (type - 1) 0 || 64 < svn then 5
  else 0

/-- A bank is accepted at a start. Of the image that it was made with, the key and the security version are checked against the fuses; its
format, signature and digest are the manufacturer's own and hold (PRESUMED, log 9). -/
def bankAccepted (fz : Fuses) (b : ImageBanks) (type : Nat) (isB : Bool) : Bool :=
  if (if isB then b.b else b.a).isEmpty then
    !fz.revoked.getD (Config.factoryKey type isB).val false && decide (fz.svn.getD (type - 1) 0 ≤ (Config.factorySvn type isB).val)
  else imageReason fz type (bankBytes b type isB) == 0

/-- Security version of what a bank holds. -/
def bankSvn (b : ImageBanks) (type : Nat) (isB : Bool) : Nat :=
  let l := if isB then b.b else b.a
  if l.isEmpty then (Config.factorySvn type isB).val else leAt l 8 4

/-- A firmware command ends (15 R482). -/
def fwEnd (d : Dev) (type code reason : Nat) : Dev :=
  let d1 := { d with cust.fw := none, cust.fwDone := true, cust.fwResult := code, cust.fwReason := reason
                     cust.fwType := type }
  if code == cOK then d1 else raise d1 custPage 0

/-- STAGE begins: the image is read from where CUST_FW_SRC says. -/
def fwStage (d : Dev) (type : Nat) : Dev :=
  { d with cust.fw := some { type := type, src := reg d (custPage + 0x300) }, cust.fwDone := false, cust.fwType := type }

/-- Bytes a STAGE reads: the header, and once it is there the body that its LENGTH states, where that is in range. -/
def fwWant (got : List Byte) : Nat :=
  if got.length < 512 || decide (67108864 < leAt got 0x10 4) then 512 else 512 + leAt got 0x10 4

/-- Read on: the next bytes within one tile of this node, as an engine request of the job that CUST_FW_SRC names (15 R467; 01 R34).
While the device has no end points the read gets BUSY_RETRY (11 R357). -/
def fwRead (d : Dev) (w : FwRun) : Dev :=
  let job := fld w.src 48 12
  let off := fld w.src 0 48 + w.got.length
  let n := min (256 - off % 256) (fwWant w.got - w.got.length)
  let h : Hdr := { tc := 4, mark := false, acq := false, rel := false, scope := 0, reqId := 0, src := .ofNat 18 (epOf d 0),
                   job := .ofNat 12 job, offset := .ofNat 48 off, node := .ofNat 14 d.xmap.node, tide := .ofNat 32 (jobOf d job).tide,
                   epoch := .ofNat 16 d.xmap.epoch, len := .ofNat 8 (n - 1), fmt := 0, trial := 0, tchk := 0, aux := 0, range := 0,
                   rsvd := false }
  let d1 := { d with cust.fw := some { w with asked := true } }
  let q : Req := { op := .rd, origin := .customs, h := h }
  if d.wharf.epValid then drainAll (enter d1 q 0) else answerReq d1 q 0 none 8 cBUSY []

/-- The whole image has been read: it is checked, and an accepted one goes to the inactive bank (15 R466, R467). -/
def fwCheck (d : Dev) (fz : Fuses) (type : Nat) (l : List Byte) : Dev :=
  let reason := imageReason fz type l
  if reason != 0 then fwEnd d type cDENIED reason
  else
    let put (b : ImageBanks) : ImageBanks := if b.activeB then { b with a := l, staged := true } else { b with b := l, staged := true }
    fwEnd (onBanks d type put) type cOK 0

/-- A STAGE goes on: it takes an answer, sends the next read, or ends. -/
def fwStep (d : Dev) (fz : Fuses) (w : FwRun) : Dev :=
  match w.answer with
  | some (c, l) =>
    if c != cOK then fwEnd d w.type c 0
    else { d with cust.fw := some { w with got := w.got ++ l, asked := false, answer := none } }
  | none => if w.got.length < fwWant w.got then fwRead d w else fwCheck d fz w.type w.got

/-- A STAGE goes on until it waits for a read, at most `k` times. -/
def fwOn : Nat → Dev → Fuses → Dev
  | 0, d, _ => d
  | k + 1, d, fz =>
    match d.cust.fw with
    | none => d
    | some w => if d.sys.phase != .none || (w.asked && w.answer.isNone) then d else fwOn k (fwStep d fz w) fz

/-- More than a STAGE does: two steps for each of the 262,146 tiles, or one more, of the longest image. -/
def fwMost : Nat := 524300

/-- ACTIVATE: with no image staged, UNSUPPORTED (log 32). -/
def fwActivate (d : Dev) (type : Nat) : Dev :=
  if (imageBanks d type).staged then
    fwEnd (onBanks d type (fun b => { b with trial := true })) type cOK 0
  else fwEnd d type cUNSUP 0

/-- COMMIT: the trial bank becomes the active bank, and the TYPE's fuses are blown up to the image's SVN. -/
def fwCommit (d : Dev) (fz : Fuses) (type : Nat) : Dev × Fuses :=
  let b := imageBanks d type
  if !b.trialRuns then (fwEnd d type cUNSUP 0, fz)
  else
    let svn := if b.running.isEmpty then bankSvn b type b.runsB else leAt b.running 8 4
    let d1 := onBanks d type (fun b => { b with activeB := b.runsB, trialRuns := false, trial := false, staged := false })
    (fwEnd d1 type cOK 0, { fz with svn := modAt (fun n => max n (min svn 64)) fz.svn (type - 1) })

/-- A write of CUST_FW_CMD (15 R467, R482): discarded and counted while a command runs; OP 0 is none; a TYPE that is not one
completes with UNSUPPORTED. -/
def writeFwCmd (d : Dev) (fz : Fuses) (v : Nat) : Dev × Fuses :=
  let op := fld v 0 2
  let type := fld v 2 8
  if d.cust.fw.isSome then (count d custPage 0x820, fz)
  else if op == 0 then (d, fz)
  else if type == 0 || 4 < type then (fwEnd d type cUNSUP 0, fz)
  else if op == 1 then (fwStage d type, fz)
  else if op == 2 then (fwActivate d type, fz)
  else fwCommit d fz type

def readFwStat (d : Dev) : Nat :=
  let staged := d.cust.fwType != 0 && (imageBanks d d.cust.fwType).staged
  b2n d.cust.fw.isSome + b2n d.cust.fwDone * 2 + b2n staged * 4 + d.cust.fwResult * 2 ^ 8 + d.cust.fwReason * 2 ^ 16

/-! ## Identity (15 R463, R469, R470) -/

def uds : List Byte := (List.range 32).map Config.udsByte

/-- Measurement of what runs of a TYPE. -/
def measureOf (d : Dev) (type : Nat) : List Byte := shake256 64 (runningBytes d type)

/-- The security state, index 6: BLK_VER of the Pilot page is the version of its type. -/
def securityState (d : Dev) (fz : Fuses) : List Byte :=
  let b0 := d.sys.straps.debug % 2 + b2n d.cust.debugUnlocked * 2 + b2n (bit (reg d (custPage + 0x108)) 8) * 4 +
    total ((List.range 4).map (fun k => b2n (fz.revoked.getD k false) * 2 ^ (4 + k)))
  [byte b0] ++ (List.range 4).map (fun k => byte (fz.svn.getD k 0)) ++ [0, 0, 0] ++ leBytes 4 blkVer ++ [0, 0, 0, 0]
where
  /-- BLK_VER of every page (17 R513). -/
  blkVer : Nat := 0x4B022001

def deviceKey : List Byte := shake256 57 (ascii "NZK2 DeviceID" ++ uds)

def devicePub : List Byte := edPub deviceKey

/-- Secrets of the layers, from the running images and the security state at the boot step. -/
def cdi1 (d : Dev) : List Byte := shake256 64 (ascii "NZK2 CDI" ++ uds ++ measureOf d 1 ++ d.cust.bootState)

def cdi2 (d : Dev) : List Byte := shake256 64 (ascii "NZK2 CDI" ++ cdi1 d ++ measureOf d 2 ++ measureOf d 3 ++ measureOf d 4)

def alias1Key (d : Dev) : List Byte := shake256 57 (ascii "NZK2 Alias" ++ cdi1 d)

def alias2Key (d : Dev) : List Byte := shake256 57 (ascii "NZK2 Alias" ++ cdi2 d)

/-- The length octets of a DER value of `n` bytes, below 65,536. -/
def derLen (n : Nat) : List Byte :=
  if n < 128 then [byte n] else if n < 256 then [0x81, byte n] else [0x82, byte (n / 256), byte n]

/-- A DER value: its tag, length and contents. -/
def der (tag : Byte) (l : List Byte) : List Byte := tag :: derLen l.length ++ l

/-- An X.509 v3 certificate with an Ed448 signature over its body (15 R462; RFC 8410: object identifier 1.3.101.113, no parameters). -/
def certOf (sk body : List Byte) : List Byte :=
  der 0x30 (body ++ der 0x30 [0x06, 0x03, 0x2B, 0x65, 0x71] ++ der 0x03 ((0 : Byte) :: edSign sk body))

/-- The certificate chain in slot 0, root first: the DeviceID key signs the Alias1 certificate, and the Alias1 key the Alias2 certificate
(15 R463, R464). -/
def certChain (d : Dev) : List Byte :=
  Config.cert 0 0 ++ Config.cert 1 0 ++ Config.cert 2 (leNat devicePub) ++
    certOf deviceKey (Config.certBody 3 (leNat (edPub (alias1Key d)))) ++
    certOf (alias1Key d) (Config.certBody 4 (leNat (edPub (alias2Key d))))

/-- The wrap private key of this start, and CUST_START_NONCE: drawn at random, so free values (log 9). -/
def wrapKey (d : Dev) : List Byte := (List.range 7).flatMap (fun i => leBytes 8 (Config.free (d.cust.wrapAt + i)).toNat)

def startNonce (d : Dev) : Nat := (Config.free d.cust.nonceAt).toNat

def wrapPub (d : Dev) : List Byte := x448Pub (wrapKey d)

/-! ## Job keys (15 R471, R472) -/

def keySlot (d : Dev) (n : Nat) : KeySlot := NMap.get {} d.cust.keys n

def setKey (d : Dev) (n : Nat) (k : KeySlot) : Dev := { d with cust.keys := NMap.set {} d.cust.keys n k }

/-- The 64 bytes of a blob, where it unwraps for this slot, job and start. -/
def unwrapBlob (d : Dev) (slot job : Nat) (blob : List Byte) : Option (List Byte) :=
  let kek := shake256 32 (ascii "NZK2 key wrap" ++ x448 (wrapKey d) (sub blob 0 56) ++ leBytes 8 (startNonce d) ++ leBytes 2 slot ++ leBytes 2 job)
  keyUnwrap kek (sub blob 0x38 72)

/-- A key command ends: its result, and what QUERY shows of its slot (15 R481). -/
def keyEnd (d : Dev) (slot code : Nat) : Dev :=
  let k := keySlot d slot
  let d1 := { d with cust.keyDone := true, cust.keyResult := code, cust.keyLoadedBit := k.loaded, cust.keyJob := k.job, cust.keyRefs := k.refs }
  if code == cOK then d1 else raise (count d1 custPage 0x808) custPage 1

def zeroKeyData (d : Dev) : Dev := { d with cust.keyData := List.replicate 16 0 }

def keyBlob (d : Dev) : List Byte := d.cust.keyData.flatMap (fun w => leBytes 8 w.toNat)

def keyLoad (d : Dev) (slot job : Nat) : Dev :=
  let d1 := zeroKeyData d
  if (keySlot d slot).loaded then keyEnd d1 slot cBUSY
  else if d.cust.debugUnlocked then keyEnd d1 slot cDENIED
  else match unwrapBlob d slot job (keyBlob d) with
    | none => keyEnd d1 slot cDENIED
    | some l =>
      if l.take 32 == l.drop 32 then keyEnd d1 slot cUNSUP
      else keyEnd (count (setKey d1 slot { keySlot d slot with loaded := true, job := job, data := l.take 32, tweak := l.drop 32 }) custPage 0x800)
        slot cOK

def keyClear (d : Dev) (slot : Nat) : Dev :=
  if 0 < (keySlot d slot).refs then keyEnd d slot cBUSY else keyEnd (setKey d slot {}) slot cOK

/-- DEBUG_UNLOCK (15 R477). -/
def debugUnlock (d : Dev) (slot : Nat) : Dev :=
  let sig := (keyBlob d).take 114
  let m := ascii "NZK2 debug" ++ devicePub ++ leBytes 8 (startNonce d)
  if d.sys.straps.debug == 0 then keyEnd d slot cUNSUP
  else if !edVerify ((List.range 57).map Config.debugKeyByte) m sig then keyEnd d slot cDENIED
  else
    let cleared := d.cust.keys.foldl (fun d e => setKey d e.1 { refs := e.2.refs }) d
    keyEnd (raise { cleared with cust.debugUnlocked := true } custPage 3) slot cOK

/-- A write of CUST_KEY_CMD (15 R480). -/
def writeKeyCmd (d : Dev) (v : Nat) : Dev :=
  let slot := fld v 4 12
  match fld v 0 4 with
  | 1 => keyLoad d slot (fld v 16 12)
  | 2 => keyClear d slot
  | 3 => keyEnd d slot cOK
  | 4 => debugUnlock d slot
  | _ => keyEnd d slot cUNSUP

def readKeyStat (d : Dev) : Nat :=
  let c := d.cust
  b2n c.keyDone * 2 + b2n c.keyLoadedBit * 4 + c.keyResult * 2 ^ 8 + c.keyJob * 2 ^ 16 + c.keyRefs * 2 ^ 32

/-! ## CUST_STAT and the policy (15 R476, R479) -/

def readCustStat (d : Dev) (fz : Fuses) : Nat :=
  b2n d.cust.debugUnlocked + b2n (d.cust.banks.any (fun b => b.trialRuns)) * 2 +
    total ((List.range 4).map (fun k => fz.svn.getD k 0 * 2 ^ (8 * (k + 1))))

/-- Field of a path in CUST_POLICY. -/
def pathField : Path → Nat
  | .pcie0 => 0
  | .pcie1 => 2
  | .ef => 4
  | .i3c => 6

/-- The policy lets a path write a page. -/
def policyAllows (d : Dev) (p : Path) (page : PageId) : Bool :=
  match fld (reg d (custPage + 0x108)) (pathField p) 2 with
  | 0 => false
  | 1 => page.code != 0x02
  | _ => true

/-- A write of CUST_POLICY: discarded where a field holds 0b11, or once LOCK is set. -/
def writePolicy (d : Dev) (v : Nat) : Dev :=
  if bit (reg d (custPage + 0x108)) 8 || [0, 2, 4, 6].any (fun i => fld v i 2 == 3) then d
  else setReg d (custPage + 0x108) (fld v 0 9)

/-- A control-space write that the policy refuses (15 R476; 17 R523). -/
def policyRefused (d : Dev) (off : Nat) : Dev :=
  raiseFe (count d custPage 0x810) custPage 2 { unit := false, addr := off, code := cDENIED }

end Sys2Proof.Machine
end

