-- ==== Sys2Proof/Machine/Power.lean ====
section
/-! DEFINITION. Power, throttling and the resets (16 R484-R498, R505-R509). -/

namespace Sys2Proof.Machine

open Sys2Proof

def clkPage : Nat := pg 0x03 0

def logPage : Nat := pg 0x80 0

/-! ## What stays (16 R497) -/

/-- DETAIL of BEGIN (16 R502). -/
def kindCode : ResetKind → Nat
  | .powerOn => 0
  | .pin => 1
  | .software => 2
  | .watchdog => 3

/-- The straps of a 13-bit value laid out as STRAP_STAT (16 R507). -/
def strapsOf (v : Nat) : Straps :=
  { boot := fld v 0 2, efgen := fld v 2 1, pciegen := fld v 3 2, spare := fld v 5 1, nodehint := fld v 6 6, debug := fld v 12 1 }

/-- Units that stay out of service, and spares that stay in use, over a reset (14 R434). -/
def stillDegraded (d : Dev) : Bool :=
  let t := d.tiers
  t.sites.any (fun s => s.failed || s.role == .retired || s.down != 0 || s.loan != 0 || !s.rowsReplaced.isEmpty) ||
  !t.vaultsDown.isEmpty || !t.nearSpares.isEmpty || t.flash.any (fun f => f.down) || t.groups.any (fun g => decide (g.sparePct < 100)) ||
  !d.raft.failed.isEmpty || d.raft.rows.any (fun r => r.skip0 != 63 || r.extra) || !d.quay.retired.isEmpty ||
  decide (0 < d.quay.spareEast + d.quay.spareWest + d.toll.spareEast + d.toll.spareWest)

/-- What is left of the device once every block has been reset: with `warm`, near store and stacks keep their contents, and the
flash staging area its tiles, and the input power goes on being sampled; without, only flash does (03 R98; 16 R487, R493, R497). -/
def carry (d : Dev) (warm : Bool) : Dev :=
  let t := d.tiers
  let kept (k : Nat) : Bool := warm || decide (flashBase ≤ k)
  let y := d.sys
  -- a start ends here; unless it stands in the hold it has not failed (16 R500, R501)
  let ends := y.power == .on && y.phase != .links
  let sys : Sys :=
    { power := y.power, kind := y.kind, lastCause := y.lastCause, startNo := y.startNo, logbook := y.logbook, straps := y.straps,
      fails := if ends && !y.hold then 0 else y.fails, failStep := if ends && !y.hold then 0 else y.failStep,
      samples := if warm then y.samples else [], vin := y.vin, dieTemp := y.dieTemp, stackTemp := y.stackTemp,
      flashTemp := y.flashTemp, open_ := if !ends then y.open_ else if y.step < 0x12 then [y.step * 65536 + y.unit] else [],
      zeroing := !warm || (y.zeroing && !(y.nearDone && y.stacksDone)) }
  let bank (b : ImageBanks) : ImageBanks := { b with trialRuns := false, runsB := b.activeB, running := [], received := [] }
  let tiers : Tiers :=
    { mem := NMap.keep kept t.mem, poison := t.poison.filter kept, faults := t.faults.filter kept, staged := if warm then t.staged else [],
      dirtyEast := t.dirtyEast, dirtyWest := t.dirtyWest, ovfEast := t.ovfEast, ovfWest := t.ovfWest,
      sites := t.sites.map (fun s => { s with rowEvents := [] }),
      rebuild := t.rebuild, vaultsDown := t.vaultsDown, nearSpares := t.nearSpares, nearRows := t.nearRows, groups := t.groups,
      flash := t.flash.map (fun f => { f with inService := false }) }
  { sys := sys
    tiers := tiers
    raft := { rows := d.raft.rows.map (fun r => { r with stopped := false, pends := [], saved := r.saved ++ r.pends }) }
    quay := { retired := d.quay.retired, spareEast := d.quay.spareEast, spareWest := d.quay.spareWest }
    toll := { spareEast := d.toll.spareEast, spareWest := d.toll.spareWest }
    sched := { tts := List.replicate 16 resetTimetable }
    cust := { banks := d.cust.banks.map bank }
    salv := { degraded := stillDegraded d }
    mgmt := { conSeen := d.tx.length }
    tx := d.tx
    fresh := d.fresh }

/-! ## The beginning of a start -/

/-- Straps set the reset values of GEN_CAP and of XMAP_NODE (16 R498; 11 R373; 13 R405; 02 R75). -/
def applyStraps (d : Dev) (s : Straps) : Dev :=
  let d1 := if s.efgen == 1 then d else (List.range 16).foldl (fun d n => setReg d (landPage n + 0x100) 0b101) d
  let d2 := (List.range 2).foldl (fun d p => setReg d (portPage p + 0x100) (0b100 + s.pciegen)) d1
  { d2 with sys.straps := s, xmap.node := s.nodehint }

/-- BEGIN of a start on what a reset left: the straps are sampled, the numbers that a start draws are drawn (15 R470), and
the start is recorded. -/
def beginStart (d : Dev) (k : ResetKind) (s : Straps) : Dev :=
  let d1 := applyStraps d s
  addLog { d1 with sys.kind := k, sys.phase := .none, sys.step := 0, sys.unit := kindCode k, sys.startNo := d.sys.startNo + 1,
                   sys.faultN := true, cust.wrapAt := d.fresh, cust.nonceAt := d.fresh + 7, fresh := d.fresh + 8 }
    0 0 (kindCode k) d.sys.lastCause

/-! ## Power (16 R484-R486) -/

/-- CAUSE of an emergency off (16 R502). -/
def offCode : OffCause → Nat
  | .overTemperature => 3
  | .railFault => 4
  | .inputOverPower => 5
  | .clockFailure => 7

/-- POWER_ON. -/
def powerOn (d : Dev) (straps : Nat) : Dev :=
  if d.sys.power == .off then beginStart { d with sys.power := .on } .powerOn (strapsOf straps) else d

def execPowerOn (straps : BitVec 13) (s : State) : Host.Outcome State Fault Refusal :=
  s.run (fun d => powerOn d straps.toNat)

/-- A start that ends in the start-failed hold carries that cause, whatever takes the power away (16 R502). -/
def endCause (d : Dev) (c : Nat) : Nat := if d.sys.hold then 8 else c

/-- POWER_LOSS. -/
def powerLoss (d : Dev) : Dev :=
  if d.sys.power == .on then { carry d false with sys.power := .off, sys.lastCause := endCause d 2 } else d

def execPowerLoss (s : State) : Host.Outcome State Fault Refusal :=
  s.run powerLoss

/-- An emergency off: the cause is recorded, and the input stage latches off with FAULT_N low. -/
def goOff (d : Dev) (c : OffCause) : Dev :=
  if d.sys.power == .on then
    let d1 := addLog d 0 5 0 (offCode c)
    { carry d1 false with sys.power := .latched, sys.faultN := false, sys.lastCause := endCause d (offCode c) }
  else d

def execEmergencyOff (cause : OffCause) (s : State) : Host.Outcome State Fault Refusal :=
  s.run (fun d => goOff d cause)

/-- CLOCK_FAILURE (16 R491). -/
def execClockFailure (s : State) : Host.Outcome State Fault Refusal :=
  s.run (fun d => goOff d .clockFailure)

/-- LATCH_CLEAR. -/
def latchClear (d : Dev) : Dev :=
  if d.sys.power == .latched then { d with sys.power := .off, sys.faultN := true } else d

def execLatchClear (s : State) : Host.Outcome State Fault Refusal :=
  s.run latchClear

/-! ## Power limit and temperature (16 R487-R489) -/

/-- The mean input power of the last 1 ms exceeds `num / den` of a limit. -/
def meanOver (d : Dev) (limit num den : Nat) : Bool := decide (limit * num * d.sys.samples.length < total d.sys.samples * den)

def pwrLimit (d : Dev) : Nat := reg d (clkPage + 0x128)

/-- POWER_SAMPLE: ten samples above 1,800 W are 100 µs of it (16 R486). -/
def powerSample (d : Dev) (watts vin : Nat) : Dev :=
  if d.sys.power != .on then d
  else
    let l := (watts :: d.sys.samples).take 100
    let d1 := { d with sys.samples := l, sys.vin := vin }
    if decide (10 ≤ l.length) && (l.take 10).all (fun w => decide (1800 < w)) then goOff d1 .inputOverPower else d1

def execPowerSample (watts vin : Nat) (s : State) : Host.Outcome State Fault Refusal :=
  s.run (fun d => powerSample d watts vin)

/-- ARITH cycles withheld that are not in the counters yet: of two for each LTC cycle, 16 less the duty in 16 (log 33). -/
def withheld (d : Dev) : Nat := (d.sys.ltc - d.sys.countedAt) * 2 * (16 - d.sys.duty) / 16

/-- The counter they go to: of the thermal throttle or of the power limit (log 33). -/
def throttleCnt (d : Dev) : Nat := if d.sys.hot then 0x808 else 0x800

/-- The ARITH cycles withheld are brought into their counter, before the duty, the counter they go to or its freeze changes. -/
def countWithheld (d : Dev) : Dev := { count d clkPage (throttleCnt d) (withheld d) with sys.countedAt := d.sys.ltc }

/-- What a throttle counter reads: with the cycles not brought into it yet, unless it is frozen (16 R487; 17 R519). -/
def readThrottle (d : Dev) (o : Nat) : Nat :=
  (reg d (clkPage + o) + (if throttleCnt d == o && !bit (reg d (clkPage + 0x10)) 1 then withheld d else 0)) % 2 ^ 64

/-- The duty changes. -/
def setDuty (d : Dev) (duty : Nat) : Dev := { countWithheld d with sys.duty := duty, sys.dutyAt := d.sys.ltc }

/-- DUTY_STEP_DOWN, 1 ms after the last change. -/
def dutyDown (d : Dev) : Dev :=
  if !live d || d.sys.duty ≤ 2 || !(meanOver d (pwrLimit d) 1 1 || d.sys.hot) then d
  else setDuty (advanceTo d (d.sys.dutyAt + 800000)) (d.sys.duty - 1)

def execDutyStepDown (s : State) : Host.Outcome State Fault Refusal :=
  s.run dutyDown

/-- The mean is below 97 % of the limit. -/
def meanLow (d : Dev) : Bool := decide (total d.sys.samples * 100 < pwrLimit d * 97 * d.sys.samples.length)

/-- DUTY_STEP_UP, 10 ms after the last change. -/
def dutyUp (d : Dev) : Dev :=
  if !live d || 16 ≤ d.sys.duty || !meanLow d || d.sys.hot then d
  else { setDuty (advanceTo d (d.sys.dutyAt + 8000000)) (d.sys.duty + 1) with sys.halfRate := false }

def execDutyStepUp (s : State) : Host.Outcome State Fault Refusal :=
  s.run dutyUp

/-- PWR_OVER (16 R488). -/
def pwrOver (d : Dev) : Dev :=
  if !live d || d.sys.duty != 2 || d.sys.halfRate || !meanOver d (pwrLimit d) 105 100 then d
  else raise { advanceTo d (d.sys.dutyAt + 8000000) with sys.halfRate := true } clkPage 1

def execPwrOver (s : State) : Host.Outcome State Fault Refusal :=
  s.run pwrOver

/-- A reading is stored. -/
def setTemp (d : Dev) : TempPoint → Nat → Dev
  | .die b n, c => { d with sys.dieTemp := NMap.set 0 d.sys.dieTemp (b * 16 + n) c }
  | .stack n, c => { d with sys.stackTemp := NMap.set 0 d.sys.stackTemp n c }
  | .flash n, c => { d with sys.flashTemp := NMap.set 0 d.sys.flashTemp n c }

/-- Where a reading causes an emergency off. -/
def critical : TempPoint → Nat
  | .die _ _ => 110
  | .stack _ => 100
  | .flash _ => 85

/-- TEMP_SAMPLE. -/
def tempSample (d : Dev) (p : TempPoint) (c : Nat) : Dev :=
  if d.sys.power != .on then d
  else
    let d1 := countWithheld (setTemp d p c)
    let warn := reg d (clkPage + 0x138)
    let isDie := match p with | .die _ _ => true | _ => false
    if critical p < c then goOff d1 .overTemperature
    else if isDie && decide (warn < c) then raise { d1 with sys.hot := true, sys.thermN := false } clkPage 2
    else if d1.sys.hot && d1.sys.dieTemp.all (fun e => decide (e.2 + 3 ≤ warn)) then { d1 with sys.hot := false, sys.thermN := true }
    else d1

def execTempSample (at_ : TempPoint) (celsius : Nat) (s : State) : Host.Outcome State Fault Refusal :=
  s.runReq (fun d => tempSample d at_ celsius)

/-- PHY_PLL_LOSS (16 R491): the interface alone is affected. -/
def phyLoss (d : Dev) (p : Phy) : Dev :=
  if !live d then d
  else match p with
    | .landing n => if (land d n).st == .up then retrain (onLand d n (fun l => { l with laneOk := 0 })) n false else d
    | .pcie n => if n < 2 then resetPort d n else d
    | .stackChannel s c => channelDown d s c
    | .flashChannel n => flashFail d n

def execPhyPllLoss (phy : Phy) (s : State) : Host.Outcome State Fault Refusal :=
  s.runReq (fun d => phyLoss d phy)

/-! ## A reset with power applied (16 R494-R496) -/

/-- A descriptor that has begun or not: items that have not committed fail with ABORTED, and it has completed. -/
def stopDesc (d : Dev) (x : Desc) : Dev :=
  if x.phase == .finished || x.phase == .fetching then d
  else
    let units := x.redo ++ (activeCopies d x).flatMap (·.hand) ++ (List.range (unitsIn x - x.nextItem)).map (x.nextItem + ·)
    let left := if x.units.isSome then units.flatMap (itemsOfBag x (argsOf x.table)) else units
    unbind (releaseCopies (finishDesc (left.foldl (fun d i => noteItem d x.r i cABORTED) d) x.r) x.r) x.r

/-- The Tow's items end, and what they held goes on. -/
def stopMoves (d : Dev) : Dev :=
  let one (d : Dev) (m : MoveItem) : Dev :=
    let d1 := endMove (onExt d m.base (fun x => { x with moving := false })) m cABORTED
    if m.phase == .switching then unhold d1 m.base else d1
  let d1 := d.tiers.moves.foldl one d
  { d.tiers.persists.foldl (fun d p => noteItem d p.r p.item cABORTED) d1 with tiers.persists := [] }

/-- Row locks that have not acted, waits for locks, loads and scans end. -/
def stopWork (d : Dev) : Dev :=
  let fails (d : Dev) (u : LockUse) : Dev := u.items.foldl (fun d i => noteItem d u.r i cABORTED) d
  let d1 := ((d.purser.locks.filter (fun l => !l.holder.acted)).map (·.holder)).foldl fails d
  let d2 := d.purser.shares.foldl (fun d s => noteItem d s.r s.item cABORTED) ((d.purser.waits.map (·.use)).foldl fails d1)
  let loads := d.raft.copies.filter (fun c => !c.placed)
  let d3 := loads.foldl (fun d c => match c.loader with
    | some p => noteItem d p.1 p.2 cABORTED
    | none => d) d2
  { d3 with purser.locks := [], purser.waits := [], purser.shares := [], sound.punts := List.replicate 32 {},
            raft.copies := d3.raft.copies.filter (fun c => c.placed) }

/-- Every delta queued is applied (03 R87, R88). -/
def applyQueues (d : Dev) : Dev := d.tiers.deltas.foldl (fun d x => applyStripe d x.1 x.2.1) d

/-- Every open accumulator is written back (05 R169, case 7). -/
def writeBackAll (d : Dev) : Dev := d.quay.accums.foldl (fun d a => finishWb d a.bank a.offset) d

/-- The quiesce begins: READY goes low, accumulators are written back, snapshot slots are freed as by DROP, descriptors stop,
and the parity queues are applied. -/
def beginQuiesce (d : Dev) (k : ResetKind) : Dev :=
  let d1 := { d with sys.phase := .quiesce, sys.phaseAt := d.sys.ltc, sys.kind := k, sys.ready := false }
  let d2 := writeBackAll d1
  let d3 := (List.range 32).foldl (fun d n => dropSlot d n cABORTED) d2
  let d4 := stopWork (stopMoves d3)
  applyQueues (d4.descs.foldl stopDesc d4)

/-- No phase of a reset runs, or the notice does: another reset may begin its quiesce. -/
def maySettle (d : Dev) : Bool := d.sys.power == .on && (d.sys.phase == .none || d.sys.phase == .notice)

/-- PIN_RESET: the notice of a software reset, where one runs, ends. -/
def execPinReset (s : State) : Host.Outcome State Fault Refusal :=
  s.runReq (fun d => if maySettle d then beginQuiesce d .pin else d)

/-- WATCHDOG_RESET: the start-failed hold is left by other resets alone (16 R501). -/
def execWatchdogReset (s : State) : Host.Outcome State Fault Refusal :=
  s.runReq (fun d => if maySettle d && !d.sys.hold then beginQuiesce d .watchdog else d)

/-- GO: a notice, or, before the SERVICE step and in the start-failed hold, a restart without one. -/
def rstGo (d : Dev) : Dev :=
  if d.sys.power != .on || d.sys.phase != .none then d
  else if d.sys.step < 0x11 || d.sys.hold then beginQuiesce d .software
  else raise { d with sys.phase := .notice, sys.phaseAt := d.sys.ltc, sys.kind := .software, sys.ready := false } clkPage 3

/-- CANCEL: only during the notice. -/
def rstCancel (d : Dev) : Dev :=
  if d.sys.power == .on && d.sys.phase == .notice then { d with sys.phase := .none, sys.ready := decide (0x11 ≤ d.sys.step) } else d

/-- NOW: the quiesce without notice. -/
def rstNow (d : Dev) : Dev := if maySettle d then beginQuiesce d .software else d

/-- A write of RST_CTL (16 R505): of several bits, NOW comes first, then CANCEL, then GO (log 34). -/
def writeRstCtl (d : Dev) (v : Nat) : Dev :=
  if bit v 2 then rstNow d else if bit v 1 then rstCancel d else if bit v 0 then rstGo d else d

/-- RST_NOTICE_EXPIRY. -/
def noticeExpiry (d : Dev) : Dev :=
  if d.sys.power == .on && d.sys.phase == .notice then
    beginQuiesce (advanceTo d (d.sys.phaseAt + reg d (clkPage + 0x110))) .software
  else d

def execRstNoticeExpiry (s : State) : Host.Outcome State Fault Refusal :=
  s.runReq noticeExpiry

/-- Work of the quiesce that is not done. -/
def quiesceBusy (d : Dev) : Bool := !d.flying.isEmpty || !d.descs.isEmpty || !d.tiers.deltas.isEmpty

/-- Stripes with deltas still queued are marked for recomputation (16 R495). -/
def markDeltas (d : Dev) : Dev :=
  d.tiers.deltas.foldl (fun d x => logStripe d (bankOfSite (parityPos x.1 x.2.1)) x.1 x.2.1) d

/-- QUIESCE_END: accumulators that committed items have opened since are written back, links go down, then the blocks are reset. With
work unfinished, RST_QUIESCE has passed. A start that was in service gets its start-ended entry. -/
def quiesceEnd (d : Dev) : Dev :=
  if d.sys.power != .on || d.sys.phase != .quiesce then d
  else
    let d := writeBackAll d
    let cause := endCause d (if d.sys.kind == .watchdog then 6 else 1)
    let d1 := markDeltas (if quiesceBusy d then advanceTo d (d.sys.phaseAt + reg d (clkPage + 0x118)) else d)
    let d2 := if d.sys.step == 0x12 then addLog d1 0 5 0 cause else d1
    { carry d2 true with sys.phase := .links, sys.lastCause := cause }

def execQuiesceEnd (s : State) : Host.Outcome State Fault Refusal :=
  s.run quiesceEnd

/-- CORE_RESET_END: the straps are sampled, and the start begins at BEGIN. -/
def coreResetEnd (d : Dev) (straps : Nat) : Dev :=
  if d.sys.power == .on && d.sys.phase == .links then beginStart d d.sys.kind (strapsOf straps) else d

def execCoreResetEnd (straps : BitVec 13) (s : State) : Host.Outcome State Fault Refusal :=
  s.run (fun d => coreResetEnd d straps.toNat)

/-- TEST_PORT_RESET: JTAG_TRST_N resets the TAPs only (log 7). -/
def tapReset (d : Dev) : Dev := { d with mgmt.tapEast := 2, mgmt.tapWest := 2 }

def execTestPortReset (s : State) : Host.Outcome State Fault Refusal :=
  s.run tapReset

/-! ## Registers (16 R506-R509) -/

def readRstStat (d : Dev) : Nat :=
  d.sys.lastCause + (match d.sys.phase with | .notice => 1 | .quiesce => 2 | _ => 0) * 2 ^ 8

def readStrapStat (d : Dev) : Nat :=
  let s := d.sys.straps
  s.boot + s.efgen * 4 + s.pciegen * 8 + s.spare * 32 + s.nodehint * 64 + s.debug * 4096

/-- The mean is rounded down (log 35). -/
def readPwrStat (d : Dev) : Nat :=
  min (total d.sys.samples / d.sys.samples.length) 4095 + min d.sys.vin 1023 * 2 ^ 12 + d.sys.duty * 2 ^ 22

/-- The hottest reading among those whose number satisfies `p`. -/
def hottest (m : NMap Nat) (p : Nat → Bool) : Nat := m.foldl (fun h e => if p e.1 then max h e.2 else h) 0

def readTempStat (d : Dev) : Nat :=
  hottest d.sys.dieTemp (fun k => decide (k < 16)) % 256 + hottest d.sys.dieTemp (fun k => decide (16 ≤ k)) % 256 * 2 ^ 8 +
    hottest d.sys.stackTemp (fun _ => true) % 256 * 2 ^ 16 + hottest d.sys.flashTemp (fun _ => true) % 256 * 2 ^ 24

/-- LOG_DATA0 and LOG_DATA1 of the entry LOG_SEL names. -/
def readLogData (d : Dev) (word : Nat) : Nat :=
  match d.sys.logbook[reg d (logPage + 0x100) % 8192]? with
  | none => 0
  | some e =>
    if word == 0 then e.step + e.outcome * 2 ^ 8 + e.detail * 2 ^ 16 + e.start % 2 ^ 32 * 2 ^ 32
    else e.elapsed + e.cause * 2 ^ 32

def readLogStat (d : Dev) : Nat :=
  min d.sys.step 0x11 + (if d.sys.hold then 2 else if d.sys.step == 0x12 then 1 else 0) * 2 ^ 8 + min d.sys.fails 3 * 2 ^ 10

end Sys2Proof.Machine
end

