-- ==== Sys2Proof/Machine/Start.lean ====
section
/-! DEFINITION. The start (16 R498-R502): its steps and their units, alternatives, the start-failed hold, the Logbook. -/

namespace Sys2Proof.Machine

open Sys2Proof

/-! ## Steps and units (16 R499) -/

/-- TYPE of the image that a step checks (15 R465). -/
def stepType : Nat → Option Nat
  | 2 => some 1
  | 3 => some 2
  | 4 => some 4
  | 0xE => some 3
  | _ => none

/-- The loader and the runtime of this start are received, not read (16 R498). -/
def recovers (d : Dev) (type : Nat) : Bool := (d.sys.straps.boot == 1 || d.sys.straps.boot == 2) && type ≤ 2

/-- The bank that a start runs of a TYPE: the active one, or the other where it is marked for trial (15 R467). -/
def bankFirst (d : Dev) (type : Nat) : Nat :=
  let b := imageBanks d type
  b2n (b.activeB != b.trial)

/-- Half of a step's units where the West bank is held in reset (01 R27). -/
def halfOf (d : Dev) (n : Nat) : List Nat := List.range (if d.sys.westHeld then n / 2 else n)

/-- DETAIL of each unit of the step that runs, in order. Lane groups from West to East are numbered from 34 on, and PLLs are
the root, the Landings', the ports', the stack channels' and the flash channels' (log 36). -/
def unitsOf (d : Dev) : List Nat :=
  match d.sys.step with
  | 0 => [kindCode d.sys.kind]
  | 2 => [bankFirst d 1]
  | 3 => [bankFirst d 2]
  | 4 => [bankFirst d 4]
  | 5 => (List.range 10).map (· + 4)
  | 6 => List.range 371
  | 7 => List.range 68
  | 8 => halfOf d 64
  | 9 => halfOf d 320
  | 0xA => halfOf d 32
  | 0xB => halfOf d 10
  | 0xC => halfOf d 2
  | 0xD => halfOf d 1024
  | 0xE => [bankFirst d 3]
  | 0xF => halfOf d 2
  | 0x10 => halfOf d 16
  | _ => [0]

/-- The alternative of a step is another attempt at the unit, and not the end of it. -/
def attempts (step : Nat) : Bool := (stepType step).isSome || step == 0x10

/-- A unit of the step that runs has an alternative left. -/
def hasAlt (d : Dev) (u : Nat) : Bool :=
  match d.sys.step with
  | 2 => d.sys.alt == 0 && !recovers d 1
  | 3 => d.sys.alt == 0 && !recovers d 2
  | 4 => d.sys.alt == 0
  | 0xE => d.sys.alt == 0
  | 6 => u != 0
  | 0x10 => decide (1 < (land d u).cap)
  | 7 => true
  | 8 => true
  | 9 => true
  | 0xA => true
  | 0xD => true
  | _ => false

/-- The bank that the unit of an image step tries now. -/
def bankNow (d : Dev) (u : Nat) : Bool := (u == 1) != (d.sys.alt != 0)

/-- The image of a step's unit is accepted (15 R466); in recovery, an accepted image has been received. -/
def imageGood (d : Dev) (fz : Fuses) (type u : Nat) : Bool :=
  if recovers d type then !(imageBanks d type).received.isEmpty else bankAccepted fz (imageBanks d type) type (bankNow d u)

/-! ## What a unit's end does -/

/-- A bank's image runs, or the image received. A trial has had its start (15 R467). -/
def runImage (d : Dev) (type u : Nat) : Dev :=
  onBanks d type (fun b =>
    if recovers d type then { b with running := b.received, runsB := b.activeB, trialRuns := false, trial := false }
    else
      let isB := bankNow d u
      { b with running := if isB then b.b else b.a, runsB := isB, trialRuns := b.trial && isB != b.activeB, trial := false })

/-- A lane group trains: 32 are in service, the last two as spares for those that did not (01 R24, R26). -/
def groupGood (d : Dev) (u : Nat) : Dev :=
  onCw d (decide (u < 34)) (fun c =>
    if c.inService.length < 32 then
      { c with inService := NSet.add c.inService (u % 34), spares := c.spares + (if 32 ≤ u % 34 then 1 else 0) }
    else c)

/-- The work of a unit is done. -/
def unitGood (d : Dev) (fz : Fuses) (u : Nat) : Dev :=
  match d.sys.step with
  | 1 => { d with cust.bootState := securityState d fz }
  | 2 => runImage d 1 u
  | 3 => runImage d 2 u
  | 4 => runImage d 4 u
  | 7 => groupGood d u
  | 0xA => onFlash d u (fun f => { f with inService := !f.down })
  | 0xC => drainStage d u
  | 0xE => runImage d 3 u
  | 0xF => trainPort d u
  | _ => d

/-- A stack channel is replaced by the spare's, at once where the tiers are being zeroed, else by Salvage in service (16 R499,
03 R94). -/
def replaceChannel (d : Dev) (s c : Nat) : Dev :=
  let d1 := channelDown d s c
  if d.sys.zeroing then channelRebuilt d1 s c else d1

/-- A PHY without its PLL: its interface leaves service, a Landing or a port for this start. -/
def pllGone (d : Dev) (u : Nat) : Dev :=
  if u ≤ 16 then degrade (onLand d (u - 1) (fun l => { l with cap := 0 })) ((u - 1) / 8)
  else if u ≤ 18 then degrade (onPort d (u - 17) (fun p => { p with off := true })) (u - 17)
  else if u ≤ 338 then replaceChannel d ((u - 19) / 32) ((u - 19) % 32)
  else flashFail d (u - 339)

/-- A port that fails does not hold the start, and needs no alternative (16 R499, PCIE). -/
def goesOn (step : Nat) : Bool := step == 0xF

/-- A unit that left service earlier is not tried: a vault, a stack channel, a flash channel, an SU. -/
def skipped (d : Dev) (u : Nat) : Bool :=
  match d.sys.step with
  | 8 => NSet.mem d.tiers.vaultsDown u
  | 9 => bit (site d (u / 32)).down.toNat (u % 32) || (u / 32 != spareSite && bit (site d (u / 32)).loan.toNat (u % 32))
  | 0xA => (d.tiers.flash.getD u {}).down
  | 0xD => suDown d u
  | _ => false

/-- The alternative of a unit whose step meets its failure at once. -/
def unitAlt (d : Dev) (u : Nat) : Dev :=
  match d.sys.step with
  | 6 => pllGone d u
  | 7 => degrade (onCw d (decide (u < 34)) (fun c => { c with retired := NSet.add c.retired (u % 34) })) 0
  | 8 => vaultFail d u
  | 9 => replaceChannel d (u / 32) (u % 32)
  | 0xA => flashFail d u
  | 0xD => suOut d u
  | _ => d

/-- Near store, or the stacks, written to zero (16 R497). -/
def zeroCells (d : Dev) (p : Nat → Bool) : Dev :=
  let keep (k : Nat) : Bool := !p k
  { d with tiers.mem := NMap.keep keep d.tiers.mem, tiers.poison := d.tiers.poison.filter keep, tiers.faults := d.tiers.faults.filter keep }

/-- Pending remaps are applied (06 R218). -/
def applyRemaps (d : Dev) : Dev :=
  { d with raft.rows := d.raft.rows.map (fun m => { ((m.saved ++ m.pends).foldl skipColumn m) with pends := [], saved := [], stopped := false }) }

/-- What a step does once its last unit has ended; after LANDINGS the SERVICE step raises READY (16 R483, R499). -/
def stepEnd (d : Dev) : Dev :=
  match d.sys.step with
  | 6 =>
    -- the time from the last entry to LTC 0 is not given (log 31)
    let v := freeVal d
    { v.2 with sys.startUs := d.sys.startUs + v.1 % 2 ^ 32 }
  | 7 =>
    if d.cw.toWest.inService.isEmpty || d.cw.toEast.inService.isEmpty then
      degrade { d with sys.westHeld := true, sys.cwLost := true } 0
    else d
  | 8 =>
    let d1 := if d.sys.zeroing then { zeroCells d (fun k => decide (k < 2 ^ 40)) with tiers.staged := [] } else d
    { d1 with sys.nearDone := true }
  | 9 =>
    let d1 := if d.sys.zeroing then
        { zeroCells d (fun k => decide (2 ^ 40 ≤ k) && decide (k < flashBase)) with
          tiers.dirtyEast := [], tiers.dirtyWest := [], tiers.ovfEast := 0, tiers.ovfWest := 0 }
      else d
    -- row replacements are made permanent by post-package repair (03 R93)
    let repair (t : Site) : Site := { t with rowsPermanent := t.rowsReplaced.foldl NSet.add t.rowsPermanent }
    { d1 with sys.stacksDone := true, tiers.sites := d1.tiers.sites.map repair }
  | 0xB => recomputeDone (recomputeDone d 0) 1
  | 0xD => applyRemaps d
  | 0x10 => { d with sys.ready := true, sys.fails := 0, sys.failStep := 0 }
  | _ => d

/-! ## The Logbook's entries and the way through the steps -/

/-- Outcome and CAUSE are written in the entry of the unit that runs: the newest of the step, which no retrain of the Causeway has added. -/
def endEntry (d : Dev) (outcome cause : Nat) : Dev :=
  let put (e : LogEntry) : LogEntry := { e with outcome := outcome, cause := cause }
  { d with sys.logbook := modFirst (fun e => e.step == d.sys.step && e.outcome == 0) put d.sys.logbook }

/-- The unit was left open by the start before, and its alternative stands ready (16 R500). -/
def wasOpen (d : Dev) (u : Nat) : Bool := NSet.mem d.sys.open_ (d.sys.step * 65536 + u) && hasAlt d u

/-- A unit begins: its entry is written; one that was left open begins with the step's alternative. -/
def startUnit (d : Dev) (u : Nat) : Dev :=
  let d1 := addLog { d with sys.unit := u, sys.alt := 0 } d.sys.step 0 u 0
  if attempts d.sys.step && wasOpen d1 u then
    let d2 := { d1 with sys.alt := 2 }
    if d.sys.step == 0x10 then onLand d2 u (fun l => { l with cap := l.cap / 2 }) else d2
  else d1

/-- A unit has ended well: done, done differently, or, where it left service earlier, skipped (DESIGN CHOICE, log 146). -/
def unitEnds (d : Dev) (fz : Fuses) (u : Nat) : Dev :=
  if skipped d u then endEntry d 3 (if NSet.mem d.sys.open_ (d.sys.step * 65536 + u) then 2 else 0)
  else if !attempts d.sys.step && wasOpen d u then unitAlt (endEntry d 2 2) u
  else unitGood (if d.sys.step == 0 then endEntry d 1 d.sys.lastCause
    else if d.sys.alt == 0 then endEntry d 1 0 else endEntry d 2 d.sys.alt) fz u

/-- The next step begins with its first unit, or the module is in service. -/
def nextStep (d : Dev) : Dev :=
  let d1 := { stepEnd d with sys.step := d.sys.step + 1 }
  if d.sys.step == 0x11 then { d1 with sys.unit := 0 } else startUnit d1 ((unitsOf d1).headD 0)

/-- What follows the end of unit `u`. -/
def afterUnit (d : Dev) (u : Nat) : Dev :=
  match ((unitsOf d).dropWhile (· != u)).drop 1 with
  | v :: _ => startUnit d v
  | [] => nextStep d

/-- The start-failed hold: every block but the Pilot's is held in reset (16 R501). -/
def enterHold (d : Dev) : Dev :=
  let d1 := raise (addLog d 0 5 0 8) logPage 1
  { d1 with sys.hold := true, sys.faultN := false, sys.ready := false, lands := List.replicate 16 {}, ports := List.replicate 2 {}, flying := [],
            descs := [], wharf := {} }

/-- A step fails: the third time in a row that it does puts the module in the hold; else another start follows, by way of a
watchdog reset (log 37). -/
def stepFails (d : Dev) : Dev :=
  let n := if d.sys.failStep == d.sys.step then d.sys.fails + 1 else 1
  let d1 := { d with sys.fails := n, sys.failStep := d.sys.step }
  if 3 ≤ n then enterHold d1
  else { carry d1 true with sys.phase := .links, sys.kind := .watchdog, sys.lastCause := 6, sys.fails := n, sys.failStep := d.sys.step }

/-- CAUSE of a failed entry. -/
def failCause : UnitEnd → Nat
  | .timeLimit => 0x12
  | .checkFailure => 0x11
  | _ => 0x10

/-- A unit fails: recorded, then met by the step's alternative. -/
def unitFails (d : Dev) (u : Nat) (e : UnitEnd) : Dev :=
  let alt := hasAlt d u
  let spare := d.sys.straps.spare == 1
  let cause := if alt || goesOn d.sys.step || !spare then failCause e else 0x13
  let d1 := raiseFe (endEntry d 4 cause) logPage 0 (feUnit (d.sys.step * 65536 + u))
  if goesOn d.sys.step then afterUnit d1 u
  else if !spare then enterHold { d1 with sys.fails := 1, sys.failStep := d.sys.step }
  else if !alt then stepFails d1
  else if attempts d.sys.step then
    let d2 := { addLog d1 d.sys.step 0 u 0 with sys.alt := 1 }
    if d.sys.step == 0x10 then onLand d2 u (fun l => { l with cap := l.cap / 2 }) else d2
  else afterUnit (unitAlt (addLog d1 d.sys.step 2 u 1) u) u

/-- A unit ends as stated: an image that is not accepted is a check failure, STRAP_BOOT 0b11 stops at ROM, and SERVICE waits for
XMAP_NODE.VALID. -/
def unitDone (d : Dev) (fz : Fuses) (u : Nat) (e : UnitEnd) : Dev :=
  if skipped d u || (!attempts d.sys.step && wasOpen d u) then afterUnit (unitEnds d fz u) u
  else if e != .good then unitFails d u e
  else match stepType d.sys.step with
    | some t =>
      if imageGood d fz t u then afterUnit (unitEnds d fz u) u
      else if recovers d t then d
      else unitFails d u .checkFailure
    | none =>
      if d.sys.step == 1 && d.sys.straps.boot == 3 then enterHold d
      else if d.sys.step == 0x11 && !d.xmap.nodeValid then d
      else afterUnit (unitEnds d fz u) u

/-- START_STEP_DONE: the units before the one named have ended well, and that one ends as stated. -/
def startStepDone (d : Dev) (fz : Fuses) (detail : Nat) (e : UnitEnd) : Dev :=
  let rest := (unitsOf d).dropWhile (· != d.sys.unit)
  if d.sys.power != .on || d.sys.phase != .none || d.sys.hold || 0x12 ≤ d.sys.step || !rest.contains detail then d
  else
    let d1 := (rest.takeWhile (· != detail)).foldl (fun d u => afterUnit (unitEnds d fz u) u) d
    unitDone d1 fz detail e

def execStartStepDone (detail : Nat) (e : UnitEnd) (s : State) : Host.Outcome State Fault Refusal :=
  s.runReq (fun d => startStepDone d s.fuses detail e)

/-- RECOVERY_IMAGE_RECEIVED (16 R498): the loader or the runtime of a recovery start; one that is not accepted is not run
(log 38). -/
def recoveryImage (d : Dev) (fz : Fuses) (type : Nat) (l : List Byte) : Dev :=
  let waits := d.sys.power == .on && d.sys.phase == .none && !d.sys.hold && recovers d type && stepType d.sys.step == some type
  if waits && imageReason fz type l == 0 then onBanks d type (fun b => { b with received := l }) else d

def execRecoveryImageReceived (type : BitVec 8) (image : List Byte) (s : State) : Host.Outcome State Fault Refusal :=
  s.run (fun d => recoveryImage d s.fuses type.toNat image)

end Sys2Proof.Machine
end

