-- ==== Sys2Proof/Machine/Mirrors.lean ====
section
/-! DEFINITION. What every register reads (17 R514-R543): the common page, and the registers that show other state. -/

namespace Sys2Proof.Machine

open Sys2Proof

/-! ## The common page -/

/-- BLK_CAP and BLK_CAP2 by type (17 R518). -/
def capsOf : Nat → Nat × Nat
  | 0x01 => (0xF, 0xDD)
  | 0x02 => (7, 0x1000)
  | 0x03 => (0, 0x7C)
  | 0x10 => (3, 0x60000)
  | 0x11 => (0x1F, 0x200)
  | 0x12 => (0x7F, 8)
  | 0x20 => (7, 0x100000)
  | 0x21 => (1, 0x4080)
  | 0x30 => (0, 0x20)
  | 0x31 => (3, 0x20)
  | 0x32 => (1, 0x10)
  | 0x33 => (3, 0x4000)
  | 0x34 => (3, 0x12)
  | 0x40 => (7, 0x400000)
  | 0x41 => (7, 0x8000)
  | 0x50 => (0xF, 0x1FFF)
  | 0x51 => (0, 0x100)
  | 0x60 => (0xF, 0x400)
  | 0x61 => (7, 0x100)
  | 0x62 => (1, 0x10)
  | 0x70 => (3, 0x100)
  | 0x71 => (1, 0x1000)
  | 0x72 => (0, 8)
  | 0x80 => (0, 0x2000)
  | _ => (0, 0)

/-- Event bits of a page that are not reserved (17 R523; 11, 12, 13, 14, 16, Registers). -/
def eventMask : Nat → Nat
  | 0x01 => 0x3
  | 0x02 => 0xF
  | 0x03 => 0xF
  | 0x10 => 0x1F
  | 0x11 => 0x1F
  | 0x12 => 0xF
  | 0x20 => 0xF
  | 0x21 => 0x3F
  | 0x30 => 0x7
  | 0x31 => 0x3F
  | 0x32 => 0x7
  | 0x33 => 0xF
  | 0x34 => 0x1F
  | 0x40 => 0x1F
  | 0x41 => 0x1
  | 0x50 => 0xF
  | 0x51 => 0x3
  | 0x60 => 0x3
  | 0x61 => 0x3
  | 0x62 => 0x3
  | 0x70 => 0x7
  | 0x71 => 0x1
  | 0x72 => 0x1
  | 0x80 => 0x7
  | _ => 0

/-- The start step of a block, after which it serves (17 R520 names none; log 40). -/
def blockStep : Nat → Nat
  | 0x01 => 3
  | 0x02 => 1
  | 0x80 => 0
  | 0x30 => 8
  | 0x31 => 9
  | 0x32 => 0xA
  | 0x62 => 0xA
  | 0x33 => 0xC
  | 0x34 => 0xB
  | 0x50 => 0xE
  | 0x51 => 0xD
  | 0x12 => 0xF
  | 0x11 => 0x10
  | _ => 6

/-- A unit of the page's block is out of service, or a spare of it is in use (17 R520). -/
def pageDegraded (d : Dev) (p : PageId) : Bool :=
  let t := d.tiers
  let n := pageInstance p
  match p.code with
  | 0x03 => d.sys.cwLost || !d.cw.toWest.retired.isEmpty || !d.cw.toEast.retired.isEmpty
  | 0x11 => (linkUp d n && decide ((land d n).width < 4)) || (land d n).lanesBad || (land d n).cap == 0
  | 0x12 => (port d n).off
  | 0x20 => decide (0 < (if p.bank == 0 then d.toll.spareEast else d.toll.spareWest))
  | 0x30 => t.vaultsDown.any (fun v => v / 32 == p.bank) || t.nearSpares.any (fun v => v.1 / 32 == p.bank)
  | 0x31 =>
    let s := site d n
    s.failed || s.role == .retired || s.down != 0 || s.loan != 0 || !s.rowsReplaced.isEmpty
  | 0x32 =>
    let g := t.groups.getD p.bank {}
    ((List.range 16).any (fun c => (t.flash.getD (p.bank * 16 + c) {}).down)) || decide (g.sparePct < 100)
  | 0x34 => degradedNow d
  | 0x40 => d.quay.retired.any (fun k => k / 2 ^ 22 == p.bank) || decide (0 < (if p.bank == 0 then d.quay.spareEast else d.quay.spareWest))
  | 0x50 => d.raft.failed.any (fun k => k / 34 / 16 == p.bank) || (List.range 16).any (fun r => (rowMap d (p.bank * 16 + r)).skip0 != 63 || (rowMap d (p.bank * 16 + r)).extra)
  | 0x51 => clusterDown d n
  | 0x62 => (t.flash.getD n {}).down
  | _ => false

/-- BLK_STAT (17 R520). -/
def readBlkStat (d : Dev) (p : PageId) (base : Nat) : Nat :=
  b2n (decide (blockStep p.code < d.sys.step)) + b2n (pageDegraded d p) * 2 + b2n (blockInt d base) * 4 + b2n (bit (reg d (base + 0x50)) 31) * 8

/-- SPARE_MAP (17 R525; 03 R116; 06 R221). -/
def readSpareMap (d : Dev) (p : PageId) : Nat :=
  match p.code with
  | 0x03 => readCwSpares d
  | 0x20 => if p.bank == 0 then d.toll.spareEast else d.toll.spareWest
  | 0x30 => ofBits ((List.range 32).filter (fun v => NSet.mem d.tiers.vaultsDown (p.bank * 32 + v)))
  | 0x31 =>
    let s := site d (pageInstance p)
    let served := s.role == .member || s.role == .target
    (match s.role with | .member => 0 | .spare => 1 | .retired => 2 | .target => 3) +
      (if served then s.position * 4 + bankOfSite s.position * 2 ^ 6 else 0xF * 4)
  | 0x32 =>
    let g := d.tiers.groups.getD p.bank {}
    g.sparePct + b2n g.gone.isSome * 2 ^ 8
  | 0x40 => if p.bank == 0 then d.quay.spareEast else d.quay.spareWest
  | 0x50 => readRaftSpares d p.bank
  | _ => 0

/-- INT_SUMn: the types of a bank of which some page asserts its interrupt (17 R522). -/
def readIntSum (d : Dev) (n : Nat) : Nat :=
  let asserted (k : Nat) : Bool := d.regs.any (fun e => e.1 % 0x1000 == 0x20 && blockInt d (e.1 - 0x20) &&
    (match pageAt e.1 with
     | some p => p.bank * 256 + p.code == 64 * n + k
     | none => false))
  ofBits ((List.range 64).filter asserted)

/-! ## Block-specific registers -/

/-- TOLL_RVK_SLOTk (17 R534). -/
def readRvkSlot (d : Dev) (k : Nat) : Nat :=
  let s := d.toll.slots.getD k {}
  if s.busy then 1 + b2n s.handover * 2 + min (drainCount d s.base) 524287 * 4 + s.base * 2 ^ 21 else 0

/-- TOLL_CMD_STAT (02 R74). -/
def readTollStat (d : Dev) : Nat :=
  b2n d.toll.pending.isSome + b2n d.toll.done * 2 + b2n d.toll.lost * 4 + d.toll.result * 2 ^ 8 + d.toll.slot * 2 ^ 16

/-- XMAP_STAT (17 R536). -/
def readXmapStat (d : Dev) : Nat :=
  b2n d.xmap.pending.isSome + b2n d.xmap.done * 2 + b2n d.xmap.lost * 4 + d.xmap.result * 2 ^ 8

/-- Stripes in a bank's dirty log, and its overflow (17 R543). -/
def readParLog (d : Dev) (bank : Nat) : Nat :=
  (if bank == 0 then d.tiers.dirtyEast else d.tiers.dirtyWest).length + b2n ((if bank == 0 then d.tiers.ovfEast else d.tiers.ovfWest) != 0) * 2 ^ 21

/-- FLASH_CH_IF (17 R543). -/
def readFlashIf (d : Dev) (bank : Nat) : Nat :=
  let c := bank * 16 + reg d (pg 0x32 bank + 0x118) % 16
  if (d.tiers.flash.getD c {}).inService then 1600 + Config.flashRate c % 2001 + 2 ^ 12 else 0

/-- TOW_STALL_CYC and TOW_STALL_CNT of the selected berth (03 R118). -/
def readStall (d : Dev) (bank : Nat) (m : NMap Nat) (cause : Nat) : Nat :=
  let b := reg d (pg 0x33 bank + 0x180) % 256
  if bankOfBerth b == bank then NMap.get 0 m (b * 8 + cause) else 0

/-- QUAY_AGENT_DATA of the selected slot (05 R177, R178). -/
def readAgent (d : Dev) (bank : Nat) : Nat :=
  let s := reg d (pg 0x40 bank + 0x110) % 4096
  if s == 0xFFF then 0
  else
    let a := agentOf d s
    a.endPoint + a.job * 2 ^ 18 + b2n a.valid * 2 ^ 30 + b2n a.stranded * 2 ^ 31

/-- QUAY_MOORED_USED: the moored window in use, in 2 MiB units (05 R179). -/
def mooredUsed (d : Dev) : Nat := total ((d.toll.extents.filter (fun x => x.e.moored)).map (fun x => extBytes x / 2 ^ 21))

/-- MM_LOSS_STAT (04 R148). -/
def readLossStat (d : Dev) (bank : Nat) : Nat :=
  (lossesIn d bank).length % 2 ^ 15 + b2n (bit (reg d (pg 0x40 bank + 0x408)) 15) * 2 ^ 15 + b2n (d.quay.losses.any (fun l => l.building)) * 2 ^ 16

/-- A stored register, or 0 where the offset holds none. -/
def readStored (d : Dev) (p : PageId) (o off : Nat) : Nat :=
  match rowAt p.code o with
  | some ⟨_, _, _, .stored _ _⟩ => reg d off
  | some ⟨_, _, _, .counter⟩ => reg d off
  | _ => 0

/-- The management pages (17 R526). -/
def readManage (d : Dev) (fz : Fuses) (p : PageId) (o off : Nat) : Nat :=
  match p.code, o with
  | 0x01, 0x100 => d.mgmt.i3cAddr + b2n d.mgmt.i3cValid * 2 ^ 7 + d.mgmt.eid * 2 ^ 8
  | 0x02, 0x100 => readCustStat d fz
  | 0x02, 0x108 => reg d off
  | 0x02, 0x118 => readKeyStat d
  | 0x02, 0x238 => startNonce d
  | 0x02, 0x310 => readFwStat d
  | 0x03, 0x108 => readRstStat d
  | 0x03, 0x120 => readStrapStat d
  | 0x03, 0x130 => readPwrStat d
  | 0x03, 0x140 => readTempStat d
  | 0x03, 0x158 => readCwStat d
  | 0x03, 0x800 => readThrottle d 0x800
  | 0x03, 0x808 => readThrottle d 0x808
  | 0x80, 0x108 => readLogData d 0
  | 0x80, 0x110 => readLogData d 1
  | 0x80, 0x118 => readLogStat d
  | c, _ =>
    if c == 0x01 && decide (0x200 ≤ o) && decide (o < 0x240) then readIntSum d ((o - 0x200) / 8)
    else if c == 0x02 && decide (0x200 ≤ o) && decide (o < 0x238) then leAt (wrapPub d) (o - 0x200) 8
    else readStored d p o off

/-- The fabric and addressing pages (17 R527, R528). -/
def readFabric (d : Dev) (p : PageId) (o off : Nat) : Nat :=
  let b := p.bank
  let n := pageInstance p
  match p.code, o with
  | 0x10, 0x120 => readGmin d b
  | 0x10, 0x128 => sharedUsed d b
  | 0x10, 0x130 => sharedSize d b
  | 0x10, 0x138 => d.wharf.epBase * 2 ^ 9 + b2n d.wharf.epValid * 2 ^ 31
  | 0x11, 0x100 => reg d off
  | 0x11, 0x108 => readLandStat d n
  | 0x11, 0x130 => reg d off
  | 0x12, 0x100 => reg d off
  | 0x12, 0x108 => readPcieStat d n
  | 0x12, 0x118 => readFnId d n
  | 0x12, 0x120 => readFnWin d n
  | 0x20, 0x128 => readTollStat d
  | 0x21, 0x100 => d.xmap.node + b2n d.xmap.nodeValid * 2 ^ 31
  | 0x21, 0x108 => d.xmap.epoch + min d.xmap.old.length 3 * 2 ^ 16
  | 0x21, 0x120 => readXmapStat d
  | 0x21, 0x128 => 426 + 341 * 2 ^ 16
  | 0x21, 0x188 => readRingStat d
  | c, _ =>
    if c == 0x20 && decide (0x200 ≤ o) && decide (o < 0x280) then readRvkSlot d ((o - 0x200) / 8)
    else if c == 0x21 && decide (0x140 ≤ o) && decide (o < 0x160) then readBdata d ((o - 0x140) / 8)
    else if c == 0x21 && decide (0x168 ≤ o) && decide (o < 0x188) then readRdata d ((o - 0x168) / 8)
    else readStored d p o off

/-- The tier and coherence pages (17 R529, R530). -/
def readTiers (d : Dev) (p : PageId) (o off : Nat) : Nat :=
  let b := p.bank
  let n := pageInstance p
  match p.code, o with
  | 0x30, 0x100 => 127
  | 0x31, 0x110 => (site d n).loan.toNat
  | 0x31, 0x118 => (site d n).down.toNat
  | 0x31, 0x128 => readParLog d b
  | 0x32, 0x100 => stagedIn d b
  | 0x32, 0x110 => ofBits ((List.range 16).filter (fun c => (d.tiers.flash.getD (b * 16 + c) {}).down))
  | 0x32, 0x120 => readFlashIf d b
  | 0x34, 0x128 => land64 (reg d off) 2
  | 0x34, 0x130 => readSalvStat d b
  | 0x34, 0x148 => readSalvCmdStat d b
  | 0x34, 0x188 => readPeer d b
  | 0x40, 0x118 => readAgent d b
  | 0x40, 0x120 => mooredUsed d
  | 0x40, 0x128 => tableUsed d b
  | 0x40, 0x408 => readLossStat d b
  | 0x41, 0x108 => (accumsIn d b).length
  | c, _ =>
    if c == 0x33 && decide (0x1C0 ≤ o) && decide (o < 0x200) then readStall d b d.tiers.stallCyc ((o - 0x1C0) / 8)
    else if c == 0x33 && decide (0x200 ≤ o) && decide (o < 0x240) then readStall d b d.tiers.stallCnt ((o - 0x200) / 8)
    else if c == 0x33 && decide (0x340 ≤ o) && decide (o < 0x3C0) then readSnapSlot d (b * 16 + (o - 0x340) / 8)
    else if c == 0x34 && decide (0x1C8 ≤ o) && decide (o < 0x1F8) then readConvoy d b ((o - 0x1C8) / 8)
    else readStored d p o off

/-- The compute and traffic pages (17 R531, R532). -/
def readCompute (d : Dev) (p : PageId) (o off : Nat) : Nat :=
  let b := p.bank
  let n := pageInstance p
  match p.code, o with
  | 0x50, 0x118 => reg d off
  | 0x51, 0x100 => readClStat d n
  | 0x51, 0x108 => readClTag d n 0
  | 0x51, 0x110 => readClTag d n 1
  | 0x60, 0x148 => readPurserStat d b
  | 0x60, 0x150 => readFwdUsed d b
  | 0x60, 0x158 => readSlotsUsed d b
  | 0x61, 0x148 => readSoundStat d b
  | 0x61, 0x150 => if (soundSel d b).st == .free then 0 else (soundSel d b).vseq
  | 0x61, 0x158 => if (soundSel d b).st == .free then 0 else (soundSel d b).mseq
  | 0x62, 0x100 => (d.sound.punts.getD n {}).scans.length
  | 0x70, 0x120 => readWeight d b
  | 0x70, 0x130 => NMap.get 0 d.sched.jobqs (jobqSel d b)
  | 0x70, 0x208 => (ttOf d (ttLand d b)).shadowN
  | 0x70, 0x210 => (ttOf d (ttLand d b)).nextBase
  | 0x70, 0x218 => readTtStat d b
  | 0x70, 0x228 => readTtEntry d b
  | 0x70, 0x800 => d.sys.ltc
  | 0x71, 0x108 => readFmCfg d
  | 0x72, 0x110 => (snapOfBank d b).ltc
  | c, _ =>
    if c == 0x50 && decide (0x200 ≤ o) && decide (o < 0x280) then readRowMap d (b * 16 + (o - 0x200) / 8)
    else if c == 0x60 && decide (0x108 ≤ o) && decide (o < 0x148) then readPurserData d b ((o - 0x108) / 8)
    else if c == 0x61 && decide (0x108 ≤ o) && decide (o < 0x148) then readSoundData d b ((o - 0x108) / 8)
    else if c == 0x71 && decide (0x200 ≤ o) && decide (o < 0x230) then readFmCount d ((o - 0x200) / 8)
    else if c == 0x72 && decide (0x180 ≤ o) && decide (o < 0x1D0) then (snapOfBank d b).vals.getD ((o - 0x180) / 8) 0
    else readStored d p o off

/-- The 8-byte slot at `o` of a page, whole; pairs of 32-bit registers with the lower one in the low half (17 R514, R515). -/
def readSlot (d : Dev) (fz : Fuses) (p : PageId) (o : Nat) : Nat :=
  let base := pageBase p
  let off := base + o
  match o with
  | 0x000 => p.code + pageInstance p * 2 ^ 8 + p.bank * 2 ^ 16 + 0x4B022001 * 2 ^ 32
  | 0x008 => (capsOf p.code).1 + (capsOf p.code).2 * 2 ^ 32
  | 0x010 => reg d off % 4
  | 0x018 => readBlkStat d p base
  | 0x020 => reg d off * (2 ^ 32 + 1)
  | 0x028 => reg d off
  | 0x080 => readSpareMap d p
  | _ =>
    if o < 0x100 then (if [0x40, 0x48, 0x50, 0x58, 0x60].contains o then reg d off else 0)
    else if [0x01, 0x02, 0x03, 0x80].contains p.code then readManage d fz p o off
    else if [0x10, 0x11, 0x12, 0x20, 0x21].contains p.code then readFabric d p o off
    else if [0x30, 0x31, 0x32, 0x33, 0x34, 0x40, 0x41].contains p.code then readTiers d p o off
    else readCompute d p o off

/-- A 64-bit register stands at the slot: one access captures or holds halves of it (00 R16; 17 R515). -/
def wideAt (p : PageId) (o : Nat) : Bool :=
  match rowAt p.code o with
  | some r => r.wide
  | none => false

end Sys2Proof.Machine
end

