-- ==== Sys2Proof/Machine/Control.lean ====
section
/-! DEFINITION. Accesses of the control space (00 R8, R11-R16; 15 R476; 17 R510-R543): reads, writes, the halves of 64-bit
registers, the management class (11 R354-R356; 17 R512), and the commands that are a write or a read of a register. -/

namespace Sys2Proof.Machine

open Sys2Proof

/-! ## Paths (00 R16) -/

def pathIx : Path → Nat
  | .ef => 0
  | .pcie0 => 1
  | .pcie1 => 2
  | .i3c => 3

def isPcie (p : Path) : Bool := p == .pcie0 || p == .pcie1

/-- An access of a path, one that performs nothing too, clears its read capture and drops its held half (00 R16; 17 R515). -/
def dropHalves (d : Dev) (p : Path) : Dev :=
  { d with shadow := NMap.set none d.shadow (pathIx p) none, lowHeld := NMap.set none d.lowHeld (pathIx p) none }

/-- 32 or 64 bits wide and naturally aligned (00 R11). -/
def accessOk (off width : Nat) : Bool := (width == 32 && off % 4 == 0) || (width == 64 && off % 8 == 0)

/-- First byte of the 8-byte slot of an offset in its page. -/
def slotOfs (off : Nat) : Nat := off % 0x1000 / 8 * 8

/-! ## Reads -/

/-- A 32-bit read of a 64-bit register's half: the low half captures the high one, which the next access returns. -/
def readHalf (d : Dev) (p : Path) (off v : Nat) (cap : Option (Nat × Nat)) : Nat × Dev :=
  if off % 8 == 0 then (v % 2 ^ 32, { d with shadow := NMap.set none d.shadow (pathIx p) (some (off, v / 2 ^ 32)) })
  else match cap with
    | some (c, h) => if c + 4 == off then (h, d) else (v / 2 ^ 32, d)
    | none => (v / 2 ^ 32, d)

/-- A read on a path: its status and value. -/
def ctlRead (p : Path) (off width : Nat) (d : Dev) (fz : Fuses) : Nat × Nat × Dev :=
  if !accessOk off width then (cUNSUP, 0, dropHalves d p)
  else
    let cap := NMap.get none d.shadow (pathIx p)
    let d1 := dropHalves d p
    match pageAt off with
    | none => (cOK, 0, d1)
    | some pa =>
      if pageDead d1 pa then (cOK, 0, d1)
      else
        let v := readSlot d1 fz pa (slotOfs off)
        if width == 64 then (cOK, v, d1)
        else if wideAt pa (slotOfs off) then
          let r := readHalf d1 p off v cap
          (cOK, r.1, r.2)
        else (cOK, if off % 8 == 0 then v % 2 ^ 32 else v / 2 ^ 32, d1)

/-! ## Writes of the common page (17 R515, R519-R524) -/

/-- A write after which the device interrupt is still asserted announces it again (17 R521). -/
def reannounce (before after : Dev) : Dev := if deviceInt before && deviceInt after then announce after else after

/-- Set every counter of a page to 0 (17 R519): those of the Fare meter of every job, and the stalls of the berths of a Tow page's bank,
with the rest (log 152). -/
def clearCounters (d : Dev) (base : Nat) : Dev :=
  let d1 := { d with regs := NMap.keep (fun k => !(decide (base + 0x800 ≤ k) && decide (k < base + 0x1000))) d.regs }
  let other (bank : Nat) (k : Nat) : Bool := bankOfBerth (k / 8) != bank
  if base == pg 0x71 0 then
    let zero (f : FareJob) : FareJob := { f with greenReq := 0, greenBytes := 0, yellowReq := 0, yellowBytes := 0, redReq := 0, redBytes := 0 }
    { d1 with sched.fare := d1.sched.fare.foldl (fun m e => NMap.set {} m e.1 (zero e.2)) d1.sched.fare }
  else match [0, 1].find? (fun b => base == pg 0x33 b) with
    | some b => { d1 with tiers.stallCnt := NMap.keep (other b) d1.tiers.stallCnt, tiers.stallCyc := NMap.keep (other b) d1.tiers.stallCyc }
    | none => d1

/-- BLK_CTL (17 R519). -/
def writeBlkCtl (d : Dev) (base v : Nat) : Dev :=
  let d0 := if base == clkPage then countWithheld d else d
  let d1 := setReg d0 (base + 0x10) (v % 4)
  if bit v 2 then clearCounters d1 base else d1

/-- EVT_STAT: a 1 clears the event. -/
def clearEvents (d : Dev) (base v : Nat) : Dev := setReg d (base + 0x20) (clr64 (reg d (base + 0x20)) v)

/-- EVT_SET: a 1 raises the event, which is not counted and not recorded (00 R15). -/
def setEvents (d : Dev) (pa : PageId) (v : Nat) : Dev :=
  (bitsOf 32 (land64 v (eventMask pa.code))).foldl (fun d b => raise d (pageBase pa) b) d

/-- A write of 1 to VALID sets every field of the first-error record to 0 (17 R524). -/
def clearFe (d : Dev) (base v : Nat) : Dev :=
  if bit v 31 then [0x40, 0x48, 0x50, 0x58, 0x60].foldl (fun d o => setReg d (base + o) 0) d else d

/-! ## Writes of the blocks' registers -/

/-- A stored register takes what its table accepts. -/
def writeStored (d : Dev) (pa : PageId) (o v : Nat) : Dev :=
  let base := pageBase pa
  match rowAt pa.code o with
  | some ⟨_, _, _, .stored mask _⟩ =>
    let w := storedValue pa.code o mask (reg d (base + o)) v
    if accepts d base pa.code o w && (pa.code != 0x12 || acceptsWindow d pa.bank o w) then setReg d (base + o) w else d
  | _ => d

/-- QUAY_AGENT_DATA (05 R152, R177, R178): both banks' copies change; STRANDED is cleared. -/
def writeAgent (d : Dev) (bank v : Nat) : Dev :=
  let s := reg d (pg 0x40 bank + 0x110) % 4096
  let ep := fld v 0 18
  if s == 0xFFF then d
  else if bit v 30 && d.quay.agents.any (fun a => a.1 != s && a.2.valid && a.2.endPoint == ep) then raise d (pg 0x40 bank) 2
  else
    let a : Agent := { endPoint := ep, job := fld v 18 12, valid := bit v 30 }
    { d with quay.agents := NMap.set {} d.quay.agents s a }

/-- XMAP_RDATA3: the write that covers its high half applies the staged configuration; descriptors of a stopped ring are
dropped with what they hold (17 R539, R540). -/
def applyRdata (d : Dev) : Dev :=
  let d1 := applyRing d
  let gone := d.descs.filter (fun x => !d1.descs.any (fun y => y.r == x.r))
  gone.foldl (fun d x => unbind (releaseCopies d x.r) x.r) d1

/-- A 32-bit register of a management or fabric page. -/
def writeManageFabric (d : Dev) (pa : PageId) (o v : Nat) : Dev :=
  let n := pageInstance pa
  match pa.code, o with
  | 0x02, 0x108 => writePolicy d v
  | 0x02, 0x110 => writeKeyCmd d v
  | 0x03, 0x100 => writeRstCtl d v
  | 0x10, 0x120 => writeGmin d pa.bank v
  | 0x10, 0x138 => writeEpBase d v
  | 0x11, 0x100 => writeLandCtl d n v
  | 0x12, 0x100 => writePcieCtl d n v
  | 0x20, 0x120 => tollCmd d v
  | 0x20, 0x128 => if bit v 2 then { d with toll.lost := false } else d
  | 0x21, 0x100 => writeNode d v
  | 0x21, 0x120 => if bit v 2 then { d with xmap.lost := false } else d
  | 0x21, 0x138 => writeXmapCtl d v
  | _, _ => writeStored d pa o v

/-- A 32-bit register of another page. -/
def writeBlock (d : Dev) (pa : PageId) (o v : Nat) : Dev :=
  let b := pa.bank
  match pa.code, o with
  | 0x34, 0x128 => writeSalvCtl d b v
  | 0x34, 0x138 => salvCmd d b v
  | 0x34, 0x1F8 => applyConvoy d b v
  | 0x40, 0x408 => if bit v 15 then setReg d (pageBase pa + 0x408) 0 else d
  | 0x50, 0x118 => writeRemapCtl d b v
  | 0x70, 0x100 => writeStored (fillBuckets d b) pa o v
  | 0x70, 0x120 => writeWeight d b v
  | 0x70, 0x130 => writeJobqs d b v
  | 0x70, 0x208 => writeTtCtl d b v
  | 0x71, 0x108 => writeFmCfg d v
  | 0x72, 0x108 => takeMeterSnap d b
  | _, _ => writeManageFabric d pa o v

/-- A 32-bit register: its value. -/
def writeNarrow (d : Dev) (fz : Fuses) (pa : PageId) (o v : Nat) : Dev × Fuses :=
  let base := pageBase pa
  match o with
  | 0x010 => (reannounce d (writeBlkCtl d base v), fz)
  | 0x020 => (clearEvents d base v, fz)
  | 0x028 => (reannounce d (setReg d (base + 0x28) (land64 v (eventMask pa.code))), fz)
  | 0x050 => (clearFe d base v, fz)
  | _ => if pa.code == 0x02 && o == 0x308 then writeFwCmd d fz v else (writeBlock d pa o v, fz)

/-- A 64-bit register: its whole value. -/
def writeWide (d : Dev) (pa : PageId) (o v : Nat) : Dev :=
  let b := pa.bank
  let within (lo n : Nat) : Bool := decide (lo ≤ o) && decide (o < lo + 8 * n)
  match pa.code, o with
  | 0x12, 0x118 => writeFnId d b v
  | 0x12, 0x120 => writeFnWin d b v
  | 0x34, 0x188 => writePeer d b v
  | 0x40, 0x118 => writeAgent d b v
  | 0x70, 0x210 => writeTtBase d b v
  | 0x70, 0x228 => writeTtEntry d b v
  | c, _ =>
    if c == 0x02 && within 0x140 16 then
      { d with cust.keyData := modAt (fun _ => BitVec.ofNat 64 v) d.cust.keyData ((o - 0x140) / 8) }
    else if c == 0x21 && within 0x140 4 then writeBdata d ((o - 0x140) / 8) v
    else if c == 0x21 && o == 0x180 then applyRdata (stageRdata d 3 v)
    else if c == 0x21 && within 0x168 3 then stageRdata d ((o - 0x168) / 8) v
    else if c == 0x34 && within 0x1C8 6 then stageConvoy d b ((o - 0x1C8) / 8) v
    else writeStored d pa o v

/-- The low half that a write of the high half alone leaves (17 R515). -/
def lowNow (d : Dev) (fz : Fuses) (pa : PageId) (o : Nat) : Nat :=
  if pa.code == 0x02 && decide (0x140 ≤ o) && decide (o < 0x1C0) then (d.cust.keyData.getD ((o - 0x140) / 8) 0).toNat % 2 ^ 32
  else readSlot d fz pa o % 2 ^ 32

/-- A write within a live page. `held`: the low half held for the path. -/
def writePage (p : Path) (pa : PageId) (off width v : Nat) (held : Option (Nat × Nat)) (d : Dev) (fz : Fuses) : Dev × Fuses :=
  let o := slotOfs off
  let high := off % 8 == 4
  if wideAt pa o then
    if width == 64 then (writeWide d pa o v, fz)
    else if !high then ({ d with lowHeld := NMap.set none d.lowHeld (pathIx p) (some (off, v)) }, fz)
    else
      let low := match held with
        | some (c, l) => if c + 4 == off then l else lowNow d fz pa o
        | none => lowNow d fz pa o
      (writeWide d pa o (v * 2 ^ 32 + low), fz)
  else
    let r := if high then (d, fz) else writeNarrow d fz pa o (v % 2 ^ 32)
    if o != 0x20 then r
    else if high then (setEvents r.1 pa v, r.2)
    else (reannounce d (if width == 64 then setEvents r.1 pa (v / 2 ^ 32) else r.1), r.2)

/-- What the policy answers a path that may not write (15 R476): Unsupported Request through PCIe. -/
def refusalOf (p : Path) : Nat := if isPcie p then cUNSUP else cDENIED

/-- The policy lets a path write an offset; one that may only read writes nowhere. -/
def mayWrite (d : Dev) (p : Path) (off : Nat) : Bool := policyAllows d p ((pageAt off).getD ⟨0, 0, 0⟩)

/-- A write on a path: its status. -/
def ctlWrite (p : Path) (off width v : Nat) (d : Dev) (fz : Fuses) : Nat × Dev × Fuses :=
  if !accessOk off width then (cUNSUP, dropHalves d p, fz)
  else if !mayWrite d p off then (refusalOf p, policyRefused (dropHalves d p) off, fz)
  else
    let held := NMap.get none d.lowHeld (pathIx p)
    let d1 := dropHalves d p
    match pageAt off with
    | none => (cOK, d1, fz)
    | some pa =>
      if pageDead d1 pa then (cOK, d1, fz)
      else
        let r := writePage p pa off width (v % 2 ^ width) held d1 fz
        (cOK, r.1, r.2)

/-! ## The management class (11 R354-R356; 17 R512) -/

/-- The registers are reached: power is on and no core reset runs (17 R511). -/
def reachable (d : Dev) : Bool := d.sys.power == .on && d.sys.phase != .links

/-- A management request is performed and answered, whatever its NODE. -/
def mgmtRun (d : Dev) (fz : Fuses) (q : Req) (entry : Nat) : Dev × Fuses :=
  let n := lenOf q.h
  let off := q.h.offset.toNat
  if q.op == .mgmtRd then
    let r := ctlRead .ef off (8 * n) d fz
    (answerReq r.2.2 q entry none 17 r.1 (if r.1 == cOK then leBytes n r.2.1 else []), fz)
  else
    let r := ctlWrite .ef off (8 * n) (leAt q.data 0 n) d fz
    (answerReq r.2.1 q entry none 17 r.1 [], r.2.2)

/-- Management requests whose turn has come, at most `k` of them (04 R142). -/
def mgmtTurns : Nat → Dev → Fuses → Dev × Fuses
  | 0, d, fz => (d, fz)
  | k + 1, d, fz =>
    match nextTurn d (fun q => isMgmt q.op) with
    | none => (d, fz)
    | some f =>
      let r := mgmtRun (dropFlying d f.id) fz f.q f.entry
      mgmtTurns k (goOn r.1) r.2

/-- Every management request whose turn has come. -/
def mgmtDue (d : Dev) (fz : Fuses) : Dev × Fuses := mgmtTurns (d.flying.filter (fun f => f.wait == .turn)).length d fz

/-- Management requests whose turn has come, and a STAGE that runs (15 R467). -/
def dueCtl (d : Dev) (fz : Fuses) : Dev × Fuses :=
  let r := mgmtDue d fz
  (fwOn fwMost r.1 r.2, r.2)

/-- What the device goes on with, management requests and a STAGE among it. -/
def goOnCtl (d : Dev) (fz : Fuses) : Dev × Fuses := dueCtl (goOn d) fz

/-- A management request arrives on a Landing (11 R355, R356; 16 R494). One that is refused there is an access of the path all the
same (00 R16; log 105). -/
def mgmtArrive (d : Dev) (fz : Fuses) (n : Nat) (op : Op) (h : Hdr) (data : List Byte) : Dev × Fuses :=
  if !landOpen d n then (d, fz)
  else
    let q : Req := { op := op, origin := .landing n, h := h, data := data }
    let d1 := freeSlots d n h.tc.toNat (reqSlots op h)
    let d2 := dropHalves d1 .ef
    if quiet d1 then (refuseReq (count d2 (pg 0x03 0) 0x818) q cABORTED, fz)
    else if headerBad (opCode op) h then (refuseReq (count d2 (pgI 0x11 8 n) 0x850) q cUNSUP, fz)
    else if !mgmtAdmits d1 h.src.toNat then (mgmtRefuse d2 n q, fz)
    else if turnTaken d1 q then
      (addFlying d1 { id := 0, q := q, entry := n / 8, homeBank := n / 8, base := 0, wait := .turn }, fz)
    else mgmtRun d1 fz q (n / 8)

/-- The answer of a command on the control space: what was due before it comes first. -/
def State.runCtl (f : Dev → Fuses → Dev × Fuses) (s : State) : Host.Outcome State Fault Refusal :=
  s.runFuses (fun d fz =>
    let due := dueCtl d fz
    let r := f due.1 due.2
    goOnCtl r.1 r.2)

def execMgmtRd (ld : Nat) (h : Hdr) (s : State) : Host.Outcome State Fault Refusal :=
  s.runCtl (fun d fz => mgmtArrive d fz ld .mgmtRd h [])

def execMgmtWr (ld : Nat) (h : Hdr) (data : List Byte) (s : State) : Host.Outcome State Fault Refusal :=
  s.runCtl (fun d fz => mgmtArrive d fz ld .mgmtWr h data)

/-! ## Accesses as commands -/

/-- During the quiesce, what reaches the device through a Landing or a port is answered with ABORTED (16 R494). -/
def pathQuiet (d : Dev) (p : Path) : Bool := quiet d && p != .i3c

/-- A path reaches the registers: in the start-failed hold the Landings and the ports have no link (16 R501, R503). -/
def pathReaches (d : Dev) (p : Path) : Bool := reachable d && (p == .i3c || !d.sys.hold)

/-- A write on a path, and its answer. -/
def accessWrite (p : Path) (off width v : Nat) (d : Dev) (fz : Fuses) : Dev × Fuses :=
  if !pathReaches d p then (d, fz)
  else if pathQuiet d p then (emit (count (dropHalves d p) (pg 0x03 0) 0x818) (.ctl p cABORTED 0), fz)
  else
    let r := ctlWrite p off width v d fz
    (emit r.2.1 (.ctl p r.1 0), r.2.2)

/-- A read on a path, and its answer. -/
def accessRead (p : Path) (off width : Nat) (d : Dev) (fz : Fuses) : Dev :=
  if !pathReaches d p then d
  else if pathQuiet d p then emit (count (dropHalves d p) (pg 0x03 0) 0x818) (.ctl p cABORTED 0)
  else
    let r := ctlRead p off width d fz
    emit r.2.2 (.ctl p r.1 (.ofNat 64 r.2.1))

/-- A write of `v`, which may depend on what the register holds. -/
def State.write (p : Path) (off width : Nat) (v : Dev → Nat) (s : State) : Host.Outcome State Fault Refusal :=
  s.runCtl (fun d fz => accessWrite p off width (v d) d fz)

/-- A write of a constant to the 32-bit register at an offset of a page. -/
def State.write32 (p : Path) (page o v : Nat) (s : State) : Host.Outcome State Fault Refusal :=
  s.write p (page + o) 32 (fun _ => v)

def execControlRegisterWrite (p : Path) (off width : Nat) (v : BitVec 64) (s : State) : Host.Outcome State Fault Refusal :=
  s.write p off width (fun _ => v.toNat)

/-- COUNTER_LOW_HALF_READ (00 R16). -/
def execCounterLowHalfRead (p : Path) (off : Nat) (s : State) : Host.Outcome State Fault Refusal :=
  s.runCtl (fun d fz => (accessRead p off 32 d fz, fz))

/-- COUNTER_HIGH_HALF_READ (00 R16). -/
def execCounterHighHalfRead (p : Path) (off : Nat) (s : State) : Host.Outcome State Fault Refusal :=
  s.runCtl (fun d fz => (accessRead p off 32 d fz, fz))

def execEvtStatWrite (p : Path) (page : Nat) (v : BitVec 32) (s : State) : Host.Outcome State Fault Refusal :=
  s.write32 p page 0x20 v.toNat

def execEvtSetWrite (p : Path) (page : Nat) (v : BitVec 32) (s : State) : Host.Outcome State Fault Refusal :=
  s.write32 p page 0x24 v.toNat

def execEvtEnWrite (p : Path) (page : Nat) (v : BitVec 32) (s : State) : Host.Outcome State Fault Refusal :=
  s.write32 p page 0x28 v.toNat

/-- CNT_CLEAR: BLK_CTL with its other fields as they are. -/
def execCntClear (p : Path) (page : Nat) (s : State) : Host.Outcome State Fault Refusal :=
  s.write p (page + 0x10) 32 (fun d => reg d (page + 0x10) % 4 + 4)

/-- CNT_FREEZE set or cleared, INT_EN as it is. -/
def execCntFreeze (p : Path) (page : Nat) (on : Bool) (s : State) : Host.Outcome State Fault Refusal :=
  s.write p (page + 0x10) 32 (fun d => reg d (page + 0x10) % 2 + 2 * b2n on)

def execFeValidClear (p : Path) (page : Nat) (s : State) : Host.Outcome State Fault Refusal :=
  s.write32 p page 0x50 (2 ^ 31)

def execQuayAgentDataWrite (p : Path) (bank : Nat) (v : BitVec 64) (s : State) : Host.Outcome State Fault Refusal :=
  s.write p (pg 0x40 bank + 0x118) 64 (fun _ => v.toNat)

/-! ## The Toll's commands (02 R73) -/

def execTollInsert (p : Path) (bank : Nat) (s : State) : Host.Outcome State Fault Refusal :=
  s.write32 p (pg 0x20 bank) 0x120 1

def execTollModify (p : Path) (bank : Nat) (s : State) : Host.Outcome State Fault Refusal :=
  s.write32 p (pg 0x20 bank) 0x120 2

def execTollRevoke (p : Path) (bank : Nat) (s : State) : Host.Outcome State Fault Refusal :=
  s.write32 p (pg 0x20 bank) 0x120 3

def execTollOffer (p : Path) (bank : Nat) (job : BitVec 12) (s : State) : Host.Outcome State Fault Refusal :=
  s.write32 p (pg 0x20 bank) 0x120 (4 + job.toNat * 16)

def execTollAccept (p : Path) (bank : Nat) (job : BitVec 12) (s : State) : Host.Outcome State Fault Refusal :=
  s.write32 p (pg 0x20 bank) 0x120 (5 + job.toNat * 16)

def execTollCancel (p : Path) (bank : Nat) (s : State) : Host.Outcome State Fault Refusal :=
  s.write32 p (pg 0x20 bank) 0x120 6

def execTollRead (p : Path) (bank : Nat) (s : State) : Host.Outcome State Fault Refusal :=
  s.write32 p (pg 0x20 bank) 0x120 7

def execJobWrite (p : Path) (bank : Nat) (job : BitVec 12) (s : State) : Host.Outcome State Fault Refusal :=
  s.write32 p (pg 0x20 bank) 0x120 (8 + job.toNat * 16)

/-! ## The Crossing map and rings (17 R536, R539) -/

def execXmapNodeWrite (p : Path) (bank : Nat) (v : BitVec 32) (s : State) : Host.Outcome State Fault Refusal :=
  s.write32 p (pg 0x21 bank) 0x100 v.toNat

def execXmapCommit (p : Path) (bank : Nat) (s : State) : Host.Outcome State Fault Refusal :=
  s.write32 p (pg 0x21 bank) 0x138 1

def execXmapSetEpoch (p : Path) (bank : Nat) (newEpoch : BitVec 16) (s : State) : Host.Outcome State Fault Refusal :=
  s.write32 p (pg 0x21 bank) 0x138 (5 + newEpoch.toNat * 2 ^ 16)

def execXmapDiscard (p : Path) (bank : Nat) (s : State) : Host.Outcome State Fault Refusal :=
  s.write32 p (pg 0x21 bank) 0x138 2

/-- RING_APPLY: a 64-bit write of XMAP_RDATA3. -/
def execRingApply (p : Path) (bank : Nat) (v : BitVec 64) (s : State) : Host.Outcome State Fault Refusal :=
  s.write p (pg 0x21 bank + 0x180) 64 (fun _ => v.toNat)

/-! ## Landings, Wharf, Raft, traffic -/

/-- REMAP_GO: AUTO as it is. -/
def execRemapGo (p : Path) (bank : Nat) (s : State) : Host.Outcome State Fault Refusal :=
  s.write p (pg 0x50 bank + 0x118) 32 (fun d => reg d (pg 0x50 bank + 0x118) % 2 + 2)

/-- LAND_RETRAIN: the other fields of LAND_CTL as they are. -/
def execLandRetrain (p : Path) (ld : Nat) (s : State) : Host.Outcome State Fault Refusal :=
  s.write p (landPage ld + 0x100) 32 (fun d => setFld (reg d (landPage ld + 0x100)) 3 1 1)

def execLandEnable (p : Path) (ld : Nat) (on : Bool) (s : State) : Host.Outcome State Fault Refusal :=
  s.write p (landPage ld + 0x100) 32 (fun d => setFld (reg d (landPage ld + 0x100)) 2 1 (b2n on))

def execWharfGminWrite (p : Path) (bank : Nat) (v : BitVec 32) (s : State) : Host.Outcome State Fault Refusal :=
  s.write32 p (pg 0x10 bank) 0x120 v.toNat

def execWharfEpBaseWrite (p : Path) (bank : Nat) (v : BitVec 32) (s : State) : Host.Outcome State Fault Refusal :=
  s.write32 p (pg 0x10 bank) 0x138 v.toNat

def execFmCfgWrite (p : Path) (v : BitVec 32) (s : State) : Host.Outcome State Fault Refusal :=
  s.write32 p (pg 0x71 0) 0x108 v.toNat

/-- TT_ARM: N_ENTRIES as it is. -/
def execTtArm (p : Path) (bank : Nat) (s : State) : Host.Outcome State Fault Refusal :=
  s.write p (pg 0x70 bank + 0x208) 32 (fun d => (ttOf d (ttLand d bank)).shadowN + 2 ^ 9)

def execTtDisarm (p : Path) (bank : Nat) (s : State) : Host.Outcome State Fault Refusal :=
  s.write p (pg 0x70 bank + 0x208) 32 (fun d => (ttOf d (ttLand d bank)).shadowN + 2 ^ 10)

def execTtEntryWrite (p : Path) (bank : Nat) (v : BitVec 64) (s : State) : Host.Outcome State Fault Refusal :=
  s.write p (pg 0x70 bank + 0x228) 64 (fun _ => v.toNat)

def execMeterSnap (p : Path) (bank : Nat) (s : State) : Host.Outcome State Fault Refusal :=
  s.write32 p (pg 0x72 bank) 0x108 1

/-- PCIE_RETRAIN: the other fields of PCIE_CTL as they are. -/
def execPcieRetrain (p : Path) (port : Nat) (s : State) : Host.Outcome State Fault Refusal :=
  s.write p (pg 0x12 port + 0x100) 32 (fun d => reg d (pg 0x12 port + 0x100) % 16 + 16)

def execPcieFnWinWrite (p : Path) (port : Nat) (v : BitVec 64) (s : State) : Host.Outcome State Fault Refusal :=
  s.write p (pg 0x12 port + 0x120) 64 (fun _ => v.toNat)

/-! ## Customs (15 R480, R482) -/

def execCustKeyLoad (p : Path) (slot : BitVec 12) (job : BitVec 12) (s : State) : Host.Outcome State Fault Refusal :=
  s.write32 p custPage 0x110 (1 + slot.toNat * 2 ^ 4 + job.toNat * 2 ^ 16)

def execCustKeyClear (p : Path) (slot : BitVec 12) (s : State) : Host.Outcome State Fault Refusal :=
  s.write32 p custPage 0x110 (2 + slot.toNat * 2 ^ 4)

def execCustKeyQuery (p : Path) (slot : BitVec 12) (s : State) : Host.Outcome State Fault Refusal :=
  s.write32 p custPage 0x110 (3 + slot.toNat * 2 ^ 4)

def execDebugUnlock (p : Path) (s : State) : Host.Outcome State Fault Refusal :=
  s.write32 p custPage 0x110 4

def execFwStage (p : Path) (type : BitVec 8) (s : State) : Host.Outcome State Fault Refusal :=
  s.write32 p custPage 0x308 (1 + type.toNat * 4)

def execFwActivate (p : Path) (type : BitVec 8) (s : State) : Host.Outcome State Fault Refusal :=
  s.write32 p custPage 0x308 (2 + type.toNat * 4)

def execFwCommit (p : Path) (type : BitVec 8) (s : State) : Host.Outcome State Fault Refusal :=
  s.write32 p custPage 0x308 (3 + type.toNat * 4)

def execCustPolicyWrite (p : Path) (v : BitVec 32) (s : State) : Host.Outcome State Fault Refusal :=
  s.write32 p custPage 0x108 v.toNat

/-! ## Salvage (14 R457, R459, R461) and reset (16 R505) -/

/-- SALV_FENCE: ISO_EN as it is. -/
def execSalvFence (p : Path) (bank : Nat) (s : State) : Host.Outcome State Fault Refusal :=
  s.write p (pg 0x34 bank + 0x128) 32 (fun d => land64 (reg d (pg 0x34 bank + 0x128)) 2 + 1)

def execSalvRebuild (p : Path) (bank : Nat) (s : State) : Host.Outcome State Fault Refusal :=
  s.write32 p (pg 0x34 bank) 0x138 1

def execSalvLost (p : Path) (bank : Nat) (s : State) : Host.Outcome State Fault Refusal :=
  s.write32 p (pg 0x34 bank) 0x138 2

def execSalvCopy (p : Path) (bank : Nat) (s : State) : Host.Outcome State Fault Refusal :=
  s.write32 p (pg 0x34 bank) 0x138 3

def execSalvConvoyApply (p : Path) (bank : Nat) (s : State) : Host.Outcome State Fault Refusal :=
  s.write32 p (pg 0x34 bank) 0x1F8 1

def execRstGo (p : Path) (s : State) : Host.Outcome State Fault Refusal :=
  s.write32 p clkPage 0x100 1

def execRstCancel (p : Path) (s : State) : Host.Outcome State Fault Refusal :=
  s.write32 p clkPage 0x100 2

def execRstNow (p : Path) (s : State) : Host.Outcome State Fault Refusal :=
  s.write32 p clkPage 0x100 4

end Sys2Proof.Machine
end

