-- ==== Sys2Proof/Machine/Flits.lean ====
section
/-! DEFINITION. Flits that arrive on a Landing (11 R338-R346): the check, the sequence, ACK, NAK and credit, the window of corrected
symbols, and the messages and Foghorn frames the slots carry. -/

namespace Sys2Proof.Machine

open Sys2Proof

/-! ## ACK, NAK and credit (11 R343-R345) -/

/-- `a` is at or before `b` among sequence numbers modulo 4,096, within the 512 of a replay buffer. -/
def seqLe (a b : Nat) : Bool := decide ((b + 4096 - a) % 4096 < 2048)

/-- Take a flit's ACK, NAK and credit. -/
def takeAck (d : Dev) (n : Nat) (h : FlitHead) : Dev :=
  let l := land d n
  let kept := if h.ackV then l.replay.filter (fun r => !seqLe r.seq h.ack) else l.replay
  let moved := decide (kept.length < l.replay.length)
  let add := (h.cred + 16384 - l.credSeen.getD h.credClass 0) % 16384
  let d1 := onLand d n (fun l => { l with
    replay := kept, lastAck := if moved then d.sys.ltc else l.lastAck
    credit := modAt (fun c => min 2048 (c + add)) l.credit h.credClass, credSeen := modAt (fun _ => h.cred) l.credSeen h.credClass })
  if h.nak then resend d1 n else d1

/-! ## Corrected symbols (11 R346) -/

/-- The corrected symbols of a flit, by lane, join the window of 1 ms; one begins with the first flit after the last has run out
(log 132). A lane that reaches LAND_LANE_ERR_LIMIT is no longer good, and the link retrains. -/
def laneErrs (d : Dev) (n : Nat) (corrected : List Nat) : Dev :=
  let l := land d n
  let anew := decide (l.fecSince + 800000 ≤ d.sys.ltc)
  let old := if anew then [0, 0, 0, 0] else l.fecErrs
  let now := (old.zip (corrected ++ [0, 0, 0, 0])).map (fun p => p.1 + p.2)
  let d1 := onLand (count d (landPage n) 0x820 (total corrected)) n
    (fun l => { l with fecErrs := now, fecSince := if anew then d.sys.ltc else l.fecSince })
  match (List.range 4).find? (fun k => decide (reg d1 (landPage n + 0x120) ≤ now.getD k 0)) with
  | some k => laneBad d1 n k
  | none => d1

/-! ## Messages in slots (11 R351-R354) -/

/-- The request of an opcode (11 R353). -/
def opOf (code : Nat) : Option Op :=
  [Op.rd, .wr, .atomic, .eadd, .acquire, .flush, .publish, .rdShared, .rdOwn, .upgrade, .wb, .evictClean, .rdComb, .mgmtRd,
    .mgmtWr].find? (fun op => opCode op == code)

/-- OP of the message that begins with these bytes. -/
def msgOp (l : List Byte) : Nat := fld (leAt l 0 8) 0 6

/-- Where the data of a response begin in its first data slot. -/
def rspLead (d : Dev) (l : List Byte) : Nat := askedOffset d (rspHdrOf l) % 16

/-- Slots of the message that begins with these bytes, once its header has come (11 R352, R354). One with an opcode that is not
listed is taken as its header alone (log 132). -/
def msgLen (d : Dev) (l : List Byte) : Option Nat :=
  let r := rspHdrOf l
  let data := spanSlots (rspLead d l) (r.dlen.toNat + 1)
  let op := msgOp l
  if op == 0x30 || op == 0x34 then some 1
  else if op == 0x31 then some (1 + data)
  else if op == 0x32 then some (if fld (leAt l 8 8) 10 2 == 2 then 5 else 1)
  else if op == 0x33 then some (2 + data)
  else if l.length < 32 then none
  else match opOf op with
    | some o => some (reqSlots o (hdrOf l))
    | none => some 2

/-- ANSWER of a SNOOP_ANS (11 R352). -/
def answerOf (l : List Byte) : SnoopAnswer :=
  match fld (leAt l 8 8) 10 2 with
  | 0 => .invAck | 1 => .notHeld | 2 => .data | _ => .clean

/-- The constituents that follow the header of an RD_COMB, and whether a reserved bit of them is set (11 R358). -/
def combOf (h : Hdr) (l : List Byte) : List (BitVec 18 × BitVec 16) × Bool :=
  let n := h.aux.toNat - 1
  let words := (List.range (2 * ceilDiv n 2)).map (fun k => leAt l (8 * k) 8)
  ((words.take n).map (fun w => (.ofNat 18 (fld w 0 18), .ofNat 16 (fld w 18 16))),
   (words.take n).any (fun w => fld w 34 30 != 0) || (words.drop n).any (fun w => w != 0))

/-- A request whose OP is not listed arrives: it is refused and counted (11 R355; 16 R494). -/
def landUnlisted (d : Dev) (n : Nat) (h : Hdr) : Dev :=
  if !landOpen d n then d
  else
    let q : Req := { op := .rd, origin := .landing n, h := h, data := [] }
    let d1 := freeSlots d n h.tc.toNat 2
    if quiet d1 then refuseReq (count d1 (pg 0x03 0) 0x818) q cABORTED
    else refuseReq (count d1 (landPage n) 0x850) q cUNSUP

/-- A message has come whole: what its own command does. -/
def takeMessage (d : Dev) (fz : Fuses) (n : Nat) (l : List Byte) : Dev × Fuses :=
  let op := msgOp l
  let r := rspHdrOf l
  let h := hdrOf l
  let w := h.len.toNat + 1
  let body := l.drop 32
  if op == 0x32 then (snoopAnswered d n r.reqId.toNat r.dst.toNat (answerOf l) r.tchk.toNat (l.drop 16), fz)
  else if decide (0x30 ≤ op) && decide (op ≤ 0x34) then
    let data := if op == 0x31 then sub (l.drop 16) (rspLead d l) (r.dlen.toNat + 1) else []
    (responseIn d n r data, fz)
  else match opOf op with
    | none => (landUnlisted d n h, fz)
    | some .rdComb => let c := combOf h body
                      (combArrive d n h c.1 c.2, fz)
    | some .mgmtRd => mgmtArrive d fz n .mgmtRd h []
    | some .mgmtWr => mgmtArrive d fz n .mgmtWr h (sub body (h.offset.toNat % 16) w)
    | some .atomic => (landRequest d n .atomic (decide (h.tc.toNat < 4)) h (sub body 0 (if h.aux == 1 then 2 * w else w)), fz)
    | some .publish => (landRequest d n .publish true h (sub body 0 (2 * w)), fz)
    | some o =>
      let data := if o == .wr || o == .eadd || o == .wb then sub body (h.offset.toNat % 16) w else []
      (landRequest d n o false h data, fz)

/-- One slot: it begins a message, or goes on with the one that is arriving; one that is then whole is taken. -/
def rxSlot (n : Nat) (start : Bool) (slot : List Byte) (s : Dev × Fuses) : Dev × Fuses :=
  let had := (land s.1 n).rxMsg
  if !start && had.isEmpty then s
  else
    let l := (if start then [] else had) ++ slot
    let d := onLand s.1 n (fun x => { x with rxMsg := l })
    match msgLen d l with
    | some k => if 16 * k ≤ l.length then takeMessage (onLand d n (fun x => { x with rxMsg := [] })) s.2 n l else (d, s.2)
    | none => (d, s.2)

/-- The slots of a traffic flit in order (11 R338). -/
def rxSlots (d : Dev) (fz : Fuses) (n start : Nat) (slots : List Byte) : Dev × Fuses :=
  ((chunks 15 16 slots).zip (List.range 15)).foldl (fun s c => rxSlot n (bit start c.2) c.1 s) (d, fz)

/-! ## Flits -/

/-- A received flit (11 R340-R343): a bad one is discarded whole; a traffic flit is accepted in sequence only, and the messages its
slots carry are taken; a control flit may hold a Foghorn frame in slot 0. -/
def flitIn (d : Dev) (fz : Fuses) (n : Nat) (flit : List Byte) (fecOk : Bool) (corrected : List Nat) : Dev × Fuses :=
  if !landOpen d n || (land d n).st == .retraining then (d, fz)
  else
    let page := landPage n
    let d1 := if fecOk then d else count d page 0x828
    let h := headOf (leAt flit 0 8)
    let bad := !fecOk || crc64 (sub flit 0 248) != leAt flit 248 8 || h.kind == 3
    let r : Dev × Fuses :=
      if bad then (onLand (count d1 page 0x810) n (fun l => { l with nakOwed := true }), fz)
      else
        let d2 := takeAck d1 n h
        if h.kind == 2 then
          (if fld (leAt flit 8 8) 0 8 == 1 then fogRx d2 n (fld (leAt flit 16 8) 32 32) else d2, fz)
        else if h.kind == 0 then (d2, fz)
        else if h.seq == (land d2 n).rxNext then
          let d3 := count (onLand d2 n (fun l => { l with
            rxNext := (l.rxNext + 1) % 4096, nakOwed := false, rxFlits := l.rxFlits + 1
            accepted := l.accepted.filter (fun a => decide (l.rxFlits + 1 < a.flit + 512)) })) page 0x808
          rxSlots d3 fz n h.start (sub flit 8 240)
        else (onLand d2 n (fun l => { l with nakOwed := true }), fz)
    (laneErrs r.1 n corrected, r.2)

/-- FLIT_RX. -/
def execFlitRx (ld : Nat) (flit : List Byte) (fecOk : Bool) (corrected : List Nat) (s : State) :
    Host.Outcome State Fault Refusal :=
  s.runCtl (fun d fz => flitIn d fz ld flit fecOk corrected)

end Sys2Proof.Machine
end

