-- ==== Sys2Proof/Machine/Host.lean ====
section
/-! DEFINITION. Memory TLPs that reach a PCIe port (13 R404-R411): function 0 is the control space (13 R406), functions 1
to 7 are memory windows. -/

namespace Sys2Proof.Machine

open Sys2Proof

/-- The access path of a port. -/
def portPath (p : Nat) : Path := if p == 0 then .pcie0 else .pcie1

/-- A memory read or posted write of BAR0 of function 0: the control space, 16 MiB (13 R406; 00 R11). -/
def barIn (d : Dev) (fz : Fuses) (p : Nat) (isWrite : Bool) (off n : Nat) (data : List Byte) : Dev × Fuses :=
  if !portOpen d p then (d, fz)
  else
    let d1 := count d (portPage p) (if isWrite then 0x808 else 0x800)
    if quiet d1 then
      let d2 := count (dropHalves d1 (portPath p)) (pg 0x03 0) 0x818
      (if isWrite then d2 else complete d2 p 0 3 n [], fz)
    else if isWrite then
      let r := ctlWrite (portPath p) off (8 * n) (leAt data 0 n) d1 fz
      (if r.1 == cOK then r.2.1 else reportUr r.2.1 p 0, r.2.2)
    else
      let r := ctlRead (portPath p) off (8 * n) d1 fz
      (if r.1 == cOK then complete r.2.2 p 0 0 n (leBytes n r.2.1) else complete r.2.2 p 0 2 n [], fz)

/-! ## The MSI-X table and PBA (13 R406) -/

/-- Vectors of a function. -/
def vectorsOf (fn : Nat) : Nat := if fn == 0 then 64 else 2048

/-- A word of BAR2/3: of a table entry its address, data and vector control, 16 bytes an entry; of the PBA, in the upper half, a
pending bit for each vector (log 151). -/
def tableWord (d : Dev) (p fn w : Nat) : Nat :=
  let v := vectorOf d p fn (w / 4)
  if w < 0x2000 then
    if vectorsOf fn ≤ w / 4 then 0
    else match w % 4 with
      | 0 => v.addr % 2 ^ 32
      | 1 => v.addr / 2 ^ 32
      | 2 => v.data
      | _ => b2n v.masked
  else ofBits ((List.range 32).filter (fun i => (vectorOf d p fn (32 * (w - 0x2000) + i)).pending))

/-- A write of a word of the table; the PBA is read-only. An unmasked vector's pending message is sent (13 R413). -/
def writeTable (d : Dev) (p fn w x : Nat) : Dev :=
  let vec := w / 4
  let v := vectorOf d p fn vec
  if vectorsOf fn ≤ vec then d
  else match w % 4 with
    | 0 => setVector d p fn vec { v with addr := setFld v.addr 0 32 x }
    | 1 => setVector d p fn vec { v with addr := setFld v.addr 32 32 x }
    | 2 => setVector d p fn vec { v with data := x }
    | _ => if bit x 0 then setVector d p fn vec { v with masked := true } else unmask d p fn vec

/-- Where BAR2/3 of a function begins in the offsets of the memory TLPs: above every window (log 151). -/
def tableBase : Nat := 2 ^ 48

/-- The words that an access of BAR2/3 covers: one or two, aligned. -/
def tableWords (o n : Nat) : List Nat :=
  if (n == 4 || n == 8) && o % n == 0 && decide (o + n ≤ 0x10000) then (List.range (n / 4)).map (o / 4 + ·) else []

/-- A memory read or posted write of BAR2/3 of a function. -/
def tableIn (d : Dev) (p fn : Nat) (isWrite : Bool) (o n : Nat) (data : List Byte) : Dev :=
  if !portOpen d p then d
  else
    let d1 := count d (portPage p) (if isWrite then 0x808 else 0x800)
    let ws := tableWords o n
    if isWrite then
      if ws.isEmpty then reportUr d1 p fn
      else (ws.zip (chunks ws.length 4 data)).foldl (fun d e => writeTable d p fn e.1 (leNat e.2)) d1
    else if ws.isEmpty then complete d1 p fn 2 n []
    else complete d1 p fn 0 n (ws.flatMap (fun w => leBytes 4 (tableWord d1 p fn w)))

/-- A memory read or posted write of a function: of BAR2/3, of the control space, or of a window. -/
def memTlp (d : Dev) (fz : Fuses) (p fn kind off n : Nat) (data : List Byte) : Dev × Fuses :=
  if decide (tableBase ≤ off) && decide (fn < 8) then (tableIn d p fn (kind == 1) (off - tableBase) n data, fz)
  else if fn == 0 then barIn d fz p (kind == 1) off n data
  else (tlpIn d p fn kind off n data none, fz)

/-! ## Configuration space (13 R406, R407) -/

/-- Vendor ID, Device ID and class code of a function. -/
def fnIds (d : Dev) (p fn : Nat) : Nat × Nat × Nat :=
  (0x1F3D, if fn == 0 then 0x4B02 else 0x4B03,
   if fn == 0 then 0x120000 else if fn == 1 && (port d p).proto != .pcie then 0x050210 else 0x058000)

/-- BAR0/1: the control space of 16 MiB, or the window of a memory function, unimplemented while its LOG2 is 0. -/
def readBar01 (d : Dev) (p fn : Nat) : Nat :=
  let f := (port d p).fns.getD fn {}
  let k := if fn == 0 then 24 else f.log2Now
  if k == 0 then 0 else f.bar01 / 2 ^ k * 2 ^ k + 4

/-- BAR2/3: 64 KiB. -/
def readBar23 (d : Dev) (p fn : Nat) : Nat := ((port d p).fns.getD fn {}).bar23 / 2 ^ 16 * 2 ^ 16 + 4

/-- PCIE_MEMORY_READ. -/
def execPcieMemoryRead (port fn : Nat) (off len : Nat) (s : State) : Host.Outcome State Fault Refusal :=
  s.runCtl (fun d fz => memTlp d fz port fn 0 off len [])

/-- PCIE_POSTED_WRITE. -/
def execPciePostedWrite (port fn : Nat) (off : Nat) (data : List Byte) (s : State) : Host.Outcome State Fault Refusal :=
  s.runCtl (fun d fz => memTlp d fz port fn 1 off data.length data)

/-- An AtomicOp of a width its operation has not, or to the control space, is an Unsupported Request (13 R404; 00 R11); one to the
control space is an access of the port's path (00 R16). -/
def atomicIn (d : Dev) (p fn off : Nat) (op : PcieAtomic) (bytes : Nat) (data : List Byte) : Dev :=
  if fn != 0 && atomicOk op bytes then tlpIn d p fn 2 off bytes (sub data 0 (if op == .cas then 2 * bytes else bytes)) (some op)
  else if portOpen d p then complete (if fn == 0 then dropHalves d (portPath p) else d) p fn 2 bytes []
  else d

/-- PCIE_ATOMICOP. -/
def execPcieAtomicop (port fn : Nat) (off : Nat) (op : PcieAtomic) (bytes : Nat) (data : List Byte) (s : State) :
    Host.Outcome State Fault Refusal :=
  s.runReq (fun d => atomicIn d port fn off op bytes data)

end Sys2Proof.Machine
end

