-- ==== Sys2Proof/Machine/Spdm.lean ====
section
/-! DEFINITION. SPDM (13 R424; 15 R464, R468, R469): the exchanges, their transcripts and signatures. The layouts of the messages
are those of DSP0274, which the rules name and do not give (log 43). -/

namespace Sys2Proof.Machine

open Sys2Proof

/-! ## Connections (13 R424) -/

def spdmOf (d : Dev) : SpdmPort → Spdm
  | .mctp => d.mgmt.spdmMctp
  | .doe0 => d.mgmt.spdmDoe0
  | .doe1 => d.mgmt.spdmDoe1

def setSpdm (d : Dev) (t : SpdmPort) (c : Spdm) : Dev :=
  match t with
  | .mctp => { d with mgmt.spdmMctp := c }
  | .doe0 => { d with mgmt.spdmDoe0 := c }
  | .doe1 => { d with mgmt.spdmDoe1 := c }

/-- ERROR of the connection's version: code and data. -/
def spdmError (c : Spdm) (code data : Nat) (ext : List Byte := []) : List Byte :=
  [byte (if c.version == 0 then 0x10 else c.version), 0x7F, byte code, byte data] ++ ext

def errInvalid : Nat := 0x01

def errUnexpected : Nat := 0x04

def errUnsupported : Nat := 0x07

def errTooLarge : Nat := 0x0D

def errLarge : Nat := 0x0F

def errVersion : Nat := 0x41

/-- Header of a response, in the version of its request. -/
def spdmHead (c : Spdm) (code p1 p2 : Nat) : List Byte := [byte c.version, byte code, byte p1, byte p2]

/-! ## Signatures (15 R462, R468) -/

/-- Ed448 with the Alias2 key over the signing prefix of a version and context and the SHA3-512 digest of a transcript. -/
def spdmSign (d : Dev) (version : Nat) (context : String) (transcript : List Byte) : List Byte :=
  let name := ascii (if version == 0x13 then "dmtf-spdm-v1.3.*" else "dmtf-spdm-v1.2.*")
  let ctx := ascii context
  edSign (alias2Key d) (name ++ name ++ name ++ name ++ List.replicate (36 - ctx.length) 0 ++ ctx ++ sha3x512 transcript)

/-- Certificate chain of slot 0: its length, the digest of the root certificate, the certificates (15 R464). -/
def chainBytes (d : Dev) : List Byte :=
  let l := certChain d
  leBytes 2 (68 + l.length) ++ [0, 0] ++ sha3x512 (Config.cert 0 0) ++ l

/-! ## Measurements (15 R469) -/

/-- Value of an index. -/
def measureValue (d : Dev) (fz : Fuses) (index : Nat) : List Byte :=
  match index with
  | 1 => (List.range 64).map Config.romDigestByte
  | 2 => measureOf d 1
  | 3 => measureOf d 2
  | 4 => measureOf d 3
  | 5 => measureOf d 4
  | 6 => securityState d fz
  | _ => wrapPub d ++ leBytes 8 (startNonce d)

/-- Its DMTF measurement block of the raw bit stream type. -/
def measureBlock (d : Dev) (fz : Fuses) (index : Nat) : List Byte :=
  let v := measureValue d fz index
  [byte index, 1] ++ leBytes 2 (v.length + 3) ++ [byte (0x80 + (Config.measureType index).toNat)] ++ leBytes 2 v.length ++ v

/-- Every block, in order. -/
def allBlocks (d : Dev) (fz : Fuses) : List Byte := [1, 2, 3, 4, 5, 6, 7].flatMap (measureBlock d fz)

/-! ## The requests (15 R468) -/

/-- What a request is answered with: a response, and the device after it. -/
abbrev SpdmAnswer := List Byte × Dev

/-- GET_VERSION: the transport's connection starts anew (13 R424). -/
def spdmVersion (d : Dev) (t : SpdmPort) (m : List Byte) : SpdmAnswer :=
  if m.getD 0 0 != 0x10 then (spdmError (spdmOf d t) errVersion 0, d)
  else
    let r : List Byte := [0x10, 0x04, 0, 0, 0, 2, 0x00, 0x12, 0x00, 0x13]
    (r, setSpdm d t { stage := 1, vca := m ++ r })

/-- CERT_CAP, CHAL_CAP, MEAS_CAP with signatures, CHUNK_CAP. -/
def spdmFlags : Nat := 2 + 4 + 2 * 8 + 2 ^ 17

/-- GET_CAPABILITIES, which names the version. -/
def spdmCapabilities (d : Dev) (t : SpdmPort) (m : List Byte) : SpdmAnswer :=
  let c := spdmOf d t
  let v := (m.getD 0 0).toNat
  let size := leAt m 12 4
  if c.stage != 1 then (spdmError c errUnexpected 0, d)
  else if v != 0x12 && v != 0x13 then (spdmError c errVersion 0, d)
  else if m.length < 20 || size < 42 || leAt m 16 4 < size then (spdmError { c with version := v } errInvalid 0, d)
  else
    let r := [byte v, 0x61, 0, 0, 0, Config.spdmTiming, 0, 0] ++ leBytes 4 spdmFlags ++ leBytes 4 Config.spdmTransfer.toNat ++
      leBytes 4 Config.spdmLargest.toNat
    (r, setSpdm d t { c with stage := 2, version := v, peerSize := size, peerChunks := bit (leAt m 8 4) 17, vca := c.vca ++ m ++ r })

/-- NEGOTIATE_ALGORITHMS: a requester that offers no Ed448, or no SHA3-512, receives ERROR. -/
def spdmAlgorithms (d : Dev) (t : SpdmPort) (m : List Byte) : SpdmAnswer :=
  let c := spdmOf d t
  if c.stage != 2 then (spdmError c errUnexpected 0, d)
  else if m.length < 32 || leAt m 4 2 != m.length || !bit (leAt m 8 4) 11 || !bit (leAt m 12 4) 5 then (spdmError c errInvalid 0, d)
  else
    let dmtf := (m.getD 6 0).toNat % 2
    let r := spdmHead c 0x63 0 0 ++ leBytes 2 36 ++ [byte dmtf, 0] ++ leBytes 4 dmtf ++ leBytes 4 (2 ^ 11) ++ leBytes 4 (2 ^ 5) ++
      List.replicate 16 0
    (r, setSpdm d t { c with stage := 3, vca := c.vca ++ m ++ r })

/-- GET_DIGESTS: slot 0 alone. -/
def spdmDigests (d : Dev) (t : SpdmPort) (m : List Byte) : SpdmAnswer :=
  let c := spdmOf d t
  let r := spdmHead c 0x01 (if c.version == 0x13 then 1 else 0) 1 ++ sha3x512 (chainBytes d)
  (r, setSpdm d t { c with certs := c.certs ++ m ++ r, meas := [] })

/-- GET_CERTIFICATE: a portion of the chain of slot 0. -/
def spdmCertificate (d : Dev) (t : SpdmPort) (m : List Byte) : SpdmAnswer :=
  let c := spdmOf d t
  let l := chainBytes d
  let off := leAt m 4 2
  if m.length < 8 || (m.getD 2 0).toNat % 16 != 0 || l.length ≤ off then (spdmError c errInvalid 0, d)
  else
    let n := if c.version == 0x13 && (m.getD 3 0).toNat % 2 == 1 then 0 else min (leAt m 6 2) (l.length - off)
    let r := spdmHead c 0x02 0 0 ++ leBytes 2 n ++ leBytes 2 (l.length - off - n) ++ sub l off n
    (r, setSpdm d t { c with certs := c.certs ++ m ++ r, meas := [] })

/-- The measurement summary that CHALLENGE asks for: none, that of the trusted base (which indices it holds is not given: free
bytes), or that of every block (log 43). -/
def spdmSummary (d : Dev) (fz : Fuses) (kind : Nat) : List Byte × Dev :=
  if kind == 0 then ([], d) else if kind == 1 then freeBytes 64 d else (sha3x512 (allBlocks d fz), d)

/-- CHALLENGE, signed with the Alias2 key. -/
def spdmChallenge (d : Dev) (fz : Fuses) (t : SpdmPort) (m : List Byte) : SpdmAnswer :=
  let c := spdmOf d t
  let kind := (m.getD 3 0).toNat
  let context := if c.version == 0x13 then sub m 36 8 else []
  if m.length < 36 + context.length || m.getD 2 0 != 0 || !(kind == 0 || kind == 1 || kind == 0xFF) then (spdmError c errInvalid 0, d)
  else
    let nonce := freeBytes 32 d
    let sum := spdmSummary nonce.2 fz kind
    let r := spdmHead c 0x03 0 1 ++ sha3x512 (chainBytes d) ++ nonce.1 ++ sum.1 ++ [0, 0] ++ context
    let sig := spdmSign d c.version "responder-challenge_auth signing" (c.vca ++ c.certs ++ m ++ r)
    (r ++ sig, setSpdm sum.2 t { c with certs := [], meas := [] })

/-- GET_MEASUREMENTS, signed on request. -/
def spdmMeasurements (d : Dev) (fz : Fuses) (t : SpdmPort) (m : List Byte) : SpdmAnswer :=
  let c := spdmOf d t
  let signed := bit (m.getD 2 0).toNat 0
  let op := (m.getD 3 0).toNat
  let at_ := if signed then 37 else 4
  let context := if c.version == 0x13 then sub m at_ 8 else []
  if m.length < at_ + context.length || (signed && (m.getD 36 0).toNat % 16 != 0) || (7 < op && op != 0xFF) then
    (spdmError c errInvalid 0, d)
  else
    let record := if op == 0 then [] else if op == 0xFF then allBlocks d fz else measureBlock d fz op
    let count := if op == 0 then 0 else if op == 0xFF then 7 else 1
    let nonce := freeBytes 32 d
    let r := spdmHead c 0x60 (if op == 0 then 7 else 0) 0 ++ [byte count] ++ leBytes 3 record.length ++ record ++ nonce.1 ++ [0, 0] ++ context
    let l := c.meas ++ m ++ r
    if signed then
      (r ++ spdmSign d c.version "responder-measurements signing" (c.vca ++ l), setSpdm nonce.2 t { c with meas := [] })
    else (r, setSpdm nonce.2 t { c with meas := l })

/-- A request that comes whole, by its code; any other code is not supported. -/
def spdmWhole (d : Dev) (fz : Fuses) (t : SpdmPort) (m : List Byte) : SpdmAnswer :=
  let c := spdmOf d t
  let code := (m.getD 1 0).toNat
  let after (f : SpdmAnswer) : SpdmAnswer :=
    if c.stage != 3 then (spdmError c errUnexpected 0, d)
    else if (m.getD 0 0).toNat != c.version then (spdmError c errVersion 0, d)
    else f
  if m.length < 4 then (spdmError c errInvalid 0, d)
  else match code with
    | 0x84 => spdmVersion d t m
    | 0xE1 => spdmCapabilities d t m
    | 0xE3 => if c.stage == 2 && (m.getD 0 0).toNat != c.version then (spdmError c errVersion 0, d) else spdmAlgorithms d t m
    | 0x81 => after (spdmDigests d t m)
    | 0x82 => after (spdmCertificate d t m)
    | 0x83 => after (spdmChallenge d fz t m)
    | 0xE0 => after (spdmMeasurements d fz t m)
    | _ => (spdmError c errUnsupported code, d)

/-! ## Large messages (15 R468, CHUNK_CAP) -/

/-- A response longer than the requester's DataTransferSize is fetched in chunks. -/
def spdmFit (t : SpdmPort) (a : SpdmAnswer) : SpdmAnswer :=
  let c := spdmOf a.2 t
  if c.stage < 2 || a.1.length ≤ c.peerSize then a
  else if !c.peerChunks then (spdmError c errTooLarge 0 (leBytes 4 a.1.length), a.2)
  else
    (spdmError c errLarge 0 [byte c.nextHandle],
      setSpdm a.2 t { c with chunkOut := some { handle := c.nextHandle, bytes := a.1, size := a.1.length },
                             nextHandle := (c.nextHandle + 1) % 256 })

/-- CHUNK_SEND_ACK: the chunk's handle and number, and what answers the large request, or an early error. -/
def chunkAck (c : Spdm) (early : Bool) (handle seq : Nat) (r : List Byte) : List Byte :=
  spdmHead c 0x05 (b2n early) handle ++ leBytes 2 seq ++ r

/-- CHUNK_SEND: the last chunk's request is answered in its acknowledgement. -/
def spdmChunkSend (d : Dev) (fz : Fuses) (t : SpdmPort) (m : List Byte) : SpdmAnswer :=
  let c := spdmOf d t
  let handle := (m.getD 3 0).toNat
  let seq := leAt m 4 2
  let n := leAt m 8 4
  let body := m.drop (if seq == 0 then 16 else 12)
  let s : Chunks := if seq == 0 then { handle := handle, size := leAt m 12 4 } else c.chunkIn.getD { handle := handle }
  let whole := s.bytes ++ body
  let last := bit (m.getD 2 0).toNat 0
  let ok := decide (12 ≤ m.length) && body.length == n && s.handle == handle && s.seq == seq && (seq == 0 || c.chunkIn.isSome) &&
    decide (whole.length ≤ s.size) && last == (whole.length == s.size)
  if c.stage < 2 then (spdmError c errUnexpected 0, d)
  else if !ok then
    (chunkAck c true handle seq (spdmError c errInvalid 0), setSpdm d t { c with chunkIn := none })
  else if !last then
    (chunkAck c false handle seq [], setSpdm d t { c with chunkIn := some { s with bytes := whole, seq := seq + 1 } })
  else
    let code := (whole.getD 1 0).toNat
    let d1 := setSpdm d t { c with chunkIn := none }
    let a := if code == 0x85 || code == 0x86 then (spdmError c errInvalid 0, d1) else spdmFit t (spdmWhole d1 fz t whole)
    (chunkAck c false handle seq a.1, a.2)

/-- CHUNK_GET: the next chunk of the large response. -/
def spdmChunkGet (d : Dev) (t : SpdmPort) (m : List Byte) : SpdmAnswer :=
  let c := spdmOf d t
  let handle := (m.getD 3 0).toNat
  let seq := leAt m 4 2
  match c.chunkOut with
  | none => (spdmError c errUnexpected 0, d)
  | some s =>
    if m.length < 6 || s.handle != handle || s.seq != seq then (spdmError c errInvalid 0, setSpdm d t { c with chunkOut := none })
    else
      let n := min (c.peerSize - (if seq == 0 then 16 else 12)) (s.size - s.at_)
      let last := s.at_ + n == s.size
      let r := spdmHead c 0x06 (b2n last) handle ++ leBytes 2 seq ++ [0, 0] ++ leBytes 4 n ++ (if seq == 0 then leBytes 4 s.size else []) ++
        sub s.bytes s.at_ n
      (r, setSpdm d t { c with chunkOut := if last then none else some { s with seq := seq + 1, at_ := s.at_ + n } })

/-! ## Messages of a transport -/

/-- What answers a message: anything but CHUNK_GET gives up a large response, anything but CHUNK_SEND a large request. -/
def spdmAnswer (d : Dev) (fz : Fuses) (t : SpdmPort) (m : List Byte) : SpdmAnswer :=
  let c := spdmOf d t
  let code := (m.getD 1 0).toNat
  if code == 0x86 then spdmChunkGet (setSpdm d t { c with chunkIn := none }) t m
  else if code == 0x85 then spdmChunkSend (setSpdm d t { c with chunkOut := none }) fz t m
  else spdmFit t (spdmWhole (setSpdm d t { c with chunkIn := none, chunkOut := none }) fz t m)

/-- Customs serves: its page is live. -/
def customsLive (d : Dev) : Bool := !pageDead d ⟨0x02, 0, 0⟩ && decide (blockStep 0x02 < d.sys.step)

/-- A message reaches the block over a DOE mailbox while its port is up (13 R424). -/
def doeOpen (d : Dev) (p : Nat) : Bool := portOpen d p

/-- A message is answered on its transport, and counted (17 R526, CUST_SPDM_REQ). -/
def spdmServe (d : Dev) (fz : Fuses) (t : SpdmPort) (m : List Byte) : Dev :=
  if !customsLive d then d
  else
    let a := spdmAnswer (count d custPage 0x818) fz t m
    emit a.2 (.spdm t a.1)

end Sys2Proof.Machine
end

