-- ==== Sys2Proof/Machine/Manage.lean ====
section
/-! DEFINITION. The low-speed management interfaces (13 R421-R426): I3C, MCTP, SPDM messages, the console, the test port. -/

namespace Sys2Proof.Machine

open Sys2Proof

def pilotPage : Nat := pg 0x01 0

/-! ## I3C (13 R421) -/

/-- The Pilot runs: power is on and no core reset runs; it serves in the start-failed hold too (16 R501). -/
def pilotRuns (d : Dev) : Bool := reachable d

/-- The target takes SDR traffic: HDR traffic is ignored until its exit pattern. -/
def i3cOpen (d : Dev) : Bool := pilotRuns d && !d.mgmt.hdr

/-- ENTDAA assigns the dynamic address. -/
def execEntdaa (addr : BitVec 7) (s : State) : Host.Outcome State Fault Refusal :=
  s.run (fun d => if i3cOpen d then { d with mgmt.i3cAddr := addr.toNat, mgmt.i3cValid := true } else d)

def execHdrTraffic (s : State) : Host.Outcome State Fault Refusal :=
  s.run (fun d => if pilotRuns d then { d with mgmt.hdr := true } else d)

def execHdrExitPattern (s : State) : Host.Outcome State Fault Refusal :=
  s.run (fun d => if pilotRuns d then { d with mgmt.hdr := false } else d)

/-! ## MCTP (13 R422) -/

/-- A message is discarded and counted. -/
def mctpDrop (d : Dev) : Dev := raise (count d pilotPage 0x808) pilotPage 0

/-- Control commands: completion code and the rest of the response, by DSP0236 (log 44). `l`: what follows the command code. -/
def mctpCommand (d : Dev) (cmd : Nat) (l : List Byte) : List Byte × Dev :=
  match cmd with
  | 0x01 =>
    let op := (l.getD 0 0).toNat % 4
    let eid := (l.getD 1 0).toNat
    if l.length != 2 then ([3], d)
    else if 2 ≤ op || eid == 0 || eid == 0xFF then ([2], d)
    else ([0, 0, byte eid, 0], { d with mgmt.eid := eid })
  | 0x02 => ([0, byte d.mgmt.eid, 0, 0], d)
  | 0x04 =>
    let type := l.getD 0 0
    if l.length != 1 then ([3], d)
    else if type == 0xFF || type == 0x00 then ([0, 1, 0xF1, 0xF3, 0xFF, 0x00], d)
    else if type == 0x05 || type == 0x7E then
      let v := freeBytes 4 d
      ([0, 1] ++ v.1, v.2)
    else ([0x80], d)
  | 0x05 => ([0, 2, 0x05, 0x7E], d)
  | 0x06 =>
    if l.length != 1 then ([3], d)
    else if l.getD 0 0 != 0 then ([2], d)
    else
      let v := freeBytes 2 d
      ([0, 0xFF, 0x00, 0x1F, 0x3D] ++ v.1, v.2)
  | _ => ([5], d)

/-- A control message: a request is answered, unless it is a datagram; a response is not. -/
def mctpControl (d : Dev) (l : List Byte) : Dev :=
  let rq := (l.getD 0 0).toNat
  let cmd := (l.getD 1 0).toNat
  if l.length < 2 then mctpDrop d
  else if !bit rq 7 then d
  else
    let r := mctpCommand d cmd (l.drop 2)
    if bit rq 6 then r.2 else emit r.2 (.mctp ([0x00, byte (rq % 32), byte cmd] ++ r.1))

/-- A vendor-defined message (13 R423): `m` is the whole message. Another vendor's is discarded and counted. -/
def mctpVendor (d : Dev) (fz : Fuses) (m : List Byte) : Dev × Fuses :=
  let cmd := (m.getD 3 0).toNat
  let off := leAt m 8 8
  let answer (st v : Nat) : Out :=
    .mctp ([0x7E, 0x1F, 0x3D, byte (cmd % 128 + 128), m.getD 4 0, byte st, 0, 0] ++ leBytes 8 v)
  let reads := cmd == 1 || cmd == 3
  let width := if cmd ≤ 2 then 32 else 64
  if m.getD 1 0 != 0x1F || m.getD 2 0 != 0x3D || m.length < 5 then (mctpDrop d, fz)
  else if cmd == 0 || 4 < cmd || !allZero (sub m 5 3) || m.length != (if reads then 16 else 24) then
    (emit (dropHalves d .i3c) (answer cUNSUP 0), fz)
  else if reads then
    let r := ctlRead .i3c off width d fz
    (emit r.2.2 (answer r.1 r.2.1), fz)
  else
    let r := ctlWrite .i3c off width (leAt m 16 8) d fz
    (emit r.2.1 (answer r.1 0), r.2.2)

/-- A message, assembled: its type and what follows it. Until the endpoint ID is set, only control messages are answered. -/
def mctpIn (d : Dev) (fz : Fuses) (type : Nat) (l : List Byte) : Dev × Fuses :=
  if !i3cOpen d || !d.mgmt.i3cValid then (d, fz)
  else
    let d1 := count d pilotPage 0x800
    if 4096 < l.length + 1 then (mctpDrop d1, fz)
    else if type == 0x00 then (mctpControl d1 l, fz)
    else if type != 0x05 && type != 0x7E then (mctpDrop d1, fz)
    else if d.mgmt.eid == 0 then (d1, fz)
    else if type == 0x05 then (spdmServe d1 fz .mctp l, fz)
    else mctpVendor d1 fz (byte type :: l)

/-- MCTP_CONTROL_MESSAGE: a message of any type, without its type byte. -/
def execMctpControlMessage (msgType : BitVec 8) (bytes : List Byte) (s : State) : Host.Outcome State Fault Refusal :=
  s.runCtl (fun d fz => mctpIn d fz msgType.toNat bytes)

/-- READ32 and the others: the whole message of 13 R423, its type byte first. -/
def execRead32 (bytes : List Byte) (s : State) : Host.Outcome State Fault Refusal :=
  s.runCtl (fun d fz => mctpIn d fz 0x7E (bytes.drop 1))

def execWrite32 (bytes : List Byte) (s : State) : Host.Outcome State Fault Refusal :=
  s.runCtl (fun d fz => mctpIn d fz 0x7E (bytes.drop 1))

def execRead64 (bytes : List Byte) (s : State) : Host.Outcome State Fault Refusal :=
  s.runCtl (fun d fz => mctpIn d fz 0x7E (bytes.drop 1))

def execWrite64 (bytes : List Byte) (s : State) : Host.Outcome State Fault Refusal :=
  s.runCtl (fun d fz => mctpIn d fz 0x7E (bytes.drop 1))

/-! ## SPDM messages (13 R424) -/

/-- A message on a transport. -/
def spdmIn (d : Dev) (fz : Fuses) (t : SpdmPort) (m : List Byte) : Dev :=
  match t with
  | .mctp => (mctpIn d fz 0x05 m).1
  | .doe0 => if doeOpen d 0 then spdmServe d fz t m else d
  | .doe1 => if doeOpen d 1 then spdmServe d fz t m else d

/-- The answer of an SPDM message. -/
def State.spdm (t : SpdmPort) (m : List Byte) (s : State) : Host.Outcome State Fault Refusal :=
  s.runFuses (fun d fz => (spdmIn d fz t m, fz))

def execGetVersion (t : SpdmPort) (bytes : List Byte) (s : State) : Host.Outcome State Fault Refusal := s.spdm t bytes

def execGetCapabilities (t : SpdmPort) (bytes : List Byte) (s : State) : Host.Outcome State Fault Refusal := s.spdm t bytes

def execNegotiateAlgorithms (t : SpdmPort) (bytes : List Byte) (s : State) : Host.Outcome State Fault Refusal := s.spdm t bytes

def execGetDigests (t : SpdmPort) (bytes : List Byte) (s : State) : Host.Outcome State Fault Refusal := s.spdm t bytes

def execGetCertificate (t : SpdmPort) (bytes : List Byte) (s : State) : Host.Outcome State Fault Refusal := s.spdm t bytes

def execChallenge (t : SpdmPort) (bytes : List Byte) (s : State) : Host.Outcome State Fault Refusal := s.spdm t bytes

def execGetMeasurements (t : SpdmPort) (bytes : List Byte) (s : State) : Host.Outcome State Fault Refusal := s.spdm t bytes

def execChunkSend (t : SpdmPort) (bytes : List Byte) (s : State) : Host.Outcome State Fault Refusal := s.spdm t bytes

def execChunkGet (t : SpdmPort) (bytes : List Byte) (s : State) : Host.Outcome State Fault Refusal := s.spdm t bytes

/-! ## Console and test port (13 R425, R426) -/

/-- A line above 256 bytes is discarded whole; with STRAP_DEBUG at 0, so is a command that does not only read state. What the
commands are is not given: an accepted line is answered, and that is all the model shows of it (log 45). -/
def consoleLine (d : Dev) (line : List Byte) (readsOnly : Bool) : Dev :=
  if !pilotRuns d || decide (256 < line.length) || (d.sys.straps.debug == 0 && !readsOnly) then d
  else emit d (.console (.answer line))

def execConsoleInputLine (line : List Byte) (readsOnly : Bool) (s : State) : Host.Outcome State Fault Refusal :=
  s.run (fun d => consoleLine d line readsOnly)

/-- LTC cycles of a character, 10 bits at the rate of BAUD (13 R426, R433). -/
def charCycles (d : Dev) : Nat := [69444, 17361, 8680, 2666].getD (reg d (pilotPage + 0x108) % 4) 69444

/-- The characters left once `n` have been sent. -/
def printed : Nat → List Nat → List Nat
  | _, [] => []
  | n, k :: l => if k ≤ n then printed (n - k) l else (k - n) :: l

/-- The newest texts that the 64 KiB of the buffer hold. -/
def held (l : List Nat) : List Nat := (l.reverse.foldl (fun r k =>
  if r.2 then r else if r.1.foldr (· + ·) k ≤ 65536 then (k :: r.1, false) else (r.1, true)) ([], false)).1

/-- Characters of `k` texts, 256 at most each; the spec gives no text (log 45). -/
def textSizes : Nat → Dev → List Nat × Dev
  | 0, d => ([], d)
  | k + 1, d =>
    let v := freeVal d
    let r := textSizes k v.2
    ((v.1 % 256 + 1) :: r.1, r.2)

/-- The console's buffer (13 R426): it has sent what its rate allows since its first character began, what was written since enters it, and
the oldest texts that no longer fit are discarded and counted. -/
def conStep (d : Dev) : Dev :=
  let isText (o : Out) : Bool := match o with | .console _ => true | _ => false
  let m := d.mgmt
  let new := ((d.tx.drop m.conSeen).filter isText).length
  if m.conBuf.isEmpty && new == 0 then { d with mgmt.conSeen := d.tx.length }
  else
    let n := (d.sys.ltc - m.conAt) / charCycles d
    let left := printed n m.conBuf
    let t := textSizes new d
    let all := left ++ t.1
    let buf := held all
    let at_ := if left.isEmpty then d.sys.ltc else m.conAt + n * charCycles d
    let d1 := { t.2 with mgmt.conSeen := d.tx.length, mgmt.conBuf := buf, mgmt.conAt := at_ }
    let lost := all.length - buf.length
    if all.length ≤ 256 || lost == 0 then d1 else raise (count d1 pilotPage 0x810 lost) pilotPage 1

/-! ## The test port (13 R425) -/

/-- What a TAP places between its TDI and its TDO. -/
inductive TapReg where
  | bypass | idcode | boundary | debug
  deriving DecidableEq, Repr

/-- The register that an instruction selects: BYPASS, CLAMP and HIGHZ the bypass register, SAMPLE/PRELOAD and EXTEST the boundary
register (IEEE 1149.1, its codes by log 7). -/
def tapReg (ir : Nat) : TapReg :=
  if ir == 0xFF || ir == 3 || ir == 4 then .bypass else if ir == 2 then .idcode else if ir ≤ 1 then .boundary else .debug

/-- What drives the low-speed pins of a TAP's bank: the device, the boundary register (EXTEST, CLAMP), or nothing (HIGHZ). -/
inductive PinDrive where
  | device | boundary | none
  deriving DecidableEq, Repr

def pinDrive (ir : Nat) : PinDrive := if ir == 0 || ir == 3 then .boundary else if ir == 4 then .none else .device

/-- The chain from TDI to TDO: the East bank's TAP, then the West bank's. -/
def chain (d : Dev) : List TapReg := [tapReg d.mgmt.tapEast, tapReg d.mgmt.tapWest]

/-- What a register captures for TDO, where the spec gives it: IDCODE, and the 0 of the bypass register. -/
def captured (t : TapReg) : Option Nat :=
  match t with
  | .idcode => some 0x2D71A7F3
  | .bypass => some 0
  | _ => .none

/-- A private instruction is active with STRAP_DEBUG at 1 and after a debug unlock; else it selects the bypass register. -/
def jtagIr (d : Dev) (ir : Nat) (isPrivate : Bool) : Nat :=
  if isPrivate && !(d.sys.straps.debug == 1 && d.cust.debugUnlocked) then 0xFF else ir

def execJtagInstruction (tap : Nat) (ir : BitVec 8) (isPrivate : Bool) (s : State) : Host.Outcome State Fault Refusal :=
  s.run (fun d =>
    let v := jtagIr d ir.toNat isPrivate
    if !pilotRuns d then d
    else if tap == 0 then { d with mgmt.tapEast := v } else { d with mgmt.tapWest := v })

end Sys2Proof.Machine
end

