-- ==== Sys2Proof/Machine/Dispatch.lean ====
section
/-! DEFINITION. The meaning of each command: one arm per constructor of `Instr`. -/

namespace Sys2Proof.Machine

open Sys2Proof

def exec (i : Instr) (s : State) : Host.Outcome State Fault Refusal :=
  match i with
  | .controlRegisterWrite p off width v => Sys2Proof.Machine.execControlRegisterWrite p off width v s
  | .counterLowHalfRead p off => Sys2Proof.Machine.execCounterLowHalfRead p off s
  | .counterHighHalfRead p off => Sys2Proof.Machine.execCounterHighHalfRead p off s
  | .evtStatWrite p page v => Sys2Proof.Machine.execEvtStatWrite p page v s
  | .evtSetWrite p page v => Sys2Proof.Machine.execEvtSetWrite p page v s
  | .evtEnWrite p page v => Sys2Proof.Machine.execEvtEnWrite p page v s
  | .cntClear p page => Sys2Proof.Machine.execCntClear p page s
  | .cntFreeze p page on => Sys2Proof.Machine.execCntFreeze p page on s
  | .feValidClear p page => Sys2Proof.Machine.execFeValidClear p page s
  | .causewayFrameRx toWest flow group seq good => Sys2Proof.Machine.execCausewayFrameRx toWest flow group seq good s
  | .laneGroupRetire toWest group => Sys2Proof.Machine.execLaneGroupRetire toWest group s
  | .spareGroupTrained toWest group => Sys2Proof.Machine.execSpareGroupTrained toWest group s
  | .causewayLoss => Sys2Proof.Machine.execCausewayLoss s
  | .causewayRetrain groupsToWest groupsToEast => Sys2Proof.Machine.execCausewayRetrain groupsToWest groupsToEast s
  | .westBankRejoin => Sys2Proof.Machine.execWestBankRejoin s
  | .rd ld h => Sys2Proof.Machine.execRd ld h s
  | .wr ld h d => Sys2Proof.Machine.execWr ld h d s
  | .stackDeltaApply chan stripe => Sys2Proof.Machine.execStackDeltaApply chan stripe s
  | .storeAck id => Sys2Proof.Machine.execStoreAck id s
  | .atomic ld h d => Sys2Proof.Machine.execAtomic ld h d s
  | .homeAtomic ld h d => Sys2Proof.Machine.execHomeAtomic ld h d s
  | .publish ld h d => Sys2Proof.Machine.execPublish ld h d s
  | .acquire ld h => Sys2Proof.Machine.execAcquire ld h s
  | .flush ld h => Sys2Proof.Machine.execFlush ld h s
  | .eadd ld h d => Sys2Proof.Machine.execEadd ld h d s
  | .eddyWritebackDone bank offset => Sys2Proof.Machine.execEddyWritebackDone bank offset s
  | .eddyIdleExpiry bank offset => Sys2Proof.Machine.execEddyIdleExpiry bank offset s
  | .rdShared ld h => Sys2Proof.Machine.execRdShared ld h s
  | .rdOwn ld h => Sys2Proof.Machine.execRdOwn ld h s
  | .upgrade ld h => Sys2Proof.Machine.execUpgrade ld h s
  | .wb ld h d => Sys2Proof.Machine.execWb ld h d s
  | .evictClean ld h => Sys2Proof.Machine.execEvictClean ld h s
  | .snoopAns ld snoopId agent a tchk d => Sys2Proof.Machine.execSnoopAns ld snoopId agent a tchk d s
  | .quayHomeTimeout snoopId => Sys2Proof.Machine.execQuayHomeTimeout snoopId s
  | .quayAgentDataWrite p bank v => Sys2Proof.Machine.execQuayAgentDataWrite p bank v s
  | .directoryEccError bank set way => Sys2Proof.Machine.execDirectoryEccError bank set way s
  | .directorySweepDone bank set => Sys2Proof.Machine.execDirectorySweepDone bank set s
  | .tollCacheEccError bank => Sys2Proof.Machine.execTollCacheEccError bank s
  | .rdComb ld h others rsvd => Sys2Proof.Machine.execRdComb ld h others rsvd s
  | .mgmtRd ld h => Sys2Proof.Machine.execMgmtRd ld h s
  | .mgmtWr ld h d => Sys2Proof.Machine.execMgmtWr ld h d s
  | .rspRx ld r d => Sys2Proof.Machine.execRspRx ld r d s
  | .doorbellStore ld h d => Sys2Proof.Machine.execDoorbellStore ld h d s
  | .descriptorFetch berth ring => Sys2Proof.Machine.execDescriptorFetch berth ring s
  | .ringControlNoop r => Sys2Proof.Machine.execRingControlNoop r s
  | .descriptorComplete r => Sys2Proof.Machine.execDescriptorComplete r s
  | .tollInsert p bank => Sys2Proof.Machine.execTollInsert p bank s
  | .tollModify p bank => Sys2Proof.Machine.execTollModify p bank s
  | .tollRevoke p bank => Sys2Proof.Machine.execTollRevoke p bank s
  | .tollOffer p bank job => Sys2Proof.Machine.execTollOffer p bank job s
  | .tollAccept p bank job => Sys2Proof.Machine.execTollAccept p bank job s
  | .tollCancel p bank => Sys2Proof.Machine.execTollCancel p bank s
  | .tollRead p bank => Sys2Proof.Machine.execTollRead p bank s
  | .jobWrite p bank job => Sys2Proof.Machine.execJobWrite p bank job s
  | .tollTakeEffect => Sys2Proof.Machine.execTollTakeEffect s
  | .revokeComplete slot => Sys2Proof.Machine.execRevokeComplete slot s
  | .handoverComplete slot => Sys2Proof.Machine.execHandoverComplete slot s
  | .drainWarn slot => Sys2Proof.Machine.execDrainWarn slot s
  | .ferryTimeout base => Sys2Proof.Machine.execFerryTimeout base s
  | .xmapNodeWrite p bank v => Sys2Proof.Machine.execXmapNodeWrite p bank v s
  | .xmapCommit p bank => Sys2Proof.Machine.execXmapCommit p bank s
  | .xmapSetEpoch p bank newEpoch => Sys2Proof.Machine.execXmapSetEpoch p bank newEpoch s
  | .xmapDiscard p bank => Sys2Proof.Machine.execXmapDiscard p bank s
  | .mapTakeEffect => Sys2Proof.Machine.execMapTakeEffect s
  | .epochRetire => Sys2Proof.Machine.execEpochRetire s
  | .ringApply p bank v => Sys2Proof.Machine.execRingApply p bank v s
  | .flashStageDrain bank => Sys2Proof.Machine.execFlashStageDrain bank s
  | .tierAnswer id => Sys2Proof.Machine.execTierAnswer id s
  | .towLate id => Sys2Proof.Machine.execTowLate id s
  | .towFail id => Sys2Proof.Machine.execTowFail id s
  | .rowReplace site chan row => Sys2Proof.Machine.execRowReplace site chan row s
  | .stackChannelDown site chan => Sys2Proof.Machine.execStackChannelDown site chan s
  | .stackChannelRebuildDone site chan => Sys2Proof.Machine.execStackChannelRebuildDone site chan s
  | .stackSiteFail site => Sys2Proof.Machine.execStackSiteFail site s
  | .spareStackReady => Sys2Proof.Machine.execSpareStackReady s
  | .stackRebuildDone => Sys2Proof.Machine.execStackRebuildDone s
  | .loggedParityRecomputeDone bank => Sys2Proof.Machine.execLoggedParityRecomputeDone bank s
  | .flashChannelFail channel => Sys2Proof.Machine.execFlashChannelFail channel s
  | .flashRebuildDone bank => Sys2Proof.Machine.execFlashRebuildDone bank s
  | .flashBlockRetire channel => Sys2Proof.Machine.execFlashBlockRetire channel s
  | .vaultFail vault => Sys2Proof.Machine.execVaultFail vault s
  | .nearRowReplace vault row => Sys2Proof.Machine.execNearRowReplace vault row s
  | .move r => Sys2Proof.Machine.execMove r s
  | .pin r => Sys2Proof.Machine.execPin r s
  | .unpin r => Sys2Proof.Machine.execUnpin r s
  | .persist r => Sys2Proof.Machine.execPersist r s
  | .moveCopyDone base => Sys2Proof.Machine.execMoveCopyDone base s
  | .moveSwitch base => Sys2Proof.Machine.execMoveSwitch base s
  | .moveAbandon base why => Sys2Proof.Machine.execMoveAbandon base why s
  | .towPinWaitExpiry base => Sys2Proof.Machine.execTowPinWaitExpiry base s
  | .lossListComplete ld => Sys2Proof.Machine.execLossListComplete ld s
  | .lossListExpire ld => Sys2Proof.Machine.execLossListExpire ld s
  | .raftLoad r => Sys2Proof.Machine.execRaftLoad r s
  | .raftRun r => Sys2Proof.Machine.execRaftRun r s
  | .raftEvict r => Sys2Proof.Machine.execRaftEvict r s
  | .copyPlaced copy => Sys2Proof.Machine.execCopyPlaced copy s
  | .raftLoadWaitExpiry r => Sys2Proof.Machine.execRaftLoadWaitExpiry r s
  | .itemCommit r item => Sys2Proof.Machine.execItemCommit r item s
  | .runEnd r => Sys2Proof.Machine.execRunEnd r s
  | .suFault su check => Sys2Proof.Machine.execSuFault su check s
  | .remapGo p bank => Sys2Proof.Machine.execRemapGo p bank s
  | .remapApply bank row => Sys2Proof.Machine.execRemapApply bank row s
  | .optStep r => Sys2Proof.Machine.execOptStep r s
  | .norm r => Sys2Proof.Machine.execNorm r s
  | .tsMerge r => Sys2Proof.Machine.execTsMerge r s
  | .snapOpen r => Sys2Proof.Machine.execSnapOpen r s
  | .snapPoint bank slot => Sys2Proof.Machine.execSnapPoint bank slot s
  | .snapTileCopied bank slot item tile => Sys2Proof.Machine.execSnapTileCopied bank slot item tile s
  | .snapItemDone bank slot item => Sys2Proof.Machine.execSnapItemDone bank slot item s
  | .snapSeal r => Sys2Proof.Machine.execSnapSeal r s
  | .snapDrop r => Sys2Proof.Machine.execSnapDrop r s
  | .purserDefine r => Sys2Proof.Machine.execPurserDefine r s
  | .purserFree r => Sys2Proof.Machine.execPurserFree r s
  | .purserSwitch r => Sys2Proof.Machine.execPurserSwitch r s
  | .purserVersionDrained bank slot => Sys2Proof.Machine.execPurserVersionDrained bank slot s
  | .gather r => Sys2Proof.Machine.execGather r s
  | .update r => Sys2Proof.Machine.execUpdate r s
  | .migrate r => Sys2Proof.Machine.execMigrate r s
  | .rowLockGrant bank => Sys2Proof.Machine.execRowLockGrant bank s
  | .rowUpdateDone bank lock => Sys2Proof.Machine.execRowUpdateDone bank lock s
  | .migrateFlip bank lock => Sys2Proof.Machine.execMigrateFlip bank lock s
  | .soundDefine r => Sys2Proof.Machine.execSoundDefine r s
  | .soundFree r => Sys2Proof.Machine.execSoundFree r s
  | .query r => Sys2Proof.Machine.execQuery r s
  | .combine r => Sys2Proof.Machine.execCombine r s
  | .combineCountersReady r => Sys2Proof.Machine.execCombineCountersReady r s
  | .soundCombineWaitExpiry r => Sys2Proof.Machine.execSoundCombineWaitExpiry r s
  | .append r => Sys2Proof.Machine.execAppend r s
  | .sideRecordWritten bank slot seq => Sys2Proof.Machine.execSideRecordWritten bank slot seq s
  | .soundMerge r => Sys2Proof.Machine.execSoundMerge r s
  | .soundMergeSwitch bank slot => Sys2Proof.Machine.execSoundMergeSwitch bank slot s
  | .soundVersionDrained bank slot => Sys2Proof.Machine.execSoundVersionDrained bank slot s
  | .pqScan r => Sys2Proof.Machine.execPqScan r s
  | .puntScanDone channel => Sys2Proof.Machine.execPuntScanDone channel s
  | .flitRx ld flit fecOk corrected => Sys2Proof.Machine.execFlitRx ld flit fecOk corrected s
  | .landAckTimeout ld => Sys2Proof.Machine.execLandAckTimeout ld s
  | .laneLockLoss ld lane => Sys2Proof.Machine.execLaneLockLoss ld lane s
  | .laneErrLimit ld lane => Sys2Proof.Machine.execLaneErrLimit ld lane s
  | .landRetrain p ld => Sys2Proof.Machine.execLandRetrain p ld s
  | .retrainDone ld good => Sys2Proof.Machine.execRetrainDone ld good s
  | .landEnable p ld on => Sys2Proof.Machine.execLandEnable p ld on s
  | .linkDown ld => Sys2Proof.Machine.execLinkDown ld s
  | .trainingAttempt ld offer good => Sys2Proof.Machine.execTrainingAttempt ld offer good s
  | .linkUp ld => Sys2Proof.Machine.execLinkUp ld s
  | .foghornTx ld => Sys2Proof.Machine.execFoghornTx ld s
  | .foghornRx ld senderId => Sys2Proof.Machine.execFoghornRx ld senderId s
  | .foghornMiss ld => Sys2Proof.Machine.execFoghornMiss ld s
  | .frameAdmit bank input output cls => Sys2Proof.Machine.execFrameAdmit bank input output cls s
  | .frameAged bank frame => Sys2Proof.Machine.execFrameAged bank frame s
  | .landingFrameSend ld => Sys2Proof.Machine.execLandingFrameSend ld s
  | .wharfGminWrite p bank v => Sys2Proof.Machine.execWharfGminWrite p bank v s
  | .wharfEpBaseWrite p bank v => Sys2Proof.Machine.execWharfEpBaseWrite p bank v s
  | .fmCfgWrite p v => Sys2Proof.Machine.execFmCfgWrite p v s
  | .ttArm p bank => Sys2Proof.Machine.execTtArm p bank s
  | .ttDisarm p bank => Sys2Proof.Machine.execTtDisarm p bank s
  | .ttSwitch ld => Sys2Proof.Machine.execTtSwitch ld s
  | .gateEntryChange ld => Sys2Proof.Machine.execGateEntryChange ld s
  | .ttEntryWrite p bank v => Sys2Proof.Machine.execTtEntryWrite p bank v s
  | .meterSnap p bank => Sys2Proof.Machine.execMeterSnap p bank s
  | .pcieMemoryRead port fn off len => Sys2Proof.Machine.execPcieMemoryRead port fn off len s
  | .pciePostedWrite port fn off d => Sys2Proof.Machine.execPciePostedWrite port fn off d s
  | .pcieAtomicop port fn off op bytes d => Sys2Proof.Machine.execPcieAtomicop port fn off op bytes d s
  | .cxlMemrd port dpa => Sys2Proof.Machine.execCxlMemrd port dpa s
  | .cxlMemwr port dpa d => Sys2Proof.Machine.execCxlMemwr port dpa d s
  | .hdmDecoderCommit port decoder ways => Sys2Proof.Machine.execHdmDecoderCommit port decoder ways s
  | .identifyMemoryDevice port => Sys2Proof.Machine.execIdentifyMemoryDevice port s
  | .getHealthInfo port => Sys2Proof.Machine.execGetHealthInfo port s
  | .getEventRecords port => Sys2Proof.Machine.execGetEventRecords port s
  | .clearEventRecords port count => Sys2Proof.Machine.execClearEventRecords port count s
  | .getSupportedLogs port => Sys2Proof.Machine.execGetSupportedLogs port s
  | .getLog port off len => Sys2Proof.Machine.execGetLog port off len s
  | .pcieCplTimeout port id => Sys2Proof.Machine.execPcieCplTimeout port id s
  | .hostCompletion port id a => Sys2Proof.Machine.execHostCompletion port id a s
  | .pciePortReset port => Sys2Proof.Machine.execPciePortReset port s
  | .functionLevelReset port fn => Sys2Proof.Machine.execFunctionLevelReset port fn s
  | .pcieRetrain p port => Sys2Proof.Machine.execPcieRetrain p port s
  | .pcieFnWinWrite p port v => Sys2Proof.Machine.execPcieFnWinWrite p port v s
  | .msixUnmask port fn vec => Sys2Proof.Machine.execMsixUnmask port fn vec s
  | .entdaa addr => Sys2Proof.Machine.execEntdaa addr s
  | .mctpControlMessage msgType bytes => Sys2Proof.Machine.execMctpControlMessage msgType bytes s
  | .read32 bytes => Sys2Proof.Machine.execRead32 bytes s
  | .write32 bytes => Sys2Proof.Machine.execWrite32 bytes s
  | .read64 bytes => Sys2Proof.Machine.execRead64 bytes s
  | .write64 bytes => Sys2Proof.Machine.execWrite64 bytes s
  | .getVersion t bytes => Sys2Proof.Machine.execGetVersion t bytes s
  | .getCapabilities t bytes => Sys2Proof.Machine.execGetCapabilities t bytes s
  | .negotiateAlgorithms t bytes => Sys2Proof.Machine.execNegotiateAlgorithms t bytes s
  | .getDigests t bytes => Sys2Proof.Machine.execGetDigests t bytes s
  | .getCertificate t bytes => Sys2Proof.Machine.execGetCertificate t bytes s
  | .challenge t bytes => Sys2Proof.Machine.execChallenge t bytes s
  | .getMeasurements t bytes => Sys2Proof.Machine.execGetMeasurements t bytes s
  | .chunkSend t bytes => Sys2Proof.Machine.execChunkSend t bytes s
  | .chunkGet t bytes => Sys2Proof.Machine.execChunkGet t bytes s
  | .consoleInputLine line readsOnly => Sys2Proof.Machine.execConsoleInputLine line readsOnly s
  | .jtagInstruction tap ir isPrivate => Sys2Proof.Machine.execJtagInstruction tap ir isPrivate s
  | .custKeyLoad p slot job => Sys2Proof.Machine.execCustKeyLoad p slot job s
  | .custKeyClear p slot => Sys2Proof.Machine.execCustKeyClear p slot s
  | .custKeyQuery p slot => Sys2Proof.Machine.execCustKeyQuery p slot s
  | .debugUnlock p => Sys2Proof.Machine.execDebugUnlock p s
  | .fwStage p type => Sys2Proof.Machine.execFwStage p type s
  | .fwActivate p type => Sys2Proof.Machine.execFwActivate p type s
  | .fwCommit p type => Sys2Proof.Machine.execFwCommit p type s
  | .custPolicyWrite p v => Sys2Proof.Machine.execCustPolicyWrite p v s
  | .salvFence p bank => Sys2Proof.Machine.execSalvFence p bank s
  | .salvIsolateExpiry => Sys2Proof.Machine.execSalvIsolateExpiry s
  | .salvPeerTimeout node => Sys2Proof.Machine.execSalvPeerTimeout node s
  | .peerProbe node answeredOk => Sys2Proof.Machine.execPeerProbe node answeredOk s
  | .peerResyncDone node => Sys2Proof.Machine.execPeerResyncDone node s
  | .salvRebuild p bank => Sys2Proof.Machine.execSalvRebuild p bank s
  | .salvLost p bank => Sys2Proof.Machine.execSalvLost p bank s
  | .salvCopy p bank => Sys2Proof.Machine.execSalvCopy p bank s
  | .peerRebuildDone => Sys2Proof.Machine.execPeerRebuildDone s
  | .salvConvoyApply p bank => Sys2Proof.Machine.execSalvConvoyApply p bank s
  | .powerOn straps => Sys2Proof.Machine.execPowerOn straps s
  | .powerLoss => Sys2Proof.Machine.execPowerLoss s
  | .emergencyOff cause => Sys2Proof.Machine.execEmergencyOff cause s
  | .latchClear => Sys2Proof.Machine.execLatchClear s
  | .powerSample watts vin => Sys2Proof.Machine.execPowerSample watts vin s
  | .dutyStepDown => Sys2Proof.Machine.execDutyStepDown s
  | .dutyStepUp => Sys2Proof.Machine.execDutyStepUp s
  | .pwrOver => Sys2Proof.Machine.execPwrOver s
  | .tempSample at_ celsius => Sys2Proof.Machine.execTempSample at_ celsius s
  | .clockFailure => Sys2Proof.Machine.execClockFailure s
  | .phyPllLoss phy => Sys2Proof.Machine.execPhyPllLoss phy s
  | .pinReset => Sys2Proof.Machine.execPinReset s
  | .rstGo p => Sys2Proof.Machine.execRstGo p s
  | .rstCancel p => Sys2Proof.Machine.execRstCancel p s
  | .rstNow p => Sys2Proof.Machine.execRstNow p s
  | .watchdogReset => Sys2Proof.Machine.execWatchdogReset s
  | .testPortReset => Sys2Proof.Machine.execTestPortReset s
  | .rstNoticeExpiry => Sys2Proof.Machine.execRstNoticeExpiry s
  | .quiesceEnd => Sys2Proof.Machine.execQuiesceEnd s
  | .coreResetEnd straps => Sys2Proof.Machine.execCoreResetEnd straps s
  | .startStepDone detail e => Sys2Proof.Machine.execStartStepDone detail e s
  | .pcieLinkUp port rate width proto => Sys2Proof.Machine.execPcieLinkUp port rate width proto s
  | .busMasterEnable port on => Sys2Proof.Machine.execBusMasterEnable port on s
  | .msixVectorMask port fn vec => Sys2Proof.Machine.execMsixVectorMask port fn vec s
  | .hdrTraffic => Sys2Proof.Machine.execHdrTraffic s
  | .hdrExitPattern => Sys2Proof.Machine.execHdrExitPattern s
  | .recoveryImageReceived type image => Sys2Proof.Machine.execRecoveryImageReceived type image s

end Sys2Proof.Machine
end

