-- ==== Sys2Proof/Machine/Idle.lean ====
section
/-! DEFINITION. What passes with no command waiting: one CTRL cycle (12 R379). -/

namespace Sys2Proof.Machine

open Sys2Proof

/-- One CTRL cycle: the LTC advances by 1, modulo 2^64, once the CLOCKS step has released it (12 R379, 16 R499; log 1). -/
def tick (d : Dev) : Dev :=
  if live d then { d with sys := { d.sys with ltc := (d.sys.ltc + 1) % 2 ^ 64 } } else d

/-- The step on an empty queue: a cycle passes, a rebuild onto the spare stack goes on by a stripe (14 R438), the console's buffer
drains (13 R426), management requests whose turn has come are performed (04 R142), and a STAGE goes on (15 R467). -/
def idle (s : State) : State :=
  let r := dueCtl (conStep (if live s.dev then rebuildTick (tick s.dev) else tick s.dev)) s.fuses
  { s with dev := settle s.dev r.1, fuses := r.2 }

end Sys2Proof.Machine
end

