-- ==== Sys2Proof/Safety.lean ====
section
/-! DEFINITION. What counts as a safe step; the terms the statements use: a device at rest, an access that reaches a
register, and the states that commands leave. -/

namespace Sys2Proof.Machine

open Sys2Proof

/-- A step answers a next state. -/
def Safe (s : State) : Prop := ∃ t, step s = .next t

/-- The device at rest: it has nothing to go on with by itself. No request is in flight, no snoop transaction is open, the sums
of no accumulator have just been written, no FLUSH waits, no PCIe transaction is under way and no host read is kept back, no MOVE,
PERSIST or other Tow descriptor is in hand, no extent is held, no MODIFY walks and no image is being staged. -/
structure AtRest (d : Dev) : Prop where
  flying : d.flying = []
  trans : d.quay.trans = []
  written : ∀ a ∈ d.quay.accums, a.wrote = none
  flushes : d.quay.flushes = []
  tlps : ∀ p ∈ d.ports, p.tlps = []
  sent : ∀ p ∈ d.ports, p.hostReads.filter (fun r => !r.sent) = []
  moves : d.tiers.moves = []
  persists : d.tiers.persists = []
  noTow : d.descs.any (fun x => x.engine == 0x50) = false
  noHeld : d.toll.extents.filter (fun x => x.held) = []
  noWalk : d.toll.walkWait = false
  noStage : d.cust.fw = none

/-- The state that a command leaves whose effect on the device is `D`. -/
def leaving (s : State) (D : Dev) : State := { s with dev := settle s.dev D }

/-- The state after a command's own effect `D`, from which the device goes on with what now can be done. -/
def goingOn (s : State) (D : Dev) : State := { s with dev := settle s.dev (goOn D) }

/-- The state after an access of the control space that has left the device `D`. -/
def afterAccess (s : State) (D : Dev) (fz : Fuses) : State :=
  { s with dev := settle s.dev (goOnCtl D fz).1, fuses := (goOnCtl D fz).2 }

/-- The state after a write on path `p` that has left the device `D` and is answered OK. -/
def written (s : State) (p : Path) (D : Dev) : State := afterAccess s (emit D (.ctl p cOK 0)) s.fuses

/-- Nothing is due before an access of the control space: no management request waits for its turn, and an image that is being staged
waits for a read. -/
def Still (d : Dev) : Prop :=
  d.flying.all (fun f => f.wait != .turn) = true ∧ d.cust.fw.all (fun w => w.asked && w.answer.isNone) = true

/-- An access on path `p` of offset `off`, in page `pa`, is performed: the registers are reached, the device is not quiet
for the path, the policy lets the path write there, the page is live, and nothing is due before. -/
def Reaches (d : Dev) (p : Path) (off : Nat) (pa : PageId) : Prop :=
  pathReaches d p = true ∧ pathQuiet d p = false ∧ mayWrite d p off = true ∧ pageAt off = some pa ∧ pageDead d pa = false ∧ Still d

/-- What is burnt once stays burnt: the security version fuses hold 4 counters of at most 64, and 4 revocations. -/
def FusesOk (f : Fuses) : Prop := f.svn.length = 4 ∧ (∀ n ∈ f.svn, n ≤ 64) ∧ f.revoked.length = 4

/-! ## Memory requests on a Landing -/

/-- The request that a memory command brings to a Landing. -/
def requestOf : Instr → Option (Nat × Req)
  | .rd n h => some (n, { op := .rd, origin := .landing n, h := h })
  | .wr n h l => some (n, { op := .wr, origin := .landing n, h := h, data := l })
  | .atomic n h l => some (n, { op := .atomic, home := decide (h.tc.toNat < 4), origin := .landing n, h := h, data := l })
  | .homeAtomic n h l => some (n, { op := .atomic, home := decide (h.tc.toNat < 4), origin := .landing n, h := h, data := l })
  | .publish n h l => some (n, { op := .publish, home := true, origin := .landing n, h := h, data := l })
  | .acquire n h => some (n, { op := .acquire, origin := .landing n, h := h })
  | .flush n h => some (n, { op := .flush, origin := .landing n, h := h })
  | .eadd n h l => some (n, { op := .eadd, origin := .landing n, h := h, data := l })
  | .rdShared n h => some (n, { op := .rdShared, origin := .landing n, h := h })
  | .rdOwn n h => some (n, { op := .rdOwn, origin := .landing n, h := h })
  | .upgrade n h => some (n, { op := .upgrade, origin := .landing n, h := h })
  | .wb n h l => some (n, { op := .wb, origin := .landing n, h := h, data := l })
  | .evictClean n h => some (n, { op := .evictClean, origin := .landing n, h := h })
  | .doorbellStore n h l => some (n, { op := .wr, origin := .landing n, h := h, data := l })
  | _ => none

/-- The request reaches the Toll: its Landing is open, the device is not quiet, the header is accepted, class 0 comes from an
admitted range, the request is not marked, and no earlier one of its source and class is under way. -/
structure Landed (d : Dev) (n : Nat) (q : Req) : Prop where
  origin : q.origin = .landing n
  isOpen : landOpen d n = true
  notQuiet : quiet d = false
  header : headerBad (opCode q.op) q.h = false
  admitted : q.h.tc = 0 → mgmtAdmits d q.h.src.toNat = true
  unmarked : q.h.mark = false
  first : turnTaken d q = false

/-- What the Toll of the entry bank says of a request that has arrived. -/
def tollSays (d : Dev) (n : Nat) (q : Req) : TollSays × Dev :=
  if doorbellBase ≤ q.h.offset.toNat && q.op != .acquire then doorbellToll (arrive d n q.op q.h) (n / 8) q.op q.h false
  else tollCheck (arrive d n q.op q.h) (n / 8) q.op q.h false

/-- The request after the Fare meter, as it goes on to its home extent: `dt` is the device the Toll left. -/
def tabledReq (dt : Dev) (q : Req) (x : Extent) : Req := { (fareOn dt q).1 with table := tabled q x }

/-- The device after the Fare meter and the receive meters, for a request on Landing `n` to a home extent. -/
def metered (dt : Dev) (n : Nat) (q : Req) (x : Extent) : Dev :=
  meterRx (misroute (fareOn dt q).2.2 n (some x.e.berth) q.h.epoch.toNat q.h.offset.toNat) (some x.e.berth) (reqSlots q.op q.h * 16)

/-- A request that the request table holds makes its source one of those with credits (05 R164). -/
def credited (dt : Dev) (n : Nat) (q : Req) (x : Extent) : Dev :=
  let d := metered dt n q x
  if tabled q x then { d with quay.credSrcs := NSet.add d.quay.credSrcs (extBank x * 2 ^ 18 + q.h.src.toNat) } else d

/-- The request in flight at its home, and the device that holds it: a store has updated its job's entries of the entry bank's read-side cache
(04 R124), and the request has crossed the Causeway where its home is in the other bank (01 R25). -/
def atHome (dt : Dev) (n : Nat) (q : Req) (x : Extent) : Flying :=
  { id := (credited dt n q x).nextFlying, q := tabledReq dt q x, entry := n / 8, homeBank := extBank x, base := x.e.base, wait := .quay }

def homeDev (dt : Dev) (n : Nat) (q : Req) (x : Extent) : Dev :=
  let d := credited dt n q x
  let d := if q.op == .wr then updateCache d (n / 8) q.h.job.toNat q.h.offset.toNat (sub q.data 0 (lenOf q.h)) else d
  addFlying (cross d (n / 8) (extBank x) .request q.h.tc.toNat) (atHome dt n q x)

/-- A request that passed the Toll passes the Fare meter, the home's credits and the end-to-end check, and comes to the home of
extent `x`; the bank of the extent runs, and no read-side cache answers the request. -/
structure Onward (dt : Dev) (n : Nat) (q : Req) (x : Extent) : Prop where
  notRed : (fareOn dt q).2.1 = false
  bankUp : (metered dt n q x).sys.westHeld = false ∨ extBank x = 0
  credit : tabled q x = true → overCredit (metered dt n q x) (fareOn dt q).1 (extBank x) = none
  tchk : tchkBad q = false
  uncached : ¬ ((q.op = .rd ∨ q.op = .rdComb) ∧ q.h.acq = false ∧ cacheable x (n / 8) = true ∧
    (cacheRead (credited dt n q x) (n / 8) q.h.job.toNat q.h.offset.toNat (lenOf q.h)).isSome = true)

/-- Nothing stands in the way of the request at its home: it is not refused, no request to its granules, transaction of its lines, sweep,
accumulator, copy, snapshot or reconstruction is before it. -/
structure Unhindered (d : Dev) (f : Flying) (x : Extent) : Prop where
  found : extOf d f.base = some x
  mine : flyingOf d f.id = some f
  first : blocker d f = none
  noRecall : f.q.op = .wb → wbAnswers d f (lineOf x f.q.h.offset.toNat) = none
  noTrans : x.e.moored = true → f.q.op = .wb ∨ f.q.op = .evictClean →
    ∀ l ∈ linesOf x f.q.h.offset.toNat (lenOf f.q.h), transOf d f.homeBank l = none
  notSwept : sweptSet d f x = none
  notRefused : homeRefuses d f x = none
  noSums : f.q.op = .eadd ∨ f.q.op = .flush ∨ accumsUnder d f = []
  noLines : needsLines d f x = false ∨ askLines d f.homeBank f.id (askOf d f x) (linesOf x f.q.h.offset.toNat (lenOf f.q.h)) = .go
  noSnap : snapWait d f x = none
  noRecon : reconWait d f x = none

end Sys2Proof.Machine
end

