-- ==== Sys2Proof/Certificates/Slice0/Obligations.lean ====
section
/-! DEFINITION. The statements for the provers, spread over the families of commands and the kinds of state of the block. A
statement that rests on a choice of the model, and not on a rule of the spec alone, names the log entry. -/

open Sys2Proof Sys2Proof.Machine

/-! ## The queue (the model's own: log 1, log 21) -/

/-- STEP AND QUEUE. With a command at the front of the queue, a step is `exec` of that command on the machine with the
rest of the queue. -/
def Obligations.StepExecutesTheFrontCommand : Prop :=
  ∀ (c : Instr) (rest : List Instr) (s : State),
    step { s with pending := c :: rest } = exec c { s with pending := rest }

/-- EVERY COMMAND IS EXECUTED and leaves the queue alone: no command is refused and none faults, in any state and for any
operands, and none puts a command into the queue or takes one out. -/
def Obligations.EveryCommandAnswersANextState : Prop :=
  ∀ (c : Instr) (s : State), ∃ t : State, exec c s = .next t ∧ t.pending = s.pending

/-- THE IDLE STEP (the model's own: log 1, log 45, log 145). With no command waiting, one CTRL cycle passes: a step of a device at rest
whose core runs adds 1 to the LTC, modulo 2^64, goes on with a rebuild onto the spare stack and sends what the console's rate allows; where
nothing is being rebuilt and the console's buffer has been printed, it changes nothing else but what it announces. -/
def Obligations.IdleStepIsOneCycle : Prop :=
  ∀ s : State, s.pending = [] → AtRest s.dev →
    let d := if live s.dev then { s.dev with sys.ltc := (s.dev.sys.ltc + 1) % 2 ^ 64 } else s.dev
    (live s.dev = true → step s = .next { s with dev := settle s.dev (conStep (rebuildTick d)) }) ∧
    (s.dev.tiers.rebuild = none →
      step s = .next { s with dev := settle s.dev (conStep d) } ∧
      (s.dev.mgmt.conBuf = [] → s.dev.mgmt.conSeen = s.dev.tx.length → step s = .next { s with dev := settle s.dev d }))

/-- SECURITY VERSION FUSES, an invariant of every step (15 R467): whatever command a step takes, the fuse counters of the four
TYPEs never fall and never exceed 64, and the revoked keys stay as they are. -/
def Obligations.FusesNeverFall : Prop :=
  ∀ s t : State, FusesOk s.fuses → step s = .next t →
    FusesOk t.fuses ∧ t.fuses.revoked = s.fuses.revoked ∧ ∀ i, s.fuses.svn.getD i 0 ≤ t.fuses.svn.getD i 0

/-- RESET. The LTC is 0, the start stands at its first step, power is on; every Landing's Timetable is one entry with every gate
open and DURATION 0xFFFF_FFFF, with base time 0 (12 R392); memory lists nothing; no command waits; the fuses meet their invariant. (Choices
of the model that clauses rest on: logs 3, 5 and 22.) -/
def Obligations.ResetLeavesTheFirstStartStep : Prop :=
  (let d := State.reset.dev
   d.sys.ltc = 0 ∧ d.sys.power = .on ∧ d.sys.step = 0 ∧ d.sys.phase = .none ∧ d.tiers.mem = [] ∧ State.reset.pending = [] ∧
   (∀ ld, ld < 16 → (ttOf d ld).active = [0x0001FFFFFFFFFFFF] ∧ (ttOf d ld).base = 0) ∧
   d.xmap.nodeValid = false ∧ d.wharf.epValid = false ∧ d.toll.extents = [] ∧ d.flying = []) ∧
  (FusesOk State.reset.fuses)

/-! ## The control space (00 R8, R11, R12, R15, R16; 15 R476; 17 R511-R524) -/

/-- ACCESSES THAT PERFORM NOTHING. A misaligned access of the control space, or one that is not 32 or 64 bits wide (00 R11), changes
nothing but the capture and the held half of the path, which every access drops (R16, R515), and the answer sent, UNSUPPORTED (which
through PCIe stands for Unsupported Request). While the West bank is held in reset every page of it reads 0 and every write to it is
discarded, with no event raised (17 R511; 01 R27). A write that the policy refuses a path performs nothing and is counted in
CUST_POLICY_REFUSED, with the event POLICY_REFUSED recorded with the refused offset; it is answered ACCESS_DENIED, through PCIe
Unsupported Request (15 R476). (Choices of the model that clauses rest on: logs 105 and 106.) -/
def Obligations.RefusedAccessesPerformNothing : Prop :=
  (∀ (s : State) (p : Path) (off width : Nat) (v : BitVec 64),
     AtRest s.dev → pathReaches s.dev p = true → pathQuiet s.dev p = false →
     let t : State := { s with dev := settle s.dev (emit (dropHalves s.dev p) (.ctl p 0x0D 0)) }
     (¬ ((width = 32 ∧ off % 4 = 0) ∨ (width = 64 ∧ off % 8 = 0)) → exec (.controlRegisterWrite p off width v) s = .next t) ∧
     (off % 4 ≠ 0 → exec (.counterLowHalfRead p off) s = .next t ∧ exec (.counterHighHalfRead p off) s = .next t)) ∧
  (∀ (s : State) (p : Path) (off : Nat) (v : BitVec 64) (pa : PageId),
     AtRest s.dev → pathReaches s.dev p = true → pathQuiet s.dev p = false → mayWrite s.dev p off = true →
     off % 8 = 0 → pageAt off = some pa → pa.bank = 1 → s.dev.sys.westHeld = true →
     (∀ w, w = 32 ∨ w = 64 →
       exec (.controlRegisterWrite p off w v) s =
         .next { s with dev := settle s.dev (emit (dropHalves s.dev p) (.ctl p 0 0)) }) ∧
     exec (.counterLowHalfRead p off) s =
       .next { s with dev := settle s.dev (emit (dropHalves s.dev p) (.ctl p 0 0)) }) ∧
  (∀ (s : State) (p : Path) (off width : Nat) (v : BitVec 64),
     AtRest s.dev → pathReaches s.dev p = true → pathQuiet s.dev p = false → accessOk off width = true →
     mayWrite s.dev p off = false →
     let code := if p = .pcie0 ∨ p = .pcie1 then 0x0D else 0x04
     let d := raiseFe (count (dropHalves s.dev p) (pg 0x02 0) 0x810) (pg 0x02 0) 2 { unit := false, addr := off, code := 0x04 }
     exec (.controlRegisterWrite p off width v) s =
       .next { s with dev := settle s.dev { d with tx := d.tx ++ [.ctl p code 0] } })

/-- UNOCCUPIED OFFSETS (00 R12). A read of an offset that no register occupies returns 0, and a write to such an offset is
discarded; neither raises an event. Such an offset lies in no page, or in a slot of a page that holds no register, or in the high
half of a 32-bit register's slot (17 R515). Nothing changes but the capture and the held half of the path, which every access drops
(R16, R515), and the answer sent. (Choices of the model that clauses rest on: log 105.) -/
def Obligations.UnoccupiedOffsetReadsZeroAndDiscardsWrites : Prop :=
  ∀ (s : State) (p : Path) (off : Nat) (v : BitVec 64),
    AtRest s.dev → pathReaches s.dev p = true → pathQuiet s.dev p = false → mayWrite s.dev p off = true →
    let t : State := { s with dev := settle s.dev (emit (dropHalves s.dev p) (.ctl p 0 0)) }
    let nothing : Prop :=
      exec (.counterLowHalfRead p off) s = .next t ∧ exec (.counterHighHalfRead p off) s = .next t ∧
      exec (.controlRegisterWrite p off 32 v) s = .next t ∧
      (off % 8 = 0 → exec (.controlRegisterWrite p off 64 v) s = .next t)
    (pageAt off = none → off % 4 = 0 → nothing) ∧
    (∀ pa, pageAt off = some pa → pageDead s.dev pa = false → off % 4 = 0 →
      let slot := off % 0x1000 / 8 * 8
      rowAt pa.code slot = none → slot ≠ 0 → slot ≠ 8 → slot ≠ 0x20 → nothing) ∧
    (∀ pa row, pageAt off = some pa → pageDead s.dev pa = false → off % 8 = 4 →
      rowAt pa.code (off % 0x1000 / 8 * 8) = some row → row.wide = false →
      exec (.controlRegisterWrite p off 32 v) s = .next t ∧
      (readSlot (dropHalves s.dev p) s.fuses pa (off % 0x1000 / 8 * 8) < 2 ^ 32 →
        exec (.counterHighHalfRead p off) s = .next t))

/-- STORED REGISTERS (17 R514, R526-R532; 00 R8). A 32-bit write to a register that only keeps its value leaves there what
the register's table accepts, reserved bits 0, and changes nothing else but the path's halves and the answer sent; a value outside the
table's range is discarded. A write of SCHED_PRIO_RATE first brings the priority buckets of its bank up to now (12 R384). (Choices of the
model that clauses rest on: log 105.) -/
def Obligations.StoredRegisterKeepsWhatItAccepts : Prop :=
  ∀ (s : State) (p : Path) (pa : PageId) (o : Nat) (v : BitVec 64) (mask rst : Nat) (row : RegRow),
    AtRest s.dev → Reaches s.dev p (pageBase pa + o) pa → o % 8 = 0 → 0x100 ≤ o → o < 0x800 →
    rowAt pa.code o = some row → row.wide = false → row.kind = .stored mask rst → pa.code ≠ 0x12 →
    let off := pageBase pa + o
    let w := storedValue pa.code o mask (reg s.dev off) (v.toNat % 2 ^ 32)
    let d := if pa.code = 0x70 ∧ o = 0x100 then fillBuckets (dropHalves s.dev p) pa.bank else dropHalves s.dev p
    let d1 := if accepts d (pageBase pa) pa.code o w then setReg d off w else d
    exec (.controlRegisterWrite p off 32 v) s = .next { s with dev := settle s.dev (emit d1 (.ctl p 0 0)) }

/-- EVENTS AND THE COMMON PAGE (17 R519, R521, R524; 00 R15). EVT_STAT clears what is written 1; EVT_SET raises the event bits
written 1 and nothing that the page does not have; EVT_EN keeps the bits of the page's events; CNT_CLEAR sets the page's counters
to 0, on the Fare meter's page those of every job and on a Tow page the stalls of its bank's berths (log 152); CNT_FREEZE is kept with INT_EN as it was; on the clock page the cycles withheld so far are counted first (16 R488, R508); VALID
written 1 sets the first-error record to 0. A write of EVT_STAT, EVT_EN or BLK_CTL that leaves the device interrupt asserted announces
it again. (Choices of the model that clauses rest on: logs 33 and 105.) -/
def Obligations.CommonPageRowsDoTheirEffect : Prop :=
  ∀ (s : State) (p : Path) (pa : PageId) (v : BitVec 32) (on : Bool),
    (∀ o ∈ [0x10, 0x20, 0x24, 0x28, 0x50], Reaches s.dev p (pageBase pa + o) pa) →
    let page := pageBase pa
    let d := dropHalves s.dev p
    let ctl := reg d (page + 0x10)
    let now := if page = clkPage then countWithheld d else d
    let kept (d : Dev) : Dev :=
      { d with regs := NMap.keep (fun k => !(decide (page + 0x800 ≤ k) && decide (k < page + 0x1000))) d.regs }
    let ofBank (b : Nat) (d : Dev) : Dev :=
      { d with tiers.stallCnt := NMap.keep (fun k => bankOfBerth (k / 8) != b) d.tiers.stallCnt
               tiers.stallCyc := NMap.keep (fun k => bankOfBerth (k / 8) != b) d.tiers.stallCyc }
    let zero (f : FareJob) : FareJob :=
      { f with greenReq := 0, greenBytes := 0, yellowReq := 0, yellowBytes := 0, redReq := 0, redBytes := 0 }
    let cleared (d : Dev) : Dev :=
      if page = pg 0x71 0 then { kept d with sched.fare := d.sched.fare.foldl (fun m e => NMap.set {} m e.1 (zero e.2)) d.sched.fare }
      else if page = pg 0x33 0 then ofBank 0 (kept d)
      else if page = pg 0x33 1 then ofBank 1 (kept d)
      else kept d
    exec (.evtStatWrite p page v) s = .next (written s p
      (reannounce d (setReg d (page + 0x20) (clr64 (reg d (page + 0x20)) v.toNat)))) ∧
    exec (.evtSetWrite p page v) s = .next (written s p
      ((bitsOf 32 (land64 v.toNat (eventMask pa.code))).foldl (fun d b => raise d page b) d)) ∧
    exec (.evtEnWrite p page v) s = .next (written s p
      (reannounce d (setReg d (page + 0x28) (land64 v.toNat (eventMask pa.code))))) ∧
    exec (.cntClear p page) s = .next (written s p (reannounce d (cleared (setReg now (page + 0x10) (ctl % 4))))) ∧
    exec (.cntFreeze p page on) s = .next (written s p (reannounce d (setReg now (page + 0x10) (ctl % 2 + (if on then 2 else 0))))) ∧
    exec (.feValidClear p page) s = .next (written s p
      (setReg (setReg (setReg (setReg (setReg d (page + 0x40) 0) (page + 0x48) 0) (page + 0x50) 0) (page + 0x58) 0)
        (page + 0x60) 0))

/-- EVT_SET (00 R15). A write of 1 to a bit of EVT_SET sets the matching bit of EVT_STAT and raises the block's interrupt if the
matching bit of EVT_EN is set. It advances no event counter and does not write the first-error record: no register of the module but
that EVT_STAT changes. -/
def Obligations.EventSetRaisesAndCountsNothing : Prop :=
  ∀ (s : State) (p : Path) (pa : PageId) (v : BitVec 32),
    Reaches s.dev p (pageBase pa + 0x24) pa → NMap.wf (2 ^ 64) s.dev.regs = true → reg s.dev (pageBase pa + 0x20) < 2 ^ 64 →
    let d := s.dev
    let page := pageBase pa
    let set := land64 v.toNat (eventMask pa.code)
    ∃ t, exec (.evtSetWrite p page v) s = .next (written s p t) ∧ reg t (page + 0x20) = lor64 (reg d (page + 0x20)) set ∧
      (∀ off, canon off ≠ page + 0x20 → reg t off = reg d off) ∧
      (bit (reg d (page + 0x10)) 0 = true → land64 set (reg d (page + 0x28)) ≠ 0 → blockInt t page = true)

/-- COUNTER HALVES (00 R16). A 32-bit read of a counter's low half returns it and captures the high half of the same instant
for the path; the high half read as the next access on that path returns the capture and clears it. (Choices of the model that clauses rest
on: log 105.) -/
def Obligations.CounterHalvesAreReadFromOneInstant : Prop :=
  ∀ (s : State) (p : Path) (off : Nat) (pa : PageId) (row : RegRow),
    AtRest s.dev → pathReaches s.dev p = true → pathQuiet s.dev p = false → off % 8 = 0 →
    pageAt off = some pa → pageAt (off + 4) = some pa → pageDead s.dev pa = false →
    rowAt pa.code (off % 0x1000) = some row → row.wide = true →
    let v := readSlot (dropHalves s.dev p) s.fuses pa (off % 0x1000)
    let d := dropHalves s.dev p
    exec (.counterLowHalfRead p off) s =
      .next { s with dev := settle s.dev (emit { d with shadow := NMap.set none d.shadow (pathIx p) (some (off, v / 2 ^ 32)) }
        (.ctl p 0 (.ofNat 64 (v % 2 ^ 32)))) } ∧
    (∀ h, NMap.get none s.dev.shadow (pathIx p) = some (off, h) →
      exec (.counterHighHalfRead p (off + 4)) s =
        .next { s with dev := settle s.dev (emit d (.ctl p 0 (.ofNat 64 h))) })

/-! ## The Toll (02 R43-R58, R73, R74; 17 R533, R535, R545) -/

/-- TOLL COMMAND ROWS (02 R50, R52, R73). A write of a command to TOLL_CMD while no command is pending either completes at once with
the code of the first check that fails, or becomes the pending command, with the JOB field written and the four TOLL_DATA registers as
they stand; DONE and the last result are cleared. While a command is pending the write is discarded: LOST and the event CMD_LOST. (Choices
of the model that clauses rest on: logs 71, 127, 135 and 155.) -/
def Obligations.TollRowsStartTheirCommand : Prop :=
  ∀ (s : State) (p : Path) (bank : Nat) (job : BitVec 12), bank < 2 →
    Reaches s.dev p (pg 0x20 bank + 0x120) ⟨0x20, bank, 0⟩ →
    let d := dropHalves s.dev p
    let data (k : Nat) : Word := .ofNat 64 (reg d (pg 0x20 0 + 0x100 + 8 * k))
    let start (op : TollOp) (j : Nat) : Dev :=
      if d.toll.pending.isSome then raise { d with toll.lost := true } (pg 0x20 0) 3
      else
        let d1 : Dev := { d with toll.done := false, toll.result := 0, toll.slot := 0 }
        let c : TollPending := { op := op, job := j, d0 := data 0, d1 := data 1, d2 := data 2, d3 := data 3 }
        if tollCode d1 c = cOK then cross { d1 with toll.pending := some c } 0 1 .update 0
        else { d1 with toll.pending := none, toll.walkWait := false, toll.done := true, toll.result := tollCode d1 c }
    exec (.tollInsert p bank) s = .next (written s p (start .insert 0)) ∧
    exec (.tollModify p bank) s = .next (written s p (start .modify 0)) ∧
    exec (.tollRevoke p bank) s = .next (written s p (start .revoke 0)) ∧
    exec (.tollOffer p bank job) s = .next (written s p (start .offer job.toNat)) ∧
    exec (.tollAccept p bank job) s = .next (written s p (start .accept job.toNat)) ∧
    exec (.tollCancel p bank) s = .next (written s p (start .cancel 0)) ∧
    exec (.tollRead p bank) s = .next (written s p (start .read 0)) ∧
    exec (.jobWrite p bank job) s = .next (written s p (start .jobWrite job.toNat))

/-- TAKE-EFFECT POINT (02 R50, R51, R53, R56, R58; 17 R533, R545). The pending command takes effect on both banks' tables at once:
INSERT adds the extent its data words spell, JOB_WRITE replaces the job entry, OFFER and CANCEL change the ferry token of the extent,
READ shows the entry in the TOLL_DATA registers; the command is then DONE with OK. A command that no longer passes its checks is DONE
with their code; with none pending nothing happens. (REVOKE, ACCEPT and MODIFY: the next statement.) (Choices of the model that clauses rest
on: logs 71, 135 and 155.) -/
def Obligations.TollTakeEffectChangesTheTables : Prop :=
  ∀ s : State,
    let d := s.dev
    let ends (d : Dev) (c : Nat) : Dev :=
      { d with toll.pending := none, toll.walkWait := false, toll.done := true, toll.result := c }
    (d.toll.pending = none → exec .tollTakeEffect s = .next (goingOn s d)) ∧
    (∀ p, d.toll.pending = some p → d.toll.walkWait = false →
      (tollCode d p ≠ cOK → exec .tollTakeEffect s = .next (goingOn s (ends d (tollCode d p)))) ∧
      (tollCode d p = cOK →
        let base := fld p.d1.toNat 21 27
        (p.op = .insert → exec .tollTakeEffect s = .next (goingOn s (ends (insertExt d (rawEntry p).e) cOK))) ∧
        (p.op = .jobWrite →
          exec .tollTakeEffect s = .next (goingOn s (ends { d with toll.jobs := NMap.set {} d.toll.jobs p.job (jobEntry p) } cOK))) ∧
        (p.op = .offer → exec .tollTakeEffect s = .next (goingOn s (ends (onExt d base (fun x =>
          { x with token := .offered, receiver := p.job, offeredAt := d.sys.ltc })) cOK))) ∧
        (p.op = .cancel → exec .tollTakeEffect s = .next (goingOn s (ends (onExt d base (fun x => { x with token := .owned })) cOK))) ∧
        (∀ x, p.op = .read → extOf d base = some x →
          exec .tollTakeEffect s = .next (goingOn s (ends ((entryWords x).zipIdx.foldl
            (fun d v => setReg d (pg 0x20 0 + 0x100 + 8 * v.2) v.1) d) cOK)))))

/-- REVOKE, ACCEPT AND MODIFY at their take-effect point (02 R51, R53, R56). REVOKE of an extent that is neither revoking nor being
moved takes a revocation slot for it and marks it revoking. ACCEPT of an offered extent takes a slot for the handover and lets the
owner's requests drain. Either is then DONE. MODIFY changes only the guest, the guest's rights and the owner's write right. The directory
lists nothing, no accumulator is open and no snapshot slot is held here: the walks they start are the subject of 05. (Choices of the model
that clauses rest on: logs 71, 72, 135 and 153.) -/
def Obligations.TollRevocationAndHandoverMarkTheExtent : Prop :=
  ∀ (s : State) (p : TollPending) (x : Extent),
    let d := s.dev
    let base := fld p.d1.toNat 21 27
    d.toll.pending = some p → d.toll.walkWait = false → tollCode d p = cOK → extOf d base = some x →
    d.toll.slots.length = 16 → d.quay.dir = [] → d.quay.accums = [] → d.flying = [] → d.quay.trans = [] →
    (p.op = .revoke → x.revoking = false → x.moving = false → x.token = .owned →
      ∃ t, exec .tollTakeEffect s = .next (goingOn s t) ∧ extOf t base = some { x with revoking := true } ∧ t.toll.done = true ∧
        t.toll.result = cOK ∧ (d.toll.slots.getD t.toll.slot {}).busy = false ∧
        t.toll.slots.getD t.toll.slot {} = { busy := true, handover := false, base := x.e.base, since := d.sys.ltc }) ∧
    (p.op = .accept →
      ∃ t, exec .tollTakeEffect s = .next (goingOn s t) ∧ extOf t base = some { x with token := .draining } ∧ t.toll.done = true ∧
        t.toll.result = cOK ∧ (d.toll.slots.getD t.toll.slot {}).busy = false ∧
        t.toll.slots.getD t.toll.slot {} = { busy := true, handover := true, base := x.e.base, since := d.sys.ltc }) ∧
    (p.op = .modify →
      ∃ t, exec .tollTakeEffect s = .next (goingOn s t) ∧ extOf t base = some { x with e := { x.e with
        guestJob := (rawEntry p).e.guestJob, guestRights := (rawEntry p).e.guestRights, ownerWr := (rawEntry p).e.ownerWr } })

/-- THE END OF A DRAIN, AND THE TOLL'S TIMERS (02 R53, R54, R57, R58; 17 R535). Once no request that passed the Toll is in flight on the
extent and its walk is over (no transaction, directory entry or accumulator of it is left), REVOKE_COMPLETE frees the slot, drops the extent's
pins and its entry, and lets its key go; HANDOVER_COMPLETE frees the slot and makes the receiver the owner, with write rights and no guest.
Neither leaves a read-side cache entry of the extent. Before that, either only goes on with the walk. DRAIN_WARN is raised once per drain,
with the extent's global address; FERRY_TIMEOUT returns an offered token to its owner. Each timer takes place at its LTC (log 1). (Choices
of the model that clauses rest on: logs 18 and 112.) -/
def Obligations.DrainsEndAndTollTimersExpire : Prop :=
  (∀ (s : State) (base : Nat) (x : Extent),
    let d := s.dev
    extOf d base = some x →
    (x.token = .offered →
      exec (.ferryTimeout base) s = .next (goingOn s (raiseFe
        (onExt { d with sys.ltc := max d.sys.ltc (x.offeredAt + reg d (pg 0x20 0 + 0x140)) } base (fun x => { x with token := .owned }))
        (pg 0x20 (extBank x)) 1
        { unit := false, addr := d.xmap.node * 2 ^ 48 + base * 2 ^ 21, job := x.e.ownerJob }))) ∧
    (x.token ≠ .offered → exec (.ferryTimeout base) s = .next (goingOn s d))) ∧
  ∀ (s : State) (k : Nat) (x : Extent) (sl : RvkSlot),
    let d := s.dev
    d.toll.slots[k]? = some sl → sl.busy = true → extOf d sl.base = some x →
    let drained : Prop := (∀ f ∈ d.flying, f.base = sl.base → passedToll f = false) ∧ (∀ t ∈ d.quay.trans, inWindow x t.line = false) ∧
      (∀ e ∈ d.quay.dir, inWindow x e.line = false) ∧ accumsOfExt d x = []
    let freed : Dev := { accrue d x.e.berth with toll.slots := modAt (fun _ => {}) d.toll.slots k }
    (¬ drained →
      (sl.handover = false → exec (.revokeComplete k) s = .next (goingOn s (startWalk d x))) ∧
      (sl.handover = true → exec (.handoverComplete k) s = .next (goingOn s (startWalk d x)))) ∧
    (sl.handover = false → drained →
      exec (.revokeComplete k) s = .next (goingOn s
        { freed with
          quay.cache := d.quay.cache.filter (fun c => !covers x c.offset)
          tiers.pins := d.tiers.pins.filter (fun p => p.base != sl.base)
          toll.extents := d.toll.extents.filter (fun y => y.e.base != sl.base)
          cust.keys := if x.e.encrypt then
              let key := NMap.get {} d.cust.keys x.e.keySlot
              NMap.set {} d.cust.keys x.e.keySlot { key with refs := key.refs - 1 }
            else d.cust.keys })) ∧
    (sl.handover = true → drained →
      ∃ t, exec (.handoverComplete k) s = .next (goingOn s t) ∧ t.toll.slots = freed.toll.slots ∧ (∀ c ∈ t.quay.cache, covers x c.offset = false) ∧
        extOf t sl.base = some { x with token := .owned, e := { x.e with
          ownerJob := x.receiver, ownerWr := true, guestJob := 0, guestRights := 0 } }) ∧
    (sl.warned = false →
      exec (.drainWarn k) s = .next (goingOn s (raiseFe
        { d with sys.ltc := max d.sys.ltc (sl.since + reg d (pg 0x20 0 + 0x148) + 1)
                 toll.slots := modAt (fun s => { s with warned := true }) d.toll.slots k }
        (pg 0x20 (extBank x)) 0 { unit := false, addr := d.xmap.node * 2 ^ 48 + sl.base * 2 ^ 21 }))) ∧
    (sl.warned = true → exec (.drainWarn k) s = .next (goingOn s d))

/-! ## The Crossing map and the rings (02 R39-R42, R59-R72, R75; 17 R536-R541) -/

/-- CROSSING MAP ROWS AND MAP EPOCHS (02 R39, R60-R66, R75; 17 R536, R537, R539, R540). XMAP_NODE is written once. COMMIT checks the staged map and
either is DONE with the code of the check that fails or makes it the pending map at its COMMIT_AT; SET_EPOCH commits with the epoch written; a
commit while one is pending is LOST; DISCARD restores the staged map; RDATA3 applies the ring's four words. At its take-effect point the pending
map becomes the current one; the epoch rises by 1 modulo 65,536 and the old one stays resolvable, or it is set and no earlier one stays. Of the
earlier epochs that no request which passed the Toll carries, the oldest retires when its grace has passed, with every other whose grace
has. (Choices of the model that clauses rest on: logs 20, 94, 118 and 135.) -/
def Obligations.CrossingMapRowsAndEpochs : Prop :=
  (∀ (s : State) (p : Path) (bank : Nat) (v : BitVec 32) (w : BitVec 64) (e : BitVec 16), bank < 2 →
     (∀ o ∈ [0x100, 0x138, 0x180], Reaches s.dev p (pg 0x21 bank + o) ⟨0x21, bank, 0⟩) →
     let d := dropHalves s.dev p
     let commit (set : Option Nat) : Dev :=
       if d.xmap.pending.isSome then { d with xmap.lost := true }
       else if (checkMap d set.isSome).1 = cOK then
         { d with xmap.done := false
                  xmap.pending := some { map := (checkMap d set.isSome).2, commitAt := reg d (pg 0x21 0 + 0x110), setEpoch := set } }
       else { d with xmap.done := true, xmap.result := (checkMap d set.isSome).1 }
     exec (.xmapNodeWrite p bank v) s = .next (written s p
       (if d.xmap.nodeValid then d else { d with xmap.node := v.toNat % 2 ^ 14, xmap.nodeValid := v.getLsbD 31 })) ∧
     exec (.xmapCommit p bank) s = .next (written s p (commit none)) ∧
     exec (.xmapSetEpoch p bank e) s = .next (written s p (commit (some e.toNat))) ∧
     exec (.xmapDiscard p bank) s = .next (written s p
       { d with xmap.staged := match d.xmap.pending with | some c => c.map.berths | none => d.xmap.current.berths }) ∧
     exec (.ringApply p bank w) s = .next (written s p (applyRdata (stageRdata d 3 w.toNat)))) ∧
  (∀ s : State,
     let d := s.dev
     (d.xmap.pending = none → exec .mapTakeEffect s = .next (goingOn s d)) ∧
     (∀ c, d.xmap.pending = some c →
       ∃ t, exec .mapTakeEffect s = .next (goingOn s t) ∧ t.xmap.current = c.map ∧ t.xmap.pending = none ∧ t.xmap.done = true ∧ t.xmap.result = cOK ∧
         t.sys.ltc = max d.sys.ltc c.commitAt ∧
         (c.setEpoch = none → t.xmap.epoch = (d.xmap.epoch + 1) % 65536 ∧
           t.xmap.old = { epoch := d.xmap.epoch, since := max d.sys.ltc c.commitAt, berths := d.xmap.current.berths } :: d.xmap.old) ∧
         (∀ n, c.setEpoch = some n → t.xmap.epoch = n ∧ t.xmap.old = [])) ∧
     (let grace := 1024 * reg d (pg 0x21 0 + 0x118)
      let carried (m : OldMap) : Bool := d.flying.any (fun f => f.q.h.epoch.toNat == m.epoch && passedToll f)
      let free := d.xmap.old.filter (fun m => !carried m)
      (∀ l m, free = l ++ [m] →
        let now := max d.sys.ltc (m.since + grace)
        exec .epochRetire s = .next (leaving s
          { d with sys.ltc := now, xmap.old := d.xmap.old.filter (fun m => carried m || decide (now < m.since + grace)) })) ∧
      (free = [] → exec .epochRetire s = .next (leaving s d))))

/-- LAYOUTS AND THE ORDER OF REFUSALS (02 R68, R70; 00 R21). The fields of a descriptor lie in its 64 bytes where the table of R68 places them. A
completion record is 16 bytes: DESC_ID, STATUS, PHASE and SV in its first word, then DONE, FIRST_FAIL and SV_REF, 4 bytes each; PHASE is 1 on
the even passes of the ring, the first being pass 0. When several whole-descriptor refusals apply at once, the record carries the first that
applies in the order ABORTED, FENCED, ACCESS_DENIED, ACCESS_REVOKED, MAP_STALE, UNSUPPORTED, LENGTH, DEGRADED_REFUSED, BUSY_RETRY, with 0 items
done and a first failed index of 0, and no status vector. (Choices of the model that clauses rest on: log 91.) -/
def Obligations.DescriptorLayoutsAndTheOrderOfRefusals : Prop :=
  (∀ (r : DescRef) (l : List Byte) (g : Ring) (x : Desc),
     (let y := descOfBytes r l
      y.r = r ∧ y.raw = l ∧ y.id = leAt l 0 2 ∧ y.engine = leAt l 2 1 ∧ y.opcode = leAt l 3 1 ∧ y.job = leAt l 4 2 % 4096 ∧
      y.sv = (leAt l 4 2).testBit 12 ∧ y.notify = (leAt l 4 2).testBit 13 ∧ y.order = (leAt l 4 2).testBit 14 ∧
      y.epoch = leAt l 6 2 ∧ y.tide = leAt l 8 4 ∧ y.count = leAt l 12 4 ∧ y.svRef = leAt l 16 4) ∧
     (let b := recordBytes g x
      b.length = 16 ∧ leAt b 0 2 = x.id % 2 ^ 16 ∧ leAt b 2 1 = recordStatus x % 256 ∧
      (leAt b 3 1).testBit 0 = decide (x.r.index / 2 ^ g.log2Size % 2 = 0) ∧ (leAt b 3 1).testBit 1 = hasVector x ∧
      leAt b 3 1 < 4 ∧
      leAt b 4 4 = (if x.refused.isSome then 0 else ((itemCodes x).filter (fun c => c == cOK)).length % 2 ^ 32) ∧
      leAt b 12 4 = if hasVector x then x.svRef % 2 ^ 32 else 0)) ∧
  (∀ (g : Ring) (x : Desc) (codes : List Nat) (c : Nat), firstRefusal codes = some c →
     let order : List Nat := [0x0F, 0x03, 0x04, 0x05, 0x09, 0x0D, 0x07, 0x0E, 0x0C]
     c ∈ codes ∧ ((∃ e ∈ codes, e ∈ order) → ∃ before after, order = before ++ c :: after ∧ ∀ e ∈ before, e ∉ codes) ∧
     (let b := recordBytes g { x with refused := some c }
      leAt b 2 1 = c ∧ leAt b 4 4 = 0 ∧ leAt b 8 4 = 0 ∧ leAt b 12 4 = 0 ∧ (leAt b 3 1).testBit 1 = false))

/-- DESCRIPTOR_FETCH (02 R68, R69, R71; 00 R21). A ring that is enabled, not stopped and has a descriptor rung fetches the next slot
under its own job and that job's tide. What was read is admitted with the fetched index moved on, or refused whole with the first refusal
that applies, unless its engine may find one that comes before it; a read that fails stops the ring with the code and the slot, and the
event; one that must wait leaves the fetch to come again (log 1). Otherwise nothing is fetched. (Choices of the model that clauses rest on:
logs 55, 91, 110 and 125.) -/
def Obligations.DescriptorFetchAdmitsRefusesOrStops : Prop :=
  ∀ (s : State) (berth ring : Nat),
    let d := s.dev
    let g := ringOf d berth ring
    let r : DescRef := { berth := berth, ring := ring, index := g.gen * 2 ^ 32 + g.fetched }
    let blank : Desc := { r := r, id := 0, engine := 0, opcode := 0, job := g.job, sv := false, notify := false, order := false,
                          count := 0, svRef := 0, tide := 0, epoch := 0, raw := [], phase := .fetching }
    let slot := r.index % 2 ^ g.log2Size
    (bankLive d (bankOfBerth berth) = false ∨ g.enable = false ∨ g.stopped = true ∨ g.fetched = g.producer →
      exec (.descriptorFetch berth ring) s = .next (goingOn s d)) ∧
    (bankLive d (bankOfBerth berth) = true → g.enable = true → g.stopped = false → g.fetched ≠ g.producer → descOf d r = none →
      ∀ (a : Got) (t : Dev),
        engRead r fetchKey g.job (jobOf d g.job).tide d.xmap.node (g.descBase + slot * 64) 64 (addDesc d blank) = (a, t) →
        (a = .wait → exec (.descriptorFetch berth ring) s = .next (goingOn s t)) ∧
        (∀ c, a = .fail c →
          let t1 := dropDesc t r
          let h := ringOf t1 berth ring
          exec (.descriptorFetch berth ring) s = .next (goingOn s
            (raiseFe (setRing t1 berth ring { h with stopped := true, code := c, slot := r.index % 2 ^ h.log2Size })
              (pg 0x21 (bankOfBerth berth)) 1 { unit := true, addr := berth * 64 + ring, code := c })) ∧
          t1.descs = t.descs.filter (fun x => x.r != r) ∧ t1.xmap = t.xmap) ∧
        (∀ l, a = .ok l →
          let x := descOfBytes r l
          let codes := seqRefusals t x
          let t1 := setRing (onDesc t r (fun _ => { x with qsets := (berthOf t berth).qsets, pre := codes })) berth ring
            { ringOf t berth ring with fetched := (r.index + 1) % 2 ^ 32 }
          (firstRefusal codes = none → exec (.descriptorFetch berth ring) s = .next (goingOn s t1)) ∧
          (∀ c, firstRefusal codes = some c →
            (engineDecides x = true → c ≠ 0x0F → c ≠ 0x03 → c ≠ 0x04 → exec (.descriptorFetch berth ring) s = .next (goingOn s t1)) ∧
            (engineDecides x = false ∨ c = 0x0F ∨ c = 0x03 ∨ c = 0x04 → c ≠ 0x09 →
              exec (.descriptorFetch berth ring) s = .next (goingOn s (onDesc t1 r (fun x => { x with phase := .finished, refused := some c })))))))

/-- RING CONTROL AND COMPLETION (02 R69-R72; 01 R36). A no-op that may start ends at once. A completion whose record has been
acknowledged moves the ring's consumer index past the slot, and the descriptor is gone; a record or a status vector that failed stops the
ring with its code, and the record of a failed vector is not written. (The descriptor here is the oldest of its ring, with no
notification, and no other configuration has been applied to the ring since its fetch.) (Choices of the model that clauses rest on: logs 94,
125 and 154.) -/
def Obligations.RingControlAndCompletion : Prop :=
  ∀ (s : State) (r : DescRef) (x : Desc),
    let d := s.dev
    let g := ringOf d r.berth r.ring
    descOf d r = some x → x.r = r → NMap.wf {} d.xmap.rings = true →
    ((x.phase = .running ∨ (x.phase = .admitted ∧ startable d x = true)) → x.engine = 0x01 → x.opcode = 0 →
      exec (.ringControlNoop r) s = .next (goingOn s (onDesc d r (fun x => { x with phase := .finished, inbox := [] })))) ∧
    (x.phase ≠ .finished ∨ descBusy d r = true → exec (.descriptorComplete r) s = .next (goingOn s d)) ∧
    (x.phase = .finished → descBusy d r = false → bankLive d (bankOfBerth r.berth) = true → x.cfg = none →
      (x.stage = 2 → NMap.get 0 x.statuses recordKey = cOK → x.notify = false → g.consumer = r.index % 2 ^ 32 → g.recorded = [] →
        ∃ t, exec (.descriptorComplete r) s = .next (goingOn s t) ∧ descOf t r = none ∧
          ringOf t r.berth r.ring = { g with consumer := (g.consumer + 1) % 2 ^ 32 } ∧ t.tiers.mem = d.tiers.mem) ∧
      (∀ key, (x.stage = 2 ∧ key = recordKey) ∨ (x.stage = 1 ∧ key = vectorKey) → NMap.get 0 x.statuses key ≠ cOK →
        ∃ t, exec (.descriptorComplete r) s = .next (goingOn s t) ∧ descOf t r = none ∧
          ringOf t r.berth r.ring = { g with stopped := true, code := NMap.get 0 x.statuses key, slot := r.index % 2 ^ g.log2Size }))

/-- DOORBELLS (02 R67; 17 R540). A store whose bits 63 to 32 are 0 sets the ring's producer index where the value lies between the current
count and the size, counted from the consumer index modulo 2^32, and the ring is enabled; any other value sets DB_BAD, raises the event and
leaves the producer index. The store is answered OK either way. (Choices of the model that clauses rest on: logs 17, 23, 47, 73 and 127.) -/
def Obligations.DoorbellStoreRingsItsRing : Prop :=
  ∀ (s : State) (n : Nat) (h : Hdr) (l : List Byte) (b r : Nat) (dt : Dev),
    let q : Req := { op := .wr, origin := .landing n, h := h, data := l }
    Landed s.dev n q → doorbellAt h.offset.toNat = some (b, r) → tollSays s.dev n q = (.pass none, dt) →
    (farePass dt .wr h).1 ≠ .red → tchkBad q = false →
    let m := meterRx (misroute (farePass dt .wr h).2 n (some b) h.epoch.toNat h.offset.toNat) (some b) (reqSlots .wr h * 16)
    let t := cross m (n / 8) (bankOfBerth b) .doorbell h.tc.toNat
    m.sys.westHeld = false ∨ b < 128 →
    let g := ringOf t b r
    let v := leAt l 0 8
    let ok := v < 2 ^ 32 ∧ g.enable = true ∧ (g.producer + 2 ^ 32 - g.consumer) % 2 ^ 32 ≤ (v + 2 ^ 32 - g.consumer) % 2 ^ 32 ∧
      (v + 2 ^ 32 - g.consumer) % 2 ^ 32 ≤ 2 ^ g.log2Size
    ∃ u, exec (.doorbellStore n h l) s = .next (goingOn s
        (answerReq u { q with yellow := (farePass dt .wr h).1 == .yellow } (bankOfBerth b) none
          (if n / 8 = bankOfBerth b then 17 else 9) cOK [])) ∧
      (ok → u = setRing t b r { g with producer := v }) ∧
      (¬ ok → u = raiseFe (setRing t b r { g with dbBad := true }) (pg 0x21 (bankOfBerth b)) 0 { unit := true, addr := b * 64 + r })

/-! ## Memory requests (01 R34, R35; 02 R48; 03; 04; 05; 11 R355-R361) -/

/-- THE TOLL'S TESTS (02 R48, R65, R73; 14 R441). Of a request to memory that is not protection traffic, test 6 comes first, then tests 1
to 5 in ascending order, and the code is that of the first test that fails, except that MAP_STALE stands in place of BUSY_RETRY where test
5 fails as well; a device that has fenced itself out answers FENCED to all but the management class (that FENCED comes before test 6 is
the model's: log 134). What the Toll counts and records on the way changes no answer. (Choices of the model that clauses rest on: log 144.) -/
def Obligations.TollTestsComeInOrder : Prop :=
  ∀ (d : Dev) (bank : Nat) (op : Op) (h : Hdr), (∀ x, extAt d h.offset.toNat = some x → protTide d x h.src.toNat = none) →
    let j := jobOf d h.job.toNat
    let stale := epochIs d h.epoch.toNat ≠ .resolvable
    let verdict := (tollCheck d bank op h false).1
    let fenced : Prop := d.salv.fencedOut = true ∧ h.tc ≠ 0
    (fenced → verdict = .refuse 0x03) ∧
    (¬ fenced → d.xmap.nodeValid = false → verdict = .refuse 0x0C) ∧
    (¬ fenced → d.xmap.nodeValid = true →
      (h.node.toNat ≠ d.xmap.node ∨ acceptsEp j h.src.toNat = false → verdict = .refuse 0x04) ∧
      (h.node.toNat = d.xmap.node → acceptsEp j h.src.toNat = true →
        (h.tide.toNat ≠ j.tide → verdict = .refuse 0x03) ∧
        (h.tide.toNat = j.tide → op = .acquire → verdict = if epochIs d h.epoch.toNat = .resolvable then .pass none else .refuse 0x09) ∧
        (h.tide.toNat = j.tide → op ≠ .acquire →
          (test3 d op h = none → verdict = .refuse 0x04) ∧
          (∀ x, test3 d op h = some x →
            (test4 x h.job.toNat = .refuse 0x05 → verdict = .refuse 0x05) ∧
            (test4 x h.job.toNat = .refuse 0x0C → verdict = .refuse (if epochIs d h.epoch.toNat = .resolvable then 0x0C else 0x09)) ∧
            (test4 x h.job.toNat = .held → verdict = .held x) ∧
            (test4 x h.job.toNat = .pass → (stale → verdict = .refuse 0x09) ∧ (¬ stale → verdict = .pass (some x)))))))

/-- REQUESTS (02 R48; 03 R106; 08 R275). A request that the Toll refuses is answered with its code, charged to no berth, and performed nowhere; one
to an extent held at a switch waits before test 4. One that passes the Toll, the Fare meter, the home's credits and the end-to-end check, and
that nothing at its home stands in the way of, is performed there by its operation, and by nothing else: every memory command. (Choices of
the model that clauses rest on: logs 8, 23, 50 and 73.) -/
def Obligations.RequestsStopAtTheTollOrAreServedAtHome : Prop :=
  (∀ (c : Instr) (s : State) (n : Nat) (q : Req), requestOf c = some (n, q) → Landed s.dev n q →
     let r := tollSays s.dev n q
     (∀ code, r.1 = .refuse code → exec c s = .next (goingOn s (refuseReq r.2 q code))) ∧
     (∀ x, r.1 = .held x → x.moving = false →
       exec c s = .next (goingOn s (addFlying r.2 { id := 0, q := q, entry := n / 8, homeBank := extBank x, base := x.e.base, wait := .hold r.2.sys.ltc })))) ∧
  (∀ (n : Nat) (h : Hdr) (l : List Byte) (s : State) (q : Req) (x : Extent) (dt : Dev),
     ∀ c ∈ ([.rd n h, .wr n h l, .atomic n h l, .homeAtomic n h l, .publish n h l, .flush n h, .eadd n h l, .rdShared n h, .rdOwn n h,
       .upgrade n h, .wb n h l, .evictClean n h, .doorbellStore n h l, .acquire n h] : List Instr),
     requestOf c = some (n, q) → Landed s.dev n q → tollSays s.dev n q = (.pass (some x), dt) → Onward dt n q x →
     Unhindered (homeDev dt n q x) (atHome dt n q x) x →
     exec c s = .next (goingOn s (performOp (homeDev dt n q x) (atHome dt n q x) x false)))

/-- LOADS AND STORES at their home (03 R87, R97, R100, R112; 01 R35). A load of a near or stack extent, of a tile of a ZERO extent not yet
written or of a staged flash tile is answered with the code and the bytes read, which fill the read-side cache where it may hold them
and no engine has asked; one from unstaged flash waits in the Tow's wait table, and so does a store that finds the flash staging area
full. A load of a member of the extent's pair or convoy is answered with the bytes as they are stored (14 R449; 15 R475). A store to an extent
of no protection, other than part of a tile that is encrypted in host memory, is performed at once and waits for its acknowledgement; one
that fails is answered its code, and nothing is stored. (Choices of the model that clauses rest on: logs 5, 8, 18, 58, 64, 69, 144, 147 and
158.) -/
def Obligations.LoadsAndStoresAtTheirHome : Prop :=
  ∀ (d : Dev) (f : Flying) (x : Extent),
    let q := f.q
    let off := q.h.offset.toNat
    let n := lenOf q.h
    let cell := extCell d x (off / 256 * 256)
    (q.op = .rd → q.h.acq = false → memberRead d x q = false →
      (x.e.tier = .near ∨ x.e.tier = .stack ∨ zeroTile x off = true ∨
        (x.e.tier = .flash ∧ d.tiers.staged.any (fun t => t.addr == cell) = true)) →
      let r := readPlain d x (accOf q x) off n
      let fills := r.1 = cOK ∧ isEngine q = false
      performOp d f x false =
        finishFlying (if fills then fillCache r.2.2 x f.entry q.h.job.toNat off n else r.2.2) f r.1 r.2.1) ∧
    (q.op = .rd → q.h.acq = false → memberRead d x q = true → x.e.tier = .near ∨ x.e.tier = .stack →
      let r := readPlain d { x with e := { x.e with encrypt := false } } (accOf q x) off n
      performOp d f x false = finishFlying r.2.2 f r.1 r.2.1) ∧
    (q.op = .rd → x.e.tier = .flash → zeroTile x off = false → d.tiers.staged.any (fun t => t.addr == cell) = false →
      (d.flying.filter (inTable f.homeBank)).length < 16384 → performOp d f x false = setWait d f.id (.tier d.sys.ltc false)) ∧
    (q.op = .wr → x.e.tier = .flash → stageRoom d f.homeBank cell = false → inTable f.homeBank f = false →
      (d.flying.filter (inTable f.homeBank)).length < 16384 → flyingOf d f.id = some f →
      performOp d f x false = stall (setWait d f.id (.stage d.sys.ltc false)) x.e.berth 4 0) ∧
    (q.op = .wr → isOwn q = false → isProtection d x = false → targetsOf d x = [] → missingTile x off = false →
      (x.e.tier = .flash → stageRoom d f.homeBank cell = true) → needsHost d f x = false →
      let w := writePlain d x (accOf q x) off (sub q.data 0 n)
      (w.1 = cOK → performOp d f x false = setWait w.2 f.id (.ack cOK [])) ∧
      (w.1 ≠ cOK → performOp d f x false = finishFlying w.2 f w.1 []))

/-- NEAR MEMORY KEEPS WHAT IS WRITTEN. A write that is answered OK to an extent of the near store, unencrypted and not of ZERO, puts its
bytes at the cells of the extent and changes no other cell; a read of the same bytes then gives them. (Choices of the model that clauses
rest on: log 5.) -/
def Obligations.NearStoreReadsBackWhatWasWritten : Prop :=
  ∀ (d : Dev) (x : Extent) (a b : Acc) (off : Nat) (l : List Byte),
    x.e.tier = .near → x.e.encrypt = false → x.e.zero = false → 0 < l.length → off % 256 + l.length ≤ 256 →
    let tile := extCell d x (off / 256 * 256)
    Memory.wf d.tiers.mem = true → tile % 256 = 0 → tile + 256 ≤ 2 ^ 40 → (writePlain d x a off l).1 = cOK →
    let t := (writePlain d x a off l).2
    let c := tile + off % 256
    (∀ i, i < l.length → NMap.get 0 t.tiers.mem (c + i) = l.getD i 0) ∧
    (∀ k, k < c ∨ c + l.length ≤ k → NMap.get 0 t.tiers.mem k = NMap.get 0 d.tiers.mem k) ∧
    Memory.wf t.tiers.mem = true ∧
    ((∀ g ∈ granulesIn tile (off % 256) l.length, poisoned t g = false ∧ faulty t g = false) →
      (readPlain t x b off l.length).1 = cOK ∧ (readPlain t x b off l.length).2.1 = l)

/-- ATOMICS AND PUBLISH (04 R137, R139, R142, R144). The value each operation leaves, FADD apart, for an old operand, an operand and a second one
of `w` bytes. At its home an atomic is answered with the old operand, and the location then holds the operation's value; a CAS that does not
match writes nothing. A PUBLISH whose word equals the expected value writes the new value and is answered OK; any other is answered
VERSION_CONFLICT with the word's value, and writes nothing. Extents of no protection here. (Choices of the model that clauses rest on: logs
8 and 67.) -/
def Obligations.AtomicsFollowTheirTableAndReturnTheOldOperand : Prop :=
  (∀ (w : Nat) (old a b : Nat), (w = 4 ∨ w = 8 ∨ w = 16) → old < 2 ^ (8 * w) → a < 2 ^ (8 * w) → b < 2 ^ (8 * w) →
     let signed (v : Nat) : Int := (BitVec.ofNat (8 * w) v).toInt
     atomicNew 0 w old a b = some a ∧
     atomicNew 1 w old a b = (if old = a then some b else none) ∧
     atomicNew 2 w old a b = some ((BitVec.ofNat (8 * w) old + BitVec.ofNat (8 * w) a).toNat) ∧
     (∃ v, atomicNew 4 w old a b = some v ∧ (v = old ∨ v = a) ∧ signed v ≤ signed old ∧ signed v ≤ signed a) ∧
     (∃ v, atomicNew 5 w old a b = some v ∧ (v = old ∨ v = a) ∧ signed old ≤ signed v ∧ signed a ≤ signed v) ∧
     atomicNew 6 w old a b = some (min old a) ∧ atomicNew 7 w old a b = some (max old a) ∧
     atomicNew 8 w old a b = some ((BitVec.ofNat (8 * w) old &&& BitVec.ofNat (8 * w) a).toNat) ∧
     atomicNew 9 w old a b = some ((BitVec.ofNat (8 * w) old ||| BitVec.ofNat (8 * w) a).toNat) ∧
     atomicNew 10 w old a b = some ((BitVec.ofNat (8 * w) old ^^^ BitVec.ofNat (8 * w) a).toNat)) ∧
  (∀ (d : Dev) (f : Flying) (x : Extent), targetsOf d x = [] →
     let q := f.q
     let off := q.h.offset.toNat
     let w := lenOf q.h
     (q.op = .atomic → let r := readPlain d x (accOf q x) off w
       r.1 = cOK →
       (atomicNew q.h.aux.toNat w (leNat r.2.1) (leAt q.data 0 w) (leAt q.data w w) = none →
         (q.h.scope ≠ 2 ∨ q.home = true → performOp d f x false = finishFlying r.2.2 f cOK r.2.1) ∧
         (q.h.scope = 2 → q.home = false → performOp d f x false =
           finishFlying (cacheDrop r.2.2 (fun c => c.offset / 256 == off / 256)) f cOK r.2.1)) ∧
       (∀ v, atomicNew q.h.aux.toNat w (leNat r.2.1) (leAt q.data 0 w) (leAt q.data w w) = some v →
         let t := writePlain r.2.2 x (accOf q x) off (leBytes w v)
         (t.1 = cOK → (q.h.scope ≠ 2 ∨ q.home = true → performOp d f x false = finishFlying t.2 f cOK r.2.1) ∧
           (q.h.scope = 2 → q.home = false → performOp d f x false =
             finishFlying (cacheDrop t.2 (fun c => c.offset / 256 == off / 256)) f cOK r.2.1)) ∧
         (t.1 ≠ cOK → performOp d f x false = finishFlying t.2 f t.1 []))) ∧
     (q.op = .publish → let r := readPlain d x (accOf q x) off 8
       r.1 = cOK →
       (leNat r.2.1 ≠ leAt q.data 0 8 → performOp d f x false = finishFlying r.2.2 f 0x08 r.2.1) ∧
       (leNat r.2.1 = leAt q.data 0 8 →
         let t := writePlain r.2.2 x (accOf q x) off (sub q.data 8 8)
         performOp d f x false = finishFlying t.2 f t.1 [])))

/-- EDDY ADDITIONS AND FLUSH at their home (05 R167-R169; 04 R126; 14 R436). An EADD to a granule with no accumulator opens one with
every element zero and is added in; one of the same format is added to it; one of another format, or while it is written back, waits for the
write-back. A granule that is poisoned refuses it. A FLUSH of a range with no accumulator is acknowledged at once; else it starts the
write-back of each and waits, and is acknowledged once all of them have been written back. (Choices of the model that clauses rest on: logs
8 and 138.) -/
def Obligations.EddyAdditionsAndFlush : Prop :=
  ∀ (d : Dev) (f : Flying) (x : Extent),
    let q := f.q
    let g := q.h.offset.toNat
    let fmt := eddyFmtOf q.h.fmt.toNat
    let adds := elemsOf (eddyWidth fmt) (sub q.data 0 64)
    let page := pg 0x41 f.homeBank
    (q.op = .eadd → zeroTile x g = true ∨ poisoned d (extCell d x g) = false →
      (accumAt d f.homeBank g = none → (accumsIn d f.homeBank).length < 32768 →
        let a : Accum := { bank := f.homeBank, offset := g, fmt := fmt, elems := adds.map (fun v => eddyAdd fmt 0 v), count := 1,
                           lastAdd := d.sys.ltc, order := d.quay.useCount }
        let d1 : Dev := { d with quay.accums := d.quay.accums ++ [a], quay.useCount := d.quay.useCount + 1 }
        performOp d f x false = finishFlying (count (count d1 page 0x808) page 0x800) f cOK []) ∧
      (∀ a, accumAt d f.homeBank g = some a →
        (a.writingBack = false → a.fmt = fmt →
          let d1 := accumMod { d with quay.useCount := d.quay.useCount + 1 } f.homeBank g (fun a => { a with
            elems := (a.elems.zip adds).map (fun p => eddyAdd fmt p.1 p.2), count := a.count + 1, lastAdd := d.sys.ltc,
            order := d.quay.useCount })
          performOp d f x false = finishFlying (count d1 page 0x800) f cOK []) ∧
        (a.writingBack = true ∨ a.fmt ≠ fmt → performOp d f x false = setWait (startWb d f.homeBank g [f.id]) f.id .quay))) ∧
    (q.op = .eadd → zeroTile x g = false → poisoned d (extCell d x g) = true → performOp d f x false = finishFlying d f cPOISON []) ∧
    (q.op = .flush → (∀ a ∈ d.quay.accums, a.bank = f.homeBank →
        ¬ (g / 256 * 256 ≤ a.offset ∧ a.offset < g / 256 * 256 + (q.h.range.toNat + 1) * 256)) →
      performOp d f x false = finishFlying d f cOK []) ∧
    (q.op = .flush →
      let l := d.quay.accums.filter (fun a => a.bank == f.homeBank && decide (g / 256 * 256 ≤ a.offset) &&
        decide (a.offset < g / 256 * 256 + (q.h.range.toNat + 1) * 256))
      let gs := l.foldl (fun s a => NSet.add s a.offset) []
      l ≠ [] →
        let t := l.foldl (fun d a => accumMod d a.bank a.offset (fun a => { a with writingBack := true })) d
        performOp d f x false = setWait { t with quay.flushes := t.quay.flushes ++ [{ id := f.id, granules := gs }] } f.id .quay) ∧
    (∀ e, d.quay.flushes = [e] → (e.granules ≠ [] → flushOn d = d) ∧
      (e.granules = [] → flyingOf d e.id = some f → flushOn d = finishFlying { d with quay.flushes := [] } f cOK []))

/-- CACHING REQUESTS at their home (05 R153, R156, R158). RD_SHARED of a line makes the agent a sharer and is answered with the data and a
SHARED grant; RD_OWN and an UPGRADE without a copy make it the owner, with data; an UPGRADE of a sharer's copy is granted with none. WB from
the owner stores its data and frees the line; EVICT_CLEAN takes the sharer out. A request that may be granted no copy is served plain.
(Choices of the model that clauses rest on: log 8.) -/
def Obligations.CachingRequestsMoveTheLine : Prop :=
  ∀ (d : Dev) (f : Flying) (x : Extent) (slot line : Nat),
    let q := f.q
    let off := q.h.offset.toNat
    let bank := f.homeBank
    x.e.moored = true →
    (grantable d f x = some (slot, line) → q.h.acq = false →
      (q.op = .rdShared → let r := readPlain d x (accOf q x) off (lenOf q.h)
        r.1 = cOK → performOp d f x false = finishFlying (grantShared r.2.2 bank line slot) f cOK r.2.1 1) ∧
      (q.op = .rdOwn → let r := readPlain d x (accOf q x) off (lenOf q.h)
        r.1 = cOK → performOp d f x false = finishFlying (grantOwned r.2.2 bank line slot) f cOK r.2.1 2) ∧
      (q.op = .upgrade → ∀ e, dirFind d bank line = some e → e.coarse = false → pointsTo e slot = true →
        performOp d f x false = finishFlying (grantOwned d bank line slot) f cOK [] 2) ∧
      (q.op = .upgrade → dirFind d bank line = none → let r := readPlain d x (accOf q x) (off / 64 * 64) 64
        r.1 = cOK → performOp d f x false = finishFlying (grantOwned r.2.2 bank line slot) f cOK r.2.1 2)) ∧
    (grantable d f x = none → q.op = .upgrade →
      performOp d f x false = finishFlying (count d (pg 0x40 bank) 0x828) f cOK []) ∧
    (q.op = .wb → isOwn q = false → f.taken = false → targetsOf d x = [] → ownsLine d f (lineOf x off) = true →
      let t := dirDrop d bank (lineOf x off)
      let w := writePlain t x (accOf q x) off (sub q.data 0 (lenOf q.h))
      performOp d f x false = finishFlying w.2 f w.1 []) ∧
    (q.op = .wb → f.taken = false → ownsLine d f (lineOf x off) = false →
      performOp d f x false = finishFlying (count d (pg 0x40 bank) 0x840) f cOK []) ∧
    (q.op = .evictClean → ∀ e l, grantSlot d q.h = some slot → dirFind d bank (lineOf x off) = some e → e.st = .shared →
      e.coarse = false → l = NSet.del e.sharers slot →
      performOp d f x false = finishFlying (if l = [] then dirDrop d bank (lineOf x off)
        else dirMod d bank (lineOf x off) (fun e => { e with sharers := l })) f cOK [])

/-- ACQUIRE, RD_COMB AND RESPONSES (04 R126; 11 R352, R355, R358, R359). A standalone ACQUIRE that passes the Toll drops every read-side
cache entry of its job in both banks and is answered. An RD_COMB, not marked, some constituent of which passes the Toll is performed once at
its home, on behalf of those that pass. A response to a read of a ring sequencer is metered to its berth and kept for its engine, the home
credits it states taken; one whose DST is no end point of the device is counted. (Choices of the model that clauses rest on: logs 19, 21, 23
and 50.) -/
def Obligations.AcquireCombinedReadAndResponse : Prop :=
  ∀ (s : State) (n : Nat) (h : Hdr) (others : List (BitVec 18 × BitVec 16)) (rsp : RspHdr) (data : List Byte),
    (∀ dt, let q : Req := { op := .acquire, origin := .landing n, h := h }
      Landed s.dev n q → tollSays s.dev n q = (.pass none, dt) → (farePass dt .acquire h).1 ≠ .red →
      let t := (farePass dt .acquire h).2
      exec (.acquire n h) s = .next (goingOn s
        (answerReq (count { t with quay.cache := t.quay.cache.filter (fun c => !(c.job == h.job.toNat)) } (pg 0x40 (n / 8)) 0x910)
          { q with yellow := (farePass dt .acquire h).1 == .yellow } (n / 8) none 17 cOK []))) ∧
    (let parts := (h.src.toNat, h.reqId.toNat) :: others.map (fun o => (o.1.toNat, o.2.toNat))
     let d1 := count (arrive s.dev n .rdComb h) (pgI 0x11 8 n) 0x848
     let d2 := others.foldl (fun d o => onLand d n (fun l => { l with
       accepted := l.accepted ++ [{ flit := l.rxFlits, src := o.1.toNat, reqId := o.2.toNat }] })) d1
     let q : Req := { op := .rdComb, origin := .comb n (parts.map (fun c => (c.1, c.2, .fresh))), h := h }
     let r := tollOf d2 q (n / 8)
     ∀ x, landOpen s.dev n = true → quiet s.dev = false → headerBad 0x18 h = false → (land s.dev n).gen2 = false →
       2 ≤ h.aux.toNat → h.aux.toNat ≤ 8 → others.length + 1 = h.aux.toNat → sharesSrc parts = false → h.mark = false →
       turnTaken d2 q = false → r.2.1 = .pass (some x) → Onward r.2.2 n r.1 x →
       Unhindered (homeDev r.2.2 n r.1 x) (atHome r.2.2 n r.1 x) x →
       exec (.rdComb n h others false) s = .next (goingOn s (performOp (homeDev r.2.2 n r.1 x) (atHome r.2.2 n r.1 x) x false))) ∧
    (landOpen s.dev n = true →
      let slots := 1 + spanSlots (askedOffset s.dev rsp % 16) data.length
      let d1 := freeSlots s.dev n 3 slots
      (roleOf s.dev rsp.dst.toNat = none → exec (.rspRx n rsp data) s = .next (goingOn s (count d1 (pgI 0x11 8 n) 0x850))) ∧
      (∀ berth x o, roleOf s.dev rsp.dst.toNat = some berth → berth < 256 → rsp.op ≠ 0x34 → rsp.status.toNat = cOK →
        s.dev.descs.find? (fun y => y.r.berth == berth && y.out.any (fun o => o.reqId == rsp.reqId.toNat)) = some x →
        x.out.find? (fun o => o.reqId == rsp.reqId.toNat) = some o → o.op = .rd → crc32c (sub data 0 o.len) = rsp.tchk.toNat →
        let d2 := meterRx (takeCred d1 berth rsp.reqId.toNat rsp.cred.toNat) (some berth) (slots * 16)
        exec (.rspRx n rsp data) s = .next (goingOn s { d2 with descs := modFirst (fun y => y.r == x.r) (fun y => { y with
          out := y.out.filter (fun q => q.reqId != o.reqId)
          inbox := y.inbox ++ [{ item := o.item, node := o.node, off := o.offset, status := cOK, data := sub data 0 o.len }] }) d2.descs })))

/-- THE MANAGEMENT CLASS (11 R354-R356; 17 R512; 04 R142). A management request from an admitted end point is an access of the control
space on the EF path, 32 or 64 bits wide, whatever its NODE: a read is answered with the register's bytes, a write with its code. One from
outside the ranges is answered ACCESS_DENIED, and is an access of the path all the same: it drops the path's halves (log 105). (Choices of
the model that clauses rest on: log 107.) -/
def Obligations.ManagementRequestsAccessTheRegisters : Prop :=
  ∀ (s : State) (n : Nat) (h : Hdr) (l : List Byte), AtRest s.dev → landOpen s.dev n = true → quiet s.dev = false →
    let width := 8 * lenOf h
    let answers (q : Req) (d : Dev) (code : Nat) (l : List Byte) (fz : Fuses) : State :=
      afterAccess s (answerReq d q (n / 8) none 17 code l) fz
    (headerBad 0x20 h = false →
      let q : Req := { op := .mgmtRd, origin := .landing n, h := h }
      let d := freeSlots s.dev n h.tc.toNat 2
      (mgmtAdmits s.dev h.src.toNat = true →
        let r := ctlRead .ef h.offset.toNat width d s.fuses
        exec (.mgmtRd n h) s = .next (answers q r.2.2 r.1 (if r.1 = cOK then leBytes (lenOf h) r.2.1 else []) s.fuses)) ∧
      (mgmtAdmits s.dev h.src.toNat = false →
        exec (.mgmtRd n h) s = .next (afterAccess s (mgmtRefuse (dropHalves d .ef) n q) s.fuses))) ∧
    (headerBad 0x21 h = false →
      let q : Req := { op := .mgmtWr, origin := .landing n, h := h, data := l }
      let d := freeSlots s.dev n h.tc.toNat (2 + spanSlots h.offset.toNat (lenOf h))
      (mgmtAdmits s.dev h.src.toNat = true →
        let r := ctlWrite .ef h.offset.toNat width (leAt l 0 (lenOf h)) d s.fuses
        exec (.mgmtWr n h l) s = .next (answers q r.2.1 r.1 [] r.2.2)) ∧
      (mgmtAdmits s.dev h.src.toNat = false →
        exec (.mgmtWr n h l) s = .next (afterAccess s (mgmtRefuse (dropHalves d .ef) n q) s.fuses)))

/-- ACKNOWLEDGEMENTS, DELTAS AND EDDY WRITE-BACKS (01 R35; 03 R87, R88, R90; 05 R168, R169, R171). STORE_ACK answers a performed store with its
code and lets it go. The oldest delta queued for a stripe is XORed into its parity unit, and counted there; where that unit is not served the
stripe is logged. Once EDDY_IDLE cycles have passed since the last addition, an accumulator's write-back starts; its end reads the granule, adds
the sums and writes the result as the device's own write. Once that write has ended, members' acknowledgements and all, the sums are counted,
the accumulator closes and what waited comes again; a granule that cannot be read or written loses the sums, and is poisoned. (Choices of
the model that clauses rest on: logs 1, 70, 138 and 156.) -/
def Obligations.StoresAndEddyWriteBacksAreAcknowledged : Prop :=
  (∀ (s : State) (id chan stripe : Nat),
     let d := s.dev
     let mine (x : Nat × Nat × Nat × List Byte) : Bool := x.1 == chan && x.2.1 == stripe
     let pp := (stripe + chan) % 9
     (∀ f st l, flyingOf d id = some f → f.wait = .ack st l → exec (.storeAck id) s = .next (goingOn s (finishFlying d f st l))) ∧
     (flyingOf d id = none → exec (.storeAck id) s = .next (goingOn s d)) ∧
     (d.tiers.deltas.find? mine = none → exec (.stackDeltaApply chan stripe) s = .next (goingOn s d)) ∧
     (∀ o l, d.tiers.deltas.find? mine = some (chan, stripe, o, l) →
       let d1 : Dev := { d with tiers.deltas := delFirst mine d.tiers.deltas }
       let cell := stackCell pp chan stripe o
       (∀ st, unitState d pp chan stripe = .up st →
         exec (.stackDeltaApply chan stripe) s =
           .next (goingOn s (count (setMem d1 cell (xorBytes (memBytes d cell l.length) l)) (pgI 0x31 5 st) 0x818))) ∧
       ((∀ st, unitState d pp chan stripe ≠ .up st) →
         exec (.stackDeltaApply chan stripe) s = .next (goingOn s (logStripe d1 (if pp < 5 then 0 else 1) chan stripe))))) ∧
  (∀ (s : State) (bank g : Nat) (a : Accum),
     let d := s.dev
     accumAt d bank g = some a →
     (a.writingBack = false → exec (.eddyIdleExpiry bank g) s = .next (goingOn s
       (startWb { d with sys.ltc := max d.sys.ltc (a.lastAdd + reg d (pg 0x41 bank + 0x100)) } bank g []))) ∧
     (a.writingBack = true → exec (.eddyIdleExpiry bank g) s = .next (goingOn s d)) ∧
     (a.writingBack = false → exec (.eddyWritebackDone bank g) s = .next (goingOn s d)) ∧
     (a.write.isSome = true → exec (.eddyWritebackDone bank g) s = .next (goingOn s d)) ∧
     (∀ x, a.writingBack = true → a.write = none → extAt d g = some x →
       let closed (d : Dev) : Dev := flushedBy (wakeAccum (retry a.waiters (accumDrop d a.bank a.offset)) a.bank) a.offset
       let r := readPlain d x { off := g, berth := x.e.berth } g 64
       let id := r.2.2.nextFlying
       let d1 := accumMod r.2.2 bank g (fun a => { a with writingBack := true, write := some id })
       let d2 := attemptOwn (ownWrite d1 x g (sumGranule a r.2.1) .internal 0) id
       (r.1 = cOK →
         (∀ b st, accumAt d2 bank g = some b → b.wrote = some st →
           exec (.eddyWritebackDone bank g) s = .next (goingOn s (wroteSums d2 b st))) ∧
         ((∀ b, accumAt d2 bank g = some b → b.wrote = none) → exec (.eddyWritebackDone bank g) s = .next (goingOn s d2))) ∧
       (r.1 ≠ cOK → exec (.eddyWritebackDone bank g) s = .next (goingOn s (closed (loseSums r.2.2 bank x g r.1)))) ∧
       (∀ st, extAt d a.offset = some x →
         wroteSums d a st = closed (if st = cOK then count d (pg 0x41 a.bank) 0x810 else loseSums d a.bank x a.offset st))))

/-- SNOOPS (05 R157-R161). The first answer of a snoop, from the end point it went to and of a form that answers it, ends it: an INV takes the
sharer out, DATA is written at the home as the device's own write, which its transaction waits for, CLEAN leaves the line as it is, a recall of an owner that holds nothing loses
the line, poisoned, and frees its entry but in a sweep. DATA whose TCHK does not match is answered E2E_NACK (11 R361). With no such snoop an
answer is discarded, and late DATA counted. An agent that does not answer in QUAY_TIMEOUT is stranded, counted and recorded, and its snoop ends
as NOT_HELD; the line is then poisoned even in a sweep. (Choices of the model that clauses rest on: logs 1, 52, 53 and 111.) -/
def Obligations.SnoopsEndAndChangeTheLine : Prop :=
  (∀ (s : State) (n : Nat) (id : BitVec 16) (ep : BitVec 18) (a : SnoopAnswer) (tchk : BitVec 32) (l : List Byte),
     let d := s.dev
     let d1 := freeSlots d n 2 (1 + (if a = .data then 4 else 0))
     (landOpen d n = false → exec (.snoopAns n id ep a tchk l) s = .next (goingOn s d)) ∧
     (landOpen d n = true →
       (snoopOf d id.toNat = none →
         exec (.snoopAns n id ep a tchk l) s = .next (goingOn s (if a = .data then count d1 (pg 0x40 (n / 8)) 0x840 else d1))) ∧
       (∀ t sn, snoopOf d id.toNat = some (t, sn) → sn.endPoint = ep.toNat →
         (answers sn.kind a = true → (a = .data → crc32c (sub l 0 64) = tchk.toNat) →
           exec (.snoopAns n id ep a tchk l) s = .next (goingOn s (snoopEnd d1 t sn a l))) ∧
         (answers sn.kind a = true → a = .data → crc32c (sub l 0 64) ≠ tchk.toNat →
           exec (.snoopAns n id ep a tchk l) s = .next (goingOn s
             (sendRsp (count d1 (pg 0x10 t.bank) 0x820) n (n % 8) none 0 0 false (.rsp 0x34 id.toNat ep.toNat 0 0 0 0 [])))) ∧
         (answers sn.kind a = false → exec (.snoopAns n id ep a tchk l) s = .next (goingOn s d1))) ∧
       (∀ t sn, snoopOf d id.toNat = some (t, sn) → sn.endPoint ≠ ep.toNat →
         exec (.snoopAns n id ep a tchk l) s = .next (goingOn s d1))) ∧
     (snoopOf d id.toNat = none → exec (.quayHomeTimeout id) s = .next (goingOn s d)) ∧
     (∀ t sn x o, snoopOf d id.toNat = some (t, sn) → offsetOfLine d t.line = some (x, o) →
       let page := pg 0x40 t.bank
       let ag := agentOf d sn.agent
       let d2 : Dev := { d with
         sys.ltc := max d.sys.ltc (sn.sent + reg d (page + 0x100))
         quay.agents := NMap.set {} d.quay.agents sn.agent { ag with stranded := true } }
       let d3 := snoopEnd (raiseFe (count d2 page 0x818) page 0
         { unit := false, addr := d.xmap.node * 2 ^ 48 + o, src := ag.endPoint, job := ag.job }) t sn .notHeld []
       exec (.quayHomeTimeout id) s = .next (goingOn s (if sn.kind ≠ .inv ∧ t.kind = .sweep then loseLine d3 t.bank t.line sn.agent else d3)))) ∧
  (∀ (d : Dev) (t : Trans) (sn : Snoop) (l : List Byte),
     let without (u : Trans) : Trans := { u with snoops := u.snoops.filter (fun v => v.id != sn.id) }
     let gone : Dev := { d with quay.trans := modFirst (fun u => u.bank == t.bank && u.line == t.line) without d.quay.trans }
     (sn.kind = .inv → ∀ a, snoopEnd d t sn a l = dirMod gone t.bank t.line
       (fun e => if e.coarse then e else { e with sharers := NSet.del e.sharers sn.agent })) ∧
     (sn.kind ≠ .inv → snoopEnd d t sn .clean l = gone) ∧
     (sn.kind ≠ .inv → t.kind = .sweep → snoopEnd d t sn .notHeld l = gone) ∧
     (sn.kind ≠ .inv → t.kind ≠ .sweep →
       snoopEnd d t sn .notHeld l = dirDrop (poisonLine gone t.bank t.line sn.agent) t.bank t.line) ∧
     (sn.kind ≠ .inv → ∀ x o, offsetOfLine d t.line = some (x, o) →
       let awaits (u : Trans) : Trans := { u with writes := u.writes ++ [d.nextFlying] }
       let open_ : Dev := { gone with quay.trans := modFirst (fun u => u.bank == t.bank && u.line == t.line) awaits gone.quay.trans }
       snoopEnd d t sn .data l = attemptOwn (ownWrite open_ x o (sub l 0 64) .internal 0) d.nextFlying))

/-- AGENTS, THE DIRECTORY'S ERRORS AND THE TOLL CACHE'S (05 R152, R177, R178; 14 R437). QUAY_AGENT_DATA writes the selected slot of both
banks and clears STRANDED; a valid entry whose end point another slot holds is refused with AGENT_DUP. An error in a directory way takes a
spare, or retires the way when none is left, drops its entry and sweeps the set. A sweep ends once its recalls are answered, and what waited
for the set comes again. A Toll cache error takes a spare. (Choices of the model that clauses rest on: log 55.) -/
def Obligations.AgentsAndArrayErrors : Prop :=
  ∀ (s : State) (p : Path) (bank set way : Nat) (v : BitVec 64), bank < 2 →
    (Reaches s.dev p (pg 0x40 bank + 0x118) ⟨0x40, bank, 0⟩ →
      let d := dropHalves s.dev p
      let slot := reg d (pg 0x40 bank + 0x110) % 4096
      let ep := v.toNat % 2 ^ 18
      let entry : Agent := { endPoint := ep, job := v.toNat / 2 ^ 18 % 4096, valid := v.getLsbD 30 }
      let dup := d.quay.agents.any (fun a => a.1 != slot && a.2.valid && a.2.endPoint == ep)
      exec (.quayAgentDataWrite p bank v) s = .next (written s p
        (if slot = 0xFFF then d
         else if v.getLsbD 30 && dup then raise d (pg 0x40 bank) 2
         else { d with quay.agents := NMap.set {} d.quay.agents slot entry }))) ∧
    (let d := s.dev
     let spare := if bank = 0 then d.quay.spareEast else d.quay.spareWest
     bankLive d bank = true →
      ∃ t, exec (.directoryEccError bank set way) s = .next (goingOn s t) ∧
        t.quay.dir = d.quay.dir.filter (fun e => !(e.bank == bank && setOfLine e.line == set && e.way == way)) ∧
        (bank, set) ∈ t.quay.sweeps ∧ t.salv.degraded = true ∧
        (spare < 512 → (if bank = 0 then t.quay.spareEast else t.quay.spareWest) = spare + 1 ∧ t.quay.retired = d.quay.retired) ∧
        (512 ≤ spare → t.quay.retired = NSet.add d.quay.retired (bank * 2 ^ 22 + set * 16 + way))) ∧
    (let d := s.dev
     let mine (t : Trans) : Bool := t.kind == .sweep && t.bank == bank && setOfLine t.line == set
     ((bank, set) ∉ d.quay.sweeps → exec (.directorySweepDone bank set) s = .next (goingOn s d)) ∧
     ((bank, set) ∈ d.quay.sweeps → (∀ t ∈ d.quay.trans, mine t = true → t.snoops = [] ∧ ∀ w ∈ t.writes, flyingOf d w = none) →
       exec (.directorySweepDone bank set) s = .next (goingOn s
         (wakeSet (retry ((d.quay.trans.filter mine).flatMap (fun t => t.waiters)) { d with
           quay.sweeps := d.quay.sweeps.filter (fun e => e != (bank, set))
           quay.trans := d.quay.trans.filter (fun t => !mine t) }) bank set)))) ∧
    (bankLive s.dev bank = true →
      ∃ t, exec (.tollCacheEccError bank) s = .next (leaving s t) ∧ t.salv.degraded = true ∧ t.toll.extents = s.dev.toll.extents ∧
        (bank = 0 → t.toll.spareEast = min 1024 (s.dev.toll.spareEast + 1) ∧ t.toll.spareWest = s.dev.toll.spareWest) ∧
        (bank = 1 → t.toll.spareWest = min 1024 (s.dev.toll.spareWest + 1) ∧ t.toll.spareEast = s.dev.toll.spareEast))

/-! ## Tiers and the Tow (03 R87-R115; 14 R434-R439) -/

/-- SPARES TAKE THE PLACE OF WHAT FAILS (03 R93; 13 R419; 14 R434-R436). A replaced row is listed at its site, counted and raised there, its
events and its post-package repair start anew and the module is degraded; a channel with no spare row left (log 124) leaves service; a row of
a vault takes one of its 64 spares. A vault that fails leaves service and its bank's stack parity is marked for recomputation on every
channel, with the event and its number. A retired flash block takes a spare: the percentage left is a free value no greater than before
(log 63). A unit outside the device changes nothing. (Choices of the model that clauses rest on: logs 77 and 122.) -/
def Obligations.SparesTakeThePlaceOfWhatFails : Prop :=
  ∀ (s : State) (site chan row vault c : Nat),
    let d := s.dev
    (site < 10 → chan < 32 → row < 2 ^ 32 →
      let used := NMap.get 0 (Sys2Proof.Machine.site d site).rowSpares chan
      let k := chan * 2 ^ 32 + row
      (used ≤ Config.stackSpareRows (site * 32 + chan) → ∃ t, exec (.rowReplace site chan row) s = .next (leaving s t) ∧
        t.tiers.sites = modAt (fun u => { u with
          rowEvents := NMap.set 0 u.rowEvents k 0
          rowsReplaced := NSet.add u.rowsReplaced k
          rowsPermanent := NSet.del u.rowsPermanent k
          rowSpares := NMap.set 0 u.rowSpares chan (used + 1) }) d.tiers.sites site ∧
        t.salv.degraded = true ∧ t.tiers.mem = d.tiers.mem) ∧
      (Config.stackSpareRows (site * 32 + chan) < used → exec (.rowReplace site chan row) s = .next (leaving s (channelDown d site chan)))) ∧
    (10 ≤ site ∨ 32 ≤ chan → exec (.rowReplace site chan row) s = .next (leaving s d)) ∧
    (vault < 64 → NMap.get 0 d.tiers.nearSpares vault < 64 → ∃ t, exec (.nearRowReplace vault row) s = .next (leaving s t) ∧
      t.tiers.nearSpares = NMap.set 0 d.tiers.nearSpares vault (NMap.get 0 d.tiers.nearSpares vault + 1) ∧
      t.tiers.nearRows = NSet.add d.tiers.nearRows (vault * 2 ^ 32 + row % 2 ^ 32) ∧
      t.salv.degraded = true ∧ t.tiers.mem = d.tiers.mem) ∧
    (64 ≤ NMap.get 0 d.tiers.nearSpares vault → exec (.nearRowReplace vault row) s = .next (leaving s d)) ∧
    (64 ≤ vault → exec (.nearRowReplace vault row) s = .next (leaving s d) ∧ exec (.vaultFail vault) s = .next (leaving s d)) ∧
    (vault < 64 → NSet.mem d.tiers.vaultsDown vault = false →
      let d1 : Dev := { d with
        tiers.vaultsDown := NSet.add d.tiers.vaultsDown vault
        tiers.ovfEast := if vault < 32 then BitVec.allOnes 32 else d.tiers.ovfEast
        tiers.ovfWest := if vault < 32 then d.tiers.ovfWest else BitVec.allOnes 32 }
      exec (.vaultFail vault) s = .next (leaving s
        (degrade (raiseFe d1 (pg 0x30 (vault / 32)) 2 { unit := true, addr := vault % 32 }) (vault / 32)))) ∧
    (c < 32 → let g := d.tiers.groups.getD (c / 16) {}
      0 < g.sparePct → d.tiers.groups.length = 2 →
      ∃ t, exec (.flashBlockRetire c) s = .next (goingOn s t) ∧ t.salv.degraded = true ∧ (t.tiers.groups.getD (c / 16) {}).sparePct ≤ g.sparePct ∧
        t.tiers.flash = d.tiers.flash) ∧
    (32 ≤ c → exec (.flashBlockRetire c) s = .next (goingOn s d))

/-- STACK CHANNELS AND SITES (03 R93-R95; 14 R438). A channel that leaves service is marked down at its site, with the event and its
index; a site that fails whole is marked, its channels that are not lent leave service, and the spare is brought out of idle for its position,
or a rebuild under way ends: the channels that the spare has rebuilt keep serving, as channels it lends for the position, and the spare is a
spare again. The spare, once ready, is the rebuild target. (Choices of the model that clauses rest on: logs 77 and 124.) -/
def Obligations.StackChannelsAndSitesLeaveService : Prop :=
  ∀ (s : State) (n chan : Nat), s.dev.tiers.sites.length = 10 →
    let d := s.dev
    let t := site d n
    let bank := if n < 5 then 0 else 1
    let page := pgI 0x31 5 n
    let spare := site d 9
    (n < 9 → chan < 32 → t.down.getLsbD chan = false →
      let d1 := degrade (raiseFe (onSite d n (fun u => { u with down := u.down ||| BitVec.ofNat 32 (2 ^ chan) })) page 3
        { unit := true, addr := chan }) bank
      (t.role ≠ .member ∨ (t.down ||| BitVec.ofNat 32 (2 ^ chan)) ||| t.loan ≠ BitVec.allOnes 32 →
        exec (.stackChannelDown n chan) s = .next (leaving s d1)) ∧
      (t.role = .member → (t.down ||| BitVec.ofNat 32 (2 ^ chan)) ||| t.loan = BitVec.allOnes 32 →
        exec (.stackChannelDown n chan) s = .next (leaving s (siteFail d1 n)))) ∧
    (10 ≤ n ∨ 32 ≤ chan ∨ t.down.getLsbD chan = true → exec (.stackChannelDown n chan) s = .next (leaving s d)) ∧
    (n < 9 → t.failed = false → t.role ≠ .retired →
      let d1 := degrade (raiseFe (onSite d n (fun u => { u with failed := true, down := ~~~u.loan })) page 4
        { unit := true, addr := 0 }) bank
      (d.tiers.rebuild.isSome = true → exec (.stackSiteFail n) s = .next (leaving s (endRebuild d1))) ∧
      (d.tiers.rebuild = none → t.role = .member → spare.role = .spare → spare.failed = false →
        exec (.stackSiteFail n) s = .next (leaving s { d1 with tiers.rebuild := some { position := t.position, ready := false } })) ∧
      (d.tiers.rebuild = none → t.role ≠ .member ∨ spare.role ≠ .spare ∨ spare.failed = true →
        exec (.stackSiteFail n) s = .next (leaving s d1))) ∧
    (10 ≤ n ∨ t.failed = true ∨ t.role = .retired → exec (.stackSiteFail n) s = .next (leaving s d)) ∧
    (∀ r, d.tiers.rebuild = some r → r.ready = false → d.sys.westHeld = false →
      exec .spareStackReady s = .next (leaving s (onSite { d with tiers.rebuild := some { r with ready := true } } 9
        (fun u => { u with role := .target, position := r.position })))) ∧
    (d.tiers.rebuild = none → exec .spareStackReady s = .next (leaving s d)) ∧
    (∀ r, d.tiers.rebuild = some r → spare.role = .target → spare.failed = false →
      let e := endRebuild d
      let done (c : Nat) : Bool := belowCursor d r.position c 12582911
      e.tiers.rebuild = none ∧ (site e 9).role = .spare ∧ (site e 9).down = spare.down ∧ e.tiers.mem = d.tiers.mem ∧
      (∀ c, c < 32 → (site e 9).loan.getLsbD c = (spare.loan.getLsbD c || done c)) ∧
      (∀ k c, k < 9 → c < 32 → (site d k).role = .member → (site d k).position = r.position →
        (site e k).loan.getLsbD c = ((site d k).loan.getLsbD c || done c) ∧
        (site e k).down.getLsbD c = ((site d k).down.getLsbD c && !done c)) ∧
      (∀ k, k < 9 → (site d k).role ≠ .member ∨ (site d k).position ≠ r.position → site e k = site d k))

/-- REBUILDS (03 R88, R90, R91, R94, R95; 14 R438). A rebuilt channel is lent by the spare: its units are formed from the other eight, its
site's bit is lent and no longer down. At the end of a position's rebuild the spare is its member and the failed site is retired: what the
cursor had not reached is formed. A recomputation forms the parity of every logged stripe whose parity unit is served, and of which no unit is
withheld, and empties the log but for the rest. A unit is formed, once the deltas queued for its stripe are applied, granule by granule as the
XOR of the other eight; a granule of which one of those cannot be read is left at fault. (Choices of the model that clauses rest on: logs 77
and 145.) -/
def Obligations.RebuildsBringPositionsBack : Prop :=
  ∀ (s : State) (n chan bank : Nat), s.dev.tiers.sites.length = 10 → bank < 2 →
    let d := s.dev
    let t := site d n
    let sp := site d 9
    (n < 9 → chan < 32 → t.role = .member → t.failed = false → t.down.getLsbD chan = true → sp.role = .spare → sp.failed = false →
      sp.loan.getLsbD chan = false → sp.down.getLsbD chan = false → d.sys.westHeld = false →
      ∃ u, exec (.stackChannelRebuildDone n chan) s = .next (leaving s u) ∧ (site u n).down.getLsbD chan = false ∧
        (site u n).loan.getLsbD chan = true ∧ (site u 9).loan.getLsbD chan = true ∧ (site u 9).role = .spare ∧
        u.tiers.mem = ((usedStripes d chan).foldl (rebuildUnit t.position chan) d).tiers.mem ∧
        (∀ k, k ≠ n → k ≠ 9 → site u k = site d k)) ∧
    (t.failed = true ∨ t.role ≠ .member → exec (.stackChannelRebuildDone n chan) s = .next (leaving s d)) ∧
    (∀ r, d.tiers.rebuild = some r → r.ready = true → d.sys.westHeld = false → sp.role = .target → r.position < 9 →
      ∃ u, exec .stackRebuildDone s = .next (leaving s u) ∧ u.tiers.rebuild = none ∧ (site u 9).role = .member ∧
        u.tiers.mem = (((List.range 32).filter (fun c => !sp.loan.getLsbD c && !sp.down.getLsbD c)).foldl (fun d c =>
          ((usedStripes d c).filter (fun k => decide (min 12582912 (r.cursor - c * 12582912) ≤ k))).foldl (rebuildUnit r.position c) d) d).tiers.mem ∧
        (∀ k, k < 9 → (site d k).role = .member → (site d k).position = r.position → (site u k).role = .retired)) ∧
    (d.tiers.rebuild = none → exec .stackRebuildDone s = .next (leaving s d)) ∧
    (∃ u, exec (.loggedParityRecomputeDone bank) s = .next (leaving s u) ∧
      u.tiers.mem = (((loggedStripes d bank).filter (parityUp d)).foldl
        (fun d c => rebuildUnit (parityPos c.1 c.2) c.1 d c.2) d).tiers.mem ∧
      (bank = 0 → u.tiers.dirtyWest = d.tiers.dirtyWest ∧
        ((∀ c ∈ loggedStripes d 0, parityUp d c = true) → u.tiers.dirtyEast = [] ∧ u.tiers.ovfEast = 0)) ∧
      (bank = 1 → u.tiers.dirtyEast = d.tiers.dirtyEast ∧
        ((∀ c ∈ loggedStripes d 1, parityUp d c = true) → u.tiers.dirtyWest = [] ∧ u.tiers.ovfWest = 0))) ∧
    (∀ (pos stripe o : Nat) (i : Nat), Memory.wf d.tiers.mem = true → NSet.wf d.tiers.faults = true → pos < 9 → chan < 32 → stripe < 12582912 →
      o ∈ [0, 64, 128, 192] → i < 64 →
      let others := (List.range 9).filter (fun p => p != pos)
      let a := applyStripe d chan stripe
      let g := stackCell pos chan stripe o
      let e := rebuildUnit pos chan d stripe
      (poisoned a g = false → (∀ p ∈ others, storedOk a p chan stripe o = true) → faulty e g = false ∧
        NMap.get 0 e.tiers.mem (g + i) = others.foldl (fun (b : Byte) p => b ^^^ NMap.get 0 a.tiers.mem (stackCell p chan stripe o + i)) 0) ∧
      (poisoned a g = false → (∃ p ∈ others, storedOk a p chan stripe o = false) → faulty e g = true ∧
        NMap.get 0 e.tiers.mem (g + i) = NMap.get 0 a.tiers.mem (g + i)) ∧
      (∀ c, (∀ j, j < 256 → c ≠ stackCell pos chan stripe j) → NMap.get 0 e.tiers.mem c = NMap.get 0 a.tiers.mem c))

/-- A STACK UNIT IS FORMED FROM THE OTHER EIGHT (03 R82, R92). What is reconstructed is their XOR, byte by byte. If the nine units of a
stripe have XOR zero at every byte, what is reconstructed is what the unit holds. -/
def Obligations.ReconstructionGivesTheUnit : Prop :=
  ∀ (d : Dev) (pos chan stripe o : Nat), pos < 9 →
    (∀ p, p < 9 → p ≠ pos → storedOk d p chan stripe o = true) →
    (∀ i, i < 64 → (List.range 9).foldl (fun (b : Byte) p => b ^^^ NMap.get 0 d.tiers.mem (stackCell p chan stripe o + i)) 0 = 0) →
    reconstruct d pos chan stripe o = some (memBytes d (stackCell pos chan stripe o) 64)

/-- FLASH AND THE TOW'S WAIT TABLE (03 R80, R97, R99, R112, R113, R115; 14 R435, R439). A drain writes a bank's staged tiles, where none of
their granules is at fault, to flash and wakes the stores that wait for room. A channel that fails leaves service, its group is rebuilt without
the first that fails, and the requests that wait for it are answered at once; what is written meanwhile lies on the other channels, and at the
rebuild's end the group runs without it (log 62), but for the stripes that a second failure left as they were (log 145). Flash
answers a waiting request from its tier. One that has waited longer than its bound, for its tier or for room in the staging area, is late,
once, with the stall and the event; at the end of its time it is answered TIER_FAILED, recorded and counted as a stall with the cycles it has
waited. Each takes place at its LTC (log 1). (Choices of the model that clauses rest on: logs 16, 144 and 157.) -/
def Obligations.FlashServesFailsAndAnswersWhatWaits : Prop :=
  (∀ (s : State) (bank c : Nat), s.dev.tiers.groups.length = 2 → s.dev.tiers.flash.length = 32 → bank < 2 →
     let d := s.dev
     let mine := d.tiers.staged.filter (fun t => t.bank == bank)
     let mem := mine.foldl (fun m t => putBytes m t.addr t.data) d.tiers.mem
     let noted (a : Nat) (g : FlashGroup) : FlashGroup :=
       if g.rebuilding.isSome || g.stuck then { g with moved := NSet.add g.moved a } else g
     let groups := mine.foldl (fun gs t => modAt (noted t.addr) gs (flashBank t.addr)) d.tiers.groups
     exec (.flashStageDrain bank) s = .next (goingOn s (wakeStage (drainStage d bank) bank)) ∧
     ((∀ t ∈ mine, ∀ g ∈ granulesIn t.addr 0 256, faulty d g = false) →
       drainStage d bank = { d with
         tiers.mem := mem, tiers.groups := groups, tiers.staged := d.tiers.staged.filter (fun t => t.bank != bank) }) ∧
     (c < 32 → (d.tiers.flash.getD c {}).down = false → d.flying = [] →
       let g := d.tiers.groups.getD (c / 16) {}
       ∃ t, exec (.flashChannelFail c) s = .next (goingOn s t) ∧ t.salv.degraded = true ∧
         t.tiers.flash = modAt (fun _ => { down := true, inService := false }) d.tiers.flash c ∧
         (g.gone = none → g.rebuilding = none → t.tiers.groups = modAt (fun g => { g with rebuilding := some c }) d.tiers.groups (c / 16)) ∧
         (g.gone.isSome = true ∨ g.rebuilding.isSome = true → t.tiers.groups = d.tiers.groups)) ∧
     (32 ≤ c ∨ (d.tiers.flash.getD c {}).down = true → exec (.flashChannelFail c) s = .next (goingOn s d)) ∧
     (∀ k, (d.tiers.groups.getD bank {}).rebuilding = some k →
       let g := d.tiers.groups.getD bank {}
       let second := ∃ c, c < 16 ∧ bank * 16 + c ≠ k ∧ (d.tiers.flash.getD (bank * 16 + c) {}).down = true
       ∃ t, exec (.flashRebuildDone bank) s = .next (leaving s t) ∧
         (¬ second → t.tiers.groups.getD bank {} = { g with rebuilding := none, gone := some k, moved := [] }) ∧
         (second → t.tiers.groups.getD bank {} = { g with rebuilding := none, gone := some k, stuck := true })) ∧
     (∀ a k, let g := d.tiers.groups.getD (flashBank a) {}
       let written := NSet.mem g.moved (a / 256 * 256)
       (g.gone = none → g.rebuilding = some k → goneChan d a = if written then some k else none) ∧
       (g.gone = some k → goneChan d a = if g.stuck && !written then none else some k) ∧
       (∀ c, flashLost d a c = ((d.tiers.flash.getD c {}).down && decide (goneChan d a ≠ some c)))) ∧
     ((d.tiers.groups.getD bank {}).rebuilding = none → exec (.flashRebuildDone bank) s = .next (leaving s d))) ∧
  (∀ (s : State) (id : Nat) (f : Flying) (x : Extent) (since : Nat) (late staging : Bool),
     let d := s.dev
     let page := pg 0x33 f.homeBank
     let waits (late : Bool) : Wait := if staging then .stage since late else .tier since late
     flyingOf d id = some f → f.id = id → f.wait = waits late → extOf d f.base = some x →
     (staging = false → x.e.tier = .flash → f.q.op ≠ .wr → exec (.tierAnswer id) s = .next (goingOn s (readNow (leaveTable d f x) f x x 0))) ∧
     (x.e.tier = .host → exec (.tierAnswer id) s = .next (goingOn s d)) ∧
     (late = false → exec (.towLate id) s = .next (leaving s (raise (stall (setWait
       { d with sys.ltc := max d.sys.ltc (since + reg d (page + 0x108)) } id (waits true))
       x.e.berth (if x.e.tier = .host then 2 else 0) 0) page 0))) ∧
     (late = true → exec (.towLate id) s = .next (leaving s d)) ∧
     (let d1 : Dev := { d with sys.ltc := max d.sys.ltc (since + reg d (page + 0x110)) }
      let d2 := stall (leaveTable d1 f x) x.e.berth (if x.e.tier = .host then 3 else 1) (d1.sys.ltc - since)
      let h := f.q.h
      let at_ := d.xmap.node * 2 ^ 48 + h.offset.toNat
      let fe : Fe := { unit := false, addr := at_, src := h.src.toNat, job := h.job.toNat, reqId := h.reqId.toNat, code := cTIER }
      exec (.towFail id) s = .next (goingOn s (finishFlying (raiseFe d2 page 1 fe) f cTIER []))))

/-- THE TOW'S DESCRIPTORS (03 R102-R105, R109, R110). An item names an extent that the job owns or is guest of: MOVE to another tier joins
its extent's queue, one to the tier the extent is in completes with its pin, PIN adds one to the job's count, UNPIN takes one off, PERSIST
waits while a tile of the extent is staged; an item whose extent cannot be named, or is not the job's, has its code. One item here; the
descriptor completes with its last. (Choices of the model that clauses rest on: logs 125, 126 and 159.) -/
def Obligations.TowDescriptorsDoTheirItems : Prop :=
  ∀ (s : State) (r : DescRef) (op : Nat) (x : Desc) (l : List Byte) (t : Dev),
    engineDesc s.dev r 0x50 op = some x → x.count = x.nextItem + 1 →
    let y : Desc := { x with phase := .running }
    let i := x.nextItem
    descRead (runDesc s.dev r) y i s.dev.xmap.node (dfld x 0x18 0 48 + 16 * i) 16 = (.ok l, t) →
    let it := towItem l
    let ends (d : Dev) : Dev := towFinish (onDesc d r passItem)
    let c : Instr := if op = 1 then .move r else if op = 2 then .pin r else if op = 3 then .unpin r else .persist r
    1 ≤ op → op ≤ 4 →
    (∀ code, towExtent t y it (op == 4) = (code, none) → exec c s = .next (goingOn s (ends (noteItem t r i code)))) ∧
    (∀ code e, towExtent t y it (op == 4) = (code, some e) → t.sys.westHeld = true → extBank e = 1 →
      exec c s = .next (goingOn s (ends (noteItem t r i cDEGRADED)))) ∧
    (∀ code e, towExtent t y it (op == 4) = (code, some e) → t.sys.westHeld = false ∨ extBank e = 0 →
      (op = 1 → snapUses t e.e.base = false → tierOf it.destTier ≠ e.e.tier → destCode t e (tierOf it.destTier) it.destBase = cOK →
        queuedMoves t (extBank e) < 4096 →
        let m : MoveItem := { r := r, item := i, bank := extBank e, base := e.e.base, job := x.job, destTier := tierOf it.destTier,
                              destBase := it.destBase, pin := bit (dnum x 0x24 4) 0, waitPins := bit (dnum x 0x24 4) 1, phase := .queued }
        exec c s = .next (goingOn s (ends { t with tiers.moves := t.tiers.moves ++ [m] }))) ∧
      (op = 1 → snapUses t e.e.base = false → tierOf it.destTier = e.e.tier → moveHead t e.e.base = none →
        exec c s = .next (goingOn s (ends (movePin t (bit (dnum x 0x24 4) 0) (extBank e) x.job e.e.base)))) ∧
      (op = 2 → 0 < pinCount t x.job e.e.base → pinCount t x.job e.e.base < 65535 →
        exec c s = .next (goingOn s (ends (setPin t (extBank e) x.job e.e.base (pinCount t x.job e.e.base + 1))))) ∧
      (op = 3 → exec c s = .next (goingOn s (ends (setPin t (extBank e) x.job e.e.base (pinCount t x.job e.e.base - 1))))) ∧
      (op = 4 → stagedTiles t e = true →
        exec c s = .next (goingOn s (ends { t with tiers.persists := t.tiers.persists ++ [{ r := r, item := i, base := e.e.base }] }))) ∧
      (op = 4 → stagedTiles t e = false → exec c s = .next (goingOn s (ends t))))

/-- THE PHASES OF A MOVE (03 R106-R108, R111). After a copying pass the marked tiles are copied again, or, with few left or no pass left,
requests are held for the switch; a pass that still waits for the host is not done. At the switch, with nothing in flight on the extent, its
tier and place change, ZERO is cleared and the held requests go on. An abandoned move leaves the placement: its item takes UNCORRECTABLE for an
unreadable source and TIER_FAILED else, where it has no code yet, with the event. A wait for pins that have not dropped ends with
BUSY_RETRY. (Choices of the model that clauses rest on: logs 76, 126 and 159.) -/
def Obligations.MovesGoThroughTheirPhases : Prop :=
  ∀ (s : State) (base : Nat) (m : MoveItem) (x : Extent),
    let d := s.dev
    d.tiers.moves = [m] → m.base = base → extOf d base = some x → x.e.base = base → d.flying = [] → d.quay.trans = [] →
    d.quay.dir = [] → d.quay.accums = [] → d.tiers.persists = [] →
    (∀ k, (m.phase = .copy ∧ k = 1) ∨ (∃ j, m.phase = .recopy j ∧ k = j + 1) →
      (copyPassed x m = true → m.marked.length < 4096 ∨ reg d (pg 0x33 m.bank + 0x120) < k →
        exec (.moveCopyDone base) s = .next (goingOn s { (onExt d base (fun x => { x with held := true })) with
          tiers.moves := [{ m with phase := .switching }] })) ∧
      (copyPassed x m = true → 4096 ≤ m.marked.length → k ≤ reg d (pg 0x33 m.bank + 0x120) →
        exec (.moveCopyDone base) s = .next (goingOn s { d with tiers.moves := [{ m with
          phase := .recopy k, marked := [], again := if x.e.tier = .host then m.marked else [] }] })) ∧
      (copyPassed x m = false → exec (.moveCopyDone base) s = .next (goingOn s d))) ∧
    (let y : Extent := { x with e := { x.e with tier := m.destTier, localBase := m.destBase, zero := false }, written := [] }
     let r := moveTiles x y (List.range (extBytes x / 256)) d
     m.phase = .switching → copyPassed x m = true → (x.e.tier = .host → m.marked = []) →
      (tierUp d x.e.tier m.bank = true → r.1 = cOK → m.pin = false →
       ∃ t, exec (.moveSwitch base) s = .next (goingOn s t) ∧ t.tiers.moves = [] ∧ t.tiers.mem = r.2.tiers.mem ∧
        extOf t base = some { y with held := false, moving := false }) ∧
      (tierUp d x.e.tier m.bank = true → r.1 ≠ cOK → exec (.moveSwitch base) s = .next (goingOn s (towFinish (abandonMove r.2 m r.1)))) ∧
      (tierUp d x.e.tier m.bank = false → exec (.moveSwitch base) s = .next (goingOn s (towFinish (abandonMove d m cTIER))))) ∧
    (∀ why, moveRuns m = true →
      let code := match why with
        | .sourceUnreadable => cUNCORR
        | .sourceTierFailed => cTIER
        | .destinationFailed => cTIER
      let unread (p : Port) : Port := { p with hostReads := p.hostReads.filter (fun r => match r.use with
        | .move b _ => b != base
        | _ => true) }
      let fe : Fe := { unit := false, addr := d.xmap.node * 2 ^ 48 + extBase x, job := m.job, code := code }
      let ended := noteItem { d with ports := d.ports.map unread, tiers.moves := [] } m.r m.item code
      exec (.moveAbandon base why) s = .next (goingOn s (towFinish (endHold (raiseFe ended (pg 0x33 m.bank) 3 fe) x))) ∧
      ∃ t, exec (.moveAbandon base why) s = .next (goingOn s t) ∧ t.tiers.moves = [] ∧ extOf t base = some { x with held := false, moving := false } ∧
        t.tiers.mem = d.tiers.mem) ∧
    (∀ since, m.phase = .pinWait since →
      let late : Dev := { d with sys.ltc := max d.sys.ltc (since + reg d (pg 0x33 m.bank + 0x118)), tiers.moves := [] }
      (pinned d base = true →
        exec (.towPinWaitExpiry base) s = .next (goingOn s (towFinish (towOn (noteItem late m.r m.item cBUSY)))) ∧
        ∃ t, exec (.towPinWaitExpiry base) s = .next (goingOn s t) ∧ t.tiers.moves = [] ∧ extOf t base = some x ∧
          t.sys.ltc = max d.sys.ltc (since + reg d (pg 0x33 m.bank + 0x118))) ∧
      (pinned d base = false → exec (.towPinWaitExpiry base) s = .next (goingOn s (towFinish (towOn d)))))

/-! ## The Raft (06 R192-R218) -/

/-- LOAD, EVICT AND PLACED COPIES (06 R192-R198, R203, R219; 08 R254). A LOAD reads its image, and the first check of R193 that fails
gives every item its code; an image accepted makes older copies of its tag stale and is placed for what is short. A copy that has been
placed is counted, evicted where it has become stale meanwhile, and its LOAD and RUNs go on. An EVICT evicts the idle copies of its tag, up to
COUNT. At the end of the wait a LOAD's items that found no room end, and a descriptor that needs a copy of a built-in image is refused with
BUSY_RETRY, or what comes before it. (Choices of the model that clauses rest on: logs 1, 80, 81, 91 and 128.) -/
def Obligations.LoadsPlaceAndEvictCopies : Prop :=
  ∀ (s : State) (r : DescRef) (x : Desc),
    let d := s.dev
    (engineDesc d r 0x10 1 = some x → x.table = [] → x.count ≠ 0 → ∀ (g : Got) (t : Dev), readImage (runDesc d r) x = (g, t) →
      (g = .wait → exec (.raftLoad r) s = .next (goingOn s t)) ∧
      (∀ c, g = .fail c → exec (.raftLoad r) s = .next (goingOn s (endLoad (noteAll t r c) x))) ∧
      (∀ l, g = .ok l →
        (imageCode t x l ≠ cOK → exec (.raftLoad r) s = .next (goingOn s (endLoad (noteAll t r (imageCode t x l)) { x with table := l }))) ∧
        (imageCode t x l = cOK → exec (.raftLoad r) s = .next (goingOn s
          (raftOn (staleOld (onDesc t r (fun x => { x with table := l, since := d.sys.ltc })) (loadWant { x with table := l }))))))) ∧
    (engineDesc d r 0x10 3 = some x →
      let idle := d.raft.copies.filter (fun c => c.job == x.job && c.berth == r.berth && c.tag == dnum x 0x18 8 && idleCopy c)
      x.count ≤ idle.length →
      exec (.raftEvict r) s = .next (goingOn s (raftOn (finishDesc (evictCopies (runDesc d r) ((idle.take x.count).map (·.id))) r)))) ∧
    (∀ id c, copyOf d id = some c →
      (c.placed = false →
        let d1 := onCopy (count d (pg 0x50 c.bank) 0x820) id (fun c => { c with placed := true, loader := none })
        exec (.copyPlaced id) s = .next (goingOn s (raftOn (if c.stale then evictCopies d1 [id] else d1)))) ∧
      (c.placed = true → exec (.copyPlaced id) s = .next (goingOn s d))) ∧
    (descOf d r = some x →
      let d1 : Dev := { d with sys.ltc := max d.sys.ltc (x.since + reg d (pg 0x50 (bankOfBerth r.berth) + 0x100)) }
      (loadOpen x = true → x.nextItem < x.count →
        exec (.raftLoadWaitExpiry r) s = .next (goingOn s (raftOn (loadItems r false (x.count - x.nextItem) d1)))) ∧
      (x.engine ≠ 0x10 → x.needCopy = true → x.phase = .running → ∀ code, firstRefusal (x.pre ++ [cBUSY]) = some code →
        exec (.raftLoadWaitExpiry r) s = .next (goingOn s (raftOn (refuseDesc d1 r code)))))

/-- RUNS (06 R201-R209, R212, R216). A RUN reads its stream table and its parameters and starts on copies; a table that cannot be read
refuses it whole. An item in hand whose sources fail, or whose elements do not match, fails with that code, and one still tainted after its
re-runs with UNCORRECTABLE; else it commits, once the writes of its copy's item before it are acknowledged: counted, its partials folded into
its copy's running values, each SINK's elements written to its stream. Its copy then takes a further item. (How many of a failed item's beats
had been computed is a free share: log 129.) The end writes the running values and frees the copies. (Choices of the model that clauses rest
on: logs 80, 82, 83 and 91.) -/
def Obligations.RunsCommitTheirItems : Prop :=
  ∀ (s : State) (r : DescRef) (x : Desc),
    let d := s.dev
    (engineDesc d r 0x10 2 = some x → x.copies = [] → x.table = [] →
      let a := descRead (runDesc d r) x tableKey d.xmap.node (dfld x 0x20 0 48) (32 * dfld x 0x20 48 5)
      let b := descRead a.2 x tableKey d.xmap.node (dfld x 0x38 0 48) (8 * paramWords x)
      (∀ t p, a.1 = .ok t → b.1 = .ok p →
        exec (.raftRun r) s = .next (goingOn s (runStart (onDesc b.2 r (fun x => { x with table := t, params := p })) r))) ∧
      (∀ c code, (a.1 = .fail c ∧ b.1 ≠ .wait) ∨ (b.1 = .fail c ∧ ∃ t, a.1 = .ok t) → firstRefusal (x.pre ++ [c]) = some code →
        exec (.raftRun r) s = .next (goingOn s (refuseDesc b.2 r code))) ∧
      (a.1 = .wait ∨ b.1 = .wait → exec (.raftRun r) s = .next (goingOn s b.2))) ∧
    (∀ item c, runningRun d r = some x → item ∈ inHand d x → copyFor d x item = some c →
      let i := imageOf c.image
      let srcs := sortBy (fun p => p.1.stream) (i.entries.zipIdx.filter (fun p => p.1.op == 2))
      let g := readSources x (streamsOf x) item srcs d
      let res := runItem i.entries (envOf i c) (g.1.map (fun p => (p.1, p.2.flow)))
      let gens := res.firings.foldl (fun m f => NMap.set 0 m f.1 (genAfter f.2 (NMap.get 1 m f.1))) c.gens
      let d2 := onCopy (count g.2 (pg 0x50 c.bank) 0x830 res.exc) c.id (fun c => { c with gens := gens })
      let spoiltNow := isSpoilt g.2 x.r item
      (g.1.any (fun p => p.2.waits) = true → exec (.itemCommit r item) s = .next (goingOn s g.2)) ∧
      (g.1.any (fun p => p.2.waits) = false →
        (itemCode g.1 res ≠ cOK → exec (.itemCommit r item) s = .next (goingOn s
          (letGo (failItem (noteFirings g.2 c res false) x.r item (itemCode g.1 res)) r item))) ∧
        (itemCode g.1 res = cOK → spoiltNow = true → exec (.itemCommit r item) s = .next (goingOn s
          (letGo (failItem (noteFirings g.2 c res false) x.r item cUNCORR) r item))) ∧
        (itemCode g.1 res = cOK → spoiltNow = false → mayCommit g.2 x item = false → exec (.itemCommit r item) s = .next (goingOn s g.2)) ∧
        (itemCode g.1 res = cOK → spoiltNow = false → mayCommit g.2 x item = true →
          let d3 := commitUnit (count d2 (pg 0x50 c.bank) 0x800) x item item
          let d4 := onCopy d3 c.id (fun c => { c with running := foldPartials i.entries c.running res.partials })
          exec (.itemCommit r item) s = .next (goingOn s (letGo (writeSinks x i item res.sinks d4) r item))))) ∧
    (∀ i item n f e, i.entries[n]? = some e →
      let t := (streamsOf x).getD e.stream noStream
      writeSinks x i item [(n, f)] d = writeRun d x item t ((dnum x 0x28 4 + item) * t.per) (sinkRun t f)) ∧
    (runningRun d r = some x → x.r = r →
      (unitsDone d r = true → exec (.runEnd r) s = .next (goingOn s (raftOn (releaseCopies (finishDesc
        ((d.raft.copies.filter (fun c => x.copies.contains c.id)).foldl (endCopy x) d) r) r)))) ∧
      (unitsDone d r = false → exec (.runEnd r) s = .next (goingOn s d)))

/-- SU FAULTS AND REMAPS (06 R213-R218, R220). A single-bit scratch error is corrected and counted. A context parity failure takes its SU
out of service: it is listed failed, recorded, and the module is degraded; a first residue or link failure only marks the SU for a second
within its time. GO stops the rows with a pending remap. A stopped row whose copies are all idle is remapped: its copies are evicted, its
pending columns skipped, and the event raised. (Choices of the model that clauses rest on: log 117.) -/
def Obligations.SuFaultsAndRemaps : Prop :=
  ∀ (s : State) (su bank row : Nat) (p : Path), bank < 2 → row < 16 →
    let k := su / 512 * 64 + su % 512 / 32 * 4 + su % 32 / 8
    (bankLive s.dev (su / 512) = true → runningIn s.dev su = none →
      exec (.suFault su .scratchSingle) s = .next (goingOn s (count s.dev (pgI 0x51 64 k) 0x808)) ∧
      (suDown s.dev su = false → ∃ t, exec (.suFault su .contextParity) s = .next (goingOn s t) ∧ NSet.mem t.raft.failed (suPhys s.dev su) = true ∧
        t.salv.degraded = true ∧ t.tiers.mem = s.dev.tiers.mem) ∧
      (let key := suPhys s.dev su * 2
       NMap.get 0 s.dev.raft.lastFail key = 0 → ∃ t, exec (.suFault su .residue) s = .next (goingOn s t) ∧
        t.raft = { s.dev.raft with lastFail := NMap.set 0 s.dev.raft.lastFail key (s.dev.sys.ltc + 1) })) ∧
    (bankLive s.dev (su / 512) = false → ∀ c, exec (.suFault su c) s = .next (goingOn s s.dev)) ∧
    (Reaches s.dev p (pg 0x50 bank + 0x118) ⟨0x50, bank, 0⟩ →
      let d := dropHalves s.dev p
      let off := pg 0x50 bank + 0x118
      exec (.remapGo p bank) s = .next (written s p ((List.range 16).foldl (fun d r => onRow d (bank * 16 + r) (fun m =>
        if m.pends.isEmpty then m else { m with stopped := true })) (setReg d off (reg s.dev off % 2))))) ∧
    (let d := s.dev
     let m := rowMap d (bank * 16 + row)
     let mine := d.raft.copies.filter (fun c => c.bank == bank && decide (c.row ≤ row) && decide (row < c.row + c.h))
     (m.pends = [] ∨ m.stopped = false ∨ mine.any (fun c => !idleCopy c) = true → exec (.remapApply bank row) s = .next (goingOn s d)) ∧
     (m.pends ≠ [] → m.stopped = true → mine.all idleCopy = true →
       exec (.remapApply bank row) s = .next (goingOn s (raftOn (raise (onRow (evictCopies d (mine.map (·.id))) (bank * 16 + row)
         (fun m => { (m.pends.foldl skipColumn m) with pends := [], stopped := false })) (pg 0x50 bank) 2)))))

/-! ## Training state and snapshots (08) -/

/-- OPT_STEP, NORM AND MERGE (08 R254-R271). Each runs on copies of its built-in image once its tables have been read. Tables that are refused,
or a berth too small for a copy, refuse the descriptor whole; behind others it waits for a copy. An item in the hand of a copy whose element
runs have been read fails with the code of the first that failed; else, once the writes of the copy's item before it are acknowledged, it
commits (OPT_STEP: its state rewritten by the recipe; NORM: its squares' sum and counts folded into its copy; MERGE: its operands' scaled sum
written). With no item left the copies are freed. (Choices of the model that clauses rest on: logs 80, 84, 85, 91, 113 and 130.) -/
def Obligations.TrainingDescriptorsCommitTheirItems : Prop :=
  ∀ (s : State) (r : DescRef) (op : Nat) (x : Desc), 1 ≤ op → op ≤ 3 → engineDesc s.dev r 0x20 op = some x → x.table ≠ [] →
    (∀ m ∈ x.marks, m.2 ≠ zeroDue) →
    let d := runDesc s.dev r
    let y : Desc := { x with phase := .running }
    let c : Instr := if op = 1 then .optStep r else if op = 2 then .norm r else .tsMerge r
    let f := dnum x 0x24 4
    let b : BuiltIn :=
      if op = 1 then { tag := if fld f 0 4 = 0 then 0x8000000000002001 else 0x8000000000002002
                       w := if fld f 0 4 = 0 then 4 else 2, h := 1, limit := dfld x 0x38 0 8 }
      else if op = 2 then { tag := 0x8000000000002003, w := 1, h := 1, limit := dfld x 0x38 0 8 }
      else { tag := 0x8000000000002004, w := 1, h := 1, limit := dfld x 0x20 8 8 }
    let found := if op = 1 then optRefusals x else if op = 2 then normRefusals x else mergeRefusals d x
    let codes := x.pre ++ (found ++ codeIf (berthTooSmall d x b) cLENGTH)
    (x.copies = [] → ∀ code, firstRefusal codes = some code → exec c s = .next (goingOn s (refuseDesc d r code))) ∧
    (x.copies = [] → firstRefusal codes = none → x.count = 0 → exec c s = .next (goingOn s (finishDesc d r))) ∧
    (x.copies = [] → firstRefusal codes = none → x.count ≠ 0 → behindOthers d x = true → exec c s = .next (goingOn s (awaitCopy d y))) ∧
    (∀ k i, x.count ≠ 0 → x.count ≤ x.nextItem → x.redo = [] → x.units = none → activeCopies d x = [k] → k.on = true → k.hand = [i] →
      x.copies ≠ [] →
      (op = 1 → bit f 24 = false → ∀ e first n, itemAt (fld f 27 4) (tsEntries x) i = some (e, first, n) →
        let node := d.xmap.node
        let g := readRuns y i first n ([runAt node e.p (fld f 4 4) false, runAt node e.m (fld f 8 4) false] ++
          (if fld f 0 4 = 0 then [runAt node e.v (fld f 8 4) false] else []) ++ [runAt node e.g (fld f 12 4) (bit f 20)]) d
        let bad := readsCode g.1 ≠ cOK ∨ isSpoilt g.2 r i = true
        g.1.any (·.waits) = false → bad ∨ mayCommit g.2 y i = true →
        let failed (code : Nat) : Dev := noteItem (count g.2 (pg 0x50 (bankOfBerth r.berth)) 0x808) r i code
        let t := letGo (if readsCode g.1 ≠ cOK then failed (readsCode g.1) else if isSpoilt g.2 r i then failed cUNCORR
          else optCommit g.2 y i e first n g.1) r i
        optDone t r = true → exec c s = .next (goingOn s (endCopies t r))) ∧
      (op = 2 → ∀ u, normItem d y i = (.done, u) → unitsDone (letGo u r i) r = true → ∀ z, descOf (letGo u r i) r = some z →
        exec c s = .next (goingOn s (endCopies (normEnd z (letGo u r i)) r))) ∧
      (op = 3 → ∀ u, mergeItem d y i = (.done, u) → unitsDone (letGo u r i) r = true → exec c s = .next (goingOn s (endCopies (letGo u r i) r))))

/-- SNAPSHOTS (08 R273-R279). An OPEN with a list longer than its bitmap, or of a slot that is not free, is refused whole; else the slot opens with
the items that pass. A SEAL of a free slot is UNSUPPORTED, of another job's ACCESS_DENIED, of more items than the slot has LENGTH; one accepted
waits until every item is done. A DROP of the job's slot ends a SEAL that waits with ABORTED and frees the slot once no copy is in flight; of any
other its item is ACCESS_DENIED. At the point, with every source quiet and the bitmap's zeroes written, the slot copies, the held requests go on
and the OPEN completes. A tile is copied once, when its turn has come and it has been read, counted and shown in the bitmap; with the last tile
the slot drains; a tile that cannot be read is lost. An item copied and on flash is done; once every item is, a SEAL that waits completes with
the items' codes. (Choices of the model that clauses rest on: logs 87, 91 and 142.) -/
def Obligations.SnapshotsOpenTakeTheirCourseAndEnd : Prop :=
  (∀ (s : State) (r : DescRef) (x : Desc), s.dev.tiers.snaps.length = 32 → r.berth < 256 →
     let d := s.dev
     let d1 := runDesc d r
     let n := bankOfBerth r.berth * 16 + dfld x 0x24 0 4
     let sl := d.tiers.snaps.getD n {}
     let busy := codeIf (sl.st != .free) cBUSY
     (engineDesc d r 0x20 0x10 = some x → sl.opener ≠ some r →
       (x.count = 0 → ∀ code, firstRefusal (x.pre ++ busy) = some code → exec (.snapOpen r) s = .next (goingOn s (refuseDesc d1 r code))) ∧
       (x.count = 0 → firstRefusal (x.pre ++ busy) = none → exec (.snapOpen r) s = .next (goingOn s (finishDesc d1 r))) ∧
       (x.count ≠ 0 → ∀ t, descRead d1 x tableKey d.xmap.node (dfld x 0x18 0 48) (32 * x.count) = (.wait, t) →
         exec (.snapOpen r) s = .next (goingOn s t)) ∧
       (x.count ≠ 0 → ∀ c t code, descRead d1 x tableKey d.xmap.node (dfld x 0x18 0 48) (32 * x.count) = (.fail c, t) →
         firstRefusal (x.pre ++ (busy ++ [c])) = some code → exec (.snapOpen r) s = .next (goingOn s (refuseDesc t r code))) ∧
       (x.count ≠ 0 → ∀ l t, descRead d1 x tableKey d.xmap.node (dfld x 0x18 0 48) (32 * x.count) = (.ok l, t) →
         let args := (List.range x.count).map (fun i => snapArg (sub l (32 * i) 32))
         let need := total (args.map (fun a => match extOf t a.src with | some e => extBytes e / 2048 | none => 0))
         let codes := x.pre ++ (codeIf (decide (dnum x 0x30 4 < need)) cLENGTH ++ busy)
         (∀ code, firstRefusal codes = some code → exec (.snapOpen r) s = .next (goingOn s (refuseDesc t r code))) ∧
         (firstRefusal codes = none → exec (.snapOpen r) s = .next (goingOn s (openSlot t x args))) ∧
         (firstRefusal codes = none → (∀ a ∈ args, snapCode t x (args.flatMap snapBases) a = cOK) →
           let items := args.map (fun a =>
             ({ src := a.src, bounce := a.bounce, dest := a.dest
                tiles := match extOf t a.src with | some e => extBytes e / 256 | none => 0 } : SnapItem))
           let opened : SnapSlot := { st := .holding, job := x.job, berth := r.berth, bitmap := dfld x 0x28 0 48, since := t.sys.ltc
                                      items := items, opener := some r }
           exec (.snapOpen r) s = .next (goingOn s ((args.map (·.src)).foldl holdSource
             (zeroBitmap (onSnap (accrue t r.berth) n (fun _ => opened)) x (dnum x 0x30 4))))))) ∧
     (engineDesc d r 0x20 0x11 = some x →
       let free := decide (sl.st = .free) || sl.dropper.isSome
       let codes := x.pre ++ codeIf free cUNSUP ++ codeIf (!free && sl.job != x.job) cDENIED ++
         codeIf (!free && decide (sl.items.length < x.count)) cLENGTH
       (sl.sealer ≠ some r → ∀ code, firstRefusal codes = some code → exec (.snapSeal r) s = .next (goingOn s (refuseDesc d1 r code))) ∧
       (sl.sealer ≠ some r → firstRefusal codes = none → exec (.snapSeal r) s = .next (goingOn s
         (if x.count = 0 then finishDesc d1 r else sealOn (onSnap d1 n (fun u => { u with sealer := some r })) n))) ∧
       (sl.sealer = some r → exec (.snapSeal r) s = .next (goingOn s (sealOn d1 n)))) ∧
     (engineDesc d r 0x20 0x12 = some x → x.count = 1 →
       let halted := onSnap d1 n (fun u => { stopItems (fun _ => true) cABORTED u with
         opener := none, sealer := none, st := if u.st == .holding then .draining else u.st })
       let freed (t : Dev) : Dev := dropOn (onSnap t n (fun u => { u with dropper := some r })) n
       (sl.dropper ≠ some r → sl.st = .free ∨ sl.dropper.isSome = true ∨ sl.job ≠ x.job →
         exec (.snapDrop r) s = .next (goingOn s (finishDesc (noteItem d1 r 0 cDENIED) r))) ∧
       (sl.dropper = some r → exec (.snapDrop r) s = .next (goingOn s (dropOn d1 n))) ∧
       (sl.dropper = none → sl.st ≠ .free → sl.job = x.job → sl.opener = none → sl.sealer = none → d.flying = [] →
         ∃ t, exec (.snapDrop r) s = .next (goingOn s (finishDesc t r)) ∧ t.tiers.snaps.getD n {} = {} ∧ t.tiers.mem = d.tiers.mem) ∧
       (∀ q z, sl.dropper = none → sl.st ≠ .free → sl.st ≠ .holding → sl.job = x.job → sl.opener = none → sl.sealer = some q →
         descOf halted q = some z →
         exec (.snapDrop r) s = .next (goingOn s (freed (endSnapWaits
           (finishDesc ((List.range z.count).foldl (fun d i => noteItem d q i cABORTED) halted) q)))))) ∧
     (∀ q z, sl.st ≠ .free → sl.st ≠ .holding → sl.dropper = none → sl.items.all (·.done) = true → sl.sealer = some q → descOf d q = some z →
       let noted := ((sl.items.take z.count).zipIdx).foldl (fun d p => if p.1.status = 0 then d else noteItem d q p.2 p.1.status)
         (onSnap d n (fun u => { u with st := .done }))
       sealOn d n = finishDesc (onSnap (accrue noted sl.berth) n (fun _ => {})) q)) ∧
  (∀ (s : State) (bank slot item tile : Nat), bank < 2 → slot < 16 → s.dev.tiers.snaps.length = 32 → s.dev.flying = [] →
     let d := s.dev
     let n := bank * 16 + slot
     let sl := d.tiers.snaps.getD n {}
     (sl.st ≠ .holding ∨ sl.dropper.isSome = true ∨ (sl.items.map (·.src)).all (sourceQuiet d) = false ∨ bitmapZero d sl = false →
       exec (.snapPoint bank slot) s = .next (goingOn s d)) ∧
     (sl.st = .holding → sl.dropper = none → (sl.items.map (·.src)).all (sourceQuiet d) = true → bitmapZero d sl = true →
       ∃ t, exec (.snapPoint bank slot) s = .next (goingOn s (match sl.opener with | some r => finishDesc t r | none => t)) ∧
         t.tiers.snaps.getD n {} = { sl with st := .copying, opener := none } ∧
         (∀ i ∈ sl.items, ∀ x, extOf t i.src = some x → x.held = false)) ∧
     (∀ i, sl.items[item]? = some i → sl.st = .copying → i.failed = false → tile < i.tiles → NSet.mem i.copied tile = false →
       copyNext sl item tile = true →
       exec (.snapTileCopied bank slot item tile) s = .next (goingOn s (endSnapWaits (noteDraining (snapCopy d n item tile) n)))) ∧
     (∀ i src dst, sl.items[item]? = some i → extOf d i.src = some src → extOf d i.bounce = some dst → i.bounce ≠ 0 → sl.full = none →
       let d1 := snapRead d src n item tile sl.job .source
       (snapGot d1 n item tile = none → snapCopy d n item tile = d1) ∧
       (∀ g, snapGot d1 n item tile = some g →
         let d2 := onSnap d1 n (fun u => { u with ahead := u.ahead.filter (fun a => a != (item, tile)) })
         let d3 := count (onSnapItem d2 n item (fun i => { i with copied := NSet.add i.copied tile })) (pg 0x33 bank) 0x850
         snapCopy d n item tile = setBitmap (snapOnward d3 dst g n sl.job .image) n item tile)) ∧
     (∀ (x : Extent) (g : SnapGot) (part : SnapPart),
       let d1 := onSnap d n (fun u => { u with formed := u.formed.filter (fun h => !(h.item == g.item && h.tile == g.tile)) })
       (g.status = cOK → snapOnward d x g n sl.job part = snapWrite d1 x (extBase x + g.tile * 256) g.data n g.item g.tile sl.job part) ∧
       (g.status ≠ cOK → part = .image → snapOnward d x g n sl.job part = snapLost (poisonTile d1 x g.tile) n g.item g.tile g.status) ∧
       (g.status ≠ cOK → part = .final → snapOnward d x g n sl.job part = snapLost d1 n g.item g.tile g.status)) ∧
     (∀ i, sl.items[item]? = some i → sl.st ≠ .copying ∨ i.failed = true ∨ i.tiles ≤ tile ∨ NSet.mem i.copied tile = true ∨
         copyNext sl item tile = false →
       exec (.snapTileCopied bank slot item tile) s = .next (goingOn s d)) ∧
     (∀ i x, sl.items[item]? = some i → i.done = false → i.failed = false → i.bounce = 0 → i.tiles ≤ i.copied.length →
       (sl.st = .copying ∨ sl.st = .draining) → extOf d i.dest = some x → sl.sealer = none → sl.dropper = none →
       ∃ t, exec (.snapItemDone bank slot item) s = .next (goingOn s t) ∧ ∃ j, (t.tiers.snaps.getD n {}).items[item]? = some j ∧ j.done = true ∧
         (i.status = 0 → j.status = if flashBroken d x then cTIER else cOK)) ∧
     (∀ i, sl.items[item]? = some i → i.done = true → sl.dropper = none →
       exec (.snapItemDone bank slot item) s = .next (goingOn s (sealOn d n))))

/-! ## The Purser (09) and Sounding (10) -/

/-- TABLE SLOTS AND INDICES (09 R285-R289, R301-R303). A slot that another job holds refuses a descriptor with ACCESS_DENIED, a free one any but
a DEFINE, and one being freed every one, with UNSUPPORTED. DEFINE of a free slot keeps the record as version 1, and a malformed record refuses
it; FREE lets the slot go once no descriptor binds it; SWITCH takes a new version and the old one stays until it drains, a version that is not the
slot's being VERSION_CONFLICT. Once no descriptor is bound to the old version, its forwarding entries go and the SWITCH completes; once none is
bound to a slot that is being freed, the slot is free and the FREE completes. One that passes every refusal with a COUNT of 0 completes and does nothing. An index resolves to rows within its
tables: directly, by hash, or as quotient and remainder, which name one index only; one beyond the table is invalid. (Choices of the model
that clauses rest on: logs 88 and 91.) -/
def Obligations.TableSlotsAndIndices : Prop :=
  (∀ (s : State) (r : DescRef) (x : Desc) (l : List Byte) (t : Dev),
    let d := s.dev
    let d1 := runDesc d r
    let n := purserSlot x
    let sl := tableSlot d n
    let codes := slotRefusals d x
    (x.opcode ≠ 0x10 →
      (sl.st = .free → codes = if x.opcode = 1 then [] else [cUNSUP]) ∧
      (sl.st ≠ .free → (cDENIED ∈ codes ↔ sl.job ≠ x.job) ∧ (cUNSUP ∈ codes ↔ x.opcode = 1 ∨ sl.st = .freeing))) ∧
    (engineDesc d r 0x30 1 = some x →
      (cDENIED ∈ codes → ∀ code, firstRefusal (x.pre ++ codes) = some code → exec (.purserDefine r) s = .next (goingOn s (refuseDesc d1 r code))) ∧
      (cDENIED ∉ codes → descRead d1 x tableKey d.xmap.node (dfld x 0x18 0 48) 64 = (.ok l, t) →
        let all := x.pre ++ (codes ++ codeIf (tableOfBytes l).bad cUNSUP)
        (∀ code, firstRefusal all = some code → exec (.purserDefine r) s = .next (goingOn s (refuseDesc t r code))) ∧
        (firstRefusal all = none → exec (.purserDefine r) s = .next (goingOn s
          (finishDesc (if x.count = 0 then t else setTable t n { st := .defined, job := x.job, record := l, version := 1 }) r))))) ∧
    (engineDesc d r 0x30 2 = some x → sl.freer ≠ some r →
      (∀ code, firstRefusal (x.pre ++ codes) = some code → exec (.purserFree r) s = .next (goingOn s (refuseDesc d1 r code))) ∧
      (firstRefusal (x.pre ++ codes) = none → exec (.purserFree r) s = .next (goingOn s
        (if x.count = 0 then finishDesc d1 r else setTable d1 n { sl with st := .freeing, freer := some r })))) ∧
    (engineDesc d r 0x30 3 = some x → sl.switcher ≠ some r → cDENIED ∉ codes →
      descRead d1 x tableKey d.xmap.node (dfld x 0x18 0 48) 64 = (.ok l, t) → tableSlot t n = sl →
      let old := tableOfBytes sl.record
      let new := tableOfBytes l
      let bad := new.bad || new.dim != old.dim || new.fmt != old.fmt || new.map != old.map
      let all := x.pre ++ (slotRefusals t x ++ codeIf bad cUNSUP ++ codeIf (sl.oldVersion != 0) cBUSY)
      (∀ code, firstRefusal all = some code → exec (.purserSwitch r) s = .next (goingOn s (refuseDesc t r code))) ∧
      (firstRefusal all = none → dnum x 0x24 4 ≠ sl.version → exec (.purserSwitch r) s = .next (goingOn s (refuseDesc t r cVERSION))) ∧
      (firstRefusal all = none → dnum x 0x24 4 = sl.version →
        let v := if sl.version = 0xFFFFFFFF then 1 else sl.version + 1
        exec (.purserSwitch r) s = .next (goingOn s (if x.count = 0 then finishDesc t r
          else setTable (count t (pg 0x60 (n / 1024)) 0x838) n
            { sl with record := l, version := v, oldVersion := sl.version, oldRec := sl.record, switcher := some r })))) ∧
    (∀ bank slot, let m := bank * 1024 + slot
      let u := tableSlot d m
      let ended (t : Dev) (r : Option DescRef) : Dev := match r with | some r => finishDesc t r | none => t
      (u.st = .defined → u.oldVersion ≠ 0 →
        (tableBound d m u.oldVersion = true → exec (.purserVersionDrained bank slot) s = .next (goingOn s d)) ∧
        (tableBound d m u.oldVersion = false → exec (.purserVersionDrained bank slot) s = .next (goingOn s
          (ended (setTable (dropFwd d m u.oldVersion) m { u with oldVersion := 0, oldRec := [], switcher := none }) u.switcher)))) ∧
      (u.st = .freeing → u.oldVersion = 0 →
        (tableBound d m 0 = true → exec (.purserVersionDrained bank slot) s = .next (goingOn s d)) ∧
        (tableBound d m 0 = false → exec (.purserVersionDrained bank slot) s = .next (goingOn s
          (ended (setTable (dropFwd d m 0) m {}) u.freer)))) ∧
      (u.st ≠ .freeing → u.oldVersion = 0 → exec (.purserVersionDrained bank slot) s = .next (goingOn s d)))) ∧
  (∀ (t : Table) (i j : Nat), 0 < t.rows → 0 < t.rows2 →
    (t.map = 0 → resolveRows t i = if i < t.rows then some [(false, i)] else none) ∧
    (t.map = 1 → (t.limit ≠ 0 → t.limit ≤ i → resolveRows t i = none) ∧
      (t.limit = 0 ∨ i < t.limit → ∃ k, k < t.rows ∧ resolveRows t i = some [(false, k)])) ∧
    (t.map = 2 ∨ t.map = 3 → (t.rows * t.rows2 ≤ i → resolveRows t i = none) ∧
      (i < t.rows * t.rows2 → ∃ q k, q < t.rows ∧ k < t.rows2 ∧ i = q * t.rows2 + k ∧ resolveRows t i = some [(false, q), (true, k)]) ∧
      (i < t.rows * t.rows2 → resolveRows t i = resolveRows t j → i = j)))

/-- GATHER, UPDATE AND MIGRATE (09 R290-R300, R305-R307). With its table bound, a GATHER's bag in the hand of a copy is pooled, written at its
place and each item's code noted; an UPDATE's item gives its contributions, and with the last of them its rows are merged and ask for their
locks, each on its copy. MIGRATE asks for the lock of each item's row. The first waiter whose row is free takes its lock; a row whose writes
are acknowledged lets it go, counted; a migrated row's forwarding entry flips when its copy is acknowledged. (Choices of the model that
clauses rest on: logs 28, 88, 91 and 131.) -/
def Obligations.GathersUpdatesAndRowLocks : Prop :=
  ∀ (s : State) (r : DescRef) (x : Desc) (n version : Nat) (t : Table),
    let d := s.dev
    let d1 := runDesc d r
    let y : Desc := { x with phase := .running }
    let a := argsOf x.table
    let working (k : Copy) (i : Nat) : Prop :=
      x.copies ≠ [] ∧ activeCopies d x = [k] ∧ k.on = true ∧ k.hand = [i] ∧ x.redo = [] ∧ unitsIn x ≤ x.nextItem
    (∀ k b, engineDesc d r 0x30 0x10 = some x → boundOf d r = some (n, version, t) → working k b →
      ∀ u, gatherBag a n version t d1 y b = (.done, u) → unitsDone (letGo u r b) r = true →
        exec (.gather r) s = .next (goingOn s (endCopies (letGo u r b) r))) ∧
    (∀ k i, engineDesc d r 0x30 0x11 = some x → boundOf d r = some (n, version, t) → working k i → NMap.get 0 x.marks mergedKey ≠ 1 →
      ∀ u, updateItem a n version t d1 y i = (.done, u) → unitsDone (letGo u r i) r = true →
        ∀ z, descOf (letGo u r i) r = some z → exec (.update r) s = .next (goingOn s (purserFinish (mergeRows (letGo u r i) z n) r))) ∧
    (engineDesc d r 0x30 0x11 = some x → boundOf d r = some (n, version, t) → x.copies ≠ [] → NMap.get 0 x.marks mergedKey = 1 →
      activeCopies d x ≠ [] → exec (.update r) s = .next (goingOn s (purserFinish (workLocks d1 r) r))) ∧
    (engineDesc d r 0x30 0x20 = some x → boundOf d r = some (n, version, t) → exec (.migrate r) s = .next (goingOn s
      (purserFinish (runItems r (migrateItem n version t) (x.count - x.nextItem) (workLocks d1 r)) r))) ∧
    (engineDesc d r 0x30 0x20 = some x → boundOf d r = none →
      (∀ code, firstRefusal (x.pre ++ slotRefusals d x) = some code → exec (.migrate r) s = .next (goingOn s (refuseDesc d1 r code))) ∧
      (firstRefusal (x.pre ++ slotRefusals d x) = none → dnum x 0x24 4 ≠ (tableSlot d (purserSlot x)).version →
        exec (.migrate r) s = .next (goingOn s (refuseDesc d1 r cVERSION))) ∧
      (firstRefusal (x.pre ++ slotRefusals d x) = none → dnum x 0x24 4 = (tableSlot d (purserSlot x)).version →
        let sl := tableSlot d (purserSlot x)
        exec (.migrate r) s = .next (goingOn s (purserFinish (runItems r
          (migrateItem (purserSlot x) sl.version (tableOfBytes sl.record)) (x.count - x.nextItem) (workLocks (bindTable d1 x) r)) r)))) ∧
    (∀ bank, d.purser.waits.find? (fun w => w.key.bank == bank && lockFree d w.key) = none → exec (.rowLockGrant bank) s = .next (goingOn s d)) ∧
    (∀ bank w, d.purser.waits.find? (fun w => w.key.bank == bank && lockFree d w.key) = some w →
      let d2 := count { d with purser.waits := delFirst (fun v => v.key == w.key) d.purser.waits } (pg 0x60 bank) 0x840
        (d.sys.ltc - w.use.since)
      exec (.rowLockGrant bank) s = .next (goingOn s (takeLock d2 w.key w.use))) ∧
    (∀ bank id l, lockOf d id = some l → l.key.bank = bank →
      (l.holder.acted = false ∨ itemBusy d l.holder.r (lockKey id) = true →
        exec (.rowUpdateDone bank id) s = .next (goingOn s d) ∧ exec (.migrateFlip bank id) s = .next (goingOn s d)) ∧
      (l.holder.acted = true → itemBusy d l.holder.r (lockKey id) = false → itemStatus d l.holder.r (lockKey id) = cOK →
        (l.holder.migrate = false → l.holder.status = cOK →
          exec (.rowUpdateDone bank id) s = .next (goingOn s (freeLock (count d (pg 0x60 bank) 0x818) l cOK))) ∧
        (l.holder.migrate = true → exec (.migrateFlip bank id) s = .next (goingOn s
          (freeLock (count { d with purser.fwd := d.purser.fwd.filter (fun f => f.key != l.key) ++
            (if l.holder.dest = 0 then [] else [{ key := l.key, loc := l.holder.dest }]) } (pg 0x60 bank) 0x830) l cOK)))))

/-- INDEX SLOTS, APPENDS AND MERGES (10 R313, R314, R319, R327-R329). DEFINE and FREE as for tables. An APPEND's record takes the next
sequence and is written to the side area under it; once acknowledged it counts as written, a failed one's sequence is void, and the visible
sequence moves past both. A MERGE binds the slot's version and its visible sequence and reads what it needs; when its writes are acknowledged
the slot takes the new directory as a new version. Once no other descriptor is bound to the old version it is dropped and the MERGE completes;
once none is bound to a slot that is being freed, the slot is free and the FREE completes. Sequences wrap at 48 bits (log 140). (Choices of
the model that clauses rest on: logs 89, 91 and 137.) -/
def Obligations.IndexSlotsAppendsAndMerges : Prop :=
  ∀ (s : State) (r : DescRef) (x : Desc) (l : List Byte) (t : Dev) (bank slot : Nat),
    let d := s.dev
    let d1 := runDesc d r
    let n := soundSlot x
    let sl := indexSlot d n
    let codes := indexRefusals d x
    let m := bank * 256 + slot
    let u := indexSlot d m
    (x.opcode ≠ 0x10 →
      (sl.st = .free → codes = if x.opcode = 1 then [] else [cUNSUP]) ∧
      (sl.st ≠ .free → (cDENIED ∈ codes ↔ sl.job ≠ x.job) ∧ (cUNSUP ∈ codes ↔ x.opcode = 1 ∨ sl.st = .freeing))) ∧
    (engineDesc d r 0x40 1 = some x → cDENIED ∉ codes → descRead d1 x tableKey d.xmap.node (dfld x 0x18 0 48) 64 = (.ok l, t) →
      let all := x.pre ++ (codes ++ codeIf (indexOf l).bad cUNSUP)
      let q := (indexOf l).mseq
      (∀ code, firstRefusal all = some code → exec (.soundDefine r) s = .next (goingOn s (refuseDesc t r code))) ∧
      (firstRefusal all = none → exec (.soundDefine r) s = .next (goingOn s (finishDesc (if x.count = 0 then t
        else setIndex t n { st := .defined, job := x.job, record := l, version := 1, mseq := q, vseq := q, lastSeq := q }) r)))) ∧
    (engineDesc d r 0x40 2 = some x → sl.freer ≠ some r →
      (∀ code, firstRefusal (x.pre ++ codes) = some code → exec (.soundFree r) s = .next (goingOn s (refuseDesc d1 r code))) ∧
      (firstRefusal (x.pre ++ codes) = none → exec (.soundFree r) s = .next (goingOn s
        (if x.count = 0 then finishDesc d1 r else setIndex d1 n { sl with st := .freeing, freer := some r })))) ∧
    (let ended (t : Dev) (r : Option DescRef) : Dev := match r with | some r => finishDesc t r | none => t
     (u.st = .defined → u.oldVersion ≠ 0 →
       (indexBound d m u.oldVersion u.merger = true → exec (.soundVersionDrained bank slot) s = .next (goingOn s d)) ∧
       (indexBound d m u.oldVersion u.merger = false → exec (.soundVersionDrained bank slot) s = .next (goingOn s
         (ended (setIndex d m { u with oldVersion := 0, merger := none }) u.merger)))) ∧
     (u.st = .freeing → u.oldVersion = 0 →
       (indexBound d m 0 none = true → exec (.soundVersionDrained bank slot) s = .next (goingOn s d)) ∧
       (indexBound d m 0 none = false → exec (.soundVersionDrained bank slot) s = .next (goingOn s (ended (setIndex d m {}) u.freer)))) ∧
     (u.st ≠ .freeing → u.oldVersion = 0 → exec (.soundVersionDrained bank slot) s = .next (goingOn s d))) ∧
    (engineDesc d r 0x40 0x20 = some x → (qboundOf d r).isSome = true → x.count = x.nextItem + 1 → ∀ v,
      appendItem n (indexOf sl.record) d1 { x with phase := .running } x.nextItem = (.done, v) →
      let w := onDesc v r passItem
      ∀ z, descOf w r = some z → exec (.append r) s = .next (goingOn s (appendDone w n z))) ∧
    (∀ seq item q, u.open_.find? (fun o => o.1 == seq) = some (q, r, item) → itemBusy d r item = false →
      let ok := itemStatus d r item = cOK
      let u1 : IndexSlot := { u with open_ := u.open_.filter (fun o => o.1 != seq)
                                     written := if ok then NSet.add u.written seq else u.written
                                     voids := if ok then u.voids else NSet.add u.voids seq }
      let d2 := setIndex (if ok then d else raise (count d (pg 0x61 (m / 256)) 0x820) (pg 0x61 (m / 256)) 0) m
        (passSeqs (seqGap u1.vseq u1.lastSeq) u1)
      exec (.sideRecordWritten bank slot seq) s = .next (goingOn s
        (d2.descs.foldl (fun d x => if soundSlot x = m then appendDone d m x else d) d2))) ∧
    (engineDesc d r 0x40 0x21 = some x → sl.merger ≠ some r → (∀ m ∈ sl.merging, m.1 ≠ r) →
      let busy := codes ++ codeIf (sl.merging.isSome || sl.oldVersion != 0) cBUSY
      cDENIED ∉ busy → descRead d1 x tableKey d.xmap.node (dfld x 0x18 0 48) 64 = (.ok l, t) →
      let bad := fld (leAt l 0 8) 48 16 != 0 || fld (leAt l 8 8) 48 16 != 0 || fld (leAt l 8 8) 0 8 != 0 || !allZero (sub l 0x18 40)
      let all := x.pre ++ (busy ++ codeIf bad cUNSUP)
      (∀ code, firstRefusal all = some code → exec (.soundMerge r) s = .next (goingOn s (refuseDesc t r code))) ∧
      (firstRefusal all = none → x.count = 0 → exec (.soundMerge r) s = .next (goingOn s (finishDesc t r))) ∧
      (firstRefusal all = none → x.count ≠ 0 → ∀ q,
        let v := bindIndex (onIndex (onDesc t r (fun x => { x with params := l })) n
          (fun k => { k with merging := some (r, fld (leAt l 0 8) 0 48, sl.vseq) })) x sl.version sl.vseq
        indexSlot t n = sl → qboundOf v r = some q → exec (.soundMerge r) s = .next (goingOn s (mergeRead v x n q l)))) ∧
    (∀ dir snap y, u.merging = some (r, dir, snap) → descOf d r = some y → y.count ≤ y.nextItem → descBusy d r = false →
      (itemStatus d r 0 ≠ cOK → exec (.soundMergeSwitch bank slot) s = .next (goingOn s (mergeFails d m r (itemStatus d r 0)))) ∧
      (itemStatus d r 0 = cOK →
        let rec1 := putAt (putAt u.record 0x10 (leBytes 8 dir)) 0x30 (leBytes 8 snap)
        let v := if u.version = 0xFFFFFFFF then 1 else u.version + 1
        let u1 : IndexSlot := { u with record := rec1, version := v, mseq := snap, oldVersion := u.version, merging := none
                                       merger := some r, voids := u.voids.filter (seqAfter snap) }
        exec (.soundMergeSwitch bank slot) s = .next (goingOn s (setIndex (count d (pg 0x61 (m / 256)) 0x828) m u1))))

/-- QUERIES, SCANS AND COMBINES (10 R317-R326, R330, R331). A QUERY whose slot is bound works the item in the hand of a copy: its result block
written; with the last, each copy adds to the counter, and the copies are freed. The scan at the head of a punt's queue is counted, scores its
tiles with the punt's table and returns its best pairs, and the next scan's table is loaded. A COMBINE has its copies and looks at its counters:
with every shard present it merges; else it waits, and at the end of its wait it merges what is there, with the event. A PQ_SCAN works its
ranges with its table. (Choices of the model that clauses rest on: logs 84, 89, 90, 91, 136 and 137.) -/
def Obligations.QueriesScansAndCombines : Prop :=
  ∀ (s : State) (r : DescRef) (x : Desc),
    let d := s.dev
    let d1 := runDesc d r
    let y : Desc := { x with phase := .running }
    (∀ k i q, engineDesc d r 0x40 0x10 = some x → x.copies ≠ [] → activeCopies d x = [k] → k.on = true → k.hand = [i] → x.redo = [] →
      unitsIn x ≤ x.nextItem → qboundOf d r = some q →
      ∀ u, queryItem (indexOf (indexSlot d (soundSlot x)).record) q d1 y i = (.done, u) →
        unitsDone (letGo u r i) r = true → dfld x 0x30 0 48 = 0 ∨ descBusy (letGo u r i) r = false →
        ∀ z, descOf (letGo u r i) r = some z → exec (.query r) s = .next (goingOn s (endCopies (queryEnd z (letGo u r i)) r))) ∧
    (∀ chan sc rest x, bankLive d (chan / 16) = true → (puntAt d chan).scans = sc :: rest → descOf d sc.r = some x →
      (sc.tiles.any (fun t => puntWaits d x t.2.1) = true → exec (.puntScanDone chan) s = .next (goingOn s d)) ∧
      (sc.tiles.any (fun t => puntWaits d x t.2.1) = false →
      let page := pgI 0x62 16 chan
      let next (p : Punt) : Punt := { table := (rest.head?.map (·.table)).getD p.table, scans := rest }
      let d2 := count (count (count (onPunt d chan next) page 0x800) page 0x808 (total (sc.tiles.map (fun t => t.2.2)))) page 0x810
        (256 * sc.tiles.length)
      let g := scanRead x chan sc.tiles d2
      let es := g.1.flatMap (fun t => match t.2.2 with | .ok l => tileEntries sc.m t.2.1 l | _ => [])
      let v := scoreEntries sc.k sc.m (tableF32 (puntAt d chan).table) sc.filter es
      ∃ f : Found, f.item = sc.item ∧ f.tiles = sc.tiles.map Prod.fst ∧ f.best = v.1.map (fun p => (fp32.enc .rne p.1, p.2)) ∧
        f.entries = v.2.1 ∧ (f.bad = none ↔ ∀ t ∈ g.1, ∀ c, t.2.2 ≠ .fail c) ∧
        exec (.puntScanDone chan) s = .next (goingOn s (onDesc g.2 sc.r (fun y => { y with found := y.found ++ [f] }))))) ∧
    (∀ chan, bankLive d (chan / 16) = true → (puntAt d chan).scans = [] → exec (.puntScanDone chan) s = .next (goingOn s d)) ∧
    (∀ chan, bankLive d (chan / 16) = false → exec (.puntScanDone chan) s = .next (goingOn s d)) ∧
    (engineDesc d r 0x40 0x11 = some x → x.params ≠ [] → exec (.combine r) s = .next (goingOn s (combineRun d1 y))) ∧
    (engineDesc d r 0x40 0x11 = some x → x.params = [] → x.copies ≠ [] → exec (.combine r) s = .next (goingOn s (combineLook d1 x false))) ∧
    (engineDesc d r 0x40 0x11 = some x → x.params = [] → x.copies = [] → x.table ≠ [] →
      let codes := x.pre ++ (combineRefusals x (cargsOf x.table) ++ codeIf (berthTooSmall d1 x (combineOn x)) cLENGTH)
      (∀ code, firstRefusal codes = some code → exec (.combine r) s = .next (goingOn s (refuseDesc d1 r code))) ∧
      (firstRefusal codes = none → x.count = 0 → exec (.combine r) s = .next (goingOn s (finishDesc d1 r)))) ∧
    (combineWaiting d r = some x →
      let look (d : Dev) (late : Bool) (u : Dev) : Prop :=
        ∀ l t, descRead d x countersKey d.xmap.node (cargsOf x.table).done (4 * shardsOf x) = (.ok l, t) →
          let here (k : Nat) : Bool := decide (0 < intOf 32 (leAt l (4 * k) 4))
          let put (x : Desc) : Desc := { x with params := (List.range (shardsOf x)).map (fun k => byte (b2n (here k))) }
          let v := dropReads (onDesc t x.r put) x.r countersKey
          ((List.range (shardsOf x)).all here = true → ∀ z, descOf v x.r = some z → u = combineRun v z) ∧
          ((List.range (shardsOf x)).all here = false → late = false → u = dropReads t x.r countersKey) ∧
          ((List.range (shardsOf x)).all here = false → late = true → ∀ z, descOf v x.r = some z →
            u = combineRun (raise v (pg 0x61 (bankOfBerth x.r.berth)) 1) z)
      (∃ u, exec (.combineCountersReady r) s = .next (goingOn s u) ∧ look d false u) ∧
      (∃ u, exec (.soundCombineWaitExpiry r) s = .next (goingOn s u) ∧
        look { d with sys.ltc := max d.sys.ltc (x.since + reg d (pg 0x61 (bankOfBerth r.berth) + 0x160)) } true u)) ∧
    (engineDesc d r 0x60 1 = some x → x.count ≠ 0 → x.table ≠ [] →
      exec (.pqScan r) s = .next (goingOn s (runAll d1 x (pqItem (unpackElems 32 (dfld x 0x20 0 7 * 256) 0 x.table))))) ∧
    (engineDesc d r 0x60 1 = some x → x.count = 0 → exec (.pqScan r) s = .next (goingOn s (finishDesc d1 r)))

/-! ## Landings and the Wharf (11), traffic (12), loss lists (04) -/

/-- LINKS (11 R346-R349, R371, R373). From the LANDINGS step on an enabled Landing trains, 1 ms after its link went down or last tried: with a
partner that offers a generation and an allowed width it is trained and comes up with both directions at SEQ 0, empty replay buffers and full
credits; lanes newly found bad degrade the module. A lane that is no longer good, or a write of RETRAIN, starts a retrain, counted, with the
event RETRAIN; it ends at the widest width the good lanes allow, a narrowing raising NARROWED, and with none the link goes down, degraded. At link-down the unacknowledged flits are dropped and the loss list is built, in each bank as far as its list has
room. (Choices of the model that clauses rest on: logs 1, 6, 132 and 160.) -/
def Obligations.LinksTrainComeUpRetrainAndGoDown : Prop :=
  ∀ (s : State) (p : Path) (n lane : Nat) (offer : PartnerOffer) (good : BitVec 4), n < 16 → s.dev.lands.length = 16 →
    let d := s.dev
    let l := land d n
    let page := landPage n
    let ctl := reg d (page + 0x100)
    let least := 2 ^ fld ctl 4 2
    let idle : LinkState := if bit ctl 2 then .down else .disabled
    let w := min (widest good.toNat) l.cap
    let again (d : Dev) (soft : Bool) : Dev :=
      raise (count (onLand d n (fun l => { l with st := .retraining, swRetrain := soft })) page 0x830) page 3
    (bankLive d (n / 8) = true → 0x10 ≤ d.sys.step → bit ctl 2 = true → l.st = .down ∨ l.st = .training →
      let now := match l.downAt with | some t => max d.sys.ltc (t + 800000) | none => d.sys.ltc
      let d0 : Dev := { d with sys.ltc := now }
      (offer = .none → exec (.trainingAttempt n offer good) s = .next (leaving s
        (onLand d0 n (fun l => { l with downAt := some now, st := .training, trained := false, partnerEf2 := false })))) ∧
      let tried := onLand d0 n (fun l => { l with downAt := some now })
      let told := if w < 4 ∧ l.laneOk ≠ .ofNat 4 good.toNat then raiseDegraded tried (n / 8) else tried
      (offer ≠ .none → w = 0 ∨ w < least → exec (.trainingAttempt n offer good) s = .next (leaving s
        (onLand told n (fun l => { l with st := .down, trained := false, partnerEf2 := decide (offer = .ef2)
                                          laneOk := .ofNat 4 good.toNat, lanesBad := true })))) ∧
      (offer ≠ .none → w ≠ 0 → least ≤ w → exec (.trainingAttempt n offer good) s = .next (leaving s
        (onLand told n (fun l => { l with st := .training, trained := true, partnerEf2 := decide (offer = .ef2)
                                          gen2 := decide (offer = .ef2) && decide (fld ctl 0 2 = 2), width := w
                                          laneOk := .ofNat 4 good.toNat, lanesBad := false }))))) ∧
    (bit ctl 2 = false ∨ d.sys.step < 0x10 ∨ l.st = .up → exec (.trainingAttempt n offer good) s = .next (leaving s d)) ∧
    (bankLive d (n / 8) = true → l.st = .training → l.trained = true →
      ∃ t, exec (.linkUp n) s = .next (goingOn s t) ∧ (land t n).st = .up ∧ (land t n).txNext = 0 ∧ (land t n).rxNext = 0 ∧ (land t n).replay = [] ∧
        (land t n).credit = List.replicate 8 2048) ∧
    (l.st ≠ .training → exec (.linkUp n) s = .next (goingOn s d)) ∧
    (l.st = .up → ∀ lane, lane < 4 →
      let d1 := onLand d n (fun l => { l with laneOk := l.laneOk &&& ~~~(BitVec.ofNat 4 (2 ^ lane)) })
      exec (.laneLockLoss n lane) s = .next (leaving s (again d1 false)) ∧ exec (.laneErrLimit n lane) s = .next (leaving s (again d1 false))) ∧
    (l.st ≠ .up → exec (.laneLockLoss n lane) s = .next (leaving s d) ∧ exec (.laneErrLimit n lane) s = .next (leaving s d)) ∧
    (l.st = .retraining →
      let new := min (if l.swRetrain then widest good.toNat else min (widest good.toNat) l.width) l.cap
      (widest good.toNat ≠ 0 → least ≤ new → l.replay = [] →
        let d1 := onLand d n (fun l => { l with st := .up, width := new, laneOk := .ofNat 4 good.toNat, swRetrain := false
                                                gen2 := decide (fld ctl 0 2 = 2) && l.partnerEf2, fecErrs := [0, 0, 0, 0]
                                                fecSince := d.sys.ltc })
        exec (.retrainDone n good) s = .next (goingOn s
          (if new < l.width then raiseDegraded (raiseFe d1 page 2 (feUnit n)) (n / 8) else d1))) ∧
      (widest good.toNat = 0 ∨ new < least → ∃ t, exec (.retrainDone n good) s = .next (goingOn s t) ∧ (land t n).st = idle ∧
        (land t n).lanesBad = true ∧ t.salv.degraded = true)) ∧
    (l.st = .up ∨ l.st = .retraining →
      let east := 16384 - (lossesIn d 0).length
      let west := 16384 - (lossesIn d 1).length
      ∃ t, exec (.linkDown n) s = .next (goingOn s t) ∧ (land t n).st = idle ∧ (land t n).replay = [] ∧ (land t n).accepted = [] ∧
        (land t n).downAt = some d.sys.ltc ∧
        t.quay.lossList = d.quay.lossList ++ ((l.accepted.take (max east west)).zipIdx).map
          (fun a => { landing := n, src := a.1.src, reqId := a.1.reqId, outcome := a.1.outcome, since := d.sys.ltc
                      inEast := decide (a.2 < east), inWest := decide (a.2 < west) })) ∧
    (l.st = .down ∨ l.st = .disabled ∨ l.st = .training → exec (.linkDown n) s = .next (goingOn s d)) ∧
    (Reaches d p (page + 0x100) ⟨0x11, n / 8, n % 8⟩ →
      let e := dropHalves d p
      let kept (on : Bool) : Dev := setReg e (page + 0x100) (fld ctl 0 2 + (if on then 4 else 0) + fld ctl 4 2 * 16)
      (bit ctl 2 = true → l.st = .up → exec (.landRetrain p n) s = .next (written s p (again (kept true) true))) ∧
      (l.st = .disabled → bit ctl 3 = false → exec (.landEnable p n true) s = .next (written s p
        (onLand (kept true) n (fun l => { l with st := .down, downAt := none })))) ∧
      (l.st ≠ .disabled → bit ctl 3 = false → exec (.landEnable p n true) s = .next (written s p (kept true))) ∧
      (bit ctl 3 = false → NMap.wf (2 ^ 64) d.regs = true → ∃ t, exec (.landEnable p n false) s = .next (written s p t) ∧ (land t n).st = .disabled))

/-- FLITS, REPLAY AND FOGHORN FRAMES (11 R338-R346, R348, R371, R372). A bad flit is discarded whole and NAK is owed; a good traffic flit is
accepted only when its SEQ is the one expected, which then rises by 1 modulo 4,096, and the messages in its slots are taken; every other one
makes NAK owed. A flit that is sent carries the latest accepted SEQ as its ACK, the NAK that is owed, the credit of one class in turn, its slots
and CHECK. When ACK has not advanced for LAND_ACK_TIMEOUT every unacknowledged flit is resent in SEQ order, with RESEND set, or the link retrains
where the oldest has been resent LAND_REPLAY_MAX times. A Foghorn frame goes out in a control flit every 8,000 cycles; a missed one is counted,
and LAND_FOG_MISS of them take the link down. (Choices of the model that clauses rest on: logs 1, 14, 74 and 132.) -/
def Obligations.FlitsAreAcceptedInOrderAndResent : Prop :=
  ∀ (s : State) (n : Nat) (flit : List Byte) (ok : Bool) (fixed : List Nat) (sender : BitVec 32),
    n < 16 → s.dev.lands.length = 16 → NMap.wf (2 ^ 64) s.dev.regs = true →
    let d := s.dev
    let l := land d n
    let page := landPage n
    let w := leAt flit 0 8
    let h := headOf w
    let good : Prop := ok = true ∧ crc64 (sub flit 0 248) = leAt flit 248 8 ∧ fld w 26 2 ≠ 3
    let taken := takeAck d n h
    let rx : Instr := .flitRx n flit ok fixed
    (Still d → bankLive d (n / 8) = true → l.st = .up →
      (¬ good → ∃ t, exec rx s = .next (afterAccess s t s.fuses) ∧ (land t n).nakOwed = true ∧ (land t n).rxNext = l.rxNext ∧
        (land t n).replay = l.replay ∧ (land t n).credit = l.credit) ∧
      (good → fld w 26 2 = 0 → exec rx s = .next (afterAccess s (laneErrs taken n fixed) s.fuses)) ∧
      (good → fld w 26 2 = 2 → exec rx s = .next (afterAccess s (laneErrs (if leAt flit 8 1 = 1
        then fogRx taken n (leAt flit 20 4) else taken) n fixed) s.fuses)) ∧
      (good → fld w 26 2 = 1 → fld w 0 12 = l.rxNext →
        let d1 := count (onLand taken n (fun l => { l with
          rxNext := (l.rxNext + 1) % 4096, nakOwed := false, rxFlits := l.rxFlits + 1
          accepted := l.accepted.filter (fun a => decide (l.rxFlits + 1 < a.flit + 512)) })) page 0x808
        let r := rxSlots d1 s.fuses n (fld w 32 15) (sub flit 8 240)
        exec rx s = .next (afterAccess s (laneErrs r.1 n fixed) r.2)) ∧
      (good → fld w 26 2 = 1 → fld w 0 12 ≠ l.rxNext →
        exec rx s = .next (afterAccess s (laneErrs (onLand taken n (fun l => { l with nakOwed := true })) n fixed) s.fuses))) ∧
    (Still d → l.st = .down ∨ l.st = .disabled ∨ l.st = .training ∨ l.st = .retraining →
      exec rx s = .next (afterAccess s d s.fuses)) ∧
    (∀ kind seq start resend slots, l.sinceCtl < 256 → ∃ k : FlitHead,
      (sendFlit d n kind seq start resend slots).tx = d.tx ++ [.flit n k (sub slots 0 240) (crc64 (flitBody k slots))] ∧
      k.seq = seq ∧ k.ack = (l.rxNext + 4095) % 4096 ∧ (k.ackV = true ↔ 0 < l.rxFlits) ∧ k.nak = l.nakOwed ∧ k.kind = kind ∧
      k.resend = resend ∧ k.start = start ∧ k.credClass = l.credNext ∧ k.cred = l.freed.getD l.credNext 0) ∧
    (∀ r rest, l.st = .up → l.replay = r :: rest →
      let now := max d.sys.ltc (l.lastAck + reg d (page + 0x110))
      let d0 : Dev := { d with sys.ltc := now }
      (r.resends < reg d (page + 0x118) → exec (.landAckTimeout n) s = .next (leaving s
        (l.replay.foldl (fun d r => count (sendFlit d n 1 r.seq r.start true r.slots) page 0x818)
          (onLand d0 n (fun l => { l with replay := l.replay.map (fun r => { r with resends := r.resends + 1 }), lastAck := now }))))) ∧
      (reg d (page + 0x118) ≤ r.resends →
        ∃ t, exec (.landAckTimeout n) s = .next (leaving s t) ∧ (land t n).st = .retraining ∧ (land t n).replay = l.replay)) ∧
    (l.replay = [] → exec (.landAckTimeout n) s = .next (leaving s d)) ∧
    (l.st = .up → 0x11 ≤ d.sys.step →
      ∃ (t : Dev) (f : Foghorn) (k : FlitHead), exec (.foghornTx n) s = .next (leaving s t) ∧ t.sys.ltc = max d.sys.ltc (l.fogLastTx + 8000) ∧
        t.tx = d.tx ++ [.flit n k (sub (fogBytes f) 0 240) (crc64 (flitBody k (fogBytes f)))] ∧ k.kind = 2 ∧
        (land t n).fogSeq = (l.fogSeq + 1) % 2 ^ 24 ∧ f.port = n ∧ f.node = d.xmap.node ∧ f.epoch = d.xmap.epoch ∧ f.seq = l.fogSeq) ∧
    (l.st ≠ .up → exec (.foghornTx n) s = .next (leaving s d)) ∧
    (linkUp d n = true →
      exec (.foghornRx n sender) s = .next (leaving s
        (setReg (onLand d n (fun l => { l with fogLastRx := d.sys.ltc, fogMissedNow := 0 })) (page + 0x130) sender.toNat)) ∧
      (l.fogMissedNow + 1 < reg d (page + 0x128) →
        exec (.foghornMiss n) s = .next (goingOn s (count (onLand (advanceTo d (l.fogLastRx + 8000 * (l.fogMissedNow + 1))) n
          (fun l => { l with fogMissedNow := l.fogMissedNow + 1 })) page 0x840))) ∧
      (reg d (page + 0x128) ≤ l.fogMissedNow + 1 → ∃ t, exec (.foghornMiss n) s = .next (goingOn s t) ∧ linkUp t n = false)) ∧
    (linkUp d n = false → exec (.foghornRx n sender) s = .next (leaving s d) ∧ exec (.foghornMiss n) s = .next (goingOn s d))

/-- THE WHARF AND THE SCHEDULER'S COMMANDS (11 R365, R366, R369, R376, R377; 12 R384, R391, R393, R396, R400; 04 R134, R135, R147). The head
of an input's queue is admitted where its guarantee, or the shared pool under WHARF_ALPHA, has its cells, and waits, counted, where not. A
frame over the age limit at the head of its queue is discarded and counted. A Landing sends the frame the scheduler chooses and takes its
credit. WHARF_GMIN and WHARF_EP_BASE take what their tables accept; FM_CFG applies the staged values of the selected job or is discarded;
METER_SNAP keeps the selected berth's integrals. A loss list that is complete lets held requests go on, and expires with its window.
(Choices of the model that clauses rest on: logs 6, 14, 15, 23, 48, 54 and 121.) -/
def Obligations.WharfAdmitsAgesAndSends : Prop :=
  ∀ (s : State) (p : Path) (bank input output cls ld id : Nat) (v : BitVec 32), bank < 2 →
    let d := s.dev
    let e := dropHalves d p
    (∀ f, bankLive d bank = true → inputHead d bank input output cls = some f → f.group = 0 → f.output < 8 → overAge d f = false →
      let k := f.bank * 512 + f.output * 8 + f.cls
      let need := (f.slots * 16 + 127) / 128
      let g := min need (gminOf d f.bank f.output f.cls - NMap.get 0 d.wharf.gused k)
      let free := sharedSize d f.bank - sharedUsed d f.bank
      let held := NMap.get 0 d.wharf.sheld k
      let fits : Prop := need - g ≤ free ∧ (held + (need - g)) * 8 ≤ reg d (pg 0x10 f.bank + 0x110) * (free - (need - g))
      (need = g ∨ (f.yellow = false ∧ fits) →
        ∃ t h, exec (.frameAdmit bank input output cls) s = .next (leaving s t) ∧ h ∈ t.wharf.frames ∧ h.id = f.id ∧ h.admitted = true ∧
          h.cellsG = g ∧ h.cellsS = need - g ∧ h.msg = f.msg) ∧
      (need ≠ g → ¬ fits →
        exec (.frameAdmit bank input output cls) s = .next (leaving s (count d (pg 0x10 f.bank) 0x818)))) ∧
    (inputHead d bank input output cls = none → output < 8 → exec (.frameAdmit bank input output cls) s = .next (leaving s d)) ∧
    (∀ f, d.wharf.frames.find? (fun f => f.id == id && f.bank == bank) = some f → f.report = false → isHead d f = true →
      let d1 : Dev := { d with sys.ltc := max d.sys.ltc (f.stamp + reg d (pg 0x10 bank + 0x100) + 1) }
      let d2 := raiseFe (count (dropFrame d1 f) (pg 0x10 bank) 0x800) (pg 0x10 bank) 0 (agedFe d1 f)
      (∀ h ∈ d2.wharf.frames, h.id ≠ f.id) ∧
      exec (.frameAged bank id) s = .next (goingOn s
        (agedThen (if f.admitted = true ∧ f.output < 8 then idleTags d2 (bank * 8 + f.output) else d2) f))) ∧
    (∀ f tag, (land d ld).st = .up → bankLive d (ld / 8) = true → ld < 16 → d.lands.length = 16 →
      chooseFrame (count d (pg 0x70 (ld / 8)) 0x810 (gateHeld d ld)) ld = some (f, tag, true) →
      (land d ld).replay.length + (f.slots + 14) / 15 ≤ 512 →
      ∃ t, exec (.landingFrameSend ld) s = .next (leaving s t) ∧ (∀ h ∈ t.wharf.frames, h.id ≠ f.id) ∧
        (land t ld).credit = modAt (fun c => c - f.slots) (land d ld).credit f.cls) ∧
    ((land d ld).st = .up → bankLive d (ld / 8) = true →
      let d1 := count d (pg 0x70 (ld / 8)) 0x810 (gateHeld d ld)
      chooseFrame d1 ld = none → exec (.landingFrameSend ld) s = .next (leaving s (sendFlit d1 ld 0 0 0 false []))) ∧
    ((land d ld).st ≠ .up → exec (.landingFrameSend ld) s = .next (leaving s d)) ∧
    (Reaches d p (pg 0x10 bank + 0x120) ⟨0x10, bank, 0⟩ →
      let sel := reg d (pg 0x10 bank + 0x118)
      let d1 : Dev := { e with wharf.gmin := NMap.set 32 d.wharf.gmin (bank * 512 + fld sel 0 6 * 8 + fld sel 6 3) v.toNat }
      exec (.wharfGminWrite p bank v) s = .next (written s p
        (if 50 ≤ fld sel 0 6 ∨ v.toNat < 4 ∨ 4096 < v.toNat then e
         else if 262144 < gminSum d1 bank ∨ sharedSize d1 bank < sharedUsed d1 bank then raise e (pg 0x10 bank) 2 else d1))) ∧
    (Reaches d p (pg 0x10 bank + 0x138) ⟨0x10, bank, 0⟩ →
      exec (.wharfEpBaseWrite p bank v) s = .next (written s p
        (if d.wharf.epValid then e else { e with wharf.epBase := fld v.toNat 9 9, wharf.epValid := v.getLsbD 31 }))) ∧
    (Reaches d p (pg 0x71 0 + 0x108) ⟨0x71, 0, 0⟩ →
      let r (o : Nat) : Nat := reg d (pg 0x71 0 + o)
      let f := NMap.get {} d.sched.fare (r 0x100 % 4096)
      let discarded : Prop := (∃ i, i < 4 ∧ fld v.toNat (2 + 2 * i) 2 = 3) ∨ r 0x120 < r 0x110
      (discarded → exec (.fmCfgWrite p v) s = .next (written s p e)) ∧
      (¬ discarded → v.getLsbD 0 = true → f.enable = false →
        let g : FareJob := { f with enable := true, aware := v.getLsbD 1, pre := fld v.toNat 2 8, cir := r 0x110, cbs := r 0x118
                                    pir := r 0x120, pbs := r 0x128, tc := r 0x118 * 800, tp := r 0x128 * 800, seen := d.sys.ltc }
        exec (.fmCfgWrite p v) s = .next (written s p { e with sched.fare := NMap.set {} d.sched.fare (r 0x100 % 4096) g }))) ∧
    (Reaches d p (pg 0x72 bank + 0x108) ⟨0x72, bank, 0⟩ →
      let b := reg d (pg 0x72 bank + 0x100) % 256
      let m := NMap.get {} (accrue e b).sched.meters b
      let kept : MeterSnap :=
        { ltc := d.sys.ltc, vals := if bankOfBerth b = bank then m.ints ++ [m.tx, m.rx] else List.replicate 10 0 }
      let put (d : Dev) : Dev :=
        if bank = 0 then { d with sched.snapEast := kept } else { d with sched.snapWest := kept }
      exec (.meterSnap p bank) s = .next (written s p
        (count (raise (put (accrue e b)) (pg 0x72 bank) 0) (pg 0x72 bank) 0x800))) ∧
    (d.flying = [] →
      let built (l : Loss) : Loss := if l.landing = ld then { l with building := false } else l
      exec (.lossListComplete ld) s = .next (goingOn s { d with quay.losses := d.quay.losses.map built })) ∧
    (∀ l rest, d.quay.losses = l :: rest → l.landing = ld → l.building = false →
      ∃ t, exec (.lossListExpire ld) s = .next (leaving s t) ∧ t.quay.losses = rest ∧
        t.quay.lossList = d.quay.lossList.filter (fun e => !(e.landing == ld && e.since == l.since)))

/-- TIMETABLES (12 R392-R395, R401-R403). TT_ENTRY writes an entry of the shadow list; while a switch is armed the write is discarded with
WR_ARMED. ARM is accepted only where N_ENTRIES is from 1 to 256, every entry lasts at least 8 cycles, and the base time is at least 64 cycles
ahead; otherwise it is discarded with ARM_REFUSED and its reason. DISARM clears ARMED before the base time. At the base time the shadow list
becomes the active list and the old list the shadow list, ARMED clears, and SWITCHED is raised. (Choices of the model that clauses rest on:
logs 1 and 75.) -/
def Obligations.TimetablesArmAndSwitch : Prop :=
  ∀ (s : State) (p : Path) (bank ld : Nat) (v : BitVec 64), bank < 2 → s.dev.sched.tts.length = 16 →
    let d := s.dev
    let e := dropHalves d p
    let page := pg 0x70 bank
    let n := bank * 8 + reg d (page + 0x200) % 8
    let t := ttOf d n
    (Reaches d p (page + 0x228) ⟨0x70, bank, 0⟩ →
      let sel := reg d (page + 0x220)
      (bit sel 8 = false → exec (.ttEntryWrite p bank v) s = .next (written s p e)) ∧
      (bit sel 8 = true → t.armed = true → exec (.ttEntryWrite p bank v) s = .next (written s p (raise e page 2))) ∧
      (bit sel 8 = true → t.armed = false → ∃ D, exec (.ttEntryWrite p bank v) s = .next (written s p D) ∧ (ttOf D n).active = t.active ∧
        ∀ i, ttEntry (ttOf D n).shadow i = if i = sel % 256 then BitVec.ofNat 64 (v.toNat % 2 ^ 49) else ttEntry t.shadow i)) ∧
    (Reaches d p (page + 0x208) ⟨0x70, bank, 0⟩ → t.shadowN < 512 →
      let short : Prop := ∃ i, i < t.shadowN ∧ (ttEntry t.shadow i).toNat % 2 ^ 32 < 8
      let refused (why : Nat) : Dev := count (raise (onTt e n (fun t => { t with reason := why })) page 1) page 0x820
      (t.armed = false →
        (t.shadowN = 0 ∨ 256 < t.shadowN → exec (.ttArm p bank) s = .next (written s p (refused 1))) ∧
        (0 < t.shadowN → t.shadowN ≤ 256 → short → exec (.ttArm p bank) s = .next (written s p (refused 2))) ∧
        (0 < t.shadowN → t.shadowN ≤ 256 → ¬ short → t.nextBase < d.sys.ltc + 64 → exec (.ttArm p bank) s = .next (written s p (refused 3))) ∧
        (0 < t.shadowN → t.shadowN ≤ 256 → ¬ short → d.sys.ltc + 64 ≤ t.nextBase →
          ∃ D, exec (.ttArm p bank) s = .next (written s p D) ∧ (ttOf D n).armed = true ∧ (ttOf D n).active = t.active ∧
            ∀ i, ttEntry (ttOf D n).shadow i = ttEntry t.shadow i)) ∧
      (t.armed = true → d.sys.ltc < t.nextBase →
        exec (.ttDisarm p bank) s = .next (written s p (onTt e n (fun t => { t with armed := false })))) ∧
      (t.armed = false ∨ t.nextBase ≤ d.sys.ltc → exec (.ttDisarm p bank) s = .next (written s p e))) ∧
    (ld < 16 →
      let u := ttOf d ld
      let g := gateNow u d.sys.ltc
      let switched (t : Dev) : Prop := t.sys.ltc = max d.sys.ltc u.nextBase ∧ (ttOf t ld).active = u.shadow ∧
        (ttOf t ld).shadow = u.active ∧ (ttOf t ld).base = u.nextBase ∧ (ttOf t ld).armed = false
      (u.armed = false → exec (.ttSwitch ld) s = .next (leaving s d)) ∧
      (u.armed = true → ∃ t, exec (.ttSwitch ld) s = .next (leaving s t) ∧ switched t) ∧
      (u.armed = true → u.nextBase ≤ d.sys.ltc + g.2 → ∃ t, exec (.gateEntryChange ld) s = .next (leaving s t) ∧ switched t) ∧
      (u.armed = false ∨ d.sys.ltc + g.2 < u.nextBase →
        ∃ t, exec (.gateEntryChange ld) s = .next (leaving s t) ∧ t.sys.ltc = d.sys.ltc + g.2 ∧ ttOf t ld = u))

/-! ## PCIe ports and CXL (13 R404-R417, R427-R432; 03 R100) -/

/-- PCIE AND CXL ACCESSES (13 R404, R406-R411, R416, R417, R430; 03 R100). A read, posted write or AtomicOp within a memory function's window, and
a CXL access at the HDM base, becomes a transaction of the end point and job that the function has as it is received, cut at tile boundaries;
outside it a read and an AtomicOp are an Unsupported Request and a posted write is dropped, with a report through AER (log 96), as is a TLP longer
than its size allows (log 149). BAR0 of function 0 is the control space; from offset 2^48 on lies the MSI-X table of each function (log 151). During the quiesce it is answered ABORTED. A completion of a host-tier read answers the request with the host's bytes, POISONED or
TIER_FAILED; a late one fails it, counted. One of a move's source gives its tile; a source that fails ends the move. (Choices of the model
that clauses rest on: logs 1, 65, 66 and 97.) -/
def Obligations.PcieAndCxlAccessesBecomeTransactions : Prop :=
  ∀ (s : State) (n fn off len bytes dpa id : Nat) (data : List Byte) (op : PcieAtomic) (a : HostAnswer),
    n < 2 → fn < 8 → s.dev.ports.length = 2 →
    let d := s.dev
    let page := portPage n
    let f := (port d n).fns.getD fn {}
    let works : Prop := portOpen d n = true
    let inside (k : Nat) : Prop := f.valid = true ∧ f.log2Now ≠ 0 ∧ off + k ≤ 2 ^ f.log2Now
    let at_ := f.base * 2 ^ 21 + off
    let rd := count d page 0x800
    let wr := count d page 0x808
    let taken (d : Dev) (fn kind bytes : Nat) (op : Option PcieAtomic) (l : List Piece) : Dev :=
      onPort d n (fun q => { q with
        tlps := q.tlps ++ [{ id := q.nextTlp % 65536, port := n, fn := fn, kind := kind, bytes := bytes, op := op, pieces := l
                             endPoint := (q.fns.getD fn {}).endPoint, job := (q.fns.getD fn {}).job }]
        nextTlp := q.nextTlp + 1 })
    let window : Prop := works ∧ 0 < fn ∧ off < 2 ^ 48
    let table (w : Nat) : Prop := works ∧ Still d ∧ w < 0x4000
    (¬ works → 0 < fn → exec (.pcieAtomicop n fn off op bytes data) s = .next (goingOn s d) ∧ (Still d →
      exec (.pcieMemoryRead n fn off len) s = .next (afterAccess s d s.fuses) ∧
      exec (.pciePostedWrite n fn off data) s = .next (afterAccess s d s.fuses))) ∧
    (window → Still d →
      (4096 < len → exec (.pcieMemoryRead n fn off len) s = .next (afterAccess s (emit d (.aer n fn)) s.fuses)) ∧
      (512 < data.length → exec (.pciePostedWrite n fn off data) s = .next (afterAccess s (emit d (.aer n fn)) s.fuses))) ∧
    (∀ w, table w →
      exec (.pcieMemoryRead n fn (2 ^ 48 + 4 * w) 4) s =
        .next (afterAccess s (complete rd n fn 0 4 (leBytes 4 (tableWord rd n fn w))) s.fuses) ∧
      (data.length = 4 → exec (.pciePostedWrite n fn (2 ^ 48 + 4 * w) data) s =
        .next (afterAccess s (writeTable wr n fn w (leAt data 0 4)) s.fuses))) ∧
    (window → quiet d = false → Still d →
      (len ≤ 4096 → ¬ inside len → exec (.pcieMemoryRead n fn off len) s = .next (afterAccess s (complete rd n fn 2 len []) s.fuses)) ∧
      (data.length ≤ 512 → ¬ inside data.length →
        exec (.pciePostedWrite n fn off data) s = .next (afterAccess s (emit wr (.aer n fn)) s.fuses)) ∧
      (inside len → 0 < len → len ≤ 4096 → at_ / 256 = (at_ + len - 1) / 256 →
        exec (.pcieMemoryRead n fn off len) s =
          .next (afterAccess s (taken rd fn 0 len none [{ off := at_, bytes := len }]) s.fuses)) ∧
      (inside data.length → data ≠ [] → data.length ≤ 512 → at_ / 256 = (at_ + data.length - 1) / 256 →
        exec (.pciePostedWrite n fn off data) s =
          .next (afterAccess s (taken wr fn 1 data.length none [{ off := at_, bytes := data.length, data := data }]) s.fuses))) ∧
    (window → len ≤ 4096 → inside len → quiet d = true → Still d → exec (.pcieMemoryRead n fn off len) s =
      .next (afterAccess s (complete (count rd (pg 0x03 0) 0x818) n fn (codeClass cABORTED) len []) s.fuses)) ∧
    (window → len ≤ 4096 → inside len → quiet d = false → Still d →
      ∃ l, exec (.pcieMemoryRead n fn off len) s = .next (afterAccess s (taken rd fn 0 len none l) s.fuses) ∧
        total (l.map (fun p => p.bytes)) = len ∧ ∀ p ∈ l, 0 < p.bytes ∧ p.off / 256 = (p.off + p.bytes - 1) / 256) ∧
    (works → off < 2 ^ 48 → quiet d = false → Still d →
      let r := ctlRead (portPath n) off (8 * len) rd s.fuses
      let w := ctlWrite (portPath n) off (8 * data.length) (leAt data 0 data.length) wr s.fuses
      (r.1 = cOK → exec (.pcieMemoryRead n 0 off len) s =
        .next (afterAccess s (complete r.2.2 n 0 0 len (leBytes len r.2.1)) s.fuses)) ∧
      (r.1 ≠ cOK → exec (.pcieMemoryRead n 0 off len) s = .next (afterAccess s (complete r.2.2 n 0 2 len []) s.fuses)) ∧
      (w.1 = cOK → exec (.pciePostedWrite n 0 off data) s = .next (afterAccess s w.2.1 w.2.2)) ∧
      (w.1 ≠ cOK → (port w.2.1 n).up = true →
        exec (.pciePostedWrite n 0 off data) s = .next (afterAccess s (emit w.2.1 (.aer n 0)) w.2.2))) ∧
    (works → quiet d = false →
      let ok : Prop := bytes = 4 ∨ bytes = 8 ∨ (bytes = 16 ∧ op = .cas)
      (fn = 0 → exec (.pcieAtomicop n fn off op bytes data) s = .next (goingOn s (complete (dropHalves d (portPath n)) n fn 2 bytes []))) ∧
      (0 < fn → ¬ ok ∨ ¬ inside bytes → exec (.pcieAtomicop n fn off op bytes data) s = .next (goingOn s (complete d n fn 2 bytes []))) ∧
      (0 < fn → ok → inside bytes →
        exec (.pcieAtomicop n fn off op bytes data) s = .next (goingOn s (taken d fn 2 bytes (some op)
          [{ off := at_, bytes := bytes, data := sub data 0 (if op = .cas then 2 * bytes else bytes) }])))) ∧
    (works → (port d n).proto ≠ .pcie →
      let x := (reg d (page + 0x138) + dpa) % 2 ^ 48 / 64 * 64
      let valid := ((port d n).fns.getD 1 {}).valid
      (valid = true → quiet d = false →
        exec (.cxlMemrd n dpa) s = .next (goingOn s (taken d 1 3 64 none [{ off := x, bytes := 64 }])) ∧
        exec (.cxlMemwr n dpa data) s = .next (goingOn s (taken d 1 4 64 none [{ off := x, bytes := 64, data := (sub data 0 64).take 64 }]))) ∧
      (valid = false → exec (.cxlMemrd n dpa) s = .next (goingOn s (completeCxl d n 3 cUNSUP []))) ∧
      (valid = true → quiet d = true → exec (.cxlMemrd n dpa) s = .next (goingOn s (completeCxl (count d (pg 0x03 0) 0x818) n 3 cABORTED [])))) ∧
    ((port d n).proto = .pcie → exec (.cxlMemrd n dpa) s = .next (goingOn s d) ∧ exec (.cxlMemwr n dpa data) s = .next (goingOn s d)) ∧
    (hostRead d n id = .none → exec (.hostCompletion n id a) s = .next (goingOn s d) ∧ exec (.pcieCplTimeout n id) s = .next (goingOn s d)) ∧
    (∀ r g x, hostRead d n id = .request r g x →
      exec (.hostCompletion n id .poisoned) s = .next (goingOn s (finishFlying (leaveTable d g x) g cPOISON [])) ∧
      exec (.hostCompletion n id .unsupportedRequest) s = .next (goingOn s (failTier d g x)) ∧
      exec (.hostCompletion n id .completerAbort) s = .next (goingOn s (failTier d g x)) ∧
      (let sp := hostSpan g
       exec (.hostCompletion n id (.ok data)) s = .next (goingOn s (answerTier (setMem d (extCell d x sp.1) (sub data 0 sp.2)) g.id))) ∧
      (let d1 := advanceTo d (r.since + reg d (page + 0x148))
       exec (.pcieCplTimeout n id) s = .next (goingOn s
         (failTier (raiseFe (count d1 page 0x830) page 3 (feAcc d1 (accOf g.q x) g.q.h.offset.toNat cTIER)) g x)))) ∧
    (∀ r m tile x, hostRead d n id = .move r m tile x →
      exec (.hostCompletion n id (.ok data)) s = .next (goingOn s (tileCame d n r m tile x data)) ∧
      exec (.hostCompletion n id .poisoned) s = .next (goingOn s (abandonMove d m cUNCORR)) ∧
      exec (.hostCompletion n id .unsupportedRequest) s = .next (goingOn s (abandonMove d m cTIER)) ∧
      exec (.hostCompletion n id .completerAbort) s = .next (goingOn s (abandonMove d m cTIER)) ∧
      (let d1 := advanceTo d (r.since + reg d (page + 0x148))
       let a : Acc := { off := extBase x + tile * 256, job := m.job }
       exec (.pcieCplTimeout n id) s = .next (goingOn s (abandonMove (raiseFe (count d1 page 0x830) page 3 (feAcc d1 a a.off cTIER)) m cTIER))))

/-- PORTS, FUNCTIONS AND VECTORS (13 R405-R407, R412-R415, R428, R431). A port trains and comes up at a rate, width and protocol it may train as; a
port reset takes the link down, disables Bus Master Enable and resets its functions; a function-level reset applies the function's LOG2 and
clears its vectors (of function 0: log 149). RETRAIN of a port that GEN_CAP disables takes it down. A changed BASE of PCIE_FN_WIN takes effect at
once, a changed LOG2 at the reset. A masked vector's message is kept pending and sent once it is unmasked, where Bus Master Enable is set; every
vector of a function counts as present (log 150), and its table holds its address, data, mask and pending bits (log 151). Clearing Bus Master
Enable fails the reads that a port has kept. A BAR0/1 reads 0 while LOG2 is 0. A decoder of one interleave way commits. The CXL mailbox answers
its commands with Success (payloads: log 30). (Choices of the model that clauses rest on: logs 92 and 93.) -/
def Obligations.PciePortsFunctionsAndVectors : Prop :=
  ∀ (s : State) (p : Path) (n fn vec rate width ways k len : Nat) (on : Bool) (proto : PcieProto) (v : BitVec 64),
    n < 2 → s.dev.ports.length = 2 →
    let d := s.dev
    let e := dropHalves d p
    let page := portPage n
    let q := port d n
    let old := vectorOf d n fn vec
    let there : Prop := (fn = 0 ∧ vec < 64) ∨ (0 < fn ∧ fn < 8 ∧ vec < 2048)
    (portThere d n = true → q.training = true → mayTrain d n rate width proto = true →
      exec (.pcieLinkUp n rate width proto) s = .next (goingOn s
        (raise { onPort d n (fun q => { q with up := true, training := false, rate := rate, width := width, proto := proto }) with
                 salv.wasUp := true
                 salv.isolatedSince := none } page 1))) ∧
    (q.training = false → exec (.pcieLinkUp n rate width proto) s = .next (goingOn s d)) ∧
    (mayTrain d n rate width proto = true ↔ rate + q.ctl % 4 ≤ 2 ∧ width ∈ [1, 2, 4, 8, 16] ∧
      (proto = .cxl20 → bit q.ctl 2 = true ∧ rate < 2) ∧
      (proto = .cxl31 → bit q.ctl 2 = true ∧ bit q.ctl 3 = false ∧ rate = 2)) ∧
    (d.flying = [] →
      ∃ t, exec (.pciePortReset n) s = .next (goingOn s t) ∧ (port t n).up = false ∧ (port t n).bme = false ∧ (port t n).vectors = [] ∧
        (port t n).hdm = [false, false, false, false] ∧ (port t n).tlps.all (fun t => t.drop) = true ∧
        (port t n).fns = q.fns.map (fun f => { f with log2Now := f.log2, bar01 := 0, bar23 := 0 })) ∧
    (fn < 8 →
      ∃ t, exec (.functionLevelReset n fn) s = .next (goingOn s t) ∧ (port t n).up = q.up ∧ (port t n).bme = (q.bme && decide (fn ≠ 0)) ∧
        (port t n).fns = modAt (fun f => { f with log2Now := f.log2, bar01 := 0, bar23 := 0 }) q.fns fn ∧
        (port t n).vectors = NMap.keep (fun k => k / 4096 != fn) q.vectors ∧
        ∀ x ∈ (port t n).tlps, x.fn = fn → x.drop = true) ∧
    (Reaches d p (page + 0x100) ⟨0x12, n, 0⟩ →
      let e1 := setReg e (page + 0x100) (reg d (page + 0x100) % 16)
      (portThere e1 n = true → genCap e1 n ≠ 3 →
        exec (.pcieRetrain p n) s = .next (written s p
          (onPort e1 n (fun q => { q with training := true, ctl := reg e1 (page + 0x100) })))) ∧
      (portThere e1 n = false ∨ genCap e1 n = 3 → exec (.pcieRetrain p n) s = .next (written s p
        (if q.up = true ∨ q.training = true then resetPort e1 n else e1)))) ∧
    (Reaches d p (page + 0x120) ⟨0x12, n, 0⟩ →
      let sel := reg d (page + 0x110) % 8
      let log2 := fld v.toNat 0 6
      let base := fld v.toNat 21 27
      let ok : Prop := log2 = 0 ∨ (21 ≤ log2 ∧ log2 ≤ 46 ∧ base * 2 ^ 21 % 2 ^ log2 = 0 ∧ base * 2 ^ 21 + 2 ^ log2 ≤ 2 ^ 48)
      (sel = 0 ∨ ¬ ok → exec (.pcieFnWinWrite p n v) s = .next (written s p e)) ∧
      (sel ≠ 0 → ok → exec (.pcieFnWinWrite p n v) s = .next (written s p
        (onPort e n (fun q => { q with fns := modAt (fun f => { f with log2 := log2, base := base }) q.fns sel }))))) ∧
    (q.up = true → there →
      exec (.msixVectorMask n fn vec) s = .next (leaving s (setVector d n fn vec { old with masked := true })) ∧
      (old.pending = false →
        exec (.msixUnmask n fn vec) s = .next (leaving s (setVector d n fn vec { old with masked := false, pending := false }))) ∧
      (old.pending = true → q.bme = true → NMap.wf {} q.vectors = true →
        exec (.msixUnmask n fn vec) s = .next (leaving s
          (emit (setVector d n fn vec { old with masked := false, pending := false }) (.msix n fn vec)))) ∧
      (old.pending = true → q.bme = false → NMap.wf {} q.vectors = true →
        ∃ t, exec (.msixUnmask n fn vec) s = .next (leaving s t) ∧ t.tx = d.tx ∧
          vectorOf t n fn vec = { old with masked := false, pending := true })) ∧
    (q.up = false ∨ ¬ there →
      exec (.msixVectorMask n fn vec) s = .next (leaving s d) ∧ exec (.msixUnmask n fn vec) s = .next (leaving s d)) ∧
    (there →
      tableWord d n fn (4 * vec) = old.addr % 2 ^ 32 ∧ tableWord d n fn (4 * vec + 1) = old.addr / 2 ^ 32 ∧
      tableWord d n fn (4 * vec + 2) = old.data ∧ tableWord d n fn (4 * vec + 3) = b2n old.masked ∧
      bit (tableWord d n fn (0x2000 + vec / 32)) (vec % 32) = old.pending ∧
      ∀ x, x < 2 ^ 32 → writeTable d n fn (4 * vec + 2) x = setVector d n fn vec { old with data := x } ∧
        (bit x 0 = true → writeTable d n fn (4 * vec + 3) x = setVector d n fn vec { old with masked := true })) ∧
    (let f := q.fns.getD fn {}
     fnIds d n fn = (0x1F3D, if fn = 0 then 0x4B02 else 0x4B03,
       if fn = 0 then 0x120000 else if fn = 1 ∧ q.proto ≠ .pcie then 0x050210 else 0x058000) ∧
     (0 < fn → f.log2Now = 0 → readBar01 d n fn = 0) ∧
     (0 < fn → f.log2Now ≠ 0 → readBar01 d n fn = f.bar01 / 2 ^ f.log2Now * 2 ^ f.log2Now + 4) ∧
     (fn = 0 → readBar01 d n fn = f.bar01 / 2 ^ 24 * 2 ^ 24 + 4) ∧ readBar23 d n fn = f.bar23 / 2 ^ 16 * 2 ^ 16 + 4) ∧
    (q.up = true →
      exec (.busMasterEnable n false) s = .next (goingOn s
        ((q.hostReads.filter (fun r => !r.sent)).foldl failKept (onPort d n (fun q => { q with bme := false })))) ∧
      (q.vectors.all (fun e => !e.2.pending) = true →
        exec (.busMasterEnable n true) s = .next (goingOn s (onPort d n (fun q => { q with bme := true }))))) ∧
    (q.up = false → exec (.busMasterEnable n on) s = .next (goingOn s d) ∧ exec (.hdmDecoderCommit n k ways) s = .next (leaving s d) ∧
      exec (.identifyMemoryDevice n) s = .next (leaving s d)) ∧
    (q.up = true → q.proto ≠ .pcie →
      exec (.hdmDecoderCommit n k 1) s = .next (leaving s (onPort d n (fun q => { q with hdm := modAt (fun _ => true) q.hdm k }))) ∧
      (ways ≠ 1 → exec (.hdmDecoderCommit n k ways) s = .next (leaving s d)) ∧
      (∃ t l, exec (.identifyMemoryDevice n) s = .next (leaving s t) ∧ t.tx = d.tx ++ [.mailbox n 0 l] ∧ l.length = 67 ∧
        leAt l 16 8 = reg d (page + 0x140) / 2 ^ 28 % 2 ^ 64) ∧
      (∃ t l, exec (.getHealthInfo n) s = .next (leaving s t) ∧ t.tx = d.tx ++ [.mailbox n 0 l]) ∧
      (∃ t l, exec (.getEventRecords n) s = .next (leaving s t) ∧ t.tx = d.tx ++ [.mailbox n 0 l]) ∧
      exec (.clearEventRecords n k) s = .next (leaving s (emit d (.mailbox n 0 []))) ∧
      (∃ t l, exec (.getSupportedLogs n) s = .next (leaving s t) ∧ t.tx = d.tx ++ [.mailbox n 0 l]) ∧
      (∃ t l, exec (.getLog n k len) s = .next (leaving s t) ∧ t.tx = d.tx ++ [.mailbox n 0 l] ∧ l.length = len))

/-! ## Management interfaces (13 R421-R426; 15 R468) -/

/-- I3C, MCTP, SPDM, CONSOLE AND TEST PORT (13 R421-R426; 15 R468; 17 R526). ENTDAA assigns the address; HDR traffic is ignored until its exit
pattern. With an endpoint ID set, a well-formed vendor message reads or writes the control space on the I3C path and carries its status and
value back; an unknown type is discarded, counted and reported. SPDM answers on its transport, counted: GET_VERSION names 1.2 and 1.3 and starts
the connection anew, and a request that needs a negotiated connection is ERROR before it; a malformed vendor message is UNSUPPORTED and drops
the I3C path's halves (log 105). A console line of at most 256 bytes is answered (log 45). A test-port instruction selects its TAP's register, a
private one BYPASS unless debug is unlocked: the chain is the East TAP, then the West; IDCODE is 0x2D71A7F3 (instruction codes: log 7).
(Choices of the model that clauses rest on: logs 43 and 44.) -/
def Obligations.ManagementInterfacesAnswer : Prop :=
  ∀ (s : State) (addr : BitVec 7) (type ir : BitVec 8) (m rest : List Byte) (tag : Byte) (off v : BitVec 64) (only private_ : Bool) (tap : Nat),
    let d := s.dev
    let page := pg 0x01 0
    let runs : Prop := d.sys.power = .on ∧ d.sys.phase ≠ .links
    let open_ : Prop := runs ∧ d.mgmt.hdr = false ∧ d.mgmt.i3cValid = true
    let still : Prop := Still d
    let got := count d page 0x800
    (runs → d.mgmt.hdr = false →
      exec (.entdaa addr) s = .next (leaving s { d with mgmt.i3cAddr := addr.toNat, mgmt.i3cValid := true })) ∧
    (d.mgmt.hdr = true → exec (.entdaa addr) s = .next (leaving s d)) ∧
    (runs → exec .hdrTraffic s = .next (leaving s { d with mgmt.hdr := true }) ∧ exec .hdrExitPattern s =
      .next (leaving s { d with mgmt.hdr := false })) ∧
    (still → d.mgmt.i3cValid = false → exec (.mctpControlMessage type m) s = .next (afterAccess s d s.fuses)) ∧
    (still → open_ → m.length < 4096 →
      (type ≠ 0 → type ≠ 5 → type ≠ 0x7E →
        exec (.mctpControlMessage type m) s = .next (afterAccess s (raise (count got page 0x808) page 0) s.fuses)) ∧
      (∀ eid : Byte, m = [0x80, 0x01, 0x00, eid] → eid ≠ 0 → eid ≠ 0xFF →
        exec (.mctpControlMessage 0 m) s = .next (afterAccess s
          (emit { got with mgmt.eid := eid.toNat } (.mctp [0, 0, 1, 0, 0, eid, 0])) s.fuses)) ∧
      (type = 5 ∨ type = 0x7E → d.mgmt.eid = 0 → exec (.mctpControlMessage type m) s = .next (afterAccess s got s.fuses))) ∧
    (still → open_ → d.mgmt.eid ≠ 0 →
      let head (cmd : Nat) : List Byte := [0x7E, 0x1F, 0x3D, byte cmd, tag, 0, 0, 0] ++ leBytes 8 off.toNat
      let answer (cmd st v : Nat) : Out := .mctp ([0x7E, 0x1F, 0x3D, byte (cmd + 128), tag, byte st, 0, 0] ++ leBytes 8 v)
      let reads (w cmd : Nat) : State :=
        let r := ctlRead .i3c off.toNat w got s.fuses
        afterAccess s (emit r.2.2 (answer cmd r.1 r.2.1)) s.fuses
      let writes (w cmd : Nat) : State :=
        let r := ctlWrite .i3c off.toNat w v.toNat got s.fuses
        afterAccess s (emit r.2.1 (answer cmd r.1 0)) r.2.2
      exec (.read32 (head 1)) s = .next (reads 32 1) ∧
      exec (.read64 (head 3)) s = .next (reads 64 3) ∧
      exec (.write32 (head 2 ++ leBytes 8 v.toNat)) s = .next (writes 32 2) ∧
      exec (.write64 (head 4 ++ leBytes 8 v.toNat)) s = .next (writes 64 4)) ∧
    (doeOpen d 0 = true → customsLive d = true →
      let d1 := count d custPage 0x818
      let a := spdmAnswer d1 s.fuses .doe0 m
      let D := emit a.2 (.spdm .doe0 a.1)
      exec (.getVersion .doe0 m) s = .next (leaving s D) ∧ exec (.getCapabilities .doe0 m) s = .next (leaving s D) ∧ exec (.negotiateAlgorithms .doe0 m) s =
        .next (leaving s D) ∧
      exec (.getDigests .doe0 m) s = .next (leaving s D) ∧ exec (.getCertificate .doe0 m) s = .next (leaving s D) ∧ exec (.challenge .doe0 m) s =
        .next (leaving s D) ∧
      exec (.getMeasurements .doe0 m) s = .next (leaving s D) ∧ exec (.chunkSend .doe0 m) s = .next (leaving s D) ∧ exec (.chunkGet .doe0 m) s =
        .next (leaving s D) ∧
      (m = 0x10 :: 0x84 :: 0 :: 0 :: rest → a.1 = [0x10, 0x04, 0, 0, 0, 2, 0x00, 0x12, 0x00, 0x13] ∧
        a.2.mgmt.spdmDoe0 = { stage := 1, vca := m ++ a.1 }) ∧
      (∀ code x y, code ∈ ([0x81, 0x82, 0x83, 0xE0] : List Byte) → m = x :: code :: 0 :: y :: rest → d.mgmt.spdmDoe0.stage < 2 →
        a.1.length = 4 ∧ a.1.drop 1 = [0x7F, 0x04, 0x00])) ∧
    (doeOpen d 0 = false → exec (.getVersion .doe0 m) s = .next (leaving s d) ∧ exec (.challenge .doe0 m) s = .next (leaving s d)) ∧
    (runs → m.length ≤ 256 → (d.sys.straps.debug ≠ 0 ∨ only = true) →
      exec (.consoleInputLine m only) s = .next (leaving s (emit d (.console (.answer m))))) ∧
    (256 < m.length ∨ (d.sys.straps.debug = 0 ∧ only = false) → exec (.consoleInputLine m only) s = .next (leaving s d)) ∧
    (still → open_ → d.mgmt.eid ≠ 0 → ∀ l : List Byte, l ≠ [] →
      exec (.read32 ([0x7E, 0x1F, 0x3D, 1, tag, 0, 0, 0] ++ leBytes 8 off.toNat ++ l)) s = .next (afterAccess s
        (emit (dropHalves got .i3c) (.mctp ([0x7E, 0x1F, 0x3D, 0x81, tag, byte cUNSUP, 0, 0] ++ leBytes 8 0))) s.fuses)) ∧
    (runs →
      let n := if private_ = true ∧ ¬ (d.sys.straps.debug = 1 ∧ d.cust.debugUnlocked = true) then 0xFF else ir.toNat
      exec (.jtagInstruction tap ir private_) s = .next (leaving s
        (if tap = 0 then { d with mgmt.tapEast := n } else { d with mgmt.tapWest := n }))) ∧
    (¬ runs → exec (.jtagInstruction tap ir private_) s = .next (leaving s d)) ∧
    (chain d = [tapReg d.mgmt.tapEast, tapReg d.mgmt.tapWest] ∧
      [0, 1, 2, 3, 4, 0xFF].map tapReg = [.boundary, .boundary, .idcode, .bypass, .bypass, .bypass] ∧
      [0, 1, 2, 3, 4, 0xFF].map pinDrive = [.boundary, .device, .device, .boundary, .none, .device] ∧
      captured .idcode = some 0x2D71A7F3 ∧ captured .bypass = some 0)

/-! ## Customs (15 R465-R467, R471, R472, R476, R477, R480, R482) -/

/-- KEYS, DEBUG UNLOCK, POLICY AND FIRMWARE (15 R466, R467, R471, R472, R476, R477, R480, R482). LOAD sets the 16 data words to zero and loads
an empty slot with the two halves of what the blob unwraps to; a loaded slot is BUSY, a blob that does not unwrap DENIED, two equal halves
UNSUPPORTED. CLEAR empties a slot that no extent refers to; QUERY shows a slot. A verified unlock clears every key. The policy keeps what is
written unless it is locked or holds 0b11. STAGE is accepted and reads its image, which is staged where it passes the checks; ACTIVATE marks a staged one for trial; COMMIT of a
running trial makes its bank active and raises the TYPE's fuse counter to its SVN. Each command is DONE with its code; one written while a STAGE
runs is counted and does nothing (log 32); STAGED shows the TYPE last named. (Choices of the model that clauses rest on: logs 9 and 100.) -/
def Obligations.CustomsCommandsDoTheirEffect : Prop :=
  ∀ (s : State) (p : Path) (slot job : BitVec 12) (type : BitVec 8) (v : BitVec 32),
    (∀ o ∈ [0x108, 0x110, 0x308], Reaches s.dev p (pg 0x02 0 + o) ⟨0x02, 0, 0⟩) →
    let d := s.dev
    let e := dropHalves d p
    let page := pg 0x02 0
    let n := slot.toNat
    let key := NMap.get {} d.cust.keys n
    let put (d : Dev) (k : KeySlot) : Dev := { d with cust.keys := NMap.set {} d.cust.keys n k }
    let ends (d : Dev) (n code : Nat) : Dev :=
      let k := NMap.get {} d.cust.keys n
      let d1 : Dev := { d with cust.keyDone := true, cust.keyResult := code, cust.keyLoadedBit := k.loaded, cust.keyJob := k.job
                               cust.keyRefs := k.refs }
      if code = cOK then d1 else raise (count d1 page 0x808) page 1
    let zero : Dev := { e with cust.keyData := List.replicate 16 0 }
    let blob := d.cust.keyData.flatMap (fun w => leBytes 8 w.toNat)
    let load : Instr := .custKeyLoad p slot job
    (key.loaded = true → exec load s = .next (written s p (ends zero n cBUSY))) ∧
    (key.loaded = false → d.cust.debugUnlocked = true → exec load s = .next (written s p (ends zero n cDENIED))) ∧
    (key.loaded = false → d.cust.debugUnlocked = false →
      (unwrapBlob d n job.toNat blob = none → exec load s = .next (written s p (ends zero n cDENIED))) ∧
      (∀ l, unwrapBlob d n job.toNat blob = some l →
        (l.take 32 = l.drop 32 → exec load s = .next (written s p (ends zero n cUNSUP))) ∧
        (l.take 32 ≠ l.drop 32 → exec load s = .next (written s p (ends
          (count (put zero { key with loaded := true, job := job.toNat, data := l.take 32, tweak := l.drop 32 }) page 0x800) n cOK))))) ∧
    (0 < key.refs → exec (.custKeyClear p slot) s = .next (written s p (ends e n cBUSY))) ∧
    (key.refs = 0 → exec (.custKeyClear p slot) s = .next (written s p (ends (put e {}) n cOK))) ∧
    exec (.custKeyQuery p slot) s = .next (written s p (ends e n cOK)) ∧
    (let verified := edVerify ((List.range 57).map Config.debugKeyByte)
       (ascii "NZK2 debug" ++ devicePub ++ leBytes 8 (startNonce d)) (blob.take 114)
     (d.sys.straps.debug = 0 → exec (.debugUnlock p) s = .next (written s p (ends e 0 cUNSUP))) ∧
     (d.sys.straps.debug ≠ 0 → verified = false → exec (.debugUnlock p) s = .next (written s p (ends e 0 cDENIED))) ∧
     (d.sys.straps.debug ≠ 0 → verified = true → NMap.wf {} d.cust.keys = true →
       ∃ t, exec (.debugUnlock p) s = .next (written s p t) ∧ t.cust.debugUnlocked = true ∧
         ∀ k, (NMap.get {} t.cust.keys k).loaded = false ∧ (NMap.get {} t.cust.keys k).refs = (NMap.get {} d.cust.keys k).refs)) ∧
    (let held := reg d (page + 0x108)
     let refused : Prop := bit held 8 = true ∨ ∃ i, i < 4 ∧ fld v.toNat (2 * i) 2 = 3
     (refused → exec (.custPolicyWrite p v) s = .next (written s p e)) ∧
     (¬ refused → exec (.custPolicyWrite p v) s = .next (written s p (setReg e (page + 0x108) (v.toNat % 512))))) ∧
    (let k := type.toNat
     let b := d.cust.banks.getD (k - 1) {}
     let done (d : Dev) (code why : Nat) : Dev :=
       let d1 : Dev := { d with cust.fw := none, cust.fwDone := true, cust.fwResult := code, cust.fwReason := why
                                cust.fwType := k }
       if code = cOK then d1 else raise d1 page 0
     let onB (d : Dev) (f : ImageBanks → ImageBanks) : Dev := { d with cust.banks := modAt f d.cust.banks (k - 1) }
     (d.cust.fwType = k → bit (readFwStat d) 2 = (decide (0 < k) && b.staged)) ∧
     (d.cust.fw.isSome = true → let D := count e page 0x820
       exec (.fwStage p type) s = .next (written s p D) ∧ exec (.fwActivate p type) s = .next (written s p D) ∧ exec (.fwCommit p type) s =
         .next (written s p D)) ∧
     (d.cust.fw = none → k = 0 ∨ 4 < k → exec (.fwStage p type) s = .next (written s p (done e cUNSUP 0)) ∧ exec (.fwActivate p type) s =
       .next (written s p (done e cUNSUP 0)) ∧
       exec (.fwCommit p type) s = .next (written s p (done e cUNSUP 0))) ∧
     (∀ fz w, w.type = k →
       (∀ c l, w.answer = some (c, l) →
         (c ≠ cOK → fwStep d fz w = done d c 0) ∧
         (c = cOK → fwStep d fz w = { d with cust.fw := some { w with got := w.got ++ l, asked := false, answer := none } })) ∧
       (w.answer = none → fwWant w.got ≤ w.got.length →
         (imageReason fz k w.got ≠ 0 → fwStep d fz w = done d cDENIED (imageReason fz k w.got)) ∧
         (imageReason fz k w.got = 0 → fwStep d fz w = done (onB d
           (fun b => if b.activeB then { b with a := w.got, staged := true } else { b with b := w.got, staged := true })) cOK 0))) ∧
     (d.cust.fw = none → 0 < k → k ≤ 4 →
       exec (.fwStage p type) s = .next (written s p { e with
         cust.fw := some { type := k, src := reg d (page + 0x300) }, cust.fwDone := false, cust.fwType := k }) ∧
       (b.staged = true → exec (.fwActivate p type) s = .next (written s p (done (onB e (fun b => { b with trial := true })) cOK 0))) ∧
       (b.staged = false → exec (.fwActivate p type) s = .next (written s p (done e cUNSUP 0))) ∧
       (b.trialRuns = false → exec (.fwCommit p type) s = .next (written s p (done e cUNSUP 0))) ∧
       (b.trialRuns = true → b.running ≠ [] →
         let t := done (onB e (fun b => { b with activeB := b.runsB, trialRuns := false, trial := false, staged := false })) cOK 0
         exec (.fwCommit p type) s = .next (afterAccess s (emit t (.ctl p cOK 0))
           { s.fuses with svn := modAt (fun n => max n (min (leAt b.running 8 4) 64)) s.fuses.svn (k - 1) }))))

/-! ## Salvage (14 R441-R461) -/

/-- FENCING, MEMBERS AND CONVOYS (14 R441, R442, R448, R450, R452, R453, R457, R459-R461). A write of FENCE, or an isolation of SALV_ISOLATE
cycles with ISO_EN set, fences the device out, once, reported, and the requests in flight are answered FENCED. A member that does not answer for
SALV_PEER_TIMEOUT becomes unreachable, reported and counted; it is probed with a read (log 143), an answer of OK makes it stale and sends what the
log names for it; the end of its resync makes it current, with RESYNCED raised and its log cleared. REBUILD marks
every tile of the extent missing, LOST poisons it, COPY makes it a copy; on an offset with no extent each is ACCESS_DENIED. When no tile is
missing the rebuilt extents are whole and RESTORED is raised. APPLY takes a well-formed staged convoy entry. (Choices of the model that
clauses rest on: logs 1, 58, 60 and 61.) -/
def Obligations.SalvageFencesAndRestoresMembers : Prop :=
  ∀ (s : State) (p : Path) (bank node : Nat), bank < 2 →
    let d := s.dev
    let e := dropHalves d p
    let page := pg 0x34 bank
    let ctl := reg d (page + 0x128)
    let iso := reg d (pg 0x34 0 + 0x128)
    let named (st : MemberState → MemberState) (d : Dev) : Dev :=
      { d with
        salv.peers := d.salv.peers.map (fun q => (q.1, if q.2.valid && q.2.node == node then { q.2 with st := st q.2.st } else q.2))
        salv.convoys := d.salv.convoys.map (fun c => (c.1, if c.2.valid then
          { c.2 with states := (c.2.states.zip c.2.nodes).map (fun x => if x.2 == node then st x.1 else x.1) } else c.2)) }
    let fenced (t : Dev) : Dev := (t.flying.filter fencesFlying).foldl (fun d f => match flyingOf d f.id with
      | some g => finishFlying d g cFENCED []
      | none => d) t
    let probed : Dev := match (if d.salv.fencedOut || !d.wharf.epValid then none else d.toll.extents.find? (protectedWith d node)) with
      | some x => let r := sendTow d x .rd node (extBase x) 256 [] 0 0
                  dropProtect r.1 r.2
      | none => d
    (Reaches d p (page + 0x128) ⟨0x34, bank, 0⟩ →
      let e1 := setReg e (pg 0x34 0 + 0x128) (fld ctl 1 1 * 2)
      (d.salv.fencedOut = false →
        exec (.salvFence p bank) s = .next (written s p (fenced (raiseFe { e1 with salv.fencedOut := true } page 2 (feUnit 0))))) ∧
      (d.salv.fencedOut = true → exec (.salvFence p bank) s = .next (written s p e1))) ∧
    (∀ since, d.salv.isolatedSince = some since → bit iso 1 = true → d.salv.fencedOut = false →
      exec .salvIsolateExpiry s = .next (goingOn s (fenced (raiseFe
        { d with sys.ltc := max d.sys.ltc (since + reg d (pg 0x34 0 + 0x120)), salv.fencedOut := true } (pg 0x34 0) 2 (feUnit 0))))) ∧
    (d.salv.isolatedSince = none ∨ bit iso 1 = false → exec .salvIsolateExpiry s = .next (goingOn s d)) ∧
    (d.salv.protect.find? (fun q => q.node == node) = none → exec (.salvPeerTimeout node) s = .next (goingOn s d)) ∧
    (∀ q, d.salv.protect.find? (fun q => q.node == node) = some q →
      let b := q.out.h.src.toNat % 2
      let now := max d.sys.ltc (q.since + reg d (pg 0x34 b + 0x118))
      let d1 := named (fun st => if st = .stale then st else .unreachable) { d with sys.ltc := now }
      let d2 := count (raiseFe (raise d1 (pg 0x34 b) 0) (pg 0x34 b) 3 (feUnit (fencedUnit d q))) (pg 0x34 b) 0x840
      exec (.salvPeerTimeout node) s = .next (goingOn s ((d.salv.protect.filter (fun q => q.node == node)).foldl takenAsDone d2))) ∧
    (memberIs d node .unreachable = true →
      exec (.peerProbe node true) s =
        .next (goingOn s (sendLogged (named (fun st => if st = .unreachable then .stale else st) probed) node)) ∧
      exec (.peerProbe node false) s = .next (goingOn s probed)) ∧
    (memberIs d node .unreachable = false → ∀ ok, exec (.peerProbe node ok) s = .next (goingOn s d)) ∧
    (memberIs d node .stale = false → exec (.peerResyncDone node) s = .next (leaving s d)) ∧
    (memberIs d node .stale = true →
      ∃ t, exec (.peerResyncDone node) s = .next (leaving s t) ∧ memberIs t node .stale = false ∧
        t.salv.dirty = d.salv.dirty.filter (fun x => x.node != node)) ∧
    (Reaches d p (page + 0x138) ⟨0x34, bank, 0⟩ →
      let base := fld (reg d (page + 0x140)) 21 27
      let ends (d : Dev) (c : Nat) : Dev := { d with salv.cmds := modAt (fun _ => (true, c)) d.salv.cmds bank }
      (extOf d base = none → ∀ c ∈ [Instr.salvRebuild p bank, .salvLost p bank, .salvCopy p bank], exec c s = .next (written s p (ends e cDENIED))) ∧
      (∀ x, extOf d base = some x →
        exec (.salvCopy p bank) s = .next (written s p (ends (onExt e base (fun x => { x with isCopy := true })) cOK)) ∧
        exec (.salvRebuild p bank) s = .next (written s p
          (ends (rebuildNext (onExt e x.e.base (fun x => { x with rebuildFrom := some 0, filled := [] })) x.e.base) cOK)) ∧
        (NSet.wf d.tiers.poison = true → ∃ t, exec (.salvLost p bank) s = .next (written s p (ends t cOK)) ∧
          ∀ k g, k < extBytes x / 256 → g ∈ granulesIn (extCell d x (extBase x + k * 256)) 0 256 → NSet.mem t.tiers.poison g = true))) ∧
    (let xs := d.toll.extents.filter (fun x => x.rebuildFrom.isSome)
     (xs = [] ∨ (∃ x ∈ xs, nextMissing x ≠ none) → exec .peerRebuildDone s = .next (leaving s d)) ∧
     (xs ≠ [] → (∀ x ∈ xs, nextMissing x = none) →
       ∃ t, exec .peerRebuildDone s = .next (leaving s t) ∧ (∀ x ∈ t.toll.extents, x.rebuildFrom = none) ∧
         t.toll.extents.map (fun x => x.e) = d.toll.extents.map (fun x => x.e) ∧ t.tiers = d.tiers)) ∧
    (Reaches d p (page + 0x1F8) ⟨0x34, bank, 0⟩ →
      let k := reg d (page + 0x1C0) % 4096
      let l := stagedConvoy d k
      let w0 := l.getD 0 0
      let bad : Prop := fld w0 0 5 < 3 ∨ 18 < fld w0 0 5 ∨ fld w0 0 5 ≤ fld w0 5 5 ∨ fld w0 11 21 ≠ 0 ∨
        ∃ i, 1 ≤ i ∧ i ≤ 4 ∧ fld (l.getD i 0) 56 8 ≠ 0
      (bad → exec (.salvConvoyApply p bank) s = .next (written s p e)) ∧
      (¬ bad → ∃ c, exec (.salvConvoyApply p bank) s = .next (written s p
          { e with salv.convoys := NMap.set {} d.salv.convoys k c, salv.stage := NMap.set [] d.salv.stage k [] }) ∧
        c.n = fld w0 0 5 ∧ c.self = fld w0 5 5 ∧ c.valid = bit w0 10 ∧ c.tide = fld w0 32 32))

/-! ## The Causeway (01 R24-R27; 03 R90) -/

/-- THE CAUSEWAY (01 R24-R27). A message that crosses enters the sender's replay buffer. A good frame is acknowledged, and delivered once, in
the order of its class between its two blocks; a bad one is counted against its lane group and stays to be sent again. A group whose failures
of the window exceed CW_LANE_ERR_LIMIT is retired, reported and counted, and its frames go over the groups left; a trained spare takes a place.
With no group left in a direction the West bank is held in reset and DEGRADED is raised in the East: no descriptor, snoop, accumulator or copy
of the West is left. The Pilot's retraining is recorded in the Logbook; once it succeeded, the West bank comes back. (Choices of the model
that clauses rest on: logs 31, 36, 98, 99 and 127.) -/
def Obligations.CausewayRetiresGroupsAndHoldsTheWestBank : Prop :=
  ∀ (s : State) (west good : Bool) (pair : CwPair) (cls g seq a b : Nat),
    let d := s.dev
    let dir := if west then d.cw.toWest else d.cw.toEast
    let put (d : Dev) (c : CwDir) : Dev := if west then { d with cw.toWest := c } else { d with cw.toEast := c }
    let clk := pg 0x03 0
    let seen := NMap.get 0 dir.errs g
    let inDir : Prop := NSet.mem dir.inService g = true
    let key := (match pair with | .request => 0 | .answer => 8 | .frame => 16 | .delta => 24 | .doorbell => 32 | .update => 40) + cls
    let next := NMap.get 0 dir.rxNext key
    let rest := dir.replay.filter (fun f => !(f.pair == pair && f.cls == cls && f.seq == seq))
    (dir.inService ≠ [] → let n := NMap.get 0 dir.txNext key
      ∃ h, h ∈ dir.inService ∧ sendCw d west pair cls = put d
        { dir with replay := dir.replay ++ [{ pair := pair, cls := cls, seq := n, group := h }], txNext := NMap.set 0 dir.txNext key (n + 1) }) ∧
    (live d = true → inDir → next = seq → exec (.causewayFrameRx west ⟨pair, cls⟩ g seq true) s = .next (leaving s
      (put d { dir with replay := rest, rxNext := NMap.set 0 dir.rxNext key (seq + 1) }))) ∧
    (live d = true → inDir → seq < next → exec (.causewayFrameRx west ⟨pair, cls⟩ g seq true) s =
      .next (leaving s (put d { dir with replay := rest }))) ∧
    (live d = true → inDir → next < seq → exec (.causewayFrameRx west ⟨pair, cls⟩ g seq true) s = .next (leaving s d)) ∧
    (live d = true → inDir → d.sys.ltc < dir.window + reg d (clk + 0x150) →
      exec (.causewayFrameRx west ⟨pair, cls⟩ g seq false) s = .next (leaving s (put d { dir with errs := NMap.set 0 dir.errs g (seen + 1) }))) ∧
    (live d = true → inDir → dir.window + reg d (clk + 0x150) ≤ d.sys.ltc →
      exec (.causewayFrameRx west ⟨pair, cls⟩ g seq false) s = .next (leaving s (put d { dir with window := d.sys.ltc, errs := NMap.set 0 [] g 1 }))) ∧
    (¬ inDir → exec (.causewayFrameRx west ⟨pair, cls⟩ g seq good) s = .next (leaving s d) ∧ exec (.laneGroupRetire west g) s = .next (leaving s d)) ∧
    (live d = true → inDir → reg d (clk + 0x148) < seen →
      let left := NSet.del dir.inService g
      let gone : CwDir := { dir with inService := left, retired := NSet.add dir.retired g, errs := NMap.set 0 dir.errs g 0
                                     replay := dir.replay.map (fun f =>
                                       if f.group = g then { f with group := (left[f.seq % left.length]?).getD g } else f) }
      let d1 := count (raiseFe (put d gone) clk 0 (feUnit ((if west then 0 else 34) + g))) clk 0x810
      exec (.laneGroupRetire west g) s = .next (leaving s (raise { d1 with salv.degraded := true } (pg 0x34 0) 0))) ∧
    (live d = true → inDir → seen ≤ reg d (clk + 0x148) → exec (.laneGroupRetire west g) s = .next (leaving s d)) ∧
    (live d = true → g < 34 → ¬ inDir → NSet.mem dir.retired g = false → dir.spares < 2 → dir.spares < dir.retired.length →
      exec (.spareGroupTrained west g) s = .next (leaving s (put d { dir with inService := NSet.add dir.inService g, spares := dir.spares + 1 }))) ∧
    (2 ≤ dir.spares ∨ inDir → exec (.spareGroupTrained west g) s = .next (leaving s d)) ∧
    (live d = true → d.sys.westHeld = false → d.cw.toWest.inService = [] ∨ d.cw.toEast.inService = [] →
      d.flying = [] → d.descs = [] →
      ∃ t, exec .causewayLoss s = .next (goingOn s t) ∧ t.sys.westHeld = true ∧ t.sys.cwLost = true ∧
        (∀ x ∈ t.quay.accums, x.bank = 0) ∧ (∀ x ∈ t.quay.trans, x.bank = 0) ∧ (∀ x ∈ t.raft.copies, x.bank = 0) ∧
        (∀ x ∈ t.tiers.moves, x.bank = 0) ∧
        t.tiers.mem = d.tiers.mem) ∧
    (d.sys.westHeld = true ∨ (d.cw.toWest.inService ≠ [] ∧ d.cw.toEast.inService ≠ []) → exec .causewayLoss s = .next (goingOn s d)) ∧
    (live d = true → d.sys.cwLost = true →
      ∃ t e, exec (.causewayRetrain a b) s = .next (leaving s t) ∧ t.sys.logbook = (e :: d.sys.logbook).take 8192 ∧ e.step = 0x07 ∧
        (0 < a → 0 < b → t.sys.cwLost = false ∧ t.cw.toWest.inService = List.range (min a 32) ∧
          t.cw.toEast.inService = List.range (min b 32)) ∧
        (a = 0 ∨ b = 0 → e.outcome = 4 ∧ e.cause = 0x10 ∧ t.sys.cwLost = true)) ∧
    (d.sys.cwLost = false → exec (.causewayRetrain a b) s = .next (leaving s d)) ∧
    (live d = true → d.sys.westHeld = true → d.sys.cwLost = false →
      exec .westBankRejoin s = .next (goingOn s (recomputeDone (recomputeDone (trainPort { d with sys.westHeld := false } 1) 0) 1))) ∧
    (d.sys.westHeld = false → exec .westBankRejoin s = .next (goingOn s d))

/-! ## Power, resets and the start (16) -/

/-- POWER AND TEMPERATURE (16 R484-R491, R502, R509). Power comes on with the sampled straps and a new start; a loss of power, an emergency off
and a clock failure leave only what flash holds, the last two with the cause in the Logbook, the input latched off and FAULT_N low, until the
latch is cleared. Ten samples above 1,800 W, and a reading above its critical temperature, are emergency offs; a warm die lowers THERM_N until
every die is 3 degrees below. The duty steps down and up by 1 of 16 by the mean power; at 2 of 16 and 5 % above the limit PWR_OVER is
raised. (Choices of the model that clauses rest on: logs 1, 3, 33, 35 and 101.) -/
def Obligations.PowerAndTemperatureProtectTheModule : Prop :=
  ∀ (s : State) (straps : BitVec 13) (cause : OffCause) (watts vin celsius : Nat) (point : TempPoint) (n : Nat),
    let d := s.dev
    let clk := pg 0x03 0
    let on : Prop := d.sys.power = .on
    let limit := reg d (clk + 0x128)
    let k := d.sys.samples.length
    let withheld := (d.sys.ltc - d.sys.countedAt) * 2 * (16 - d.sys.duty) / 16
    let counted (t : Dev) : Dev := { count t clk (if d.sys.hot then 0x808 else 0x800) withheld with sys.countedAt := d.sys.ltc }
    let off (t : Dev) (c : Nat) : Prop := t.sys.power = .latched ∧ t.sys.faultN = false ∧
      t.sys.lastCause = (if d.sys.hold then 8 else c) ∧ (∀ e ∈ t.tiers.mem, flashBase ≤ e.1) ∧ t.flying = [] ∧ t.descs = [] ∧
      t.sys.logbook.head?.map (fun e => (e.outcome, e.cause)) = some (5, c)
    let code := match cause with | .overTemperature => 3 | .railFault => 4 | .inputOverPower => 5 | .clockFailure => 7
    (d.sys.power = .off → ∃ t, exec (.powerOn straps) s = .next (leaving s t) ∧ t.sys.power = .on ∧ t.sys.step = 0 ∧ t.sys.kind = .powerOn ∧
      t.sys.startNo = d.sys.startNo + 1 ∧ t.sys.straps.debug = fld straps.toNat 12 1 ∧ t.xmap.node = fld straps.toNat 6 6) ∧
    (d.sys.power ≠ .off → exec (.powerOn straps) s = .next (leaving s d)) ∧
    (on → ∃ t, exec .powerLoss s = .next (leaving s t) ∧ t.sys.power = .off ∧ t.sys.lastCause = (if d.sys.hold then 8 else 2) ∧
      (∀ e ∈ t.tiers.mem, flashBase ≤ e.1) ∧ t.flying = [] ∧ t.descs = []) ∧
    (on → (∃ t, exec (.emergencyOff cause) s = .next (leaving s t) ∧ off t code) ∧ (∃ t, exec .clockFailure s = .next (leaving s t) ∧ off t 7)) ∧
    (¬ on → exec .powerLoss s = .next (leaving s d) ∧ exec (.emergencyOff cause) s = .next (leaving s d) ∧ exec .clockFailure s =
      .next (leaving s d) ∧
      exec (.powerSample watts vin) s = .next (leaving s d) ∧ exec (.tempSample point celsius) s = .next (goingOn s d)) ∧
    (d.sys.power = .latched → exec .latchClear s = .next (leaving s { d with sys.power := .off, sys.faultN := true })) ∧
    (d.sys.power ≠ .latched → exec .latchClear s = .next (leaving s d)) ∧
    (on → let l := (watts :: d.sys.samples).take 100
      (watts ≤ 1800 ∨ l.length < 10 → exec (.powerSample watts vin) s = .next (leaving s { d with sys.samples := l, sys.vin := vin })) ∧
      (10 ≤ l.length → (∀ w ∈ l.take 10, 1800 < w) → ∃ t, exec (.powerSample watts vin) s = .next (leaving s t) ∧ off t 5)) ∧
    (on → let top := match point with | .die _ _ => 110 | .stack _ => 100 | .flash _ => 85
      let warn := reg d (clk + 0x138)
      (top < celsius → ∃ t, exec (.tempSample point celsius) s = .next (goingOn s t) ∧ off t 3) ∧
      (∀ b m, point = .die b m → celsius ≤ 110 → warn < celsius → exec (.tempSample point celsius) s = .next (goingOn s (raise
        { counted { d with sys.dieTemp := NMap.set 0 d.sys.dieTemp (b * 16 + m) celsius } with sys.hot := true, sys.thermN := false } clk 2))) ∧
      (∀ b m, point = .die b m → celsius ≤ 110 → celsius ≤ warn → d.sys.hot = false →
        exec (.tempSample point celsius) s = .next (goingOn s (counted { d with sys.dieTemp := NMap.set 0 d.sys.dieTemp (b * 16 + m) celsius }))) ∧
      (point = .stack n → celsius ≤ 100 → d.sys.hot = false →
        exec (.tempSample point celsius) s = .next (goingOn s (counted { d with sys.stackTemp := NMap.set 0 d.sys.stackTemp n celsius })))) ∧
    (live d = true → 2 < d.sys.duty → limit * k < total d.sys.samples → d.sys.hot = false → d.sys.dutyAt + 800000 ≤ d.sys.ltc →
      exec .dutyStepDown s = .next (leaving s
        { counted d with sys.duty := d.sys.duty - 1, sys.dutyAt := d.sys.ltc })) ∧
    (d.sys.duty ≤ 2 → exec .dutyStepDown s = .next (leaving s d)) ∧
    (live d = true → d.sys.duty < 16 → total d.sys.samples * 100 < limit * 97 * k → d.sys.hot = false →
      d.sys.dutyAt + 8000000 ≤ d.sys.ltc → exec .dutyStepUp s = .next (leaving s
        { counted d with sys.duty := d.sys.duty + 1, sys.dutyAt := d.sys.ltc, sys.halfRate := false })) ∧
    (16 ≤ d.sys.duty ∨ d.sys.hot = true → exec .dutyStepUp s = .next (leaving s d)) ∧
    (live d = true → d.sys.duty = 2 → d.sys.halfRate = false → limit * 105 * k < total d.sys.samples * 100 →
      exec .pwrOver s = .next (leaving s (raise
        { d with sys.ltc := max d.sys.ltc (d.sys.dutyAt + 8000000), sys.halfRate := true } clk 1))) ∧
    (d.sys.duty ≠ 2 → exec .pwrOver s = .next (leaving s d)) ∧
    (live d = true →
      ((land d n).st = .up → n < d.lands.length → ∃ t, exec (.phyPllLoss (.landing n)) s =
        .next (goingOn s t) ∧ (land t n).st = .retraining ∧ t.ports = d.ports) ∧
      ((land d n).st ≠ .up → exec (.phyPllLoss (.landing n)) s = .next (goingOn s d)) ∧
      (n < 2 → exec (.phyPllLoss (.pcie n)) s = .next (goingOn s (resetPort d n))))

/-- RESETS AND THE START (16 R492-R502, R505). A pin, a watchdog or a software reset begins the quiesce, with READY low; GO gives a notice first,
in service, which CANCEL ends; at the end of the quiesce the blocks are reset and stacks, near store and flash keep their contents; with the core
reset's end the straps are sampled, and a new start begins at BEGIN, which is recorded. A unit that ends well is recorded done, and the next one
starts; from the SERVICE step on READY is high, and that step ends once XMAP_NODE is valid. A failed unit is recorded failed and meets the
step's alternative; without one the start ends, and with STRAP_SPARE 0 the module enters the hold. A port that fails needs no alternative; a unit
that left service before is skipped (log 146). An outcome goes into the entry of the unit that runs; ELAPSED counts microseconds since BEGIN
(log 31). A recovery image that passes the checks is received. TRST resets the TAPs only. (Choices of the model that clauses rest on: logs
1, 3, 7, 22, 36, 37, 38, 101, 102 and 103.) -/
def Obligations.ResetsAndStartsGoThroughTheirSteps : Prop :=
  ∀ (s : State) (p : Path) (straps : BitVec 13) (type : BitVec 8) (image : List Byte) (u : Nat) (e : UnitEnd),
    let d := s.dev
    let clk := pg 0x03 0
    let h := dropHalves d p
    let on : Prop := d.sys.power = .on
    let calm : Prop := d.descs = [] ∧ d.quay.accums = [] ∧ d.tiers.moves = [] ∧ d.tiers.persists = [] ∧ d.tiers.deltas = [] ∧
      d.purser.locks = [] ∧ d.purser.waits = [] ∧ d.purser.shares = [] ∧ d.raft.copies = [] ∧ ∀ n, n < 32 → (snapSlot d n).st = .free
    let may : Prop := on ∧ (d.sys.phase = .none ∨ d.sys.phase = .notice)
    let may2 : Prop := may ∧ d.sys.hold = false
    (may → exec .pinReset s = .next (goingOn s (beginQuiesce d .pin))) ∧
    (may2 → exec .watchdogReset s = .next (goingOn s (beginQuiesce d .watchdog))) ∧
    (calm → ∀ k,
      let begun : Dev := { d with sys.phase := .quiesce, sys.phaseAt := d.sys.ltc, sys.kind := k, sys.ready := false }
      beginQuiesce d k = { begun with sound.punts := List.replicate 32 {} }) ∧
    (¬ may → exec .pinReset s = .next (goingOn s d) ∧ exec .watchdogReset s = .next (goingOn s d)) ∧
    (d.sys.hold = true → exec .watchdogReset s = .next (goingOn s d)) ∧
    (Reaches d p (clk + 0x100) ⟨0x03, 0, 0⟩ →
      (may → exec (.rstNow p) s = .next (written s p (beginQuiesce h .software))) ∧
      (d.sys.phase = .none → 0x11 ≤ d.sys.step → d.sys.hold = false → exec (.rstGo p) s = .next (written s p
        (raise { h with sys.phase := .notice, sys.phaseAt := d.sys.ltc, sys.kind := .software, sys.ready := false } clk 3))) ∧
      (d.sys.phase = .none → d.sys.step < 0x11 ∨ d.sys.hold = true → exec (.rstGo p) s = .next (written s p (beginQuiesce h .software))) ∧
      (d.sys.phase = .notice → exec (.rstCancel p) s = .next (written s p
        { h with sys.phase := .none, sys.ready := decide (0x11 ≤ d.sys.step) })) ∧
      (d.sys.phase ≠ .notice → exec (.rstCancel p) s = .next (written s p h))) ∧
    (on → d.sys.phase = .notice → exec .rstNoticeExpiry s = .next (goingOn s
      (beginQuiesce { d with sys.ltc := max d.sys.ltc (d.sys.phaseAt + reg d (clk + 0x110)) } .software))) ∧
    (d.sys.phase ≠ .notice → exec .rstNoticeExpiry s = .next (goingOn s d)) ∧
    (on → d.sys.phase = .quiesce → ∃ t, exec .quiesceEnd s = .next (leaving s t) ∧ t.sys.phase = .links ∧ t.sys.kind = d.sys.kind ∧
      (d.quay.accums = [] → t.tiers.mem = d.tiers.mem) ∧ t.flying = [] ∧ t.descs = [] ∧ t.cust.keys = [] ∧ t.toll.extents = [] ∧
      t.sys.lastCause = if d.sys.hold then 8 else if d.sys.kind = .watchdog then 6 else 1) ∧
    (d.sys.phase ≠ .quiesce → exec .quiesceEnd s = .next (leaving s d)) ∧
    (on → d.sys.phase = .links → ∃ t b, exec (.coreResetEnd straps) s = .next (leaving s t) ∧ t.sys.phase = .none ∧ t.sys.step = 0 ∧
      t.sys.startNo = d.sys.startNo + 1 ∧ t.sys.straps.boot = fld straps.toNat 0 2 ∧
      t.sys.logbook = (b :: d.sys.logbook).take 8192 ∧ b.step = 0 ∧ b.outcome = 0 ∧ b.cause = d.sys.lastCause ∧ t.tiers = d.tiers) ∧
    (d.sys.phase ≠ .links → exec (.coreResetEnd straps) s = .next (leaving s d)) ∧
    exec .testPortReset s = .next (leaving s { d with mgmt.tapEast := 2, mgmt.tapWest := 2 }) ∧
    (let runs : Prop := on ∧ d.sys.phase = .none ∧ d.sys.hold = false
     let now := (unitsOf d).dropWhile (· != d.sys.unit)
     let isFirst : Prop := now.head? = some u
     (¬ runs ∨ 0x12 ≤ d.sys.step ∨ u ∉ now → exec (.startStepDone u e) s = .next (goingOn s d)) ∧
     (runs → d.sys.step = 0x10 → d.sys.unit = 15 → d.sys.westHeld = false →
       ∃ t, exec (.startStepDone 15 .good) s = .next (goingOn s t) ∧ t.sys.step = 0x11 ∧ t.sys.unit = 0 ∧ t.sys.ready = true ∧ t.sys.fails = 0) ∧
     (runs → d.sys.step = 0x11 → d.sys.unit = 0 → d.sys.open_ = [] →
       (d.xmap.nodeValid = true → ∃ t, exec (.startStepDone 0 .good) s = .next (goingOn s t) ∧ t.sys.step = 0x12) ∧
       (d.xmap.nodeValid = false → exec (.startStepDone 0 .good) s = .next (goingOn s d))) ∧
     (runs → d.sys.step = 0 → isFirst → d.sys.open_ = [] →
       ∃ t, exec (.startStepDone u .good) s = .next (goingOn s t) ∧ t.sys.step = 1 ∧ t.sys.unit = 0) ∧
     (runs → isFirst → d.sys.step < 0x12 → skipped d u = true → exec (.startStepDone u e) s = .next (goingOn s (afterUnit
       (endEntry d 3 (if NSet.mem d.sys.open_ (d.sys.step * 65536 + u) then 2 else 0)) u))) ∧
     (runs → isFirst → e ≠ .good → d.sys.step = 0xF → exec (.startStepDone u e) s = .next (goingOn s (afterUnit
       (raiseFe (endEntry d 4 (failCause e)) (pg 0x80 0) 0 (feUnit (0xF * 65536 + u))) u))) ∧
     (runs → isFirst → skipped d u = false → e ≠ .good → d.sys.step ≠ 0xF → d.sys.straps.spare ≠ 1 → d.sys.open_ = [] →
       d.sys.step < 0x12 → ∃ t, exec (.startStepDone u e) s = .next (goingOn s t) ∧ t.sys.hold = true ∧ t.sys.faultN = false) ∧
     (runs → isFirst → skipped d u = false → e ≠ .good → d.sys.step ≠ 0xF → d.sys.straps.spare = 1 → d.sys.open_ = [] → d.sys.step < 0x12 →
       hasAlt d u = false →
       (d.sys.failStep = d.sys.step → 2 ≤ d.sys.fails → ∃ t, exec (.startStepDone u e) s = .next (goingOn s t) ∧ t.sys.hold = true) ∧
       (d.sys.failStep ≠ d.sys.step ∨ d.sys.fails < 2 →
         ∃ t, exec (.startStepDone u e) s = .next (goingOn s t) ∧ t.sys.phase = .links ∧ t.sys.kind = .watchdog ∧ t.tiers.mem = d.tiers.mem)) ∧
     (∀ step outcome detail cause, live d = true → step ≠ 0 →
       let x : LogEntry := { step := step, outcome := outcome, detail := detail, start := d.sys.startNo
                             elapsed := min (d.sys.startUs + d.sys.ltc / 800) (2 ^ 32 - 1), cause := cause }
       (addLog d step outcome detail cause).sys.logbook = (x :: d.sys.logbook).take 8192) ∧
     (∀ outcome cause a b x, d.sys.logbook = a ++ x :: b → (∀ y ∈ a, ¬ (y.step = d.sys.step ∧ y.outcome = 0)) → x.step = d.sys.step →
       x.outcome = 0 → endEntry d outcome cause = { d with sys.logbook := a ++ { x with outcome := outcome, cause := cause } :: b }) ∧
     (let k := type.toNat
      let waits : Prop := runs ∧ (d.sys.straps.boot = 1 ∨ d.sys.straps.boot = 2) ∧ ((d.sys.step = 2 ∧ k = 1) ∨ (d.sys.step = 3 ∧ k = 2))
      (waits → imageReason s.fuses k image = 0 → exec (.recoveryImageReceived type image) s = .next (leaving s
        { d with cust.banks := modAt (fun b => { b with received := image }) d.cust.banks (k - 1) })) ∧
      (waits → imageReason s.fuses k image ≠ 0 → exec (.recoveryImageReceived type image) s = .next (leaving s d)) ∧
      (¬ waits → exec (.recoveryImageReceived type image) s = .next (leaving s d))))
end

