-- ==== Sys2Proof/Laws/Map.lean ====
section
/-! SUPPORT. Sparse maps and sets: what a write leaves, and that every operation keeps the canonical form. -/

namespace Sys2Proof

namespace NMap

variable {α : Type} [DecidableEq α]

theorem wfFrom_mono {d : α} {lo hi : Nat} (h : lo ≤ hi) : ∀ {m : NMap α}, wfFrom d hi m = true → wfFrom d lo m = true
  | [], _ => rfl
  | (j, v) :: m, hw => by
    simp only [wfFrom, Bool.and_eq_true, decide_eq_true_eq] at hw ⊢
    exact ⟨⟨by omega, hw.1.2⟩, hw.2⟩

/-- Every key below the least of a canonical map is unlisted. -/
theorem get_below {d : α} : ∀ {m : NMap α} {lo k : Nat}, wfFrom d lo m = true → k < lo → get d m k = d
  | [], _, _, _, _ => rfl
  | (j, v) :: m, lo, k, hw, hk => by
    simp only [wfFrom, Bool.and_eq_true, decide_eq_true_eq] at hw
    have h1 : ¬ j = k := by omega
    have h2 : k < j := by omega
    simp [get, h1, h2]

theorem set_wfFrom {d : α} : ∀ {m : NMap α} {lo k : Nat} {v : α}, wfFrom d lo m = true → lo ≤ k →
    wfFrom d lo (set d m k v) = true
  | [], lo, k, v, _, hk => by
    by_cases hv : v = d <;> simp [set, hv, wfFrom, hk]
  | (j, w) :: m, lo, k, v, hw, hk => by
    simp only [wfFrom, Bool.and_eq_true, decide_eq_true_eq] at hw
    obtain ⟨⟨h1, h2⟩, h3⟩ := hw
    by_cases hjk : j < k
    · simp only [set, hjk, if_true, wfFrom, Bool.and_eq_true, decide_eq_true_eq]
      exact ⟨⟨h1, h2⟩, set_wfFrom h3 hjk⟩
    · by_cases hje : j = k
      · subst hje
        by_cases hv : v = d
        · simpa [set, hv] using wfFrom_mono (by omega) h3
        · simp [set, hv, wfFrom, h1, h3]
      · have hkj : k + 1 ≤ j := by omega
        by_cases hv : v = d
        · simp [set, hjk, hje, hv, wfFrom, h1, h2, h3]
        · simp [set, hjk, hje, hv, wfFrom, hk, hkj, h2, h3]

/-- A write keeps the canonical form. -/
theorem set_wf {d : α} {m : NMap α} {k : Nat} {v : α} (h : wf d m = true) : wf d (set d m k v) = true :=
  set_wfFrom h (Nat.zero_le k)

theorem get_set_from {d : α} : ∀ {m : NMap α} {lo : Nat} (k : Nat) (v : α) (i : Nat), wfFrom d lo m = true →
    get d (set d m k v) i = if i = k then v else get d m i
  | [], lo, k, v, i, _ => by
    by_cases hv : v = d
    · by_cases hi : i = k <;> simp [set, hv, get, hi]
    · by_cases hi : i = k
      · simp [set, hv, get, hi]
      · have hki : ¬ k = i := fun e => hi e.symm
        simp [set, hv, get, hi, hki]
  | (j, w) :: m, lo, k, v, i, hw => by
    simp only [wfFrom, Bool.and_eq_true, decide_eq_true_eq] at hw
    obtain ⟨⟨h1, h2⟩, h3⟩ := hw
    by_cases hjk : j < k
    · simp only [set, hjk, if_true, get]
      by_cases hji : j = i
      · have : ¬ i = k := by omega
        simp [hji, this]
      · by_cases hij : i < j
        · have : ¬ i = k := by omega
          simp [hji, hij, this]
        · simp only [hji, if_false, hij]
          exact get_set_from k v i h3
    · by_cases hje : j = k
      · subst hje
        by_cases hv : v = d
        · subst hv
          simp only [set, Nat.lt_irrefl, if_false, if_true]
          by_cases hi : i = j
          · subst hi
            simpa using get_below h3 (Nat.lt_succ_self i)
          · have hji : ¬ j = i := fun e => hi e.symm
            by_cases hij : i < j
            · simp [get, hi, hji, hij, get_below h3 (by omega : i < j + 1)]
            · simp [get, hi, hji, hij]
        · simp only [set, Nat.lt_irrefl, if_false, if_true, hv]
          by_cases hi : i = j
          · simp [get, hi]
          · have hji : ¬ j = i := fun e => hi e.symm
            simp [get, hi, hji]
      · have hkj : k < j := by omega
        by_cases hv : v = d
        · subst hv
          simp only [set, hjk, if_false, hje, if_true]
          by_cases hi : i = k
          · subst hi
            have : ¬ j = i := by omega
            simp [get, this, hkj]
          · simp [hi]
        · simp only [set, hjk, if_false, hje, hv]
          by_cases hi : i = k
          · simp [get, hi]
          · have hki : ¬ k = i := fun e => hi e.symm
            by_cases hik : i < k
            · have h4 : ¬ j = i := by omega
              have h5 : i < j := by omega
              simp [get, hi, hki, hik, h4, h5]
            · simp [get, hi, hki, hik]

/-- What a key holds after a write: the written key the value, every other key what it held. -/
theorem get_set {d : α} {m : NMap α} (h : wf d m = true) (k : Nat) (v : α) (i : Nat) :
    get d (set d m k v) i = if i = k then v else get d m i := get_set_from k v i h

theorem keep_wfFrom {d : α} (p : Nat → Bool) : ∀ {m : NMap α} {lo : Nat}, wfFrom d lo m = true → wfFrom d lo (keep p m) = true
  | [], _, _ => rfl
  | (j, v) :: m, lo, hw => by
    simp only [wfFrom, Bool.and_eq_true, decide_eq_true_eq] at hw
    obtain ⟨⟨h1, h2⟩, h3⟩ := hw
    by_cases hp : p j = true
    · simp [keep, hp, wfFrom, h1, h2, keep_wfFrom p h3]
    · simp only [keep, hp]
      exact wfFrom_mono (by omega) (keep_wfFrom p h3)

theorem keep_wf {d : α} {m : NMap α} (p : Nat → Bool) (h : wf d m = true) : wf d (keep p m) = true := keep_wfFrom p h

end NMap

namespace NSet

theorem wfFrom_mono {lo hi : Nat} (h : lo ≤ hi) : ∀ {m : NSet}, wfFrom hi m = true → wfFrom lo m = true
  | [], _ => rfl
  | j :: m, hw => by
    simp only [wfFrom, Bool.and_eq_true, decide_eq_true_eq] at hw ⊢
    exact ⟨by omega, hw.2⟩

theorem add_wfFrom : ∀ {m : NSet} {lo k : Nat}, wfFrom lo m = true → lo ≤ k → wfFrom lo (add m k) = true
  | [], lo, k, _, hk => by simp [add, wfFrom, hk]
  | j :: m, lo, k, hw, hk => by
    have hw0 := hw
    simp only [wfFrom, Bool.and_eq_true, decide_eq_true_eq] at hw
    by_cases hjk : j < k
    · simp [add, hjk, wfFrom, hw.1, add_wfFrom hw.2 hjk]
    · by_cases hje : j = k
      · simpa [add, hjk, hje] using hje ▸ hw0
      · have : k + 1 ≤ j := by omega
        simp [add, hjk, hje, wfFrom, hk, this, hw.2]

theorem add_wf {m : NSet} {k : Nat} (h : wf m = true) : wf (add m k) = true := add_wfFrom h (Nat.zero_le k)

theorem del_wfFrom : ∀ {m : NSet} {lo k : Nat}, wfFrom lo m = true → wfFrom lo (del m k) = true
  | [], _, _, _ => rfl
  | j :: m, lo, k, hw => by
    have hw0 := hw
    simp only [wfFrom, Bool.and_eq_true, decide_eq_true_eq] at hw
    by_cases hjk : j < k
    · simp [del, hjk, wfFrom, hw.1, del_wfFrom hw.2]
    · by_cases hje : j = k
      · simpa [del, hjk, hje] using wfFrom_mono (by omega) hw.2
      · simpa [del, hjk, hje] using hw0

theorem del_wf {m : NSet} {k : Nat} (h : wf m = true) : wf (del m k) = true := del_wfFrom h

theorem mem_below : ∀ {m : NSet} {lo k : Nat}, wfFrom lo m = true → k < lo → mem m k = false
  | [], _, _, _, _ => rfl
  | j :: m, lo, k, hw, hk => by
    simp only [wfFrom, Bool.and_eq_true, decide_eq_true_eq] at hw
    have h1 : ¬ j = k := by omega
    have h2 : k < j := by omega
    simp [mem, h1, h2]

theorem mem_add_from : ∀ {m : NSet} {lo : Nat} (k i : Nat), wfFrom lo m = true → mem (add m k) i = (decide (i = k) || mem m i)
  | [], _, k, i, _ => by
    by_cases h : i = k
    · simp [add, mem, h]
    · have : ¬ k = i := fun e => h e.symm
      simp [add, mem, h, this]
  | j :: m, lo, k, i, hw => by
    simp only [wfFrom, Bool.and_eq_true, decide_eq_true_eq] at hw
    by_cases hjk : j < k
    · simp only [add, hjk, if_true, mem, mem_add_from k i hw.2]
      by_cases h1 : j = i
      · simp [h1]
      · by_cases h2 : i < j
        · have : ¬ i = k := by omega
          simp [h1, h2, this]
        · simp [h1, h2]
    · by_cases hje : j = k
      · subst hje
        by_cases h1 : i = j
        · simp [add, mem, h1]
        · have : ¬ j = i := fun e => h1 e.symm
          simp [add, mem, h1, this]
      · simp only [add, hjk, hje, if_false, mem]
        by_cases h1 : i = k
        · simp [h1]
        · have h3 : ¬ k = i := fun e => h1 e.symm
          by_cases h2 : i < k
          · have h4 : ¬ j = i := by omega
            have h5 : i < j := by omega
            simp [h1, h2, h3, h4, h5]
          · simp [h1, h2, h3]

/-- Membership after an insertion. -/
theorem mem_add {m : NSet} (h : wf m = true) (k i : Nat) : mem (add m k) i = (decide (i = k) || mem m i) := mem_add_from k i h

end NSet

namespace Machine

/-- Storing bytes keeps memory canonical. -/
theorem putBytes_wf : ∀ (l : List Byte) {m : NMap Byte} (c : Nat), Memory.wf m = true → Memory.wf (putBytes m c l) = true
  | [], _, _, h => h
  | _ :: l, _, c, h => putBytes_wf l (c + 1) (NMap.set_wf h)

/-- The operation that stores to memory keeps it canonical; a start that keeps part of it does by `NMap.keep_wf`. -/
theorem setMem_wf {d : Dev} (c : Nat) (l : List Byte) (h : Memory.wf d.tiers.mem = true) :
    Memory.wf (setMem d c l).tiers.mem = true := putBytes_wf l c h

/-- Reset memory lists nothing. -/
theorem reset_mem_wf : Memory.wf Dev.reset.tiers.mem = true := rfl

/-- What a cell holds after a store of bytes: the bytes stored, and every other cell what it held. -/
theorem get_putBytes : ∀ (l : List Byte) {m : NMap Byte} (c i : Nat), Memory.wf m = true →
    NMap.get 0 (putBytes m c l) i = if c ≤ i ∧ i < c + l.length then l.getD (i - c) 0 else NMap.get 0 m i
  | [], m, c, i, _ => by
    have : ¬ (c ≤ i ∧ i < c + ([] : List Byte).length) := by simp
    rw [if_neg this, putBytes]
  | b :: l, m, c, i, h => by
    have hs : Memory.wf (NMap.set 0 m c b) = true := NMap.set_wf h
    rw [putBytes, get_putBytes l (c + 1) i hs, NMap.get_set h]
    by_cases hic : i = c
    · subst hic
      have h1 : ¬ (i + 1 ≤ i ∧ i < i + 1 + l.length) := by omega
      simp [h1]
    · by_cases hin : c + 1 ≤ i ∧ i < c + 1 + l.length
      · have h2 : c ≤ i ∧ i < c + (b :: l).length := by simp; omega
        have h3 : i - c = (i - (c + 1)) + 1 := by omega
        rw [if_pos hin, if_pos h2, h3, List.getD_cons_succ]
      · have h2 : ¬ (c ≤ i ∧ i < c + (b :: l).length) := by simp; omega
        rw [if_neg hin, if_neg h2, if_neg hic]

end Machine

end Sys2Proof
end

