-- ==== Sys2Proof/Laws/State.lean ====
section
/-! SUPPORT. What each named update of the device's state leaves in each field: one lemma per field and update. -/

namespace Sys2Proof.Machine

open Sys2Proof

/-! ## emit -/

@[simp] theorem emit_sys (d : Dev) (o : Out) :
    (emit d o).sys = d.sys := rfl

@[simp] theorem emit_cw (d : Dev) (o : Out) :
    (emit d o).cw = d.cw := rfl

@[simp] theorem emit_regs (d : Dev) (o : Out) :
    (emit d o).regs = d.regs := rfl

@[simp] theorem emit_shadow (d : Dev) (o : Out) :
    (emit d o).shadow = d.shadow := rfl

@[simp] theorem emit_lowHeld (d : Dev) (o : Out) :
    (emit d o).lowHeld = d.lowHeld := rfl

@[simp] theorem emit_toll (d : Dev) (o : Out) :
    (emit d o).toll = d.toll := rfl

@[simp] theorem emit_xmap (d : Dev) (o : Out) :
    (emit d o).xmap = d.xmap := rfl

@[simp] theorem emit_flying (d : Dev) (o : Out) :
    (emit d o).flying = d.flying := rfl

@[simp] theorem emit_nextFlying (d : Dev) (o : Out) :
    (emit d o).nextFlying = d.nextFlying := rfl

@[simp] theorem emit_quay (d : Dev) (o : Out) :
    (emit d o).quay = d.quay := rfl

@[simp] theorem emit_tiers (d : Dev) (o : Out) :
    (emit d o).tiers = d.tiers := rfl

@[simp] theorem emit_descs (d : Dev) (o : Out) :
    (emit d o).descs = d.descs := rfl

@[simp] theorem emit_raft (d : Dev) (o : Out) :
    (emit d o).raft = d.raft := rfl

@[simp] theorem emit_purser (d : Dev) (o : Out) :
    (emit d o).purser = d.purser := rfl

@[simp] theorem emit_sound (d : Dev) (o : Out) :
    (emit d o).sound = d.sound := rfl

@[simp] theorem emit_lands (d : Dev) (o : Out) :
    (emit d o).lands = d.lands := rfl

@[simp] theorem emit_wharf (d : Dev) (o : Out) :
    (emit d o).wharf = d.wharf := rfl

@[simp] theorem emit_sched (d : Dev) (o : Out) :
    (emit d o).sched = d.sched := rfl

@[simp] theorem emit_ports (d : Dev) (o : Out) :
    (emit d o).ports = d.ports := rfl

@[simp] theorem emit_mgmt (d : Dev) (o : Out) :
    (emit d o).mgmt = d.mgmt := rfl

@[simp] theorem emit_cust (d : Dev) (o : Out) :
    (emit d o).cust = d.cust := rfl

@[simp] theorem emit_salv (d : Dev) (o : Out) :
    (emit d o).salv = d.salv := rfl

@[simp] theorem emit_tx (d : Dev) (o : Out) :
    (emit d o).tx = d.tx ++ [o] := rfl

@[simp] theorem emit_fresh (d : Dev) (o : Out) :
    (emit d o).fresh = d.fresh := rfl

/-! ## setReg -/

@[simp] theorem setReg_sys (d : Dev) (off v : Nat) :
    (setReg d off v).sys = d.sys := rfl

@[simp] theorem setReg_cw (d : Dev) (off v : Nat) :
    (setReg d off v).cw = d.cw := rfl

@[simp] theorem setReg_regs (d : Dev) (off v : Nat) :
    (setReg d off v).regs = NMap.set (regReset (canon off)) d.regs (canon off) (v % 2 ^ 64) := rfl

@[simp] theorem setReg_shadow (d : Dev) (off v : Nat) :
    (setReg d off v).shadow = d.shadow := rfl

@[simp] theorem setReg_lowHeld (d : Dev) (off v : Nat) :
    (setReg d off v).lowHeld = d.lowHeld := rfl

@[simp] theorem setReg_toll (d : Dev) (off v : Nat) :
    (setReg d off v).toll = d.toll := rfl

@[simp] theorem setReg_xmap (d : Dev) (off v : Nat) :
    (setReg d off v).xmap = d.xmap := rfl

@[simp] theorem setReg_flying (d : Dev) (off v : Nat) :
    (setReg d off v).flying = d.flying := rfl

@[simp] theorem setReg_nextFlying (d : Dev) (off v : Nat) :
    (setReg d off v).nextFlying = d.nextFlying := rfl

@[simp] theorem setReg_quay (d : Dev) (off v : Nat) :
    (setReg d off v).quay = d.quay := rfl

@[simp] theorem setReg_tiers (d : Dev) (off v : Nat) :
    (setReg d off v).tiers = d.tiers := rfl

@[simp] theorem setReg_descs (d : Dev) (off v : Nat) :
    (setReg d off v).descs = d.descs := rfl

@[simp] theorem setReg_raft (d : Dev) (off v : Nat) :
    (setReg d off v).raft = d.raft := rfl

@[simp] theorem setReg_purser (d : Dev) (off v : Nat) :
    (setReg d off v).purser = d.purser := rfl

@[simp] theorem setReg_sound (d : Dev) (off v : Nat) :
    (setReg d off v).sound = d.sound := rfl

@[simp] theorem setReg_lands (d : Dev) (off v : Nat) :
    (setReg d off v).lands = d.lands := rfl

@[simp] theorem setReg_wharf (d : Dev) (off v : Nat) :
    (setReg d off v).wharf = d.wharf := rfl

@[simp] theorem setReg_sched (d : Dev) (off v : Nat) :
    (setReg d off v).sched = d.sched := rfl

@[simp] theorem setReg_ports (d : Dev) (off v : Nat) :
    (setReg d off v).ports = d.ports := rfl

@[simp] theorem setReg_mgmt (d : Dev) (off v : Nat) :
    (setReg d off v).mgmt = d.mgmt := rfl

@[simp] theorem setReg_cust (d : Dev) (off v : Nat) :
    (setReg d off v).cust = d.cust := rfl

@[simp] theorem setReg_salv (d : Dev) (off v : Nat) :
    (setReg d off v).salv = d.salv := rfl

@[simp] theorem setReg_tx (d : Dev) (off v : Nat) :
    (setReg d off v).tx = d.tx := rfl

@[simp] theorem setReg_fresh (d : Dev) (off v : Nat) :
    (setReg d off v).fresh = d.fresh := rfl

/-! ## bumpReg -/

@[simp] theorem bumpReg_sys (d : Dev) (off k : Nat) :
    (bumpReg d off k).sys = d.sys := rfl

@[simp] theorem bumpReg_cw (d : Dev) (off k : Nat) :
    (bumpReg d off k).cw = d.cw := rfl

@[simp] theorem bumpReg_regs (d : Dev) (off k : Nat) :
    (bumpReg d off k).regs = (setReg d off (reg d off + k)).regs := rfl

@[simp] theorem bumpReg_shadow (d : Dev) (off k : Nat) :
    (bumpReg d off k).shadow = d.shadow := rfl

@[simp] theorem bumpReg_lowHeld (d : Dev) (off k : Nat) :
    (bumpReg d off k).lowHeld = d.lowHeld := rfl

@[simp] theorem bumpReg_toll (d : Dev) (off k : Nat) :
    (bumpReg d off k).toll = d.toll := rfl

@[simp] theorem bumpReg_xmap (d : Dev) (off k : Nat) :
    (bumpReg d off k).xmap = d.xmap := rfl

@[simp] theorem bumpReg_flying (d : Dev) (off k : Nat) :
    (bumpReg d off k).flying = d.flying := rfl

@[simp] theorem bumpReg_nextFlying (d : Dev) (off k : Nat) :
    (bumpReg d off k).nextFlying = d.nextFlying := rfl

@[simp] theorem bumpReg_quay (d : Dev) (off k : Nat) :
    (bumpReg d off k).quay = d.quay := rfl

@[simp] theorem bumpReg_tiers (d : Dev) (off k : Nat) :
    (bumpReg d off k).tiers = d.tiers := rfl

@[simp] theorem bumpReg_descs (d : Dev) (off k : Nat) :
    (bumpReg d off k).descs = d.descs := rfl

@[simp] theorem bumpReg_raft (d : Dev) (off k : Nat) :
    (bumpReg d off k).raft = d.raft := rfl

@[simp] theorem bumpReg_purser (d : Dev) (off k : Nat) :
    (bumpReg d off k).purser = d.purser := rfl

@[simp] theorem bumpReg_sound (d : Dev) (off k : Nat) :
    (bumpReg d off k).sound = d.sound := rfl

@[simp] theorem bumpReg_lands (d : Dev) (off k : Nat) :
    (bumpReg d off k).lands = d.lands := rfl

@[simp] theorem bumpReg_wharf (d : Dev) (off k : Nat) :
    (bumpReg d off k).wharf = d.wharf := rfl

@[simp] theorem bumpReg_sched (d : Dev) (off k : Nat) :
    (bumpReg d off k).sched = d.sched := rfl

@[simp] theorem bumpReg_ports (d : Dev) (off k : Nat) :
    (bumpReg d off k).ports = d.ports := rfl

@[simp] theorem bumpReg_mgmt (d : Dev) (off k : Nat) :
    (bumpReg d off k).mgmt = d.mgmt := rfl

@[simp] theorem bumpReg_cust (d : Dev) (off k : Nat) :
    (bumpReg d off k).cust = d.cust := rfl

@[simp] theorem bumpReg_salv (d : Dev) (off k : Nat) :
    (bumpReg d off k).salv = d.salv := rfl

@[simp] theorem bumpReg_tx (d : Dev) (off k : Nat) :
    (bumpReg d off k).tx = d.tx := rfl

@[simp] theorem bumpReg_fresh (d : Dev) (off k : Nat) :
    (bumpReg d off k).fresh = d.fresh := rfl

/-! ## onPort -/

@[simp] theorem onPort_sys (d : Dev) (n : Nat) (f : Port → Port) :
    (onPort d n f).sys = d.sys := rfl

@[simp] theorem onPort_cw (d : Dev) (n : Nat) (f : Port → Port) :
    (onPort d n f).cw = d.cw := rfl

@[simp] theorem onPort_regs (d : Dev) (n : Nat) (f : Port → Port) :
    (onPort d n f).regs = d.regs := rfl

@[simp] theorem onPort_shadow (d : Dev) (n : Nat) (f : Port → Port) :
    (onPort d n f).shadow = d.shadow := rfl

@[simp] theorem onPort_lowHeld (d : Dev) (n : Nat) (f : Port → Port) :
    (onPort d n f).lowHeld = d.lowHeld := rfl

@[simp] theorem onPort_toll (d : Dev) (n : Nat) (f : Port → Port) :
    (onPort d n f).toll = d.toll := rfl

@[simp] theorem onPort_xmap (d : Dev) (n : Nat) (f : Port → Port) :
    (onPort d n f).xmap = d.xmap := rfl

@[simp] theorem onPort_flying (d : Dev) (n : Nat) (f : Port → Port) :
    (onPort d n f).flying = d.flying := rfl

@[simp] theorem onPort_nextFlying (d : Dev) (n : Nat) (f : Port → Port) :
    (onPort d n f).nextFlying = d.nextFlying := rfl

@[simp] theorem onPort_quay (d : Dev) (n : Nat) (f : Port → Port) :
    (onPort d n f).quay = d.quay := rfl

@[simp] theorem onPort_tiers (d : Dev) (n : Nat) (f : Port → Port) :
    (onPort d n f).tiers = d.tiers := rfl

@[simp] theorem onPort_descs (d : Dev) (n : Nat) (f : Port → Port) :
    (onPort d n f).descs = d.descs := rfl

@[simp] theorem onPort_raft (d : Dev) (n : Nat) (f : Port → Port) :
    (onPort d n f).raft = d.raft := rfl

@[simp] theorem onPort_purser (d : Dev) (n : Nat) (f : Port → Port) :
    (onPort d n f).purser = d.purser := rfl

@[simp] theorem onPort_sound (d : Dev) (n : Nat) (f : Port → Port) :
    (onPort d n f).sound = d.sound := rfl

@[simp] theorem onPort_lands (d : Dev) (n : Nat) (f : Port → Port) :
    (onPort d n f).lands = d.lands := rfl

@[simp] theorem onPort_wharf (d : Dev) (n : Nat) (f : Port → Port) :
    (onPort d n f).wharf = d.wharf := rfl

@[simp] theorem onPort_sched (d : Dev) (n : Nat) (f : Port → Port) :
    (onPort d n f).sched = d.sched := rfl

@[simp] theorem onPort_ports (d : Dev) (n : Nat) (f : Port → Port) :
    (onPort d n f).ports = modAt f d.ports n := rfl

@[simp] theorem onPort_mgmt (d : Dev) (n : Nat) (f : Port → Port) :
    (onPort d n f).mgmt = d.mgmt := rfl

@[simp] theorem onPort_cust (d : Dev) (n : Nat) (f : Port → Port) :
    (onPort d n f).cust = d.cust := rfl

@[simp] theorem onPort_salv (d : Dev) (n : Nat) (f : Port → Port) :
    (onPort d n f).salv = d.salv := rfl

@[simp] theorem onPort_tx (d : Dev) (n : Nat) (f : Port → Port) :
    (onPort d n f).tx = d.tx := rfl

@[simp] theorem onPort_fresh (d : Dev) (n : Nat) (f : Port → Port) :
    (onPort d n f).fresh = d.fresh := rfl

/-! ## setVector -/

@[simp] theorem setVector_sys (d : Dev) (n fn vec : Nat) (v : Vector_) :
    (setVector d n fn vec v).sys = d.sys := rfl

@[simp] theorem setVector_cw (d : Dev) (n fn vec : Nat) (v : Vector_) :
    (setVector d n fn vec v).cw = d.cw := rfl

@[simp] theorem setVector_regs (d : Dev) (n fn vec : Nat) (v : Vector_) :
    (setVector d n fn vec v).regs = d.regs := rfl

@[simp] theorem setVector_shadow (d : Dev) (n fn vec : Nat) (v : Vector_) :
    (setVector d n fn vec v).shadow = d.shadow := rfl

@[simp] theorem setVector_lowHeld (d : Dev) (n fn vec : Nat) (v : Vector_) :
    (setVector d n fn vec v).lowHeld = d.lowHeld := rfl

@[simp] theorem setVector_toll (d : Dev) (n fn vec : Nat) (v : Vector_) :
    (setVector d n fn vec v).toll = d.toll := rfl

@[simp] theorem setVector_xmap (d : Dev) (n fn vec : Nat) (v : Vector_) :
    (setVector d n fn vec v).xmap = d.xmap := rfl

@[simp] theorem setVector_flying (d : Dev) (n fn vec : Nat) (v : Vector_) :
    (setVector d n fn vec v).flying = d.flying := rfl

@[simp] theorem setVector_nextFlying (d : Dev) (n fn vec : Nat) (v : Vector_) :
    (setVector d n fn vec v).nextFlying = d.nextFlying := rfl

@[simp] theorem setVector_quay (d : Dev) (n fn vec : Nat) (v : Vector_) :
    (setVector d n fn vec v).quay = d.quay := rfl

@[simp] theorem setVector_tiers (d : Dev) (n fn vec : Nat) (v : Vector_) :
    (setVector d n fn vec v).tiers = d.tiers := rfl

@[simp] theorem setVector_descs (d : Dev) (n fn vec : Nat) (v : Vector_) :
    (setVector d n fn vec v).descs = d.descs := rfl

@[simp] theorem setVector_raft (d : Dev) (n fn vec : Nat) (v : Vector_) :
    (setVector d n fn vec v).raft = d.raft := rfl

@[simp] theorem setVector_purser (d : Dev) (n fn vec : Nat) (v : Vector_) :
    (setVector d n fn vec v).purser = d.purser := rfl

@[simp] theorem setVector_sound (d : Dev) (n fn vec : Nat) (v : Vector_) :
    (setVector d n fn vec v).sound = d.sound := rfl

@[simp] theorem setVector_lands (d : Dev) (n fn vec : Nat) (v : Vector_) :
    (setVector d n fn vec v).lands = d.lands := rfl

@[simp] theorem setVector_wharf (d : Dev) (n fn vec : Nat) (v : Vector_) :
    (setVector d n fn vec v).wharf = d.wharf := rfl

@[simp] theorem setVector_sched (d : Dev) (n fn vec : Nat) (v : Vector_) :
    (setVector d n fn vec v).sched = d.sched := rfl

@[simp] theorem setVector_ports (d : Dev) (n fn vec : Nat) (v : Vector_) :
    (setVector d n fn vec v).ports = modAt (fun p => { p with vectors := NMap.set {} p.vectors (fn * 4096 + vec) v }) d.ports n := rfl

@[simp] theorem setVector_mgmt (d : Dev) (n fn vec : Nat) (v : Vector_) :
    (setVector d n fn vec v).mgmt = d.mgmt := rfl

@[simp] theorem setVector_cust (d : Dev) (n fn vec : Nat) (v : Vector_) :
    (setVector d n fn vec v).cust = d.cust := rfl

@[simp] theorem setVector_salv (d : Dev) (n fn vec : Nat) (v : Vector_) :
    (setVector d n fn vec v).salv = d.salv := rfl

@[simp] theorem setVector_tx (d : Dev) (n fn vec : Nat) (v : Vector_) :
    (setVector d n fn vec v).tx = d.tx := rfl

@[simp] theorem setVector_fresh (d : Dev) (n fn vec : Nat) (v : Vector_) :
    (setVector d n fn vec v).fresh = d.fresh := rfl

/-! ## advanceTo -/

@[simp] theorem advanceTo_sys (d : Dev) (t : Nat) :
    (advanceTo d t).sys = { d.sys with ltc := max d.sys.ltc t } := rfl

@[simp] theorem advanceTo_cw (d : Dev) (t : Nat) :
    (advanceTo d t).cw = d.cw := rfl

@[simp] theorem advanceTo_regs (d : Dev) (t : Nat) :
    (advanceTo d t).regs = d.regs := rfl

@[simp] theorem advanceTo_shadow (d : Dev) (t : Nat) :
    (advanceTo d t).shadow = d.shadow := rfl

@[simp] theorem advanceTo_lowHeld (d : Dev) (t : Nat) :
    (advanceTo d t).lowHeld = d.lowHeld := rfl

@[simp] theorem advanceTo_toll (d : Dev) (t : Nat) :
    (advanceTo d t).toll = d.toll := rfl

@[simp] theorem advanceTo_xmap (d : Dev) (t : Nat) :
    (advanceTo d t).xmap = d.xmap := rfl

@[simp] theorem advanceTo_flying (d : Dev) (t : Nat) :
    (advanceTo d t).flying = d.flying := rfl

@[simp] theorem advanceTo_nextFlying (d : Dev) (t : Nat) :
    (advanceTo d t).nextFlying = d.nextFlying := rfl

@[simp] theorem advanceTo_quay (d : Dev) (t : Nat) :
    (advanceTo d t).quay = d.quay := rfl

@[simp] theorem advanceTo_tiers (d : Dev) (t : Nat) :
    (advanceTo d t).tiers = d.tiers := rfl

@[simp] theorem advanceTo_descs (d : Dev) (t : Nat) :
    (advanceTo d t).descs = d.descs := rfl

@[simp] theorem advanceTo_raft (d : Dev) (t : Nat) :
    (advanceTo d t).raft = d.raft := rfl

@[simp] theorem advanceTo_purser (d : Dev) (t : Nat) :
    (advanceTo d t).purser = d.purser := rfl

@[simp] theorem advanceTo_sound (d : Dev) (t : Nat) :
    (advanceTo d t).sound = d.sound := rfl

@[simp] theorem advanceTo_lands (d : Dev) (t : Nat) :
    (advanceTo d t).lands = d.lands := rfl

@[simp] theorem advanceTo_wharf (d : Dev) (t : Nat) :
    (advanceTo d t).wharf = d.wharf := rfl

@[simp] theorem advanceTo_sched (d : Dev) (t : Nat) :
    (advanceTo d t).sched = d.sched := rfl

@[simp] theorem advanceTo_ports (d : Dev) (t : Nat) :
    (advanceTo d t).ports = d.ports := rfl

@[simp] theorem advanceTo_mgmt (d : Dev) (t : Nat) :
    (advanceTo d t).mgmt = d.mgmt := rfl

@[simp] theorem advanceTo_cust (d : Dev) (t : Nat) :
    (advanceTo d t).cust = d.cust := rfl

@[simp] theorem advanceTo_salv (d : Dev) (t : Nat) :
    (advanceTo d t).salv = d.salv := rfl

@[simp] theorem advanceTo_tx (d : Dev) (t : Nat) :
    (advanceTo d t).tx = d.tx := rfl

@[simp] theorem advanceTo_fresh (d : Dev) (t : Nat) :
    (advanceTo d t).fresh = d.fresh := rfl

/-! ## onLand -/

@[simp] theorem onLand_sys (d : Dev) (n : Nat) (f : Landing → Landing) :
    (onLand d n f).sys = d.sys := rfl

@[simp] theorem onLand_cw (d : Dev) (n : Nat) (f : Landing → Landing) :
    (onLand d n f).cw = d.cw := rfl

@[simp] theorem onLand_regs (d : Dev) (n : Nat) (f : Landing → Landing) :
    (onLand d n f).regs = d.regs := rfl

@[simp] theorem onLand_shadow (d : Dev) (n : Nat) (f : Landing → Landing) :
    (onLand d n f).shadow = d.shadow := rfl

@[simp] theorem onLand_lowHeld (d : Dev) (n : Nat) (f : Landing → Landing) :
    (onLand d n f).lowHeld = d.lowHeld := rfl

@[simp] theorem onLand_toll (d : Dev) (n : Nat) (f : Landing → Landing) :
    (onLand d n f).toll = d.toll := rfl

@[simp] theorem onLand_xmap (d : Dev) (n : Nat) (f : Landing → Landing) :
    (onLand d n f).xmap = d.xmap := rfl

@[simp] theorem onLand_flying (d : Dev) (n : Nat) (f : Landing → Landing) :
    (onLand d n f).flying = d.flying := rfl

@[simp] theorem onLand_nextFlying (d : Dev) (n : Nat) (f : Landing → Landing) :
    (onLand d n f).nextFlying = d.nextFlying := rfl

@[simp] theorem onLand_quay (d : Dev) (n : Nat) (f : Landing → Landing) :
    (onLand d n f).quay = d.quay := rfl

@[simp] theorem onLand_tiers (d : Dev) (n : Nat) (f : Landing → Landing) :
    (onLand d n f).tiers = d.tiers := rfl

@[simp] theorem onLand_descs (d : Dev) (n : Nat) (f : Landing → Landing) :
    (onLand d n f).descs = d.descs := rfl

@[simp] theorem onLand_raft (d : Dev) (n : Nat) (f : Landing → Landing) :
    (onLand d n f).raft = d.raft := rfl

@[simp] theorem onLand_purser (d : Dev) (n : Nat) (f : Landing → Landing) :
    (onLand d n f).purser = d.purser := rfl

@[simp] theorem onLand_sound (d : Dev) (n : Nat) (f : Landing → Landing) :
    (onLand d n f).sound = d.sound := rfl

@[simp] theorem onLand_lands (d : Dev) (n : Nat) (f : Landing → Landing) :
    (onLand d n f).lands = modAt f d.lands n := rfl

@[simp] theorem onLand_wharf (d : Dev) (n : Nat) (f : Landing → Landing) :
    (onLand d n f).wharf = d.wharf := rfl

@[simp] theorem onLand_sched (d : Dev) (n : Nat) (f : Landing → Landing) :
    (onLand d n f).sched = d.sched := rfl

@[simp] theorem onLand_ports (d : Dev) (n : Nat) (f : Landing → Landing) :
    (onLand d n f).ports = d.ports := rfl

@[simp] theorem onLand_mgmt (d : Dev) (n : Nat) (f : Landing → Landing) :
    (onLand d n f).mgmt = d.mgmt := rfl

@[simp] theorem onLand_cust (d : Dev) (n : Nat) (f : Landing → Landing) :
    (onLand d n f).cust = d.cust := rfl

@[simp] theorem onLand_salv (d : Dev) (n : Nat) (f : Landing → Landing) :
    (onLand d n f).salv = d.salv := rfl

@[simp] theorem onLand_tx (d : Dev) (n : Nat) (f : Landing → Landing) :
    (onLand d n f).tx = d.tx := rfl

@[simp] theorem onLand_fresh (d : Dev) (n : Nat) (f : Landing → Landing) :
    (onLand d n f).fresh = d.fresh := rfl

/-! ## onSite -/

@[simp] theorem onSite_sys (d : Dev) (n : Nat) (f : Site → Site) :
    (onSite d n f).sys = d.sys := rfl

@[simp] theorem onSite_cw (d : Dev) (n : Nat) (f : Site → Site) :
    (onSite d n f).cw = d.cw := rfl

@[simp] theorem onSite_regs (d : Dev) (n : Nat) (f : Site → Site) :
    (onSite d n f).regs = d.regs := rfl

@[simp] theorem onSite_shadow (d : Dev) (n : Nat) (f : Site → Site) :
    (onSite d n f).shadow = d.shadow := rfl

@[simp] theorem onSite_lowHeld (d : Dev) (n : Nat) (f : Site → Site) :
    (onSite d n f).lowHeld = d.lowHeld := rfl

@[simp] theorem onSite_toll (d : Dev) (n : Nat) (f : Site → Site) :
    (onSite d n f).toll = d.toll := rfl

@[simp] theorem onSite_xmap (d : Dev) (n : Nat) (f : Site → Site) :
    (onSite d n f).xmap = d.xmap := rfl

@[simp] theorem onSite_flying (d : Dev) (n : Nat) (f : Site → Site) :
    (onSite d n f).flying = d.flying := rfl

@[simp] theorem onSite_nextFlying (d : Dev) (n : Nat) (f : Site → Site) :
    (onSite d n f).nextFlying = d.nextFlying := rfl

@[simp] theorem onSite_quay (d : Dev) (n : Nat) (f : Site → Site) :
    (onSite d n f).quay = d.quay := rfl

@[simp] theorem onSite_tiers (d : Dev) (n : Nat) (f : Site → Site) :
    (onSite d n f).tiers = { d.tiers with sites := modAt f d.tiers.sites n } := rfl

@[simp] theorem onSite_descs (d : Dev) (n : Nat) (f : Site → Site) :
    (onSite d n f).descs = d.descs := rfl

@[simp] theorem onSite_raft (d : Dev) (n : Nat) (f : Site → Site) :
    (onSite d n f).raft = d.raft := rfl

@[simp] theorem onSite_purser (d : Dev) (n : Nat) (f : Site → Site) :
    (onSite d n f).purser = d.purser := rfl

@[simp] theorem onSite_sound (d : Dev) (n : Nat) (f : Site → Site) :
    (onSite d n f).sound = d.sound := rfl

@[simp] theorem onSite_lands (d : Dev) (n : Nat) (f : Site → Site) :
    (onSite d n f).lands = d.lands := rfl

@[simp] theorem onSite_wharf (d : Dev) (n : Nat) (f : Site → Site) :
    (onSite d n f).wharf = d.wharf := rfl

@[simp] theorem onSite_sched (d : Dev) (n : Nat) (f : Site → Site) :
    (onSite d n f).sched = d.sched := rfl

@[simp] theorem onSite_ports (d : Dev) (n : Nat) (f : Site → Site) :
    (onSite d n f).ports = d.ports := rfl

@[simp] theorem onSite_mgmt (d : Dev) (n : Nat) (f : Site → Site) :
    (onSite d n f).mgmt = d.mgmt := rfl

@[simp] theorem onSite_cust (d : Dev) (n : Nat) (f : Site → Site) :
    (onSite d n f).cust = d.cust := rfl

@[simp] theorem onSite_salv (d : Dev) (n : Nat) (f : Site → Site) :
    (onSite d n f).salv = d.salv := rfl

@[simp] theorem onSite_tx (d : Dev) (n : Nat) (f : Site → Site) :
    (onSite d n f).tx = d.tx := rfl

@[simp] theorem onSite_fresh (d : Dev) (n : Nat) (f : Site → Site) :
    (onSite d n f).fresh = d.fresh := rfl

/-! ## setRing -/

@[simp] theorem setRing_sys (d : Dev) (b r : Nat) (g : Ring) :
    (setRing d b r g).sys = d.sys := rfl

@[simp] theorem setRing_cw (d : Dev) (b r : Nat) (g : Ring) :
    (setRing d b r g).cw = d.cw := rfl

@[simp] theorem setRing_regs (d : Dev) (b r : Nat) (g : Ring) :
    (setRing d b r g).regs = d.regs := rfl

@[simp] theorem setRing_shadow (d : Dev) (b r : Nat) (g : Ring) :
    (setRing d b r g).shadow = d.shadow := rfl

@[simp] theorem setRing_lowHeld (d : Dev) (b r : Nat) (g : Ring) :
    (setRing d b r g).lowHeld = d.lowHeld := rfl

@[simp] theorem setRing_toll (d : Dev) (b r : Nat) (g : Ring) :
    (setRing d b r g).toll = d.toll := rfl

@[simp] theorem setRing_xmap (d : Dev) (b r : Nat) (g : Ring) :
    (setRing d b r g).xmap = { d.xmap with rings := NMap.set {} d.xmap.rings (b * 64 + r) g } := rfl

@[simp] theorem setRing_flying (d : Dev) (b r : Nat) (g : Ring) :
    (setRing d b r g).flying = d.flying := rfl

@[simp] theorem setRing_nextFlying (d : Dev) (b r : Nat) (g : Ring) :
    (setRing d b r g).nextFlying = d.nextFlying := rfl

@[simp] theorem setRing_quay (d : Dev) (b r : Nat) (g : Ring) :
    (setRing d b r g).quay = d.quay := rfl

@[simp] theorem setRing_tiers (d : Dev) (b r : Nat) (g : Ring) :
    (setRing d b r g).tiers = d.tiers := rfl

@[simp] theorem setRing_descs (d : Dev) (b r : Nat) (g : Ring) :
    (setRing d b r g).descs = d.descs := rfl

@[simp] theorem setRing_raft (d : Dev) (b r : Nat) (g : Ring) :
    (setRing d b r g).raft = d.raft := rfl

@[simp] theorem setRing_purser (d : Dev) (b r : Nat) (g : Ring) :
    (setRing d b r g).purser = d.purser := rfl

@[simp] theorem setRing_sound (d : Dev) (b r : Nat) (g : Ring) :
    (setRing d b r g).sound = d.sound := rfl

@[simp] theorem setRing_lands (d : Dev) (b r : Nat) (g : Ring) :
    (setRing d b r g).lands = d.lands := rfl

@[simp] theorem setRing_wharf (d : Dev) (b r : Nat) (g : Ring) :
    (setRing d b r g).wharf = d.wharf := rfl

@[simp] theorem setRing_sched (d : Dev) (b r : Nat) (g : Ring) :
    (setRing d b r g).sched = d.sched := rfl

@[simp] theorem setRing_ports (d : Dev) (b r : Nat) (g : Ring) :
    (setRing d b r g).ports = d.ports := rfl

@[simp] theorem setRing_mgmt (d : Dev) (b r : Nat) (g : Ring) :
    (setRing d b r g).mgmt = d.mgmt := rfl

@[simp] theorem setRing_cust (d : Dev) (b r : Nat) (g : Ring) :
    (setRing d b r g).cust = d.cust := rfl

@[simp] theorem setRing_salv (d : Dev) (b r : Nat) (g : Ring) :
    (setRing d b r g).salv = d.salv := rfl

@[simp] theorem setRing_tx (d : Dev) (b r : Nat) (g : Ring) :
    (setRing d b r g).tx = d.tx := rfl

@[simp] theorem setRing_fresh (d : Dev) (b r : Nat) (g : Ring) :
    (setRing d b r g).fresh = d.fresh := rfl

/-! ## pushFrame -/

@[simp] theorem pushFrame_sys (d : Dev) (f : Frame) :
    (pushFrame d f).sys = d.sys := rfl

@[simp] theorem pushFrame_cw (d : Dev) (f : Frame) :
    (pushFrame d f).cw = if f.input == 9 then (sendCw d (f.bank == 1) .frame f.cls).cw else d.cw := rfl

@[simp] theorem pushFrame_regs (d : Dev) (f : Frame) :
    (pushFrame d f).regs = d.regs := rfl

@[simp] theorem pushFrame_shadow (d : Dev) (f : Frame) :
    (pushFrame d f).shadow = d.shadow := rfl

@[simp] theorem pushFrame_lowHeld (d : Dev) (f : Frame) :
    (pushFrame d f).lowHeld = d.lowHeld := rfl

@[simp] theorem pushFrame_toll (d : Dev) (f : Frame) :
    (pushFrame d f).toll = d.toll := rfl

@[simp] theorem pushFrame_xmap (d : Dev) (f : Frame) :
    (pushFrame d f).xmap = d.xmap := rfl

@[simp] theorem pushFrame_flying (d : Dev) (f : Frame) :
    (pushFrame d f).flying = d.flying := rfl

@[simp] theorem pushFrame_nextFlying (d : Dev) (f : Frame) :
    (pushFrame d f).nextFlying = d.nextFlying := rfl

@[simp] theorem pushFrame_quay (d : Dev) (f : Frame) :
    (pushFrame d f).quay = d.quay := rfl

@[simp] theorem pushFrame_tiers (d : Dev) (f : Frame) :
    (pushFrame d f).tiers = d.tiers := rfl

@[simp] theorem pushFrame_descs (d : Dev) (f : Frame) :
    (pushFrame d f).descs = d.descs := rfl

@[simp] theorem pushFrame_raft (d : Dev) (f : Frame) :
    (pushFrame d f).raft = d.raft := rfl

@[simp] theorem pushFrame_purser (d : Dev) (f : Frame) :
    (pushFrame d f).purser = d.purser := rfl

@[simp] theorem pushFrame_sound (d : Dev) (f : Frame) :
    (pushFrame d f).sound = d.sound := rfl

@[simp] theorem pushFrame_lands (d : Dev) (f : Frame) :
    (pushFrame d f).lands = d.lands := rfl

@[simp] theorem pushFrame_wharf (d : Dev) (f : Frame) :
    (pushFrame d f).wharf = { d.wharf with
      frames := d.wharf.frames ++ [{ f with id := d.wharf.nextFrame, stamp := d.sys.ltc }]
      nextFrame := d.wharf.nextFrame + 1 } := rfl

@[simp] theorem pushFrame_sched (d : Dev) (f : Frame) :
    (pushFrame d f).sched = d.sched := rfl

@[simp] theorem pushFrame_ports (d : Dev) (f : Frame) :
    (pushFrame d f).ports = d.ports := rfl

@[simp] theorem pushFrame_mgmt (d : Dev) (f : Frame) :
    (pushFrame d f).mgmt = d.mgmt := rfl

@[simp] theorem pushFrame_cust (d : Dev) (f : Frame) :
    (pushFrame d f).cust = d.cust := rfl

@[simp] theorem pushFrame_salv (d : Dev) (f : Frame) :
    (pushFrame d f).salv = d.salv := rfl

@[simp] theorem pushFrame_tx (d : Dev) (f : Frame) :
    (pushFrame d f).tx = d.tx := rfl

@[simp] theorem pushFrame_fresh (d : Dev) (f : Frame) :
    (pushFrame d f).fresh = d.fresh := rfl

/-! ## setMem -/

@[simp] theorem setMem_sys (d : Dev) (c : Nat) (l : List Byte) :
    (setMem d c l).sys = d.sys := rfl

@[simp] theorem setMem_cw (d : Dev) (c : Nat) (l : List Byte) :
    (setMem d c l).cw = d.cw := rfl

@[simp] theorem setMem_regs (d : Dev) (c : Nat) (l : List Byte) :
    (setMem d c l).regs = d.regs := rfl

@[simp] theorem setMem_shadow (d : Dev) (c : Nat) (l : List Byte) :
    (setMem d c l).shadow = d.shadow := rfl

@[simp] theorem setMem_lowHeld (d : Dev) (c : Nat) (l : List Byte) :
    (setMem d c l).lowHeld = d.lowHeld := rfl

@[simp] theorem setMem_toll (d : Dev) (c : Nat) (l : List Byte) :
    (setMem d c l).toll = d.toll := rfl

@[simp] theorem setMem_xmap (d : Dev) (c : Nat) (l : List Byte) :
    (setMem d c l).xmap = d.xmap := rfl

@[simp] theorem setMem_flying (d : Dev) (c : Nat) (l : List Byte) :
    (setMem d c l).flying = d.flying := rfl

@[simp] theorem setMem_nextFlying (d : Dev) (c : Nat) (l : List Byte) :
    (setMem d c l).nextFlying = d.nextFlying := rfl

@[simp] theorem setMem_quay (d : Dev) (c : Nat) (l : List Byte) :
    (setMem d c l).quay = d.quay := rfl

@[simp] theorem setMem_tiers (d : Dev) (c : Nat) (l : List Byte) :
    (setMem d c l).tiers = { d.tiers with mem := putBytes d.tiers.mem c l } := rfl

@[simp] theorem setMem_descs (d : Dev) (c : Nat) (l : List Byte) :
    (setMem d c l).descs = d.descs := rfl

@[simp] theorem setMem_raft (d : Dev) (c : Nat) (l : List Byte) :
    (setMem d c l).raft = d.raft := rfl

@[simp] theorem setMem_purser (d : Dev) (c : Nat) (l : List Byte) :
    (setMem d c l).purser = d.purser := rfl

@[simp] theorem setMem_sound (d : Dev) (c : Nat) (l : List Byte) :
    (setMem d c l).sound = d.sound := rfl

@[simp] theorem setMem_lands (d : Dev) (c : Nat) (l : List Byte) :
    (setMem d c l).lands = d.lands := rfl

@[simp] theorem setMem_wharf (d : Dev) (c : Nat) (l : List Byte) :
    (setMem d c l).wharf = d.wharf := rfl

@[simp] theorem setMem_sched (d : Dev) (c : Nat) (l : List Byte) :
    (setMem d c l).sched = d.sched := rfl

@[simp] theorem setMem_ports (d : Dev) (c : Nat) (l : List Byte) :
    (setMem d c l).ports = d.ports := rfl

@[simp] theorem setMem_mgmt (d : Dev) (c : Nat) (l : List Byte) :
    (setMem d c l).mgmt = d.mgmt := rfl

@[simp] theorem setMem_cust (d : Dev) (c : Nat) (l : List Byte) :
    (setMem d c l).cust = d.cust := rfl

@[simp] theorem setMem_salv (d : Dev) (c : Nat) (l : List Byte) :
    (setMem d c l).salv = d.salv := rfl

@[simp] theorem setMem_tx (d : Dev) (c : Nat) (l : List Byte) :
    (setMem d c l).tx = d.tx := rfl

@[simp] theorem setMem_fresh (d : Dev) (c : Nat) (l : List Byte) :
    (setMem d c l).fresh = d.fresh := rfl

/-! ## onExt -/

@[simp] theorem onExt_sys (d : Dev) (b : Nat) (f : Extent → Extent) :
    (onExt d b f).sys = d.sys := rfl

@[simp] theorem onExt_cw (d : Dev) (b : Nat) (f : Extent → Extent) :
    (onExt d b f).cw = d.cw := rfl

@[simp] theorem onExt_regs (d : Dev) (b : Nat) (f : Extent → Extent) :
    (onExt d b f).regs = d.regs := rfl

@[simp] theorem onExt_shadow (d : Dev) (b : Nat) (f : Extent → Extent) :
    (onExt d b f).shadow = d.shadow := rfl

@[simp] theorem onExt_lowHeld (d : Dev) (b : Nat) (f : Extent → Extent) :
    (onExt d b f).lowHeld = d.lowHeld := rfl

@[simp] theorem onExt_toll (d : Dev) (b : Nat) (f : Extent → Extent) :
    (onExt d b f).toll = { d.toll with extents := modFirst (fun x => x.e.base == b) f d.toll.extents } := rfl

@[simp] theorem onExt_xmap (d : Dev) (b : Nat) (f : Extent → Extent) :
    (onExt d b f).xmap = d.xmap := rfl

@[simp] theorem onExt_flying (d : Dev) (b : Nat) (f : Extent → Extent) :
    (onExt d b f).flying = d.flying := rfl

@[simp] theorem onExt_nextFlying (d : Dev) (b : Nat) (f : Extent → Extent) :
    (onExt d b f).nextFlying = d.nextFlying := rfl

@[simp] theorem onExt_quay (d : Dev) (b : Nat) (f : Extent → Extent) :
    (onExt d b f).quay = d.quay := rfl

@[simp] theorem onExt_tiers (d : Dev) (b : Nat) (f : Extent → Extent) :
    (onExt d b f).tiers = d.tiers := rfl

@[simp] theorem onExt_descs (d : Dev) (b : Nat) (f : Extent → Extent) :
    (onExt d b f).descs = d.descs := rfl

@[simp] theorem onExt_raft (d : Dev) (b : Nat) (f : Extent → Extent) :
    (onExt d b f).raft = d.raft := rfl

@[simp] theorem onExt_purser (d : Dev) (b : Nat) (f : Extent → Extent) :
    (onExt d b f).purser = d.purser := rfl

@[simp] theorem onExt_sound (d : Dev) (b : Nat) (f : Extent → Extent) :
    (onExt d b f).sound = d.sound := rfl

@[simp] theorem onExt_lands (d : Dev) (b : Nat) (f : Extent → Extent) :
    (onExt d b f).lands = d.lands := rfl

@[simp] theorem onExt_wharf (d : Dev) (b : Nat) (f : Extent → Extent) :
    (onExt d b f).wharf = d.wharf := rfl

@[simp] theorem onExt_sched (d : Dev) (b : Nat) (f : Extent → Extent) :
    (onExt d b f).sched = d.sched := rfl

@[simp] theorem onExt_ports (d : Dev) (b : Nat) (f : Extent → Extent) :
    (onExt d b f).ports = d.ports := rfl

@[simp] theorem onExt_mgmt (d : Dev) (b : Nat) (f : Extent → Extent) :
    (onExt d b f).mgmt = d.mgmt := rfl

@[simp] theorem onExt_cust (d : Dev) (b : Nat) (f : Extent → Extent) :
    (onExt d b f).cust = d.cust := rfl

@[simp] theorem onExt_salv (d : Dev) (b : Nat) (f : Extent → Extent) :
    (onExt d b f).salv = d.salv := rfl

@[simp] theorem onExt_tx (d : Dev) (b : Nat) (f : Extent → Extent) :
    (onExt d b f).tx = d.tx := rfl

@[simp] theorem onExt_fresh (d : Dev) (b : Nat) (f : Extent → Extent) :
    (onExt d b f).fresh = d.fresh := rfl

/-! ## addFlying -/

@[simp] theorem addFlying_sys (d : Dev) (f : Flying) :
    (addFlying d f).sys = d.sys := rfl

@[simp] theorem addFlying_cw (d : Dev) (f : Flying) :
    (addFlying d f).cw = d.cw := rfl

@[simp] theorem addFlying_regs (d : Dev) (f : Flying) :
    (addFlying d f).regs = d.regs := rfl

@[simp] theorem addFlying_shadow (d : Dev) (f : Flying) :
    (addFlying d f).shadow = d.shadow := rfl

@[simp] theorem addFlying_lowHeld (d : Dev) (f : Flying) :
    (addFlying d f).lowHeld = d.lowHeld := rfl

@[simp] theorem addFlying_toll (d : Dev) (f : Flying) :
    (addFlying d f).toll = d.toll := rfl

@[simp] theorem addFlying_xmap (d : Dev) (f : Flying) :
    (addFlying d f).xmap = d.xmap := rfl

@[simp] theorem addFlying_flying (d : Dev) (f : Flying) :
    (addFlying d f).flying = d.flying ++ [{ f with id := d.nextFlying }] := rfl

@[simp] theorem addFlying_nextFlying (d : Dev) (f : Flying) :
    (addFlying d f).nextFlying = d.nextFlying + 1 := rfl

@[simp] theorem addFlying_quay (d : Dev) (f : Flying) :
    (addFlying d f).quay = d.quay := rfl

@[simp] theorem addFlying_tiers (d : Dev) (f : Flying) :
    (addFlying d f).tiers = d.tiers := rfl

@[simp] theorem addFlying_descs (d : Dev) (f : Flying) :
    (addFlying d f).descs = d.descs := rfl

@[simp] theorem addFlying_raft (d : Dev) (f : Flying) :
    (addFlying d f).raft = d.raft := rfl

@[simp] theorem addFlying_purser (d : Dev) (f : Flying) :
    (addFlying d f).purser = d.purser := rfl

@[simp] theorem addFlying_sound (d : Dev) (f : Flying) :
    (addFlying d f).sound = d.sound := rfl

@[simp] theorem addFlying_lands (d : Dev) (f : Flying) :
    (addFlying d f).lands = d.lands := rfl

@[simp] theorem addFlying_wharf (d : Dev) (f : Flying) :
    (addFlying d f).wharf = d.wharf := rfl

@[simp] theorem addFlying_sched (d : Dev) (f : Flying) :
    (addFlying d f).sched = d.sched := rfl

@[simp] theorem addFlying_ports (d : Dev) (f : Flying) :
    (addFlying d f).ports = d.ports := rfl

@[simp] theorem addFlying_mgmt (d : Dev) (f : Flying) :
    (addFlying d f).mgmt = d.mgmt := rfl

@[simp] theorem addFlying_cust (d : Dev) (f : Flying) :
    (addFlying d f).cust = d.cust := rfl

@[simp] theorem addFlying_salv (d : Dev) (f : Flying) :
    (addFlying d f).salv = d.salv := rfl

@[simp] theorem addFlying_tx (d : Dev) (f : Flying) :
    (addFlying d f).tx = d.tx := rfl

@[simp] theorem addFlying_fresh (d : Dev) (f : Flying) :
    (addFlying d f).fresh = d.fresh := rfl

/-! ## setWait -/

@[simp] theorem setWait_sys (d : Dev) (id : Nat) (w : Wait) :
    (setWait d id w).sys = d.sys := rfl

@[simp] theorem setWait_cw (d : Dev) (id : Nat) (w : Wait) :
    (setWait d id w).cw = d.cw := rfl

@[simp] theorem setWait_regs (d : Dev) (id : Nat) (w : Wait) :
    (setWait d id w).regs = d.regs := rfl

@[simp] theorem setWait_shadow (d : Dev) (id : Nat) (w : Wait) :
    (setWait d id w).shadow = d.shadow := rfl

@[simp] theorem setWait_lowHeld (d : Dev) (id : Nat) (w : Wait) :
    (setWait d id w).lowHeld = d.lowHeld := rfl

@[simp] theorem setWait_toll (d : Dev) (id : Nat) (w : Wait) :
    (setWait d id w).toll = d.toll := rfl

@[simp] theorem setWait_xmap (d : Dev) (id : Nat) (w : Wait) :
    (setWait d id w).xmap = d.xmap := rfl

@[simp] theorem setWait_flying (d : Dev) (id : Nat) (w : Wait) :
    (setWait d id w).flying = modFirst (fun f => f.id == id) (fun f => { f with wait := w }) d.flying := rfl

@[simp] theorem setWait_nextFlying (d : Dev) (id : Nat) (w : Wait) :
    (setWait d id w).nextFlying = d.nextFlying := rfl

@[simp] theorem setWait_quay (d : Dev) (id : Nat) (w : Wait) :
    (setWait d id w).quay = d.quay := rfl

@[simp] theorem setWait_tiers (d : Dev) (id : Nat) (w : Wait) :
    (setWait d id w).tiers = d.tiers := rfl

@[simp] theorem setWait_descs (d : Dev) (id : Nat) (w : Wait) :
    (setWait d id w).descs = d.descs := rfl

@[simp] theorem setWait_raft (d : Dev) (id : Nat) (w : Wait) :
    (setWait d id w).raft = d.raft := rfl

@[simp] theorem setWait_purser (d : Dev) (id : Nat) (w : Wait) :
    (setWait d id w).purser = d.purser := rfl

@[simp] theorem setWait_sound (d : Dev) (id : Nat) (w : Wait) :
    (setWait d id w).sound = d.sound := rfl

@[simp] theorem setWait_lands (d : Dev) (id : Nat) (w : Wait) :
    (setWait d id w).lands = d.lands := rfl

@[simp] theorem setWait_wharf (d : Dev) (id : Nat) (w : Wait) :
    (setWait d id w).wharf = d.wharf := rfl

@[simp] theorem setWait_sched (d : Dev) (id : Nat) (w : Wait) :
    (setWait d id w).sched = d.sched := rfl

@[simp] theorem setWait_ports (d : Dev) (id : Nat) (w : Wait) :
    (setWait d id w).ports = d.ports := rfl

@[simp] theorem setWait_mgmt (d : Dev) (id : Nat) (w : Wait) :
    (setWait d id w).mgmt = d.mgmt := rfl

@[simp] theorem setWait_cust (d : Dev) (id : Nat) (w : Wait) :
    (setWait d id w).cust = d.cust := rfl

@[simp] theorem setWait_salv (d : Dev) (id : Nat) (w : Wait) :
    (setWait d id w).salv = d.salv := rfl

@[simp] theorem setWait_tx (d : Dev) (id : Nat) (w : Wait) :
    (setWait d id w).tx = d.tx := rfl

@[simp] theorem setWait_fresh (d : Dev) (id : Nat) (w : Wait) :
    (setWait d id w).fresh = d.fresh := rfl

/-! ## dropFlying -/

@[simp] theorem dropFlying_sys (d : Dev) (id : Nat) :
    (dropFlying d id).sys = d.sys := rfl

@[simp] theorem dropFlying_cw (d : Dev) (id : Nat) :
    (dropFlying d id).cw = d.cw := rfl

@[simp] theorem dropFlying_regs (d : Dev) (id : Nat) :
    (dropFlying d id).regs = d.regs := rfl

@[simp] theorem dropFlying_shadow (d : Dev) (id : Nat) :
    (dropFlying d id).shadow = d.shadow := rfl

@[simp] theorem dropFlying_lowHeld (d : Dev) (id : Nat) :
    (dropFlying d id).lowHeld = d.lowHeld := rfl

@[simp] theorem dropFlying_toll (d : Dev) (id : Nat) :
    (dropFlying d id).toll = d.toll := rfl

@[simp] theorem dropFlying_xmap (d : Dev) (id : Nat) :
    (dropFlying d id).xmap = d.xmap := rfl

@[simp] theorem dropFlying_flying (d : Dev) (id : Nat) :
    (dropFlying d id).flying = d.flying.filter (fun f => f.id != id) := rfl

@[simp] theorem dropFlying_nextFlying (d : Dev) (id : Nat) :
    (dropFlying d id).nextFlying = d.nextFlying := rfl

@[simp] theorem dropFlying_quay (d : Dev) (id : Nat) :
    (dropFlying d id).quay = d.quay := rfl

@[simp] theorem dropFlying_tiers (d : Dev) (id : Nat) :
    (dropFlying d id).tiers = d.tiers := rfl

@[simp] theorem dropFlying_descs (d : Dev) (id : Nat) :
    (dropFlying d id).descs = d.descs := rfl

@[simp] theorem dropFlying_raft (d : Dev) (id : Nat) :
    (dropFlying d id).raft = d.raft := rfl

@[simp] theorem dropFlying_purser (d : Dev) (id : Nat) :
    (dropFlying d id).purser = d.purser := rfl

@[simp] theorem dropFlying_sound (d : Dev) (id : Nat) :
    (dropFlying d id).sound = d.sound := rfl

@[simp] theorem dropFlying_lands (d : Dev) (id : Nat) :
    (dropFlying d id).lands = d.lands := rfl

@[simp] theorem dropFlying_wharf (d : Dev) (id : Nat) :
    (dropFlying d id).wharf = d.wharf := rfl

@[simp] theorem dropFlying_sched (d : Dev) (id : Nat) :
    (dropFlying d id).sched = d.sched := rfl

@[simp] theorem dropFlying_ports (d : Dev) (id : Nat) :
    (dropFlying d id).ports = d.ports := rfl

@[simp] theorem dropFlying_mgmt (d : Dev) (id : Nat) :
    (dropFlying d id).mgmt = d.mgmt := rfl

@[simp] theorem dropFlying_cust (d : Dev) (id : Nat) :
    (dropFlying d id).cust = d.cust := rfl

@[simp] theorem dropFlying_salv (d : Dev) (id : Nat) :
    (dropFlying d id).salv = d.salv := rfl

@[simp] theorem dropFlying_tx (d : Dev) (id : Nat) :
    (dropFlying d id).tx = d.tx := rfl

@[simp] theorem dropFlying_fresh (d : Dev) (id : Nat) :
    (dropFlying d id).fresh = d.fresh := rfl

/-! ## onTt -/

@[simp] theorem onTt_sys (d : Dev) (ld : Nat) (f : Timetable → Timetable) :
    (onTt d ld f).sys = d.sys := rfl

@[simp] theorem onTt_cw (d : Dev) (ld : Nat) (f : Timetable → Timetable) :
    (onTt d ld f).cw = d.cw := rfl

@[simp] theorem onTt_regs (d : Dev) (ld : Nat) (f : Timetable → Timetable) :
    (onTt d ld f).regs = d.regs := rfl

@[simp] theorem onTt_shadow (d : Dev) (ld : Nat) (f : Timetable → Timetable) :
    (onTt d ld f).shadow = d.shadow := rfl

@[simp] theorem onTt_lowHeld (d : Dev) (ld : Nat) (f : Timetable → Timetable) :
    (onTt d ld f).lowHeld = d.lowHeld := rfl

@[simp] theorem onTt_toll (d : Dev) (ld : Nat) (f : Timetable → Timetable) :
    (onTt d ld f).toll = d.toll := rfl

@[simp] theorem onTt_xmap (d : Dev) (ld : Nat) (f : Timetable → Timetable) :
    (onTt d ld f).xmap = d.xmap := rfl

@[simp] theorem onTt_flying (d : Dev) (ld : Nat) (f : Timetable → Timetable) :
    (onTt d ld f).flying = d.flying := rfl

@[simp] theorem onTt_nextFlying (d : Dev) (ld : Nat) (f : Timetable → Timetable) :
    (onTt d ld f).nextFlying = d.nextFlying := rfl

@[simp] theorem onTt_quay (d : Dev) (ld : Nat) (f : Timetable → Timetable) :
    (onTt d ld f).quay = d.quay := rfl

@[simp] theorem onTt_tiers (d : Dev) (ld : Nat) (f : Timetable → Timetable) :
    (onTt d ld f).tiers = d.tiers := rfl

@[simp] theorem onTt_descs (d : Dev) (ld : Nat) (f : Timetable → Timetable) :
    (onTt d ld f).descs = d.descs := rfl

@[simp] theorem onTt_raft (d : Dev) (ld : Nat) (f : Timetable → Timetable) :
    (onTt d ld f).raft = d.raft := rfl

@[simp] theorem onTt_purser (d : Dev) (ld : Nat) (f : Timetable → Timetable) :
    (onTt d ld f).purser = d.purser := rfl

@[simp] theorem onTt_sound (d : Dev) (ld : Nat) (f : Timetable → Timetable) :
    (onTt d ld f).sound = d.sound := rfl

@[simp] theorem onTt_lands (d : Dev) (ld : Nat) (f : Timetable → Timetable) :
    (onTt d ld f).lands = d.lands := rfl

@[simp] theorem onTt_wharf (d : Dev) (ld : Nat) (f : Timetable → Timetable) :
    (onTt d ld f).wharf = d.wharf := rfl

@[simp] theorem onTt_sched (d : Dev) (ld : Nat) (f : Timetable → Timetable) :
    (onTt d ld f).sched = { d.sched with tts := modAt f d.sched.tts ld } := rfl

@[simp] theorem onTt_ports (d : Dev) (ld : Nat) (f : Timetable → Timetable) :
    (onTt d ld f).ports = d.ports := rfl

@[simp] theorem onTt_mgmt (d : Dev) (ld : Nat) (f : Timetable → Timetable) :
    (onTt d ld f).mgmt = d.mgmt := rfl

@[simp] theorem onTt_cust (d : Dev) (ld : Nat) (f : Timetable → Timetable) :
    (onTt d ld f).cust = d.cust := rfl

@[simp] theorem onTt_salv (d : Dev) (ld : Nat) (f : Timetable → Timetable) :
    (onTt d ld f).salv = d.salv := rfl

@[simp] theorem onTt_tx (d : Dev) (ld : Nat) (f : Timetable → Timetable) :
    (onTt d ld f).tx = d.tx := rfl

@[simp] theorem onTt_fresh (d : Dev) (ld : Nat) (f : Timetable → Timetable) :
    (onTt d ld f).fresh = d.fresh := rfl

/-! ## dropHalves -/

@[simp] theorem dropHalves_sys (d : Dev) (p : Path) :
    (dropHalves d p).sys = d.sys := rfl

@[simp] theorem dropHalves_cw (d : Dev) (p : Path) :
    (dropHalves d p).cw = d.cw := rfl

@[simp] theorem dropHalves_regs (d : Dev) (p : Path) :
    (dropHalves d p).regs = d.regs := rfl

@[simp] theorem dropHalves_shadow (d : Dev) (p : Path) :
    (dropHalves d p).shadow = NMap.set none d.shadow (pathIx p) none := rfl

@[simp] theorem dropHalves_lowHeld (d : Dev) (p : Path) :
    (dropHalves d p).lowHeld = NMap.set none d.lowHeld (pathIx p) none := rfl

@[simp] theorem dropHalves_toll (d : Dev) (p : Path) :
    (dropHalves d p).toll = d.toll := rfl

@[simp] theorem dropHalves_xmap (d : Dev) (p : Path) :
    (dropHalves d p).xmap = d.xmap := rfl

@[simp] theorem dropHalves_flying (d : Dev) (p : Path) :
    (dropHalves d p).flying = d.flying := rfl

@[simp] theorem dropHalves_nextFlying (d : Dev) (p : Path) :
    (dropHalves d p).nextFlying = d.nextFlying := rfl

@[simp] theorem dropHalves_quay (d : Dev) (p : Path) :
    (dropHalves d p).quay = d.quay := rfl

@[simp] theorem dropHalves_tiers (d : Dev) (p : Path) :
    (dropHalves d p).tiers = d.tiers := rfl

@[simp] theorem dropHalves_descs (d : Dev) (p : Path) :
    (dropHalves d p).descs = d.descs := rfl

@[simp] theorem dropHalves_raft (d : Dev) (p : Path) :
    (dropHalves d p).raft = d.raft := rfl

@[simp] theorem dropHalves_purser (d : Dev) (p : Path) :
    (dropHalves d p).purser = d.purser := rfl

@[simp] theorem dropHalves_sound (d : Dev) (p : Path) :
    (dropHalves d p).sound = d.sound := rfl

@[simp] theorem dropHalves_lands (d : Dev) (p : Path) :
    (dropHalves d p).lands = d.lands := rfl

@[simp] theorem dropHalves_wharf (d : Dev) (p : Path) :
    (dropHalves d p).wharf = d.wharf := rfl

@[simp] theorem dropHalves_sched (d : Dev) (p : Path) :
    (dropHalves d p).sched = d.sched := rfl

@[simp] theorem dropHalves_ports (d : Dev) (p : Path) :
    (dropHalves d p).ports = d.ports := rfl

@[simp] theorem dropHalves_mgmt (d : Dev) (p : Path) :
    (dropHalves d p).mgmt = d.mgmt := rfl

@[simp] theorem dropHalves_cust (d : Dev) (p : Path) :
    (dropHalves d p).cust = d.cust := rfl

@[simp] theorem dropHalves_salv (d : Dev) (p : Path) :
    (dropHalves d p).salv = d.salv := rfl

@[simp] theorem dropHalves_tx (d : Dev) (p : Path) :
    (dropHalves d p).tx = d.tx := rfl

@[simp] theorem dropHalves_fresh (d : Dev) (p : Path) :
    (dropHalves d p).fresh = d.fresh := rfl

end Sys2Proof.Machine
end

