-- ==== Sys2Proof/Laws/Ops.lean ====
section
/-! SUPPORT. What the shared operations can do, each said once: counters, events, first-error records, the device
interrupt, and the three forms of a command's answer. -/

namespace Sys2Proof.Machine

open Sys2Proof

/-! ## Stored registers -/

/-- Counting changes the register store alone. -/
theorem count_regs_only (d : Dev) (page off k : Nat) : ∃ m, count d page off k = { d with regs := m } := by
  unfold count
  split
  · exact ⟨d.regs, rfl⟩
  · exact ⟨_, rfl⟩

/-- Raising an event changes the register store and what the console sends. -/
theorem raise_regs_tx (d : Dev) (page b : Nat) : ∃ m t, raise d page b = { d with regs := m, tx := t } := by
  unfold raise
  split
  · exact ⟨d.regs, d.tx, rfl⟩
  · exact ⟨_, _, rfl⟩

/-- A first-error record changes the register store alone. -/
theorem recordFe_regs_only (d : Dev) (page b : Nat) (f : Fe) : ∃ m, recordFe d page b f = { d with regs := m } := by
  unfold recordFe
  split
  · exact ⟨d.regs, rfl⟩
  · split
    · exact ⟨_, rfl⟩
    · exact ⟨_, rfl⟩

/-- Raising a recording event changes the register store and what the console sends. -/
theorem raiseFe_regs_tx (d : Dev) (page b : Nat) (f : Fe) : ∃ m t, raiseFe d page b f = { d with regs := m, tx := t } := by
  obtain ⟨m, t, h⟩ := raise_regs_tx d page b
  obtain ⟨m2, h2⟩ := recordFe_regs_only (raise d page b) page b f
  exact ⟨m2, t, by rw [raiseFe, h2, h]⟩

/-! ## The Causeway -/

/-- A frame sent across changes the Causeway's two ends alone. -/
theorem sendCw_cw_only (d : Dev) (w : Bool) (p : CwPair) (cls : Nat) : ∃ c, sendCw d w p cls = { d with cw := c } := by
  unfold sendCw
  dsimp only
  split
  · exact ⟨d.cw, rfl⟩
  · cases w
    · exact ⟨_, rfl⟩
    · exact ⟨_, rfl⟩

/-! ## Admission -/

/-- A frame of at most 4 cells for a pair that holds none is admitted at once into the guaranteed minimum, whatever its colour (11 R366;
12 R390): 11 R376 gives no pair a minimum below 4. -/
theorem inner_admitted (d : Dev) (f : Frame) (h : NMap.get 0 d.wharf.gused (f.bank * 512 + f.output * 8 + f.cls) = 0)
    (hm : 4 ≤ gminOf d f.bank f.output f.cls) (hn : cellsOf f.slots ≤ 4) : admission d f = some (cellsOf f.slots, 0) := by
  have g : min (cellsOf f.slots) (gminOf d f.bank f.output f.cls) = cellsOf f.slots := by omega
  simp [admission, h, g]

/-! ## The device interrupt -/

/-- Sending an MSI-X message changes the ports' vectors and what is sent. -/
theorem sendMsix_ports_tx (d : Dev) (n fn vec : Nat) : ∃ p t, sendMsix d n fn vec = { d with ports := p, tx := t } := by
  unfold sendMsix
  dsimp only
  split
  · exact ⟨_, d.tx, rfl⟩
  · exact ⟨d.ports, _, rfl⟩

/-- What follows a command changes only the ports' vectors and what is sent. -/
theorem settle_ports_tx (a d : Dev) : ∃ p t, settle a d = { d with ports := p, tx := t } := by
  unfold settle
  split
  · obtain ⟨p1, t1, h1⟩ := sendMsix_ports_tx d 0 0 0
    obtain ⟨p2, t2, h2⟩ := sendMsix_ports_tx (sendMsix d 0 0 0) 1 0 0
    exact ⟨p2, t2 ++ [.ibi], by rw [announce, emit, h2, h1]⟩
  · exact ⟨d.ports, d.tx, rfl⟩

/-- A command whose effect leaves the device interrupt where it was announces nothing. -/
theorem settle_of_quiet (a d : Dev) (h : deviceInt d = false) : settle a d = d := by simp [settle, h]

/-! ## The answer of a command -/

theorem run_next (f : Dev → Dev) (s : State) : s.run f = .next { s with dev := settle s.dev (f s.dev) } := rfl

theorem runReq_next (f : Dev → Dev) (s : State) : s.runReq f = .next { s with dev := settle s.dev (goOn (f s.dev)) } := rfl

theorem runFuses_next (f : Dev → Fuses → Dev × Fuses) (s : State) :
    s.runFuses f = .next { s with dev := settle s.dev (f s.dev s.fuses).1, fuses := (f s.dev s.fuses).2 } := rfl

/-- Everything a step on the queue can do: the front command is executed on the rest of the queue. -/
theorem step_cons (s : State) (c : Instr) (l : List Instr) (h : s.pending = c :: l) :
    step s = exec c { s with pending := l } := by simp [step, h]

theorem step_nil (s : State) (h : s.pending = []) : step s = .next (idle s) := by simp [step, h]

end Sys2Proof.Machine
end

