-- ==== Sys2Proof/Laws/Frames.lean ====
section
/-! SUPPORT. The fields that counting, raising an event, recording it and announcing the device interrupt leave alone. -/

namespace Sys2Proof.Machine

open Sys2Proof

@[simp] theorem count_sys (d : Dev) (page off k : Nat) : (count d page off k).sys = d.sys := by
  obtain ⟨m, h⟩ := count_regs_only d page off k
  rw [h]

@[simp] theorem count_cw (d : Dev) (page off k : Nat) : (count d page off k).cw = d.cw := by
  obtain ⟨m, h⟩ := count_regs_only d page off k
  rw [h]

@[simp] theorem count_shadow (d : Dev) (page off k : Nat) : (count d page off k).shadow = d.shadow := by
  obtain ⟨m, h⟩ := count_regs_only d page off k
  rw [h]

@[simp] theorem count_lowHeld (d : Dev) (page off k : Nat) : (count d page off k).lowHeld = d.lowHeld := by
  obtain ⟨m, h⟩ := count_regs_only d page off k
  rw [h]

@[simp] theorem count_toll (d : Dev) (page off k : Nat) : (count d page off k).toll = d.toll := by
  obtain ⟨m, h⟩ := count_regs_only d page off k
  rw [h]

@[simp] theorem count_xmap (d : Dev) (page off k : Nat) : (count d page off k).xmap = d.xmap := by
  obtain ⟨m, h⟩ := count_regs_only d page off k
  rw [h]

@[simp] theorem count_flying (d : Dev) (page off k : Nat) : (count d page off k).flying = d.flying := by
  obtain ⟨m, h⟩ := count_regs_only d page off k
  rw [h]

@[simp] theorem count_nextFlying (d : Dev) (page off k : Nat) : (count d page off k).nextFlying = d.nextFlying := by
  obtain ⟨m, h⟩ := count_regs_only d page off k
  rw [h]

@[simp] theorem count_quay (d : Dev) (page off k : Nat) : (count d page off k).quay = d.quay := by
  obtain ⟨m, h⟩ := count_regs_only d page off k
  rw [h]

@[simp] theorem count_tiers (d : Dev) (page off k : Nat) : (count d page off k).tiers = d.tiers := by
  obtain ⟨m, h⟩ := count_regs_only d page off k
  rw [h]

@[simp] theorem count_descs (d : Dev) (page off k : Nat) : (count d page off k).descs = d.descs := by
  obtain ⟨m, h⟩ := count_regs_only d page off k
  rw [h]

@[simp] theorem count_raft (d : Dev) (page off k : Nat) : (count d page off k).raft = d.raft := by
  obtain ⟨m, h⟩ := count_regs_only d page off k
  rw [h]

@[simp] theorem count_purser (d : Dev) (page off k : Nat) : (count d page off k).purser = d.purser := by
  obtain ⟨m, h⟩ := count_regs_only d page off k
  rw [h]

@[simp] theorem count_sound (d : Dev) (page off k : Nat) : (count d page off k).sound = d.sound := by
  obtain ⟨m, h⟩ := count_regs_only d page off k
  rw [h]

@[simp] theorem count_lands (d : Dev) (page off k : Nat) : (count d page off k).lands = d.lands := by
  obtain ⟨m, h⟩ := count_regs_only d page off k
  rw [h]

@[simp] theorem count_wharf (d : Dev) (page off k : Nat) : (count d page off k).wharf = d.wharf := by
  obtain ⟨m, h⟩ := count_regs_only d page off k
  rw [h]

@[simp] theorem count_sched (d : Dev) (page off k : Nat) : (count d page off k).sched = d.sched := by
  obtain ⟨m, h⟩ := count_regs_only d page off k
  rw [h]

@[simp] theorem count_ports (d : Dev) (page off k : Nat) : (count d page off k).ports = d.ports := by
  obtain ⟨m, h⟩ := count_regs_only d page off k
  rw [h]

@[simp] theorem count_mgmt (d : Dev) (page off k : Nat) : (count d page off k).mgmt = d.mgmt := by
  obtain ⟨m, h⟩ := count_regs_only d page off k
  rw [h]

@[simp] theorem count_cust (d : Dev) (page off k : Nat) : (count d page off k).cust = d.cust := by
  obtain ⟨m, h⟩ := count_regs_only d page off k
  rw [h]

@[simp] theorem count_salv (d : Dev) (page off k : Nat) : (count d page off k).salv = d.salv := by
  obtain ⟨m, h⟩ := count_regs_only d page off k
  rw [h]

@[simp] theorem count_tx (d : Dev) (page off k : Nat) : (count d page off k).tx = d.tx := by
  obtain ⟨m, h⟩ := count_regs_only d page off k
  rw [h]

@[simp] theorem count_fresh (d : Dev) (page off k : Nat) : (count d page off k).fresh = d.fresh := by
  obtain ⟨m, h⟩ := count_regs_only d page off k
  rw [h]

@[simp] theorem raise_sys (d : Dev) (page b : Nat) : (raise d page b).sys = d.sys := by
  obtain ⟨m, t, h⟩ := raise_regs_tx d page b
  rw [h]

@[simp] theorem raise_cw (d : Dev) (page b : Nat) : (raise d page b).cw = d.cw := by
  obtain ⟨m, t, h⟩ := raise_regs_tx d page b
  rw [h]

@[simp] theorem raise_shadow (d : Dev) (page b : Nat) : (raise d page b).shadow = d.shadow := by
  obtain ⟨m, t, h⟩ := raise_regs_tx d page b
  rw [h]

@[simp] theorem raise_lowHeld (d : Dev) (page b : Nat) : (raise d page b).lowHeld = d.lowHeld := by
  obtain ⟨m, t, h⟩ := raise_regs_tx d page b
  rw [h]

@[simp] theorem raise_toll (d : Dev) (page b : Nat) : (raise d page b).toll = d.toll := by
  obtain ⟨m, t, h⟩ := raise_regs_tx d page b
  rw [h]

@[simp] theorem raise_xmap (d : Dev) (page b : Nat) : (raise d page b).xmap = d.xmap := by
  obtain ⟨m, t, h⟩ := raise_regs_tx d page b
  rw [h]

@[simp] theorem raise_flying (d : Dev) (page b : Nat) : (raise d page b).flying = d.flying := by
  obtain ⟨m, t, h⟩ := raise_regs_tx d page b
  rw [h]

@[simp] theorem raise_nextFlying (d : Dev) (page b : Nat) : (raise d page b).nextFlying = d.nextFlying := by
  obtain ⟨m, t, h⟩ := raise_regs_tx d page b
  rw [h]

@[simp] theorem raise_quay (d : Dev) (page b : Nat) : (raise d page b).quay = d.quay := by
  obtain ⟨m, t, h⟩ := raise_regs_tx d page b
  rw [h]

@[simp] theorem raise_tiers (d : Dev) (page b : Nat) : (raise d page b).tiers = d.tiers := by
  obtain ⟨m, t, h⟩ := raise_regs_tx d page b
  rw [h]

@[simp] theorem raise_descs (d : Dev) (page b : Nat) : (raise d page b).descs = d.descs := by
  obtain ⟨m, t, h⟩ := raise_regs_tx d page b
  rw [h]

@[simp] theorem raise_raft (d : Dev) (page b : Nat) : (raise d page b).raft = d.raft := by
  obtain ⟨m, t, h⟩ := raise_regs_tx d page b
  rw [h]

@[simp] theorem raise_purser (d : Dev) (page b : Nat) : (raise d page b).purser = d.purser := by
  obtain ⟨m, t, h⟩ := raise_regs_tx d page b
  rw [h]

@[simp] theorem raise_sound (d : Dev) (page b : Nat) : (raise d page b).sound = d.sound := by
  obtain ⟨m, t, h⟩ := raise_regs_tx d page b
  rw [h]

@[simp] theorem raise_lands (d : Dev) (page b : Nat) : (raise d page b).lands = d.lands := by
  obtain ⟨m, t, h⟩ := raise_regs_tx d page b
  rw [h]

@[simp] theorem raise_wharf (d : Dev) (page b : Nat) : (raise d page b).wharf = d.wharf := by
  obtain ⟨m, t, h⟩ := raise_regs_tx d page b
  rw [h]

@[simp] theorem raise_sched (d : Dev) (page b : Nat) : (raise d page b).sched = d.sched := by
  obtain ⟨m, t, h⟩ := raise_regs_tx d page b
  rw [h]

@[simp] theorem raise_ports (d : Dev) (page b : Nat) : (raise d page b).ports = d.ports := by
  obtain ⟨m, t, h⟩ := raise_regs_tx d page b
  rw [h]

@[simp] theorem raise_mgmt (d : Dev) (page b : Nat) : (raise d page b).mgmt = d.mgmt := by
  obtain ⟨m, t, h⟩ := raise_regs_tx d page b
  rw [h]

@[simp] theorem raise_cust (d : Dev) (page b : Nat) : (raise d page b).cust = d.cust := by
  obtain ⟨m, t, h⟩ := raise_regs_tx d page b
  rw [h]

@[simp] theorem raise_salv (d : Dev) (page b : Nat) : (raise d page b).salv = d.salv := by
  obtain ⟨m, t, h⟩ := raise_regs_tx d page b
  rw [h]

@[simp] theorem raise_fresh (d : Dev) (page b : Nat) : (raise d page b).fresh = d.fresh := by
  obtain ⟨m, t, h⟩ := raise_regs_tx d page b
  rw [h]

@[simp] theorem recordFe_sys (d : Dev) (page b : Nat) (f : Fe) : (recordFe d page b f).sys = d.sys := by
  obtain ⟨m, h⟩ := recordFe_regs_only d page b f
  rw [h]

@[simp] theorem recordFe_cw (d : Dev) (page b : Nat) (f : Fe) : (recordFe d page b f).cw = d.cw := by
  obtain ⟨m, h⟩ := recordFe_regs_only d page b f
  rw [h]

@[simp] theorem recordFe_shadow (d : Dev) (page b : Nat) (f : Fe) : (recordFe d page b f).shadow = d.shadow := by
  obtain ⟨m, h⟩ := recordFe_regs_only d page b f
  rw [h]

@[simp] theorem recordFe_lowHeld (d : Dev) (page b : Nat) (f : Fe) : (recordFe d page b f).lowHeld = d.lowHeld := by
  obtain ⟨m, h⟩ := recordFe_regs_only d page b f
  rw [h]

@[simp] theorem recordFe_toll (d : Dev) (page b : Nat) (f : Fe) : (recordFe d page b f).toll = d.toll := by
  obtain ⟨m, h⟩ := recordFe_regs_only d page b f
  rw [h]

@[simp] theorem recordFe_xmap (d : Dev) (page b : Nat) (f : Fe) : (recordFe d page b f).xmap = d.xmap := by
  obtain ⟨m, h⟩ := recordFe_regs_only d page b f
  rw [h]

@[simp] theorem recordFe_flying (d : Dev) (page b : Nat) (f : Fe) : (recordFe d page b f).flying = d.flying := by
  obtain ⟨m, h⟩ := recordFe_regs_only d page b f
  rw [h]

@[simp] theorem recordFe_nextFlying (d : Dev) (page b : Nat) (f : Fe) : (recordFe d page b f).nextFlying = d.nextFlying := by
  obtain ⟨m, h⟩ := recordFe_regs_only d page b f
  rw [h]

@[simp] theorem recordFe_quay (d : Dev) (page b : Nat) (f : Fe) : (recordFe d page b f).quay = d.quay := by
  obtain ⟨m, h⟩ := recordFe_regs_only d page b f
  rw [h]

@[simp] theorem recordFe_tiers (d : Dev) (page b : Nat) (f : Fe) : (recordFe d page b f).tiers = d.tiers := by
  obtain ⟨m, h⟩ := recordFe_regs_only d page b f
  rw [h]

@[simp] theorem recordFe_descs (d : Dev) (page b : Nat) (f : Fe) : (recordFe d page b f).descs = d.descs := by
  obtain ⟨m, h⟩ := recordFe_regs_only d page b f
  rw [h]

@[simp] theorem recordFe_raft (d : Dev) (page b : Nat) (f : Fe) : (recordFe d page b f).raft = d.raft := by
  obtain ⟨m, h⟩ := recordFe_regs_only d page b f
  rw [h]

@[simp] theorem recordFe_purser (d : Dev) (page b : Nat) (f : Fe) : (recordFe d page b f).purser = d.purser := by
  obtain ⟨m, h⟩ := recordFe_regs_only d page b f
  rw [h]

@[simp] theorem recordFe_sound (d : Dev) (page b : Nat) (f : Fe) : (recordFe d page b f).sound = d.sound := by
  obtain ⟨m, h⟩ := recordFe_regs_only d page b f
  rw [h]

@[simp] theorem recordFe_lands (d : Dev) (page b : Nat) (f : Fe) : (recordFe d page b f).lands = d.lands := by
  obtain ⟨m, h⟩ := recordFe_regs_only d page b f
  rw [h]

@[simp] theorem recordFe_wharf (d : Dev) (page b : Nat) (f : Fe) : (recordFe d page b f).wharf = d.wharf := by
  obtain ⟨m, h⟩ := recordFe_regs_only d page b f
  rw [h]

@[simp] theorem recordFe_sched (d : Dev) (page b : Nat) (f : Fe) : (recordFe d page b f).sched = d.sched := by
  obtain ⟨m, h⟩ := recordFe_regs_only d page b f
  rw [h]

@[simp] theorem recordFe_ports (d : Dev) (page b : Nat) (f : Fe) : (recordFe d page b f).ports = d.ports := by
  obtain ⟨m, h⟩ := recordFe_regs_only d page b f
  rw [h]

@[simp] theorem recordFe_mgmt (d : Dev) (page b : Nat) (f : Fe) : (recordFe d page b f).mgmt = d.mgmt := by
  obtain ⟨m, h⟩ := recordFe_regs_only d page b f
  rw [h]

@[simp] theorem recordFe_cust (d : Dev) (page b : Nat) (f : Fe) : (recordFe d page b f).cust = d.cust := by
  obtain ⟨m, h⟩ := recordFe_regs_only d page b f
  rw [h]

@[simp] theorem recordFe_salv (d : Dev) (page b : Nat) (f : Fe) : (recordFe d page b f).salv = d.salv := by
  obtain ⟨m, h⟩ := recordFe_regs_only d page b f
  rw [h]

@[simp] theorem recordFe_tx (d : Dev) (page b : Nat) (f : Fe) : (recordFe d page b f).tx = d.tx := by
  obtain ⟨m, h⟩ := recordFe_regs_only d page b f
  rw [h]

@[simp] theorem recordFe_fresh (d : Dev) (page b : Nat) (f : Fe) : (recordFe d page b f).fresh = d.fresh := by
  obtain ⟨m, h⟩ := recordFe_regs_only d page b f
  rw [h]

@[simp] theorem raiseFe_sys (d : Dev) (page b : Nat) (f : Fe) : (raiseFe d page b f).sys = d.sys := by
  obtain ⟨m, t, h⟩ := raiseFe_regs_tx d page b f
  rw [h]

@[simp] theorem raiseFe_cw (d : Dev) (page b : Nat) (f : Fe) : (raiseFe d page b f).cw = d.cw := by
  obtain ⟨m, t, h⟩ := raiseFe_regs_tx d page b f
  rw [h]

@[simp] theorem raiseFe_shadow (d : Dev) (page b : Nat) (f : Fe) : (raiseFe d page b f).shadow = d.shadow := by
  obtain ⟨m, t, h⟩ := raiseFe_regs_tx d page b f
  rw [h]

@[simp] theorem raiseFe_lowHeld (d : Dev) (page b : Nat) (f : Fe) : (raiseFe d page b f).lowHeld = d.lowHeld := by
  obtain ⟨m, t, h⟩ := raiseFe_regs_tx d page b f
  rw [h]

@[simp] theorem raiseFe_toll (d : Dev) (page b : Nat) (f : Fe) : (raiseFe d page b f).toll = d.toll := by
  obtain ⟨m, t, h⟩ := raiseFe_regs_tx d page b f
  rw [h]

@[simp] theorem raiseFe_xmap (d : Dev) (page b : Nat) (f : Fe) : (raiseFe d page b f).xmap = d.xmap := by
  obtain ⟨m, t, h⟩ := raiseFe_regs_tx d page b f
  rw [h]

@[simp] theorem raiseFe_flying (d : Dev) (page b : Nat) (f : Fe) : (raiseFe d page b f).flying = d.flying := by
  obtain ⟨m, t, h⟩ := raiseFe_regs_tx d page b f
  rw [h]

@[simp] theorem raiseFe_nextFlying (d : Dev) (page b : Nat) (f : Fe) : (raiseFe d page b f).nextFlying = d.nextFlying := by
  obtain ⟨m, t, h⟩ := raiseFe_regs_tx d page b f
  rw [h]

@[simp] theorem raiseFe_quay (d : Dev) (page b : Nat) (f : Fe) : (raiseFe d page b f).quay = d.quay := by
  obtain ⟨m, t, h⟩ := raiseFe_regs_tx d page b f
  rw [h]

@[simp] theorem raiseFe_tiers (d : Dev) (page b : Nat) (f : Fe) : (raiseFe d page b f).tiers = d.tiers := by
  obtain ⟨m, t, h⟩ := raiseFe_regs_tx d page b f
  rw [h]

@[simp] theorem raiseFe_descs (d : Dev) (page b : Nat) (f : Fe) : (raiseFe d page b f).descs = d.descs := by
  obtain ⟨m, t, h⟩ := raiseFe_regs_tx d page b f
  rw [h]

@[simp] theorem raiseFe_raft (d : Dev) (page b : Nat) (f : Fe) : (raiseFe d page b f).raft = d.raft := by
  obtain ⟨m, t, h⟩ := raiseFe_regs_tx d page b f
  rw [h]

@[simp] theorem raiseFe_purser (d : Dev) (page b : Nat) (f : Fe) : (raiseFe d page b f).purser = d.purser := by
  obtain ⟨m, t, h⟩ := raiseFe_regs_tx d page b f
  rw [h]

@[simp] theorem raiseFe_sound (d : Dev) (page b : Nat) (f : Fe) : (raiseFe d page b f).sound = d.sound := by
  obtain ⟨m, t, h⟩ := raiseFe_regs_tx d page b f
  rw [h]

@[simp] theorem raiseFe_lands (d : Dev) (page b : Nat) (f : Fe) : (raiseFe d page b f).lands = d.lands := by
  obtain ⟨m, t, h⟩ := raiseFe_regs_tx d page b f
  rw [h]

@[simp] theorem raiseFe_wharf (d : Dev) (page b : Nat) (f : Fe) : (raiseFe d page b f).wharf = d.wharf := by
  obtain ⟨m, t, h⟩ := raiseFe_regs_tx d page b f
  rw [h]

@[simp] theorem raiseFe_sched (d : Dev) (page b : Nat) (f : Fe) : (raiseFe d page b f).sched = d.sched := by
  obtain ⟨m, t, h⟩ := raiseFe_regs_tx d page b f
  rw [h]

@[simp] theorem raiseFe_ports (d : Dev) (page b : Nat) (f : Fe) : (raiseFe d page b f).ports = d.ports := by
  obtain ⟨m, t, h⟩ := raiseFe_regs_tx d page b f
  rw [h]

@[simp] theorem raiseFe_mgmt (d : Dev) (page b : Nat) (f : Fe) : (raiseFe d page b f).mgmt = d.mgmt := by
  obtain ⟨m, t, h⟩ := raiseFe_regs_tx d page b f
  rw [h]

@[simp] theorem raiseFe_cust (d : Dev) (page b : Nat) (f : Fe) : (raiseFe d page b f).cust = d.cust := by
  obtain ⟨m, t, h⟩ := raiseFe_regs_tx d page b f
  rw [h]

@[simp] theorem raiseFe_salv (d : Dev) (page b : Nat) (f : Fe) : (raiseFe d page b f).salv = d.salv := by
  obtain ⟨m, t, h⟩ := raiseFe_regs_tx d page b f
  rw [h]

@[simp] theorem raiseFe_fresh (d : Dev) (page b : Nat) (f : Fe) : (raiseFe d page b f).fresh = d.fresh := by
  obtain ⟨m, t, h⟩ := raiseFe_regs_tx d page b f
  rw [h]

@[simp] theorem sendMsix_sys (d : Dev) (n fn vec : Nat) : (sendMsix d n fn vec).sys = d.sys := by
  obtain ⟨m, t, h⟩ := sendMsix_ports_tx d n fn vec
  rw [h]

@[simp] theorem sendMsix_cw (d : Dev) (n fn vec : Nat) : (sendMsix d n fn vec).cw = d.cw := by
  obtain ⟨m, t, h⟩ := sendMsix_ports_tx d n fn vec
  rw [h]

@[simp] theorem sendMsix_regs (d : Dev) (n fn vec : Nat) : (sendMsix d n fn vec).regs = d.regs := by
  obtain ⟨m, t, h⟩ := sendMsix_ports_tx d n fn vec
  rw [h]

@[simp] theorem sendMsix_shadow (d : Dev) (n fn vec : Nat) : (sendMsix d n fn vec).shadow = d.shadow := by
  obtain ⟨m, t, h⟩ := sendMsix_ports_tx d n fn vec
  rw [h]

@[simp] theorem sendMsix_lowHeld (d : Dev) (n fn vec : Nat) : (sendMsix d n fn vec).lowHeld = d.lowHeld := by
  obtain ⟨m, t, h⟩ := sendMsix_ports_tx d n fn vec
  rw [h]

@[simp] theorem sendMsix_toll (d : Dev) (n fn vec : Nat) : (sendMsix d n fn vec).toll = d.toll := by
  obtain ⟨m, t, h⟩ := sendMsix_ports_tx d n fn vec
  rw [h]

@[simp] theorem sendMsix_xmap (d : Dev) (n fn vec : Nat) : (sendMsix d n fn vec).xmap = d.xmap := by
  obtain ⟨m, t, h⟩ := sendMsix_ports_tx d n fn vec
  rw [h]

@[simp] theorem sendMsix_flying (d : Dev) (n fn vec : Nat) : (sendMsix d n fn vec).flying = d.flying := by
  obtain ⟨m, t, h⟩ := sendMsix_ports_tx d n fn vec
  rw [h]

@[simp] theorem sendMsix_nextFlying (d : Dev) (n fn vec : Nat) : (sendMsix d n fn vec).nextFlying = d.nextFlying := by
  obtain ⟨m, t, h⟩ := sendMsix_ports_tx d n fn vec
  rw [h]

@[simp] theorem sendMsix_quay (d : Dev) (n fn vec : Nat) : (sendMsix d n fn vec).quay = d.quay := by
  obtain ⟨m, t, h⟩ := sendMsix_ports_tx d n fn vec
  rw [h]

@[simp] theorem sendMsix_tiers (d : Dev) (n fn vec : Nat) : (sendMsix d n fn vec).tiers = d.tiers := by
  obtain ⟨m, t, h⟩ := sendMsix_ports_tx d n fn vec
  rw [h]

@[simp] theorem sendMsix_descs (d : Dev) (n fn vec : Nat) : (sendMsix d n fn vec).descs = d.descs := by
  obtain ⟨m, t, h⟩ := sendMsix_ports_tx d n fn vec
  rw [h]

@[simp] theorem sendMsix_raft (d : Dev) (n fn vec : Nat) : (sendMsix d n fn vec).raft = d.raft := by
  obtain ⟨m, t, h⟩ := sendMsix_ports_tx d n fn vec
  rw [h]

@[simp] theorem sendMsix_purser (d : Dev) (n fn vec : Nat) : (sendMsix d n fn vec).purser = d.purser := by
  obtain ⟨m, t, h⟩ := sendMsix_ports_tx d n fn vec
  rw [h]

@[simp] theorem sendMsix_sound (d : Dev) (n fn vec : Nat) : (sendMsix d n fn vec).sound = d.sound := by
  obtain ⟨m, t, h⟩ := sendMsix_ports_tx d n fn vec
  rw [h]

@[simp] theorem sendMsix_lands (d : Dev) (n fn vec : Nat) : (sendMsix d n fn vec).lands = d.lands := by
  obtain ⟨m, t, h⟩ := sendMsix_ports_tx d n fn vec
  rw [h]

@[simp] theorem sendMsix_wharf (d : Dev) (n fn vec : Nat) : (sendMsix d n fn vec).wharf = d.wharf := by
  obtain ⟨m, t, h⟩ := sendMsix_ports_tx d n fn vec
  rw [h]

@[simp] theorem sendMsix_sched (d : Dev) (n fn vec : Nat) : (sendMsix d n fn vec).sched = d.sched := by
  obtain ⟨m, t, h⟩ := sendMsix_ports_tx d n fn vec
  rw [h]

@[simp] theorem sendMsix_mgmt (d : Dev) (n fn vec : Nat) : (sendMsix d n fn vec).mgmt = d.mgmt := by
  obtain ⟨m, t, h⟩ := sendMsix_ports_tx d n fn vec
  rw [h]

@[simp] theorem sendMsix_cust (d : Dev) (n fn vec : Nat) : (sendMsix d n fn vec).cust = d.cust := by
  obtain ⟨m, t, h⟩ := sendMsix_ports_tx d n fn vec
  rw [h]

@[simp] theorem sendMsix_salv (d : Dev) (n fn vec : Nat) : (sendMsix d n fn vec).salv = d.salv := by
  obtain ⟨m, t, h⟩ := sendMsix_ports_tx d n fn vec
  rw [h]

@[simp] theorem sendMsix_fresh (d : Dev) (n fn vec : Nat) : (sendMsix d n fn vec).fresh = d.fresh := by
  obtain ⟨m, t, h⟩ := sendMsix_ports_tx d n fn vec
  rw [h]

@[simp] theorem sendCw_sys (d : Dev) (w : Bool) (p : CwPair) (cls : Nat) : (sendCw d w p cls).sys = d.sys := by
  obtain ⟨c, h⟩ := sendCw_cw_only d w p cls
  rw [h]

@[simp] theorem sendCw_regs (d : Dev) (w : Bool) (p : CwPair) (cls : Nat) : (sendCw d w p cls).regs = d.regs := by
  obtain ⟨c, h⟩ := sendCw_cw_only d w p cls
  rw [h]

@[simp] theorem sendCw_shadow (d : Dev) (w : Bool) (p : CwPair) (cls : Nat) : (sendCw d w p cls).shadow = d.shadow := by
  obtain ⟨c, h⟩ := sendCw_cw_only d w p cls
  rw [h]

@[simp] theorem sendCw_lowHeld (d : Dev) (w : Bool) (p : CwPair) (cls : Nat) : (sendCw d w p cls).lowHeld = d.lowHeld := by
  obtain ⟨c, h⟩ := sendCw_cw_only d w p cls
  rw [h]

@[simp] theorem sendCw_toll (d : Dev) (w : Bool) (p : CwPair) (cls : Nat) : (sendCw d w p cls).toll = d.toll := by
  obtain ⟨c, h⟩ := sendCw_cw_only d w p cls
  rw [h]

@[simp] theorem sendCw_xmap (d : Dev) (w : Bool) (p : CwPair) (cls : Nat) : (sendCw d w p cls).xmap = d.xmap := by
  obtain ⟨c, h⟩ := sendCw_cw_only d w p cls
  rw [h]

@[simp] theorem sendCw_flying (d : Dev) (w : Bool) (p : CwPair) (cls : Nat) : (sendCw d w p cls).flying = d.flying := by
  obtain ⟨c, h⟩ := sendCw_cw_only d w p cls
  rw [h]

@[simp] theorem sendCw_nextFlying (d : Dev) (w : Bool) (p : CwPair) (cls : Nat) : (sendCw d w p cls).nextFlying = d.nextFlying := by
  obtain ⟨c, h⟩ := sendCw_cw_only d w p cls
  rw [h]

@[simp] theorem sendCw_quay (d : Dev) (w : Bool) (p : CwPair) (cls : Nat) : (sendCw d w p cls).quay = d.quay := by
  obtain ⟨c, h⟩ := sendCw_cw_only d w p cls
  rw [h]

@[simp] theorem sendCw_tiers (d : Dev) (w : Bool) (p : CwPair) (cls : Nat) : (sendCw d w p cls).tiers = d.tiers := by
  obtain ⟨c, h⟩ := sendCw_cw_only d w p cls
  rw [h]

@[simp] theorem sendCw_descs (d : Dev) (w : Bool) (p : CwPair) (cls : Nat) : (sendCw d w p cls).descs = d.descs := by
  obtain ⟨c, h⟩ := sendCw_cw_only d w p cls
  rw [h]

@[simp] theorem sendCw_raft (d : Dev) (w : Bool) (p : CwPair) (cls : Nat) : (sendCw d w p cls).raft = d.raft := by
  obtain ⟨c, h⟩ := sendCw_cw_only d w p cls
  rw [h]

@[simp] theorem sendCw_purser (d : Dev) (w : Bool) (p : CwPair) (cls : Nat) : (sendCw d w p cls).purser = d.purser := by
  obtain ⟨c, h⟩ := sendCw_cw_only d w p cls
  rw [h]

@[simp] theorem sendCw_sound (d : Dev) (w : Bool) (p : CwPair) (cls : Nat) : (sendCw d w p cls).sound = d.sound := by
  obtain ⟨c, h⟩ := sendCw_cw_only d w p cls
  rw [h]

@[simp] theorem sendCw_lands (d : Dev) (w : Bool) (p : CwPair) (cls : Nat) : (sendCw d w p cls).lands = d.lands := by
  obtain ⟨c, h⟩ := sendCw_cw_only d w p cls
  rw [h]

@[simp] theorem sendCw_wharf (d : Dev) (w : Bool) (p : CwPair) (cls : Nat) : (sendCw d w p cls).wharf = d.wharf := by
  obtain ⟨c, h⟩ := sendCw_cw_only d w p cls
  rw [h]

@[simp] theorem sendCw_sched (d : Dev) (w : Bool) (p : CwPair) (cls : Nat) : (sendCw d w p cls).sched = d.sched := by
  obtain ⟨c, h⟩ := sendCw_cw_only d w p cls
  rw [h]

@[simp] theorem sendCw_ports (d : Dev) (w : Bool) (p : CwPair) (cls : Nat) : (sendCw d w p cls).ports = d.ports := by
  obtain ⟨c, h⟩ := sendCw_cw_only d w p cls
  rw [h]

@[simp] theorem sendCw_mgmt (d : Dev) (w : Bool) (p : CwPair) (cls : Nat) : (sendCw d w p cls).mgmt = d.mgmt := by
  obtain ⟨c, h⟩ := sendCw_cw_only d w p cls
  rw [h]

@[simp] theorem sendCw_cust (d : Dev) (w : Bool) (p : CwPair) (cls : Nat) : (sendCw d w p cls).cust = d.cust := by
  obtain ⟨c, h⟩ := sendCw_cw_only d w p cls
  rw [h]

@[simp] theorem sendCw_salv (d : Dev) (w : Bool) (p : CwPair) (cls : Nat) : (sendCw d w p cls).salv = d.salv := by
  obtain ⟨c, h⟩ := sendCw_cw_only d w p cls
  rw [h]

@[simp] theorem sendCw_tx (d : Dev) (w : Bool) (p : CwPair) (cls : Nat) : (sendCw d w p cls).tx = d.tx := by
  obtain ⟨c, h⟩ := sendCw_cw_only d w p cls
  rw [h]

@[simp] theorem sendCw_fresh (d : Dev) (w : Bool) (p : CwPair) (cls : Nat) : (sendCw d w p cls).fresh = d.fresh := by
  obtain ⟨c, h⟩ := sendCw_cw_only d w p cls
  rw [h]

@[simp] theorem settle_sys (a d : Dev) : (settle a d).sys = d.sys := by
  obtain ⟨m, t, h⟩ := settle_ports_tx a d
  rw [h]

@[simp] theorem settle_cw (a d : Dev) : (settle a d).cw = d.cw := by
  obtain ⟨m, t, h⟩ := settle_ports_tx a d
  rw [h]

@[simp] theorem settle_regs (a d : Dev) : (settle a d).regs = d.regs := by
  obtain ⟨m, t, h⟩ := settle_ports_tx a d
  rw [h]

@[simp] theorem settle_shadow (a d : Dev) : (settle a d).shadow = d.shadow := by
  obtain ⟨m, t, h⟩ := settle_ports_tx a d
  rw [h]

@[simp] theorem settle_lowHeld (a d : Dev) : (settle a d).lowHeld = d.lowHeld := by
  obtain ⟨m, t, h⟩ := settle_ports_tx a d
  rw [h]

@[simp] theorem settle_toll (a d : Dev) : (settle a d).toll = d.toll := by
  obtain ⟨m, t, h⟩ := settle_ports_tx a d
  rw [h]

@[simp] theorem settle_xmap (a d : Dev) : (settle a d).xmap = d.xmap := by
  obtain ⟨m, t, h⟩ := settle_ports_tx a d
  rw [h]

@[simp] theorem settle_flying (a d : Dev) : (settle a d).flying = d.flying := by
  obtain ⟨m, t, h⟩ := settle_ports_tx a d
  rw [h]

@[simp] theorem settle_nextFlying (a d : Dev) : (settle a d).nextFlying = d.nextFlying := by
  obtain ⟨m, t, h⟩ := settle_ports_tx a d
  rw [h]

@[simp] theorem settle_quay (a d : Dev) : (settle a d).quay = d.quay := by
  obtain ⟨m, t, h⟩ := settle_ports_tx a d
  rw [h]

@[simp] theorem settle_tiers (a d : Dev) : (settle a d).tiers = d.tiers := by
  obtain ⟨m, t, h⟩ := settle_ports_tx a d
  rw [h]

@[simp] theorem settle_descs (a d : Dev) : (settle a d).descs = d.descs := by
  obtain ⟨m, t, h⟩ := settle_ports_tx a d
  rw [h]

@[simp] theorem settle_raft (a d : Dev) : (settle a d).raft = d.raft := by
  obtain ⟨m, t, h⟩ := settle_ports_tx a d
  rw [h]

@[simp] theorem settle_purser (a d : Dev) : (settle a d).purser = d.purser := by
  obtain ⟨m, t, h⟩ := settle_ports_tx a d
  rw [h]

@[simp] theorem settle_sound (a d : Dev) : (settle a d).sound = d.sound := by
  obtain ⟨m, t, h⟩ := settle_ports_tx a d
  rw [h]

@[simp] theorem settle_lands (a d : Dev) : (settle a d).lands = d.lands := by
  obtain ⟨m, t, h⟩ := settle_ports_tx a d
  rw [h]

@[simp] theorem settle_wharf (a d : Dev) : (settle a d).wharf = d.wharf := by
  obtain ⟨m, t, h⟩ := settle_ports_tx a d
  rw [h]

@[simp] theorem settle_sched (a d : Dev) : (settle a d).sched = d.sched := by
  obtain ⟨m, t, h⟩ := settle_ports_tx a d
  rw [h]

@[simp] theorem settle_mgmt (a d : Dev) : (settle a d).mgmt = d.mgmt := by
  obtain ⟨m, t, h⟩ := settle_ports_tx a d
  rw [h]

@[simp] theorem settle_cust (a d : Dev) : (settle a d).cust = d.cust := by
  obtain ⟨m, t, h⟩ := settle_ports_tx a d
  rw [h]

@[simp] theorem settle_salv (a d : Dev) : (settle a d).salv = d.salv := by
  obtain ⟨m, t, h⟩ := settle_ports_tx a d
  rw [h]

@[simp] theorem settle_fresh (a d : Dev) : (settle a d).fresh = d.fresh := by
  obtain ⟨m, t, h⟩ := settle_ports_tx a d
  rw [h]

end Sys2Proof.Machine
end

