-- ==== Sys2Proof/Laws/Request.lean ====
section
/-! SUPPORT. What the device goes on with by itself: nothing, where it is at rest. -/

namespace Sys2Proof.Machine

open Sys2Proof

theorem wroteOne_rest {d : Dev} (h : ∀ a ∈ d.quay.accums, a.wrote = none) : wroteOne d = none := by
  unfold wroteOne
  rw [List.findSome?_eq_none_iff]
  intro a ha
  rw [h a ha]; rfl

theorem drain_rest : ∀ (k : Nat) {d : Dev}, d.flying = [] → d.quay.trans = [] → (∀ a ∈ d.quay.accums, a.wrote = none) → drain k d = d
  | 0, _, _, _, _ => rfl
  | k + 1, d, hf, ht, ha => by simp [drain, hf, ht, wroteOne_rest ha]

theorem flushOn_rest {d : Dev} (h : d.quay.flushes = []) : flushOn d = d := by
  have hk : { d with quay.flushes := [] } = d := by rw [← h]
  simp [flushOn, h, hk]

theorem drainAll_rest {d : Dev} (hf : d.flying = []) (ht : d.quay.trans = []) (ha : ∀ a ∈ d.quay.accums, a.wrote = none)
    (hl : d.quay.flushes = []) : drainAll d = d := by
  rw [drainAll, drain_rest _ hf ht ha, flushOn_rest hl]

theorem combOn_rest {d : Dev} (h : d.flying = []) : combOn d = d := by
  have hk : { d with flying := [] } = d := by rw [← h]
  simp [combOn, h, hk]

theorem total_zeros {α : Type} (f : α → Nat) : ∀ {l : List α}, (∀ x ∈ l, f x = 0) → total (l.map f) = 0
  | [], _ => rfl
  | a :: l, h => by
    have ha : f a = 0 := h a (List.mem_cons_self ..)
    have hl : total (l.map f) = 0 := total_zeros f (fun x hx => h x (List.mem_cons_of_mem a hx))
    rw [List.map_cons, total, hl, ha]

theorem pumpFuel_rest {d : Dev} (h : ∀ p ∈ d.ports, p.tlps = []) : pumpFuel d = 0 :=
  total_zeros _ (fun p hp => by rw [h p hp]; rfl)

theorem kept_rest {d : Dev} (h : ∀ p ∈ d.ports, p.hostReads.filter (fun r => !r.sent) = []) (n : Nat) :
    (port d n).hostReads.filter (fun r => !r.sent) = [] := by
  unfold port
  rw [List.getD_eq_getElem?_getD]
  cases hn : d.ports[n]? with
  | none => rfl
  | some p => exact h p (List.mem_of_getElem? hn)

theorem hostOn_rest {d : Dev} (h : ∀ p ∈ d.ports, p.hostReads.filter (fun r => !r.sent) = []) : hostOn d = d := by
  simp [hostOn, kept_rest h, sendKept]

/-- A device at rest goes on with nothing. -/
theorem goOn_rest {d : Dev} (h : AtRest d) : goOn d = d := by
  have hd := drainAll_rest h.flying h.trans h.written h.flushes
  have h1 : walkExt d = none := by simp [walkExt, h.noWalk]
  have h2 : walkOn d = d := by simp [walkOn, h1]
  have h3 : walkEnd d = d := by simp [walkEnd, h1]
  have h4 : quietHeld d = d := by simp [quietHeld, h.noHeld]
  have h5 : towOn d = d := by simp [towOn, h.moves, h.persists, h.noTow]
  simp [goOn, hd, combOn_rest h.flying, h.flying, takeTurns, pumpFuel_rest h.tlps, pump, sendCredited, h2, h3, h4, h5,
    hostOn_rest h.sent]

theorem mgmtDue_none {d : Dev} {fz : Fuses} (h : d.flying.all (fun f => f.wait != .turn) = true) : mgmtDue d fz = (d, fz) := by
  have : d.flying.filter (fun f => f.wait == .turn) = [] := by
    rw [List.filter_eq_nil_iff]
    intro f hf
    have := List.all_eq_true.mp h f hf
    simpa [bne] using this
  simp [mgmtDue, this, mgmtTurns]

/-- With no image being staged, or one that waits for a read, nothing of a STAGE goes on. -/
theorem fwOn_waits {d : Dev} {fz : Fuses} (h : d.cust.fw.all (fun w => w.asked && w.answer.isNone) = true) : ∀ k, fwOn k d fz = d
  | 0 => rfl
  | k + 1 => by
    unfold fwOn
    cases hw : d.cust.fw with
    | none => rfl
    | some w => rw [hw] at h; simp_all

theorem dueCtl_none {d : Dev} {fz : Fuses} (h : d.flying.all (fun f => f.wait != .turn) = true)
    (hw : d.cust.fw.all (fun w => w.asked && w.answer.isNone) = true) : dueCtl d fz = (d, fz) := by
  rw [dueCtl, mgmtDue_none h]
  simp only [fwOn_waits hw]

/-- A device at rest goes on with no access either. -/
theorem goOnCtl_rest {d : Dev} {fz : Fuses} (h : AtRest d) : goOnCtl d fz = (d, fz) := by
  rw [goOnCtl, goOn_rest h]
  exact dueCtl_none (by simp [h.flying]) (by simp [h.noStage])

end Sys2Proof.Machine
end

