-- ==== Sys2Proof/Laws/Control.lean ====
section
/-! SUPPORT. A write of a register: where it reaches its page, all it does is what the page does with the value. -/

namespace Sys2Proof.Machine

open Sys2Proof

/-- A command that writes a register, and reaches it, leaves the device that its page leaves. -/
theorem writes_of (c : Instr) (s : State) (p : Path) (off : Nat) (pa : PageId) (width : Nat) (v : Dev → Nat) (D : Dev)
    (hc : exec c s = s.write p off width v) (hr : Reaches s.dev p off pa) (hok : accessOk off width = true)
    (hw : writePage p pa off width (v s.dev % 2 ^ width) (NMap.get none s.dev.lowHeld (pathIx p)) (dropHalves s.dev p) s.fuses = (D, s.fuses))
    (hd : ∀ q, pageDead (dropHalves s.dev p) q = pageDead s.dev q := by intros; rfl) :
    exec c s = .next (written s p D) := by
  obtain ⟨h1, h2, h3, h4, h5, h6, h7⟩ := hr
  have hm := dueCtl_none (fz := s.fuses) h6 h7
  unfold written afterAccess
  rw [hc]
  simp only [State.write, State.runCtl, State.runFuses, hm, accessWrite, h1, h2, ctlWrite, hok, h3, h4, hd, h5, hw]
  simp

end Sys2Proof.Machine
end

