-- ==== Sys2Proof/Laws/Engines.lean ====
section
/-! SUPPORT. What each named update of the tiers', the Quay's and the engines' state leaves in each field: one lemma per field and
update. -/

namespace Sys2Proof.Machine

open Sys2Proof

/-! ## onDesc -/

@[simp] theorem onDesc_sys (d : Dev) (r : DescRef) (f : Desc → Desc) : (onDesc d r f).sys = d.sys := rfl

@[simp] theorem onDesc_cw (d : Dev) (r : DescRef) (f : Desc → Desc) : (onDesc d r f).cw = d.cw := rfl

@[simp] theorem onDesc_regs (d : Dev) (r : DescRef) (f : Desc → Desc) : (onDesc d r f).regs = d.regs := rfl

@[simp] theorem onDesc_shadow (d : Dev) (r : DescRef) (f : Desc → Desc) : (onDesc d r f).shadow = d.shadow := rfl

@[simp] theorem onDesc_lowHeld (d : Dev) (r : DescRef) (f : Desc → Desc) : (onDesc d r f).lowHeld = d.lowHeld := rfl

@[simp] theorem onDesc_toll (d : Dev) (r : DescRef) (f : Desc → Desc) : (onDesc d r f).toll = d.toll := rfl

@[simp] theorem onDesc_xmap (d : Dev) (r : DescRef) (f : Desc → Desc) : (onDesc d r f).xmap = d.xmap := rfl

@[simp] theorem onDesc_flying (d : Dev) (r : DescRef) (f : Desc → Desc) : (onDesc d r f).flying = d.flying := rfl

@[simp] theorem onDesc_nextFlying (d : Dev) (r : DescRef) (f : Desc → Desc) : (onDesc d r f).nextFlying = d.nextFlying := rfl

@[simp] theorem onDesc_quay (d : Dev) (r : DescRef) (f : Desc → Desc) : (onDesc d r f).quay = d.quay := rfl

@[simp] theorem onDesc_tiers (d : Dev) (r : DescRef) (f : Desc → Desc) : (onDesc d r f).tiers = d.tiers := rfl

@[simp] theorem onDesc_raft (d : Dev) (r : DescRef) (f : Desc → Desc) : (onDesc d r f).raft = d.raft := rfl

@[simp] theorem onDesc_purser (d : Dev) (r : DescRef) (f : Desc → Desc) : (onDesc d r f).purser = d.purser := rfl

@[simp] theorem onDesc_sound (d : Dev) (r : DescRef) (f : Desc → Desc) : (onDesc d r f).sound = d.sound := rfl

@[simp] theorem onDesc_lands (d : Dev) (r : DescRef) (f : Desc → Desc) : (onDesc d r f).lands = d.lands := rfl

@[simp] theorem onDesc_wharf (d : Dev) (r : DescRef) (f : Desc → Desc) : (onDesc d r f).wharf = d.wharf := rfl

@[simp] theorem onDesc_sched (d : Dev) (r : DescRef) (f : Desc → Desc) : (onDesc d r f).sched = d.sched := rfl

@[simp] theorem onDesc_ports (d : Dev) (r : DescRef) (f : Desc → Desc) : (onDesc d r f).ports = d.ports := rfl

@[simp] theorem onDesc_mgmt (d : Dev) (r : DescRef) (f : Desc → Desc) : (onDesc d r f).mgmt = d.mgmt := rfl

@[simp] theorem onDesc_cust (d : Dev) (r : DescRef) (f : Desc → Desc) : (onDesc d r f).cust = d.cust := rfl

@[simp] theorem onDesc_salv (d : Dev) (r : DescRef) (f : Desc → Desc) : (onDesc d r f).salv = d.salv := rfl

@[simp] theorem onDesc_tx (d : Dev) (r : DescRef) (f : Desc → Desc) : (onDesc d r f).tx = d.tx := rfl

@[simp] theorem onDesc_fresh (d : Dev) (r : DescRef) (f : Desc → Desc) : (onDesc d r f).fresh = d.fresh := rfl

@[simp] theorem onDesc_descs (d : Dev) (r : DescRef) (f : Desc → Desc) : (onDesc d r f).descs = modFirst (fun x => x.r == r) f d.descs := rfl

/-! ## onSnap -/

@[simp] theorem onSnap_sys (d : Dev) (n : Nat) (f : SnapSlot → SnapSlot) : (onSnap d n f).sys = d.sys := rfl

@[simp] theorem onSnap_cw (d : Dev) (n : Nat) (f : SnapSlot → SnapSlot) : (onSnap d n f).cw = d.cw := rfl

@[simp] theorem onSnap_regs (d : Dev) (n : Nat) (f : SnapSlot → SnapSlot) : (onSnap d n f).regs = d.regs := rfl

@[simp] theorem onSnap_shadow (d : Dev) (n : Nat) (f : SnapSlot → SnapSlot) : (onSnap d n f).shadow = d.shadow := rfl

@[simp] theorem onSnap_lowHeld (d : Dev) (n : Nat) (f : SnapSlot → SnapSlot) : (onSnap d n f).lowHeld = d.lowHeld := rfl

@[simp] theorem onSnap_toll (d : Dev) (n : Nat) (f : SnapSlot → SnapSlot) : (onSnap d n f).toll = d.toll := rfl

@[simp] theorem onSnap_xmap (d : Dev) (n : Nat) (f : SnapSlot → SnapSlot) : (onSnap d n f).xmap = d.xmap := rfl

@[simp] theorem onSnap_flying (d : Dev) (n : Nat) (f : SnapSlot → SnapSlot) : (onSnap d n f).flying = d.flying := rfl

@[simp] theorem onSnap_nextFlying (d : Dev) (n : Nat) (f : SnapSlot → SnapSlot) : (onSnap d n f).nextFlying = d.nextFlying := rfl

@[simp] theorem onSnap_quay (d : Dev) (n : Nat) (f : SnapSlot → SnapSlot) : (onSnap d n f).quay = d.quay := rfl

@[simp] theorem onSnap_descs (d : Dev) (n : Nat) (f : SnapSlot → SnapSlot) : (onSnap d n f).descs = d.descs := rfl

@[simp] theorem onSnap_raft (d : Dev) (n : Nat) (f : SnapSlot → SnapSlot) : (onSnap d n f).raft = d.raft := rfl

@[simp] theorem onSnap_purser (d : Dev) (n : Nat) (f : SnapSlot → SnapSlot) : (onSnap d n f).purser = d.purser := rfl

@[simp] theorem onSnap_sound (d : Dev) (n : Nat) (f : SnapSlot → SnapSlot) : (onSnap d n f).sound = d.sound := rfl

@[simp] theorem onSnap_lands (d : Dev) (n : Nat) (f : SnapSlot → SnapSlot) : (onSnap d n f).lands = d.lands := rfl

@[simp] theorem onSnap_wharf (d : Dev) (n : Nat) (f : SnapSlot → SnapSlot) : (onSnap d n f).wharf = d.wharf := rfl

@[simp] theorem onSnap_sched (d : Dev) (n : Nat) (f : SnapSlot → SnapSlot) : (onSnap d n f).sched = d.sched := rfl

@[simp] theorem onSnap_ports (d : Dev) (n : Nat) (f : SnapSlot → SnapSlot) : (onSnap d n f).ports = d.ports := rfl

@[simp] theorem onSnap_mgmt (d : Dev) (n : Nat) (f : SnapSlot → SnapSlot) : (onSnap d n f).mgmt = d.mgmt := rfl

@[simp] theorem onSnap_cust (d : Dev) (n : Nat) (f : SnapSlot → SnapSlot) : (onSnap d n f).cust = d.cust := rfl

@[simp] theorem onSnap_salv (d : Dev) (n : Nat) (f : SnapSlot → SnapSlot) : (onSnap d n f).salv = d.salv := rfl

@[simp] theorem onSnap_tx (d : Dev) (n : Nat) (f : SnapSlot → SnapSlot) : (onSnap d n f).tx = d.tx := rfl

@[simp] theorem onSnap_fresh (d : Dev) (n : Nat) (f : SnapSlot → SnapSlot) : (onSnap d n f).fresh = d.fresh := rfl

@[simp] theorem onSnap_tiers_mem (d : Dev) (n : Nat) (f : SnapSlot → SnapSlot) : (onSnap d n f).tiers.mem = d.tiers.mem := rfl

@[simp] theorem onSnap_tiers_poison (d : Dev) (n : Nat) (f : SnapSlot → SnapSlot) : (onSnap d n f).tiers.poison = d.tiers.poison := rfl

@[simp] theorem onSnap_tiers_faults (d : Dev) (n : Nat) (f : SnapSlot → SnapSlot) : (onSnap d n f).tiers.faults = d.tiers.faults := rfl

@[simp] theorem onSnap_tiers_staged (d : Dev) (n : Nat) (f : SnapSlot → SnapSlot) : (onSnap d n f).tiers.staged = d.tiers.staged := rfl

@[simp] theorem onSnap_tiers_deltas (d : Dev) (n : Nat) (f : SnapSlot → SnapSlot) : (onSnap d n f).tiers.deltas = d.tiers.deltas := rfl

@[simp] theorem onSnap_tiers_dirtyEast (d : Dev) (n : Nat) (f : SnapSlot → SnapSlot) : (onSnap d n f).tiers.dirtyEast = d.tiers.dirtyEast := rfl

@[simp] theorem onSnap_tiers_dirtyWest (d : Dev) (n : Nat) (f : SnapSlot → SnapSlot) : (onSnap d n f).tiers.dirtyWest = d.tiers.dirtyWest := rfl

@[simp] theorem onSnap_tiers_ovfEast (d : Dev) (n : Nat) (f : SnapSlot → SnapSlot) : (onSnap d n f).tiers.ovfEast = d.tiers.ovfEast := rfl

@[simp] theorem onSnap_tiers_ovfWest (d : Dev) (n : Nat) (f : SnapSlot → SnapSlot) : (onSnap d n f).tiers.ovfWest = d.tiers.ovfWest := rfl

@[simp] theorem onSnap_tiers_sites (d : Dev) (n : Nat) (f : SnapSlot → SnapSlot) : (onSnap d n f).tiers.sites = d.tiers.sites := rfl

@[simp] theorem onSnap_tiers_rebuild (d : Dev) (n : Nat) (f : SnapSlot → SnapSlot) : (onSnap d n f).tiers.rebuild = d.tiers.rebuild := rfl

@[simp] theorem onSnap_tiers_vaultsDown (d : Dev) (n : Nat) (f : SnapSlot → SnapSlot) : (onSnap d n f).tiers.vaultsDown = d.tiers.vaultsDown := rfl

@[simp] theorem onSnap_tiers_nearSpares (d : Dev) (n : Nat) (f : SnapSlot → SnapSlot) : (onSnap d n f).tiers.nearSpares = d.tiers.nearSpares := rfl

@[simp] theorem onSnap_tiers_nearRows (d : Dev) (n : Nat) (f : SnapSlot → SnapSlot) : (onSnap d n f).tiers.nearRows = d.tiers.nearRows := rfl

@[simp] theorem onSnap_tiers_vaultUes (d : Dev) (n : Nat) (f : SnapSlot → SnapSlot) : (onSnap d n f).tiers.vaultUes = d.tiers.vaultUes := rfl

@[simp] theorem onSnap_tiers_flash (d : Dev) (n : Nat) (f : SnapSlot → SnapSlot) : (onSnap d n f).tiers.flash = d.tiers.flash := rfl

@[simp] theorem onSnap_tiers_groups (d : Dev) (n : Nat) (f : SnapSlot → SnapSlot) : (onSnap d n f).tiers.groups = d.tiers.groups := rfl

@[simp] theorem onSnap_tiers_moves (d : Dev) (n : Nat) (f : SnapSlot → SnapSlot) : (onSnap d n f).tiers.moves = d.tiers.moves := rfl

@[simp] theorem onSnap_tiers_persists (d : Dev) (n : Nat) (f : SnapSlot → SnapSlot) : (onSnap d n f).tiers.persists = d.tiers.persists := rfl

@[simp] theorem onSnap_tiers_pins (d : Dev) (n : Nat) (f : SnapSlot → SnapSlot) : (onSnap d n f).tiers.pins = d.tiers.pins := rfl

@[simp] theorem onSnap_tiers_stallCnt (d : Dev) (n : Nat) (f : SnapSlot → SnapSlot) : (onSnap d n f).tiers.stallCnt = d.tiers.stallCnt := rfl

@[simp] theorem onSnap_tiers_stallCyc (d : Dev) (n : Nat) (f : SnapSlot → SnapSlot) : (onSnap d n f).tiers.stallCyc = d.tiers.stallCyc := rfl

@[simp] theorem onSnap_tiers_snaps (d : Dev) (n : Nat) (f : SnapSlot → SnapSlot) :
    (onSnap d n f).tiers.snaps = modAt f d.tiers.snaps n := rfl

/-! ## onGroup -/

@[simp] theorem onGroup_sys (d : Dev) (b : Nat) (f : FlashGroup → FlashGroup) : (onGroup d b f).sys = d.sys := rfl

@[simp] theorem onGroup_cw (d : Dev) (b : Nat) (f : FlashGroup → FlashGroup) : (onGroup d b f).cw = d.cw := rfl

@[simp] theorem onGroup_regs (d : Dev) (b : Nat) (f : FlashGroup → FlashGroup) : (onGroup d b f).regs = d.regs := rfl

@[simp] theorem onGroup_shadow (d : Dev) (b : Nat) (f : FlashGroup → FlashGroup) : (onGroup d b f).shadow = d.shadow := rfl

@[simp] theorem onGroup_lowHeld (d : Dev) (b : Nat) (f : FlashGroup → FlashGroup) : (onGroup d b f).lowHeld = d.lowHeld := rfl

@[simp] theorem onGroup_toll (d : Dev) (b : Nat) (f : FlashGroup → FlashGroup) : (onGroup d b f).toll = d.toll := rfl

@[simp] theorem onGroup_xmap (d : Dev) (b : Nat) (f : FlashGroup → FlashGroup) : (onGroup d b f).xmap = d.xmap := rfl

@[simp] theorem onGroup_flying (d : Dev) (b : Nat) (f : FlashGroup → FlashGroup) : (onGroup d b f).flying = d.flying := rfl

@[simp] theorem onGroup_nextFlying (d : Dev) (b : Nat) (f : FlashGroup → FlashGroup) : (onGroup d b f).nextFlying = d.nextFlying := rfl

@[simp] theorem onGroup_quay (d : Dev) (b : Nat) (f : FlashGroup → FlashGroup) : (onGroup d b f).quay = d.quay := rfl

@[simp] theorem onGroup_descs (d : Dev) (b : Nat) (f : FlashGroup → FlashGroup) : (onGroup d b f).descs = d.descs := rfl

@[simp] theorem onGroup_raft (d : Dev) (b : Nat) (f : FlashGroup → FlashGroup) : (onGroup d b f).raft = d.raft := rfl

@[simp] theorem onGroup_purser (d : Dev) (b : Nat) (f : FlashGroup → FlashGroup) : (onGroup d b f).purser = d.purser := rfl

@[simp] theorem onGroup_sound (d : Dev) (b : Nat) (f : FlashGroup → FlashGroup) : (onGroup d b f).sound = d.sound := rfl

@[simp] theorem onGroup_lands (d : Dev) (b : Nat) (f : FlashGroup → FlashGroup) : (onGroup d b f).lands = d.lands := rfl

@[simp] theorem onGroup_wharf (d : Dev) (b : Nat) (f : FlashGroup → FlashGroup) : (onGroup d b f).wharf = d.wharf := rfl

@[simp] theorem onGroup_sched (d : Dev) (b : Nat) (f : FlashGroup → FlashGroup) : (onGroup d b f).sched = d.sched := rfl

@[simp] theorem onGroup_ports (d : Dev) (b : Nat) (f : FlashGroup → FlashGroup) : (onGroup d b f).ports = d.ports := rfl

@[simp] theorem onGroup_mgmt (d : Dev) (b : Nat) (f : FlashGroup → FlashGroup) : (onGroup d b f).mgmt = d.mgmt := rfl

@[simp] theorem onGroup_cust (d : Dev) (b : Nat) (f : FlashGroup → FlashGroup) : (onGroup d b f).cust = d.cust := rfl

@[simp] theorem onGroup_salv (d : Dev) (b : Nat) (f : FlashGroup → FlashGroup) : (onGroup d b f).salv = d.salv := rfl

@[simp] theorem onGroup_tx (d : Dev) (b : Nat) (f : FlashGroup → FlashGroup) : (onGroup d b f).tx = d.tx := rfl

@[simp] theorem onGroup_fresh (d : Dev) (b : Nat) (f : FlashGroup → FlashGroup) : (onGroup d b f).fresh = d.fresh := rfl

@[simp] theorem onGroup_tiers_mem (d : Dev) (b : Nat) (f : FlashGroup → FlashGroup) : (onGroup d b f).tiers.mem = d.tiers.mem := rfl

@[simp] theorem onGroup_tiers_poison (d : Dev) (b : Nat) (f : FlashGroup → FlashGroup) : (onGroup d b f).tiers.poison = d.tiers.poison := rfl

@[simp] theorem onGroup_tiers_faults (d : Dev) (b : Nat) (f : FlashGroup → FlashGroup) : (onGroup d b f).tiers.faults = d.tiers.faults := rfl

@[simp] theorem onGroup_tiers_staged (d : Dev) (b : Nat) (f : FlashGroup → FlashGroup) : (onGroup d b f).tiers.staged = d.tiers.staged := rfl

@[simp] theorem onGroup_tiers_deltas (d : Dev) (b : Nat) (f : FlashGroup → FlashGroup) : (onGroup d b f).tiers.deltas = d.tiers.deltas := rfl

@[simp] theorem onGroup_tiers_dirtyEast (d : Dev) (b : Nat) (f : FlashGroup → FlashGroup) : (onGroup d b f).tiers.dirtyEast = d.tiers.dirtyEast := rfl

@[simp] theorem onGroup_tiers_dirtyWest (d : Dev) (b : Nat) (f : FlashGroup → FlashGroup) : (onGroup d b f).tiers.dirtyWest = d.tiers.dirtyWest := rfl

@[simp] theorem onGroup_tiers_ovfEast (d : Dev) (b : Nat) (f : FlashGroup → FlashGroup) : (onGroup d b f).tiers.ovfEast = d.tiers.ovfEast := rfl

@[simp] theorem onGroup_tiers_ovfWest (d : Dev) (b : Nat) (f : FlashGroup → FlashGroup) : (onGroup d b f).tiers.ovfWest = d.tiers.ovfWest := rfl

@[simp] theorem onGroup_tiers_sites (d : Dev) (b : Nat) (f : FlashGroup → FlashGroup) : (onGroup d b f).tiers.sites = d.tiers.sites := rfl

@[simp] theorem onGroup_tiers_rebuild (d : Dev) (b : Nat) (f : FlashGroup → FlashGroup) : (onGroup d b f).tiers.rebuild = d.tiers.rebuild := rfl

@[simp] theorem onGroup_tiers_vaultsDown (d : Dev) (b : Nat) (f : FlashGroup → FlashGroup) : (onGroup d b f).tiers.vaultsDown = d.tiers.vaultsDown := rfl

@[simp] theorem onGroup_tiers_nearSpares (d : Dev) (b : Nat) (f : FlashGroup → FlashGroup) : (onGroup d b f).tiers.nearSpares = d.tiers.nearSpares := rfl

@[simp] theorem onGroup_tiers_nearRows (d : Dev) (b : Nat) (f : FlashGroup → FlashGroup) : (onGroup d b f).tiers.nearRows = d.tiers.nearRows := rfl

@[simp] theorem onGroup_tiers_vaultUes (d : Dev) (b : Nat) (f : FlashGroup → FlashGroup) : (onGroup d b f).tiers.vaultUes = d.tiers.vaultUes := rfl

@[simp] theorem onGroup_tiers_flash (d : Dev) (b : Nat) (f : FlashGroup → FlashGroup) : (onGroup d b f).tiers.flash = d.tiers.flash := rfl

@[simp] theorem onGroup_tiers_groups (d : Dev) (b : Nat) (f : FlashGroup → FlashGroup) :
    (onGroup d b f).tiers.groups = modAt f d.tiers.groups b := rfl

@[simp] theorem onGroup_tiers_moves (d : Dev) (b : Nat) (f : FlashGroup → FlashGroup) : (onGroup d b f).tiers.moves = d.tiers.moves := rfl

@[simp] theorem onGroup_tiers_persists (d : Dev) (b : Nat) (f : FlashGroup → FlashGroup) : (onGroup d b f).tiers.persists = d.tiers.persists := rfl

@[simp] theorem onGroup_tiers_pins (d : Dev) (b : Nat) (f : FlashGroup → FlashGroup) : (onGroup d b f).tiers.pins = d.tiers.pins := rfl

@[simp] theorem onGroup_tiers_stallCnt (d : Dev) (b : Nat) (f : FlashGroup → FlashGroup) : (onGroup d b f).tiers.stallCnt = d.tiers.stallCnt := rfl

@[simp] theorem onGroup_tiers_stallCyc (d : Dev) (b : Nat) (f : FlashGroup → FlashGroup) : (onGroup d b f).tiers.stallCyc = d.tiers.stallCyc := rfl

@[simp] theorem onGroup_tiers_snaps (d : Dev) (b : Nat) (f : FlashGroup → FlashGroup) : (onGroup d b f).tiers.snaps = d.tiers.snaps := rfl

/-! ## onFlash -/

@[simp] theorem onFlash_sys (d : Dev) (c : Nat) (f : FlashChan → FlashChan) : (onFlash d c f).sys = d.sys := rfl

@[simp] theorem onFlash_cw (d : Dev) (c : Nat) (f : FlashChan → FlashChan) : (onFlash d c f).cw = d.cw := rfl

@[simp] theorem onFlash_regs (d : Dev) (c : Nat) (f : FlashChan → FlashChan) : (onFlash d c f).regs = d.regs := rfl

@[simp] theorem onFlash_shadow (d : Dev) (c : Nat) (f : FlashChan → FlashChan) : (onFlash d c f).shadow = d.shadow := rfl

@[simp] theorem onFlash_lowHeld (d : Dev) (c : Nat) (f : FlashChan → FlashChan) : (onFlash d c f).lowHeld = d.lowHeld := rfl

@[simp] theorem onFlash_toll (d : Dev) (c : Nat) (f : FlashChan → FlashChan) : (onFlash d c f).toll = d.toll := rfl

@[simp] theorem onFlash_xmap (d : Dev) (c : Nat) (f : FlashChan → FlashChan) : (onFlash d c f).xmap = d.xmap := rfl

@[simp] theorem onFlash_flying (d : Dev) (c : Nat) (f : FlashChan → FlashChan) : (onFlash d c f).flying = d.flying := rfl

@[simp] theorem onFlash_nextFlying (d : Dev) (c : Nat) (f : FlashChan → FlashChan) : (onFlash d c f).nextFlying = d.nextFlying := rfl

@[simp] theorem onFlash_quay (d : Dev) (c : Nat) (f : FlashChan → FlashChan) : (onFlash d c f).quay = d.quay := rfl

@[simp] theorem onFlash_descs (d : Dev) (c : Nat) (f : FlashChan → FlashChan) : (onFlash d c f).descs = d.descs := rfl

@[simp] theorem onFlash_raft (d : Dev) (c : Nat) (f : FlashChan → FlashChan) : (onFlash d c f).raft = d.raft := rfl

@[simp] theorem onFlash_purser (d : Dev) (c : Nat) (f : FlashChan → FlashChan) : (onFlash d c f).purser = d.purser := rfl

@[simp] theorem onFlash_sound (d : Dev) (c : Nat) (f : FlashChan → FlashChan) : (onFlash d c f).sound = d.sound := rfl

@[simp] theorem onFlash_lands (d : Dev) (c : Nat) (f : FlashChan → FlashChan) : (onFlash d c f).lands = d.lands := rfl

@[simp] theorem onFlash_wharf (d : Dev) (c : Nat) (f : FlashChan → FlashChan) : (onFlash d c f).wharf = d.wharf := rfl

@[simp] theorem onFlash_sched (d : Dev) (c : Nat) (f : FlashChan → FlashChan) : (onFlash d c f).sched = d.sched := rfl

@[simp] theorem onFlash_ports (d : Dev) (c : Nat) (f : FlashChan → FlashChan) : (onFlash d c f).ports = d.ports := rfl

@[simp] theorem onFlash_mgmt (d : Dev) (c : Nat) (f : FlashChan → FlashChan) : (onFlash d c f).mgmt = d.mgmt := rfl

@[simp] theorem onFlash_cust (d : Dev) (c : Nat) (f : FlashChan → FlashChan) : (onFlash d c f).cust = d.cust := rfl

@[simp] theorem onFlash_salv (d : Dev) (c : Nat) (f : FlashChan → FlashChan) : (onFlash d c f).salv = d.salv := rfl

@[simp] theorem onFlash_tx (d : Dev) (c : Nat) (f : FlashChan → FlashChan) : (onFlash d c f).tx = d.tx := rfl

@[simp] theorem onFlash_fresh (d : Dev) (c : Nat) (f : FlashChan → FlashChan) : (onFlash d c f).fresh = d.fresh := rfl

@[simp] theorem onFlash_tiers_mem (d : Dev) (c : Nat) (f : FlashChan → FlashChan) : (onFlash d c f).tiers.mem = d.tiers.mem := rfl

@[simp] theorem onFlash_tiers_poison (d : Dev) (c : Nat) (f : FlashChan → FlashChan) : (onFlash d c f).tiers.poison = d.tiers.poison := rfl

@[simp] theorem onFlash_tiers_faults (d : Dev) (c : Nat) (f : FlashChan → FlashChan) : (onFlash d c f).tiers.faults = d.tiers.faults := rfl

@[simp] theorem onFlash_tiers_staged (d : Dev) (c : Nat) (f : FlashChan → FlashChan) : (onFlash d c f).tiers.staged = d.tiers.staged := rfl

@[simp] theorem onFlash_tiers_deltas (d : Dev) (c : Nat) (f : FlashChan → FlashChan) : (onFlash d c f).tiers.deltas = d.tiers.deltas := rfl

@[simp] theorem onFlash_tiers_dirtyEast (d : Dev) (c : Nat) (f : FlashChan → FlashChan) : (onFlash d c f).tiers.dirtyEast = d.tiers.dirtyEast := rfl

@[simp] theorem onFlash_tiers_dirtyWest (d : Dev) (c : Nat) (f : FlashChan → FlashChan) : (onFlash d c f).tiers.dirtyWest = d.tiers.dirtyWest := rfl

@[simp] theorem onFlash_tiers_ovfEast (d : Dev) (c : Nat) (f : FlashChan → FlashChan) : (onFlash d c f).tiers.ovfEast = d.tiers.ovfEast := rfl

@[simp] theorem onFlash_tiers_ovfWest (d : Dev) (c : Nat) (f : FlashChan → FlashChan) : (onFlash d c f).tiers.ovfWest = d.tiers.ovfWest := rfl

@[simp] theorem onFlash_tiers_sites (d : Dev) (c : Nat) (f : FlashChan → FlashChan) : (onFlash d c f).tiers.sites = d.tiers.sites := rfl

@[simp] theorem onFlash_tiers_rebuild (d : Dev) (c : Nat) (f : FlashChan → FlashChan) : (onFlash d c f).tiers.rebuild = d.tiers.rebuild := rfl

@[simp] theorem onFlash_tiers_vaultsDown (d : Dev) (c : Nat) (f : FlashChan → FlashChan) : (onFlash d c f).tiers.vaultsDown = d.tiers.vaultsDown := rfl

@[simp] theorem onFlash_tiers_nearSpares (d : Dev) (c : Nat) (f : FlashChan → FlashChan) : (onFlash d c f).tiers.nearSpares = d.tiers.nearSpares := rfl

@[simp] theorem onFlash_tiers_nearRows (d : Dev) (c : Nat) (f : FlashChan → FlashChan) : (onFlash d c f).tiers.nearRows = d.tiers.nearRows := rfl

@[simp] theorem onFlash_tiers_vaultUes (d : Dev) (c : Nat) (f : FlashChan → FlashChan) : (onFlash d c f).tiers.vaultUes = d.tiers.vaultUes := rfl

@[simp] theorem onFlash_tiers_flash (d : Dev) (c : Nat) (f : FlashChan → FlashChan) :
    (onFlash d c f).tiers.flash = modAt f d.tiers.flash c := rfl

@[simp] theorem onFlash_tiers_groups (d : Dev) (c : Nat) (f : FlashChan → FlashChan) : (onFlash d c f).tiers.groups = d.tiers.groups := rfl

@[simp] theorem onFlash_tiers_moves (d : Dev) (c : Nat) (f : FlashChan → FlashChan) : (onFlash d c f).tiers.moves = d.tiers.moves := rfl

@[simp] theorem onFlash_tiers_persists (d : Dev) (c : Nat) (f : FlashChan → FlashChan) : (onFlash d c f).tiers.persists = d.tiers.persists := rfl

@[simp] theorem onFlash_tiers_pins (d : Dev) (c : Nat) (f : FlashChan → FlashChan) : (onFlash d c f).tiers.pins = d.tiers.pins := rfl

@[simp] theorem onFlash_tiers_stallCnt (d : Dev) (c : Nat) (f : FlashChan → FlashChan) : (onFlash d c f).tiers.stallCnt = d.tiers.stallCnt := rfl

@[simp] theorem onFlash_tiers_stallCyc (d : Dev) (c : Nat) (f : FlashChan → FlashChan) : (onFlash d c f).tiers.stallCyc = d.tiers.stallCyc := rfl

@[simp] theorem onFlash_tiers_snaps (d : Dev) (c : Nat) (f : FlashChan → FlashChan) : (onFlash d c f).tiers.snaps = d.tiers.snaps := rfl

/-! ## onTrans -/

@[simp] theorem onTrans_sys (d : Dev) (b l : Nat) (f : Trans → Trans) : (onTrans d b l f).sys = d.sys := rfl

@[simp] theorem onTrans_cw (d : Dev) (b l : Nat) (f : Trans → Trans) : (onTrans d b l f).cw = d.cw := rfl

@[simp] theorem onTrans_regs (d : Dev) (b l : Nat) (f : Trans → Trans) : (onTrans d b l f).regs = d.regs := rfl

@[simp] theorem onTrans_shadow (d : Dev) (b l : Nat) (f : Trans → Trans) : (onTrans d b l f).shadow = d.shadow := rfl

@[simp] theorem onTrans_lowHeld (d : Dev) (b l : Nat) (f : Trans → Trans) : (onTrans d b l f).lowHeld = d.lowHeld := rfl

@[simp] theorem onTrans_toll (d : Dev) (b l : Nat) (f : Trans → Trans) : (onTrans d b l f).toll = d.toll := rfl

@[simp] theorem onTrans_xmap (d : Dev) (b l : Nat) (f : Trans → Trans) : (onTrans d b l f).xmap = d.xmap := rfl

@[simp] theorem onTrans_flying (d : Dev) (b l : Nat) (f : Trans → Trans) : (onTrans d b l f).flying = d.flying := rfl

@[simp] theorem onTrans_nextFlying (d : Dev) (b l : Nat) (f : Trans → Trans) : (onTrans d b l f).nextFlying = d.nextFlying := rfl

@[simp] theorem onTrans_tiers (d : Dev) (b l : Nat) (f : Trans → Trans) : (onTrans d b l f).tiers = d.tiers := rfl

@[simp] theorem onTrans_descs (d : Dev) (b l : Nat) (f : Trans → Trans) : (onTrans d b l f).descs = d.descs := rfl

@[simp] theorem onTrans_raft (d : Dev) (b l : Nat) (f : Trans → Trans) : (onTrans d b l f).raft = d.raft := rfl

@[simp] theorem onTrans_purser (d : Dev) (b l : Nat) (f : Trans → Trans) : (onTrans d b l f).purser = d.purser := rfl

@[simp] theorem onTrans_sound (d : Dev) (b l : Nat) (f : Trans → Trans) : (onTrans d b l f).sound = d.sound := rfl

@[simp] theorem onTrans_lands (d : Dev) (b l : Nat) (f : Trans → Trans) : (onTrans d b l f).lands = d.lands := rfl

@[simp] theorem onTrans_wharf (d : Dev) (b l : Nat) (f : Trans → Trans) : (onTrans d b l f).wharf = d.wharf := rfl

@[simp] theorem onTrans_sched (d : Dev) (b l : Nat) (f : Trans → Trans) : (onTrans d b l f).sched = d.sched := rfl

@[simp] theorem onTrans_ports (d : Dev) (b l : Nat) (f : Trans → Trans) : (onTrans d b l f).ports = d.ports := rfl

@[simp] theorem onTrans_mgmt (d : Dev) (b l : Nat) (f : Trans → Trans) : (onTrans d b l f).mgmt = d.mgmt := rfl

@[simp] theorem onTrans_cust (d : Dev) (b l : Nat) (f : Trans → Trans) : (onTrans d b l f).cust = d.cust := rfl

@[simp] theorem onTrans_salv (d : Dev) (b l : Nat) (f : Trans → Trans) : (onTrans d b l f).salv = d.salv := rfl

@[simp] theorem onTrans_tx (d : Dev) (b l : Nat) (f : Trans → Trans) : (onTrans d b l f).tx = d.tx := rfl

@[simp] theorem onTrans_fresh (d : Dev) (b l : Nat) (f : Trans → Trans) : (onTrans d b l f).fresh = d.fresh := rfl

@[simp] theorem onTrans_quay_agents (d : Dev) (b l : Nat) (f : Trans → Trans) : (onTrans d b l f).quay.agents = d.quay.agents := rfl

@[simp] theorem onTrans_quay_dir (d : Dev) (b l : Nat) (f : Trans → Trans) : (onTrans d b l f).quay.dir = d.quay.dir := rfl

@[simp] theorem onTrans_quay_retired (d : Dev) (b l : Nat) (f : Trans → Trans) : (onTrans d b l f).quay.retired = d.quay.retired := rfl

@[simp] theorem onTrans_quay_spareEast (d : Dev) (b l : Nat) (f : Trans → Trans) : (onTrans d b l f).quay.spareEast = d.quay.spareEast := rfl

@[simp] theorem onTrans_quay_spareWest (d : Dev) (b l : Nat) (f : Trans → Trans) : (onTrans d b l f).quay.spareWest = d.quay.spareWest := rfl

@[simp] theorem onTrans_quay_trans (d : Dev) (b l : Nat) (f : Trans → Trans) :
    (onTrans d b l f).quay.trans = modFirst (fun t => t.bank == b && t.line == l) f d.quay.trans := rfl

@[simp] theorem onTrans_quay_setWait (d : Dev) (b l : Nat) (f : Trans → Trans) : (onTrans d b l f).quay.setWait = d.quay.setWait := rfl

@[simp] theorem onTrans_quay_sweeps (d : Dev) (b l : Nat) (f : Trans → Trans) : (onTrans d b l f).quay.sweeps = d.quay.sweeps := rfl

@[simp] theorem onTrans_quay_nextSnoop (d : Dev) (b l : Nat) (f : Trans → Trans) : (onTrans d b l f).quay.nextSnoop = d.quay.nextSnoop := rfl

@[simp] theorem onTrans_quay_useCount (d : Dev) (b l : Nat) (f : Trans → Trans) : (onTrans d b l f).quay.useCount = d.quay.useCount := rfl

@[simp] theorem onTrans_quay_credits (d : Dev) (b l : Nat) (f : Trans → Trans) : (onTrans d b l f).quay.credits = d.quay.credits := rfl

@[simp] theorem onTrans_quay_credSrcs (d : Dev) (b l : Nat) (f : Trans → Trans) : (onTrans d b l f).quay.credSrcs = d.quay.credSrcs := rfl

@[simp] theorem onTrans_quay_remote (d : Dev) (b l : Nat) (f : Trans → Trans) : (onTrans d b l f).quay.remote = d.quay.remote := rfl

@[simp] theorem onTrans_quay_accums (d : Dev) (b l : Nat) (f : Trans → Trans) : (onTrans d b l f).quay.accums = d.quay.accums := rfl

@[simp] theorem onTrans_quay_accumWait (d : Dev) (b l : Nat) (f : Trans → Trans) : (onTrans d b l f).quay.accumWait = d.quay.accumWait := rfl

@[simp] theorem onTrans_quay_flushes (d : Dev) (b l : Nat) (f : Trans → Trans) : (onTrans d b l f).quay.flushes = d.quay.flushes := rfl

@[simp] theorem onTrans_quay_cache (d : Dev) (b l : Nat) (f : Trans → Trans) : (onTrans d b l f).quay.cache = d.quay.cache := rfl

@[simp] theorem onTrans_quay_lossList (d : Dev) (b l : Nat) (f : Trans → Trans) : (onTrans d b l f).quay.lossList = d.quay.lossList := rfl

@[simp] theorem onTrans_quay_losses (d : Dev) (b l : Nat) (f : Trans → Trans) : (onTrans d b l f).quay.losses = d.quay.losses := rfl

/-! ## onCopy -/

@[simp] theorem onCopy_sys (d : Dev) (id : Nat) (f : Copy → Copy) : (onCopy d id f).sys = d.sys := rfl

@[simp] theorem onCopy_cw (d : Dev) (id : Nat) (f : Copy → Copy) : (onCopy d id f).cw = d.cw := rfl

@[simp] theorem onCopy_regs (d : Dev) (id : Nat) (f : Copy → Copy) : (onCopy d id f).regs = d.regs := rfl

@[simp] theorem onCopy_shadow (d : Dev) (id : Nat) (f : Copy → Copy) : (onCopy d id f).shadow = d.shadow := rfl

@[simp] theorem onCopy_lowHeld (d : Dev) (id : Nat) (f : Copy → Copy) : (onCopy d id f).lowHeld = d.lowHeld := rfl

@[simp] theorem onCopy_toll (d : Dev) (id : Nat) (f : Copy → Copy) : (onCopy d id f).toll = d.toll := rfl

@[simp] theorem onCopy_xmap (d : Dev) (id : Nat) (f : Copy → Copy) : (onCopy d id f).xmap = d.xmap := rfl

@[simp] theorem onCopy_flying (d : Dev) (id : Nat) (f : Copy → Copy) : (onCopy d id f).flying = d.flying := rfl

@[simp] theorem onCopy_nextFlying (d : Dev) (id : Nat) (f : Copy → Copy) : (onCopy d id f).nextFlying = d.nextFlying := rfl

@[simp] theorem onCopy_quay (d : Dev) (id : Nat) (f : Copy → Copy) : (onCopy d id f).quay = d.quay := rfl

@[simp] theorem onCopy_tiers (d : Dev) (id : Nat) (f : Copy → Copy) : (onCopy d id f).tiers = d.tiers := rfl

@[simp] theorem onCopy_descs (d : Dev) (id : Nat) (f : Copy → Copy) : (onCopy d id f).descs = d.descs := rfl

@[simp] theorem onCopy_purser (d : Dev) (id : Nat) (f : Copy → Copy) : (onCopy d id f).purser = d.purser := rfl

@[simp] theorem onCopy_sound (d : Dev) (id : Nat) (f : Copy → Copy) : (onCopy d id f).sound = d.sound := rfl

@[simp] theorem onCopy_lands (d : Dev) (id : Nat) (f : Copy → Copy) : (onCopy d id f).lands = d.lands := rfl

@[simp] theorem onCopy_wharf (d : Dev) (id : Nat) (f : Copy → Copy) : (onCopy d id f).wharf = d.wharf := rfl

@[simp] theorem onCopy_sched (d : Dev) (id : Nat) (f : Copy → Copy) : (onCopy d id f).sched = d.sched := rfl

@[simp] theorem onCopy_ports (d : Dev) (id : Nat) (f : Copy → Copy) : (onCopy d id f).ports = d.ports := rfl

@[simp] theorem onCopy_mgmt (d : Dev) (id : Nat) (f : Copy → Copy) : (onCopy d id f).mgmt = d.mgmt := rfl

@[simp] theorem onCopy_cust (d : Dev) (id : Nat) (f : Copy → Copy) : (onCopy d id f).cust = d.cust := rfl

@[simp] theorem onCopy_salv (d : Dev) (id : Nat) (f : Copy → Copy) : (onCopy d id f).salv = d.salv := rfl

@[simp] theorem onCopy_tx (d : Dev) (id : Nat) (f : Copy → Copy) : (onCopy d id f).tx = d.tx := rfl

@[simp] theorem onCopy_fresh (d : Dev) (id : Nat) (f : Copy → Copy) : (onCopy d id f).fresh = d.fresh := rfl

@[simp] theorem onCopy_raft_ctx (d : Dev) (id : Nat) (f : Copy → Copy) : (onCopy d id f).raft.ctx = d.raft.ctx := rfl

@[simp] theorem onCopy_raft_rows (d : Dev) (id : Nat) (f : Copy → Copy) : (onCopy d id f).raft.rows = d.raft.rows := rfl

@[simp] theorem onCopy_raft_failed (d : Dev) (id : Nat) (f : Copy → Copy) : (onCopy d id f).raft.failed = d.raft.failed := rfl

@[simp] theorem onCopy_raft_copies (d : Dev) (id : Nat) (f : Copy → Copy) :
    (onCopy d id f).raft.copies = modFirst (fun c => c.id == id) f d.raft.copies := rfl

@[simp] theorem onCopy_raft_nextCopy (d : Dev) (id : Nat) (f : Copy → Copy) : (onCopy d id f).raft.nextCopy = d.raft.nextCopy := rfl

@[simp] theorem onCopy_raft_lastFail (d : Dev) (id : Nat) (f : Copy → Copy) : (onCopy d id f).raft.lastFail = d.raft.lastFail := rfl

/-! ## setTable -/

@[simp] theorem setTable_sys (d : Dev) (n : Nat) (t : TableSlot) : (setTable d n t).sys = d.sys := rfl

@[simp] theorem setTable_cw (d : Dev) (n : Nat) (t : TableSlot) : (setTable d n t).cw = d.cw := rfl

@[simp] theorem setTable_regs (d : Dev) (n : Nat) (t : TableSlot) : (setTable d n t).regs = d.regs := rfl

@[simp] theorem setTable_shadow (d : Dev) (n : Nat) (t : TableSlot) : (setTable d n t).shadow = d.shadow := rfl

@[simp] theorem setTable_lowHeld (d : Dev) (n : Nat) (t : TableSlot) : (setTable d n t).lowHeld = d.lowHeld := rfl

@[simp] theorem setTable_toll (d : Dev) (n : Nat) (t : TableSlot) : (setTable d n t).toll = d.toll := rfl

@[simp] theorem setTable_xmap (d : Dev) (n : Nat) (t : TableSlot) : (setTable d n t).xmap = d.xmap := rfl

@[simp] theorem setTable_flying (d : Dev) (n : Nat) (t : TableSlot) : (setTable d n t).flying = d.flying := rfl

@[simp] theorem setTable_nextFlying (d : Dev) (n : Nat) (t : TableSlot) : (setTable d n t).nextFlying = d.nextFlying := rfl

@[simp] theorem setTable_quay (d : Dev) (n : Nat) (t : TableSlot) : (setTable d n t).quay = d.quay := rfl

@[simp] theorem setTable_tiers (d : Dev) (n : Nat) (t : TableSlot) : (setTable d n t).tiers = d.tiers := rfl

@[simp] theorem setTable_descs (d : Dev) (n : Nat) (t : TableSlot) : (setTable d n t).descs = d.descs := rfl

@[simp] theorem setTable_raft (d : Dev) (n : Nat) (t : TableSlot) : (setTable d n t).raft = d.raft := rfl

@[simp] theorem setTable_sound (d : Dev) (n : Nat) (t : TableSlot) : (setTable d n t).sound = d.sound := rfl

@[simp] theorem setTable_lands (d : Dev) (n : Nat) (t : TableSlot) : (setTable d n t).lands = d.lands := rfl

@[simp] theorem setTable_wharf (d : Dev) (n : Nat) (t : TableSlot) : (setTable d n t).wharf = d.wharf := rfl

@[simp] theorem setTable_sched (d : Dev) (n : Nat) (t : TableSlot) : (setTable d n t).sched = d.sched := rfl

@[simp] theorem setTable_ports (d : Dev) (n : Nat) (t : TableSlot) : (setTable d n t).ports = d.ports := rfl

@[simp] theorem setTable_mgmt (d : Dev) (n : Nat) (t : TableSlot) : (setTable d n t).mgmt = d.mgmt := rfl

@[simp] theorem setTable_cust (d : Dev) (n : Nat) (t : TableSlot) : (setTable d n t).cust = d.cust := rfl

@[simp] theorem setTable_salv (d : Dev) (n : Nat) (t : TableSlot) : (setTable d n t).salv = d.salv := rfl

@[simp] theorem setTable_tx (d : Dev) (n : Nat) (t : TableSlot) : (setTable d n t).tx = d.tx := rfl

@[simp] theorem setTable_fresh (d : Dev) (n : Nat) (t : TableSlot) : (setTable d n t).fresh = d.fresh := rfl

@[simp] theorem setTable_purser_slots (d : Dev) (n : Nat) (t : TableSlot) :
    (setTable d n t).purser.slots = NMap.set {} d.purser.slots n t := rfl

@[simp] theorem setTable_purser_fwd (d : Dev) (n : Nat) (t : TableSlot) : (setTable d n t).purser.fwd = d.purser.fwd := rfl

@[simp] theorem setTable_purser_locks (d : Dev) (n : Nat) (t : TableSlot) : (setTable d n t).purser.locks = d.purser.locks := rfl

@[simp] theorem setTable_purser_waits (d : Dev) (n : Nat) (t : TableSlot) : (setTable d n t).purser.waits = d.purser.waits := rfl

@[simp] theorem setTable_purser_bound (d : Dev) (n : Nat) (t : TableSlot) : (setTable d n t).purser.bound = d.purser.bound := rfl

@[simp] theorem setTable_purser_nextLock (d : Dev) (n : Nat) (t : TableSlot) : (setTable d n t).purser.nextLock = d.purser.nextLock := rfl

@[simp] theorem setTable_purser_shares (d : Dev) (n : Nat) (t : TableSlot) : (setTable d n t).purser.shares = d.purser.shares := rfl

/-! ## setIndex -/

@[simp] theorem setIndex_sys (d : Dev) (n : Nat) (s : IndexSlot) : (setIndex d n s).sys = d.sys := rfl

@[simp] theorem setIndex_cw (d : Dev) (n : Nat) (s : IndexSlot) : (setIndex d n s).cw = d.cw := rfl

@[simp] theorem setIndex_regs (d : Dev) (n : Nat) (s : IndexSlot) : (setIndex d n s).regs = d.regs := rfl

@[simp] theorem setIndex_shadow (d : Dev) (n : Nat) (s : IndexSlot) : (setIndex d n s).shadow = d.shadow := rfl

@[simp] theorem setIndex_lowHeld (d : Dev) (n : Nat) (s : IndexSlot) : (setIndex d n s).lowHeld = d.lowHeld := rfl

@[simp] theorem setIndex_toll (d : Dev) (n : Nat) (s : IndexSlot) : (setIndex d n s).toll = d.toll := rfl

@[simp] theorem setIndex_xmap (d : Dev) (n : Nat) (s : IndexSlot) : (setIndex d n s).xmap = d.xmap := rfl

@[simp] theorem setIndex_flying (d : Dev) (n : Nat) (s : IndexSlot) : (setIndex d n s).flying = d.flying := rfl

@[simp] theorem setIndex_nextFlying (d : Dev) (n : Nat) (s : IndexSlot) : (setIndex d n s).nextFlying = d.nextFlying := rfl

@[simp] theorem setIndex_quay (d : Dev) (n : Nat) (s : IndexSlot) : (setIndex d n s).quay = d.quay := rfl

@[simp] theorem setIndex_tiers (d : Dev) (n : Nat) (s : IndexSlot) : (setIndex d n s).tiers = d.tiers := rfl

@[simp] theorem setIndex_descs (d : Dev) (n : Nat) (s : IndexSlot) : (setIndex d n s).descs = d.descs := rfl

@[simp] theorem setIndex_raft (d : Dev) (n : Nat) (s : IndexSlot) : (setIndex d n s).raft = d.raft := rfl

@[simp] theorem setIndex_purser (d : Dev) (n : Nat) (s : IndexSlot) : (setIndex d n s).purser = d.purser := rfl

@[simp] theorem setIndex_lands (d : Dev) (n : Nat) (s : IndexSlot) : (setIndex d n s).lands = d.lands := rfl

@[simp] theorem setIndex_wharf (d : Dev) (n : Nat) (s : IndexSlot) : (setIndex d n s).wharf = d.wharf := rfl

@[simp] theorem setIndex_sched (d : Dev) (n : Nat) (s : IndexSlot) : (setIndex d n s).sched = d.sched := rfl

@[simp] theorem setIndex_ports (d : Dev) (n : Nat) (s : IndexSlot) : (setIndex d n s).ports = d.ports := rfl

@[simp] theorem setIndex_mgmt (d : Dev) (n : Nat) (s : IndexSlot) : (setIndex d n s).mgmt = d.mgmt := rfl

@[simp] theorem setIndex_cust (d : Dev) (n : Nat) (s : IndexSlot) : (setIndex d n s).cust = d.cust := rfl

@[simp] theorem setIndex_salv (d : Dev) (n : Nat) (s : IndexSlot) : (setIndex d n s).salv = d.salv := rfl

@[simp] theorem setIndex_tx (d : Dev) (n : Nat) (s : IndexSlot) : (setIndex d n s).tx = d.tx := rfl

@[simp] theorem setIndex_fresh (d : Dev) (n : Nat) (s : IndexSlot) : (setIndex d n s).fresh = d.fresh := rfl

@[simp] theorem setIndex_sound_slots (d : Dev) (n : Nat) (s : IndexSlot) :
    (setIndex d n s).sound.slots = NMap.set {} d.sound.slots n s := rfl

@[simp] theorem setIndex_sound_bound (d : Dev) (n : Nat) (s : IndexSlot) : (setIndex d n s).sound.bound = d.sound.bound := rfl

@[simp] theorem setIndex_sound_punts (d : Dev) (n : Nat) (s : IndexSlot) : (setIndex d n s).sound.punts = d.sound.punts := rfl

/-! ## onPunt -/

@[simp] theorem onPunt_sys (d : Dev) (c : Nat) (f : Punt → Punt) : (onPunt d c f).sys = d.sys := rfl

@[simp] theorem onPunt_cw (d : Dev) (c : Nat) (f : Punt → Punt) : (onPunt d c f).cw = d.cw := rfl

@[simp] theorem onPunt_regs (d : Dev) (c : Nat) (f : Punt → Punt) : (onPunt d c f).regs = d.regs := rfl

@[simp] theorem onPunt_shadow (d : Dev) (c : Nat) (f : Punt → Punt) : (onPunt d c f).shadow = d.shadow := rfl

@[simp] theorem onPunt_lowHeld (d : Dev) (c : Nat) (f : Punt → Punt) : (onPunt d c f).lowHeld = d.lowHeld := rfl

@[simp] theorem onPunt_toll (d : Dev) (c : Nat) (f : Punt → Punt) : (onPunt d c f).toll = d.toll := rfl

@[simp] theorem onPunt_xmap (d : Dev) (c : Nat) (f : Punt → Punt) : (onPunt d c f).xmap = d.xmap := rfl

@[simp] theorem onPunt_flying (d : Dev) (c : Nat) (f : Punt → Punt) : (onPunt d c f).flying = d.flying := rfl

@[simp] theorem onPunt_nextFlying (d : Dev) (c : Nat) (f : Punt → Punt) : (onPunt d c f).nextFlying = d.nextFlying := rfl

@[simp] theorem onPunt_quay (d : Dev) (c : Nat) (f : Punt → Punt) : (onPunt d c f).quay = d.quay := rfl

@[simp] theorem onPunt_tiers (d : Dev) (c : Nat) (f : Punt → Punt) : (onPunt d c f).tiers = d.tiers := rfl

@[simp] theorem onPunt_descs (d : Dev) (c : Nat) (f : Punt → Punt) : (onPunt d c f).descs = d.descs := rfl

@[simp] theorem onPunt_raft (d : Dev) (c : Nat) (f : Punt → Punt) : (onPunt d c f).raft = d.raft := rfl

@[simp] theorem onPunt_purser (d : Dev) (c : Nat) (f : Punt → Punt) : (onPunt d c f).purser = d.purser := rfl

@[simp] theorem onPunt_lands (d : Dev) (c : Nat) (f : Punt → Punt) : (onPunt d c f).lands = d.lands := rfl

@[simp] theorem onPunt_wharf (d : Dev) (c : Nat) (f : Punt → Punt) : (onPunt d c f).wharf = d.wharf := rfl

@[simp] theorem onPunt_sched (d : Dev) (c : Nat) (f : Punt → Punt) : (onPunt d c f).sched = d.sched := rfl

@[simp] theorem onPunt_ports (d : Dev) (c : Nat) (f : Punt → Punt) : (onPunt d c f).ports = d.ports := rfl

@[simp] theorem onPunt_mgmt (d : Dev) (c : Nat) (f : Punt → Punt) : (onPunt d c f).mgmt = d.mgmt := rfl

@[simp] theorem onPunt_cust (d : Dev) (c : Nat) (f : Punt → Punt) : (onPunt d c f).cust = d.cust := rfl

@[simp] theorem onPunt_salv (d : Dev) (c : Nat) (f : Punt → Punt) : (onPunt d c f).salv = d.salv := rfl

@[simp] theorem onPunt_tx (d : Dev) (c : Nat) (f : Punt → Punt) : (onPunt d c f).tx = d.tx := rfl

@[simp] theorem onPunt_fresh (d : Dev) (c : Nat) (f : Punt → Punt) : (onPunt d c f).fresh = d.fresh := rfl

@[simp] theorem onPunt_sound_slots (d : Dev) (c : Nat) (f : Punt → Punt) : (onPunt d c f).sound.slots = d.sound.slots := rfl

@[simp] theorem onPunt_sound_bound (d : Dev) (c : Nat) (f : Punt → Punt) : (onPunt d c f).sound.bound = d.sound.bound := rfl

@[simp] theorem onPunt_sound_punts (d : Dev) (c : Nat) (f : Punt → Punt) :
    (onPunt d c f).sound.punts = modAt f d.sound.punts c := rfl

end Sys2Proof.Machine
end

