-- ==== Sys2Proof/WellFormed.lean ====
section
/-! DEFINITION. Well-formed commands: every operand names an instance the module has (00 R10, 17 R510) and a unit of
the size its rule gives. The meanings are total on ill-formed commands as well. -/

namespace Sys2Proof

/-- A descriptor reference names a ring the module has (02 R67). -/
def DescRef.wellFormed (r : DescRef) : Bool :=
  decide (r.berth < 256) && decide (r.ring < 64)

/-- Whether the operands of a command name instances that exist. -/
def Instr.wellFormed : Instr → Bool
  | .controlRegisterWrite _ _ width _ => width == 32 || width == 64
  | .counterLowHalfRead _ off => off % 8 == 0
  | .counterHighHalfRead _ off => off % 8 == 4
  | .evtStatWrite _ page _ => page % 0x1000 == 0
  | .evtSetWrite _ page _ => page % 0x1000 == 0
  | .evtEnWrite _ page _ => page % 0x1000 == 0
  | .cntClear _ page => page % 0x1000 == 0
  | .cntFreeze _ page _ => page % 0x1000 == 0
  | .feValidClear _ page => page % 0x1000 == 0
  | .causewayFrameRx _ flow group _ _ => decide (flow.cls < 8) && decide (group < 34)
  | .laneGroupRetire _ group => decide (group < 34)
  | .spareGroupTrained _ group => decide (group < 34)
  | .causewayLoss => true
  | .causewayRetrain groupsToWest groupsToEast => decide (groupsToWest ≤ 34) && decide (groupsToEast ≤ 34)
  | .westBankRejoin => true
  | .rd ld _ => decide (ld < 16)
  | .wr ld _ _ => decide (ld < 16)
  | .stackDeltaApply chan _ => decide (chan < 32)
  | .storeAck _ => true
  | .atomic ld _ _ => decide (ld < 16)
  | .homeAtomic ld _ _ => decide (ld < 16)
  | .publish ld _ _ => decide (ld < 16)
  | .acquire ld _ => decide (ld < 16)
  | .flush ld _ => decide (ld < 16)
  | .eadd ld _ _ => decide (ld < 16)
  | .eddyWritebackDone bank _ => decide (bank < 2)
  | .eddyIdleExpiry bank _ => decide (bank < 2)
  | .rdShared ld _ => decide (ld < 16)
  | .rdOwn ld _ => decide (ld < 16)
  | .upgrade ld _ => decide (ld < 16)
  | .wb ld _ _ => decide (ld < 16)
  | .evictClean ld _ => decide (ld < 16)
  | .snoopAns ld _ _ _ _ _ => decide (ld < 16)
  | .quayHomeTimeout _ => true
  | .quayAgentDataWrite _ bank _ => decide (bank < 2)
  | .directoryEccError bank set way => decide (bank < 2) && decide (set < 262144) && decide (way < 16)
  | .directorySweepDone bank set => decide (bank < 2) && decide (set < 262144)
  | .tollCacheEccError bank => decide (bank < 2)
  | .rdComb ld _ _ _ => decide (ld < 16)
  | .mgmtRd ld _ => decide (ld < 16)
  | .mgmtWr ld _ _ => decide (ld < 16)
  | .rspRx ld _ _ => decide (ld < 16)
  | .doorbellStore ld _ _ => decide (ld < 16)
  | .descriptorFetch berth ring => decide (berth < 256) && decide (ring < 64)
  | .ringControlNoop r => r.wellFormed
  | .descriptorComplete r => r.wellFormed
  | .tollInsert _ bank => decide (bank < 2)
  | .tollModify _ bank => decide (bank < 2)
  | .tollRevoke _ bank => decide (bank < 2)
  | .tollOffer _ bank _ => decide (bank < 2)
  | .tollAccept _ bank _ => decide (bank < 2)
  | .tollCancel _ bank => decide (bank < 2)
  | .tollRead _ bank => decide (bank < 2)
  | .jobWrite _ bank _ => decide (bank < 2)
  | .tollTakeEffect => true
  | .revokeComplete slot => decide (slot < 16)
  | .handoverComplete slot => decide (slot < 16)
  | .drainWarn slot => decide (slot < 16)
  | .ferryTimeout _ => true
  | .xmapNodeWrite _ bank _ => decide (bank < 2)
  | .xmapCommit _ bank => decide (bank < 2)
  | .xmapSetEpoch _ bank _ => decide (bank < 2)
  | .xmapDiscard _ bank => decide (bank < 2)
  | .mapTakeEffect => true
  | .epochRetire => true
  | .ringApply _ bank _ => decide (bank < 2)
  | .flashStageDrain bank => decide (bank < 2)
  | .tierAnswer _ => true
  | .towLate _ => true
  | .towFail _ => true
  | .rowReplace site chan _ => decide (site < 10) && decide (chan < 32)
  | .stackChannelDown site chan => decide (site < 10) && decide (chan < 32)
  | .stackChannelRebuildDone site chan => decide (site < 10) && decide (chan < 32)
  | .stackSiteFail site => decide (site < 10)
  | .spareStackReady => true
  | .stackRebuildDone => true
  | .loggedParityRecomputeDone bank => decide (bank < 2)
  | .flashChannelFail channel => decide (channel < 32)
  | .flashRebuildDone bank => decide (bank < 2)
  | .flashBlockRetire channel => decide (channel < 32)
  | .vaultFail vault => decide (vault < 64)
  | .nearRowReplace vault _ => decide (vault < 64)
  | .move r => r.wellFormed
  | .pin r => r.wellFormed
  | .unpin r => r.wellFormed
  | .persist r => r.wellFormed
  | .moveCopyDone _ => true
  | .moveSwitch _ => true
  | .moveAbandon _ _ => true
  | .towPinWaitExpiry _ => true
  | .lossListComplete ld => decide (ld < 16)
  | .lossListExpire ld => decide (ld < 16)
  | .raftLoad r => r.wellFormed
  | .raftRun r => r.wellFormed
  | .raftEvict r => r.wellFormed
  | .copyPlaced _ => true
  | .raftLoadWaitExpiry r => r.wellFormed
  | .itemCommit r _ => r.wellFormed
  | .runEnd r => r.wellFormed
  | .suFault su _ => decide (su < 1024)
  | .remapGo _ bank => decide (bank < 2)
  | .remapApply bank row => decide (bank < 2) && decide (row < 16)
  | .optStep r => r.wellFormed
  | .norm r => r.wellFormed
  | .tsMerge r => r.wellFormed
  | .snapOpen r => r.wellFormed
  | .snapPoint bank slot => decide (bank < 2) && decide (slot < 16)
  | .snapTileCopied bank slot _ _ => decide (bank < 2) && decide (slot < 16)
  | .snapItemDone bank slot _ => decide (bank < 2) && decide (slot < 16)
  | .snapSeal r => r.wellFormed
  | .snapDrop r => r.wellFormed
  | .purserDefine r => r.wellFormed
  | .purserFree r => r.wellFormed
  | .purserSwitch r => r.wellFormed
  | .purserVersionDrained bank slot => decide (bank < 2) && decide (slot < 1024)
  | .gather r => r.wellFormed
  | .update r => r.wellFormed
  | .migrate r => r.wellFormed
  | .rowLockGrant bank => decide (bank < 2)
  | .rowUpdateDone bank _ => decide (bank < 2)
  | .migrateFlip bank _ => decide (bank < 2)
  | .soundDefine r => r.wellFormed
  | .soundFree r => r.wellFormed
  | .query r => r.wellFormed
  | .combine r => r.wellFormed
  | .combineCountersReady r => r.wellFormed
  | .soundCombineWaitExpiry r => r.wellFormed
  | .append r => r.wellFormed
  | .sideRecordWritten bank slot _ => decide (bank < 2) && decide (slot < 256)
  | .soundMerge r => r.wellFormed
  | .soundMergeSwitch bank slot => decide (bank < 2) && decide (slot < 256)
  | .soundVersionDrained bank slot => decide (bank < 2) && decide (slot < 256)
  | .pqScan r => r.wellFormed
  | .puntScanDone channel => decide (channel < 32)
  | .flitRx ld flit _ _ => decide (ld < 16) && flit.length == 256
  | .landAckTimeout ld => decide (ld < 16)
  | .laneLockLoss ld lane => decide (ld < 16) && decide (lane < 4)
  | .laneErrLimit ld lane => decide (ld < 16) && decide (lane < 4)
  | .landRetrain _ ld => decide (ld < 16)
  | .retrainDone ld _ => decide (ld < 16)
  | .landEnable _ ld _ => decide (ld < 16)
  | .linkDown ld => decide (ld < 16)
  | .trainingAttempt ld _ _ => decide (ld < 16)
  | .linkUp ld => decide (ld < 16)
  | .foghornTx ld => decide (ld < 16)
  | .foghornRx ld _ => decide (ld < 16)
  | .foghornMiss ld => decide (ld < 16)
  | .frameAdmit bank _ output cls => decide (bank < 2) && decide (output < 50) && decide (cls < 8)
  | .frameAged bank _ => decide (bank < 2)
  | .landingFrameSend ld => decide (ld < 16)
  | .wharfGminWrite _ bank _ => decide (bank < 2)
  | .wharfEpBaseWrite _ bank _ => decide (bank < 2)
  | .fmCfgWrite _ _ => true
  | .ttArm _ bank => decide (bank < 2)
  | .ttDisarm _ bank => decide (bank < 2)
  | .ttSwitch ld => decide (ld < 16)
  | .gateEntryChange ld => decide (ld < 16)
  | .ttEntryWrite _ bank _ => decide (bank < 2)
  | .meterSnap _ bank => decide (bank < 2)
  | .pcieMemoryRead port fn _ _ => decide (port < 2) && decide (fn < 8)
  | .pciePostedWrite port fn _ _ => decide (port < 2) && decide (fn < 8)
  | .pcieAtomicop port fn _ _ bytes _ => decide (port < 2) && decide (fn < 8) && (bytes == 4 || bytes == 8 || bytes == 16)
  | .cxlMemrd port _ => decide (port < 2)
  | .cxlMemwr port _ _ => decide (port < 2)
  | .hdmDecoderCommit port decoder _ => decide (port < 2) && decide (decoder < 4)
  | .identifyMemoryDevice port => decide (port < 2)
  | .getHealthInfo port => decide (port < 2)
  | .getEventRecords port => decide (port < 2)
  | .clearEventRecords port _ => decide (port < 2)
  | .getSupportedLogs port => decide (port < 2)
  | .getLog port _ _ => decide (port < 2)
  | .pcieCplTimeout port _ => decide (port < 2)
  | .hostCompletion port _ _ => decide (port < 2)
  | .pciePortReset port => decide (port < 2)
  | .functionLevelReset port fn => decide (port < 2) && decide (fn < 8)
  | .pcieRetrain _ port => decide (port < 2)
  | .pcieFnWinWrite _ port _ => decide (port < 2)
  | .msixUnmask port fn _ => decide (port < 2) && decide (fn < 8)
  | .entdaa _ => true
  | .mctpControlMessage _ _ => true
  | .read32 bytes => bytes.getD 3 0 == 0x01
  | .write32 bytes => bytes.getD 3 0 == 0x02
  | .read64 bytes => bytes.getD 3 0 == 0x03
  | .write64 bytes => bytes.getD 3 0 == 0x04
  | .getVersion _ bytes => bytes.getD 1 0 == 0x84
  | .getCapabilities _ bytes => bytes.getD 1 0 == 0xE1
  | .negotiateAlgorithms _ bytes => bytes.getD 1 0 == 0xE3
  | .getDigests _ bytes => bytes.getD 1 0 == 0x81
  | .getCertificate _ bytes => bytes.getD 1 0 == 0x82
  | .challenge _ bytes => bytes.getD 1 0 == 0x83
  | .getMeasurements _ bytes => bytes.getD 1 0 == 0xE0
  | .chunkSend _ bytes => bytes.getD 1 0 == 0x85
  | .chunkGet _ bytes => bytes.getD 1 0 == 0x86
  | .consoleInputLine _ _ => true
  | .jtagInstruction tap _ _ => decide (tap < 2)
  | .custKeyLoad _ _ _ => true
  | .custKeyClear _ _ => true
  | .custKeyQuery _ _ => true
  | .debugUnlock _ => true
  | .fwStage _ _ => true
  | .fwActivate _ _ => true
  | .fwCommit _ _ => true
  | .custPolicyWrite _ _ => true
  | .salvFence _ bank => decide (bank < 2)
  | .salvIsolateExpiry => true
  | .salvPeerTimeout _ => true
  | .peerProbe _ _ => true
  | .peerResyncDone _ => true
  | .salvRebuild _ bank => decide (bank < 2)
  | .salvLost _ bank => decide (bank < 2)
  | .salvCopy _ bank => decide (bank < 2)
  | .peerRebuildDone => true
  | .salvConvoyApply _ bank => decide (bank < 2)
  | .powerOn _ => true
  | .powerLoss => true
  | .emergencyOff _ => true
  | .latchClear => true
  | .powerSample _ _ => true
  | .dutyStepDown => true
  | .dutyStepUp => true
  | .pwrOver => true
  | .tempSample _ _ => true
  | .clockFailure => true
  | .phyPllLoss _ => true
  | .pinReset => true
  | .rstGo _ => true
  | .rstCancel _ => true
  | .rstNow _ => true
  | .watchdogReset => true
  | .testPortReset => true
  | .rstNoticeExpiry => true
  | .quiesceEnd => true
  | .coreResetEnd _ => true
  | .startStepDone _ _ => true
  | .pcieLinkUp port rate width _ => decide (port < 2) && decide (rate < 3) && decide (width ≤ 16)
  | .busMasterEnable port _ => decide (port < 2)
  | .msixVectorMask port fn _ => decide (port < 2) && decide (fn < 8)
  | .hdrTraffic => true
  | .hdrExitPattern => true
  | .recoveryImageReceived _ _ => true

end Sys2Proof
end

