-- ==== Sys2Proof/Tests/Slice0.lean ====
section
/-! SUPPORT. Tests of the model: ill-formed commands, small steps whose results come from the spec or from published check
values, and states that meet the hypotheses of each statement. -/

namespace Sys2Proof.Tests

-- One theorem after the other: each evaluation in a thread of its own would exhaust the check's memory limit.
set_option Elab.async false

open Sys2Proof Sys2Proof.Machine

/-! ## States -/

/-- A device in service, with nothing in hand. -/
def dServe : Dev := { Dev.reset with sys.step := 0x12 }

/-- The machine with a device. -/
def on (d : Dev) : State := { State.reset with dev := d }

/-- At rest, as a test. -/
theorem atRest_of (d : Dev) (h : (d.flying.isEmpty && d.quay.trans.isEmpty && d.quay.accums.all (fun a => a.wrote.isNone) &&
    d.quay.flushes.isEmpty && d.ports.all (fun p => p.tlps.isEmpty) &&
    d.ports.all (fun p => (p.hostReads.filter (fun r => !r.sent)).isEmpty) && d.tiers.moves.isEmpty && d.tiers.persists.isEmpty &&
    !d.descs.any (fun x => x.engine == 0x50) && (d.toll.extents.filter (fun x => x.held)).isEmpty && !d.toll.walkWait &&
    d.cust.fw.isNone) = true) : AtRest d := by
  simp only [Bool.and_eq_true, List.isEmpty_iff, List.all_eq_true, Bool.not_eq_true', Option.isNone_iff_eq_none] at h
  obtain ⟨⟨⟨⟨⟨⟨⟨⟨⟨⟨⟨h1, h2⟩, h0⟩, h3⟩, h4⟩, h5⟩, h6⟩, h7⟩, h8⟩, h9⟩, h10⟩, h11⟩ := h
  exact ⟨h1, h2, h0, h3, h4, h5, h6, h7, h8, h9, h10, h11⟩

/-- The machine in service. -/
def sServe : State := on dServe

/-- The West bank held in reset. -/
def dWestHeld : Dev := { dServe with sys.westHeld := true }

/-! ## Witnesses: hypotheses that a state and operands meet -/

theorem witness_StepExecutesTheFrontCommand : ({ sServe with pending := [.latchClear] } : State).pending = .latchClear :: [] := rfl

theorem witness_IdleStepIsOneCycle : sServe.pending = [] ∧ AtRest sServe.dev ∧ live sServe.dev = true :=
  ⟨rfl, atRest_of _ rfl, rfl⟩

theorem witness_FusesNeverFall : FusesOk sServe.fuses ∧ ∃ t, step sServe = .next t :=
  ⟨⟨rfl, by decide, rfl⟩, ⟨_, rfl⟩⟩

theorem witness_RefusedAccesses_misaligned : AtRest dServe ∧ pathReaches dServe .pcie0 = true ∧ pathQuiet dServe .pcie0 = false ∧
    ¬ ((32 = 32 ∧ 0x102 % 4 = 0) ∨ (32 = 64 ∧ 0x102 % 8 = 0)) ∧ ¬ ((64 = 32 ∧ 0x104 % 4 = 0) ∨ (64 = 64 ∧ 0x104 % 8 = 0)) ∧
    0x102 % 4 ≠ 0 := ⟨atRest_of _ rfl, rfl, rfl, by decide, by decide, by decide⟩

theorem witness_RefusedAccesses_heldBank : AtRest dWestHeld ∧ pathReaches dWestHeld .i3c = true ∧ pathQuiet dWestHeld .i3c = false ∧
    mayWrite dWestHeld .i3c (pg 0x10 1 + 0x120) = true ∧ (pg 0x10 1 + 0x120) % 8 = 0 ∧
    pageAt (pg 0x10 1 + 0x120) = some ⟨0x10, 1, 0⟩ ∧ dWestHeld.sys.westHeld = true := ⟨atRest_of _ rfl, rfl, rfl, rfl, rfl, rfl, rfl⟩

/-- The policy lets PCIe port 0 read alone. -/
def dNoPcie : Dev := { dServe with regs := [(pg 0x02 0 + 0x108, 0xA8)] }

theorem witness_RefusedAccesses_policy : AtRest dNoPcie ∧ pathReaches dNoPcie .pcie0 = true ∧ pathQuiet dNoPcie .pcie0 = false ∧
    accessOk (pg 0x10 0 + 0x120) 32 = true ∧ mayWrite dNoPcie .pcie0 (pg 0x10 0 + 0x120) = false :=
  ⟨atRest_of _ rfl, rfl, rfl, rfl, rfl⟩

theorem witness_UnoccupiedOffset : AtRest dServe ∧ pathReaches dServe .ef = true ∧ pathQuiet dServe .ef = false ∧
    mayWrite dServe .ef 0xFFFFFC = true ∧ pageAt 0xFFFFFC = none ∧ 0xFFFFFC % 4 = 0 ∧
    pageAt (pg 0x10 1 + 0x7FC) = some ⟨0x10, 1, 0⟩ ∧ pageDead dServe ⟨0x10, 1, 0⟩ = false ∧ (pg 0x10 1 + 0x7FC) % 4 = 0 ∧
    rowAt 0x10 ((pg 0x10 1 + 0x7FC) % 0x1000 / 8 * 8) = none ∧
    (pg 0x10 0 + 0x104) % 8 = 4 ∧ (∃ row, rowAt 0x10 ((pg 0x10 0 + 0x104) % 0x1000 / 8 * 8) = some row ∧ row.wide = false) ∧
    readSlot (dropHalves dServe .ef) sServe.fuses ⟨0x10, 0, 0⟩ 0x100 < 2 ^ 32 :=
  ⟨atRest_of _ rfl, rfl, rfl, rfl, rfl, rfl, rfl, rfl, rfl, rfl, rfl, ⟨_, rfl, rfl⟩, by decide⟩

theorem witness_StoredRegister : AtRest dServe ∧ Reaches dServe .i3c (pageBase ⟨0x10, 1, 0⟩ + 0x110) ⟨0x10, 1, 0⟩ ∧
    ∃ row mask rst, rowAt 0x10 0x110 = some row ∧ row.wide = false ∧ row.kind = .stored mask rst :=
  ⟨atRest_of _ rfl, ⟨rfl, rfl, rfl, rfl, rfl, rfl, rfl⟩, ⟨_, _, _, rfl, rfl, rfl⟩⟩

theorem witness_CommonPageRows : ∀ o ∈ [0x10, 0x20, 0x24, 0x28, 0x50], Reaches dServe .pcie1 (pageBase ⟨0x40, 1, 0⟩ + o) ⟨0x40, 1, 0⟩ := by
  simp only [List.forall_mem_cons]
  exact ⟨⟨rfl, rfl, rfl, rfl, rfl, rfl, rfl⟩, ⟨rfl, rfl, rfl, rfl, rfl, rfl, rfl⟩, ⟨rfl, rfl, rfl, rfl, rfl, rfl, rfl⟩, ⟨rfl, rfl, rfl, rfl, rfl, rfl, rfl⟩,
    ⟨rfl, rfl, rfl, rfl, rfl, rfl, rfl⟩, nofun⟩

/-- INT_EN and every event of the Quay's West page enabled. -/
def dEvents : Dev := { dServe with regs := [(pg 0x40 1 + 0x10, 1), (pg 0x40 1 + 0x28, 0xF)] }

theorem witness_EventSet : Reaches dEvents .ef (pageBase ⟨0x40, 1, 0⟩ + 0x24) ⟨0x40, 1, 0⟩ ∧ NMap.wf (2 ^ 64) dEvents.regs = true ∧
    reg dEvents (pageBase ⟨0x40, 1, 0⟩ + 0x20) < 2 ^ 64 ∧ bit (reg dEvents (pageBase ⟨0x40, 1, 0⟩ + 0x10)) 0 = true ∧
    land64 (land64 1 (eventMask 0x40)) (reg dEvents (pageBase ⟨0x40, 1, 0⟩ + 0x28)) ≠ 0 :=
  ⟨⟨rfl, rfl, rfl, rfl, rfl, rfl, rfl⟩, rfl, by decide, rfl, by decide⟩

/-- A counter of the East Wharf page, its low half just read through port 0. -/
def dCaptured : Dev := { dServe with regs := [(pg 0x10 0 + 0x800, 0x500000007)], shadow := NMap.set none [] (pathIx .pcie0) (some (pg 0x10 0 + 0x800, 5)) }

theorem witness_CounterHalves : AtRest dCaptured ∧ pathReaches dCaptured .pcie0 = true ∧ pathQuiet dCaptured .pcie0 = false ∧
    (pg 0x10 0 + 0x800) % 8 = 0 ∧ pageAt (pg 0x10 0 + 0x800) = some ⟨0x10, 0, 0⟩ ∧ pageAt (pg 0x10 0 + 0x804) = some ⟨0x10, 0, 0⟩ ∧
    pageDead dCaptured ⟨0x10, 0, 0⟩ = false ∧ (∃ row, rowAt 0x10 ((pg 0x10 0 + 0x800) % 0x1000) = some row ∧ row.wide = true) ∧
    NMap.get none dCaptured.shadow (pathIx .pcie0) = some (pg 0x10 0 + 0x800, 5) :=
  ⟨atRest_of _ rfl, rfl, rfl, rfl, rfl, rfl, rfl, ⟨_, rfl, rfl⟩, rfl⟩

theorem witness_TollRows (bank : Nat) (h : bank = 0 ∨ bank = 1) :
    bank < 2 ∧ Reaches dServe .i3c (pg 0x20 bank + 0x120) ⟨0x20, bank, 0⟩ := by
  rcases h with rfl | rfl <;> exact ⟨by decide, rfl, rfl, rfl, rfl, rfl, rfl, rfl⟩

/-- An extent of job 1 at the second 2 MiB of berth 0's near store, and the device that lists it. -/
def xNear : Extent := { e := { ownerWr := true, ownerJob := 1, base := 1 } }

def dNear : Dev := { dServe with toll.extents := [xNear], toll.jobs := [(1, { valid := true, ranges := [(0, 4)] })] }

/-- A Toll command of the extent, and the device that waits with it. -/
def pToll (op : TollOp) : TollPending := { op := op, job := 2, d0 := 0x601, d1 := 0x200000, d2 := 0, d3 := 0 }

def dToll (op : TollOp) (x : Extent) : Dev := { dNear with toll.extents := [x], toll.pending := some (pToll op) }

theorem witness_TollTakeEffect (op : TollOp) (h : op = .read ∨ op = .revoke ∨ op = .offer ∨ op = .jobWrite) :
    (dToll op xNear).toll.pending = some (pToll op) ∧ (dToll op xNear).toll.walkWait = false ∧ tollCode (dToll op xNear) (pToll op) = cOK := by
  rcases h with rfl | rfl | rfl | rfl <;> exact ⟨rfl, rfl, by decide +kernel⟩

theorem witness_TollTakeEffect_cancel : dNear.toll.pending = none ∧ tollCode (dToll .cancel { xNear with token := .offered }) (pToll .cancel) = cOK ∧
    tollCode (dToll .cancel xNear) (pToll .cancel) ≠ cOK ∧ extOf dNear (fld (pToll .read).d1.toNat 21 27) = some xNear :=
  ⟨rfl, by decide +kernel, by decide +kernel, by decide +kernel⟩

/-- An INSERT of an extent of berth 3 that has near store, for job 1. -/
def dInsert : Dev :=
  { dNear with
    toll.extents := []
    xmap.current := { berths := [(3, { nearQuota := 4 })], nearSegs := [] }
    toll.pending := some { op := .insert, job := 0, d0 := 0x3000000601, d1 := 0x200000, d2 := 0, d3 := 0 } }

theorem witness_TollInsert : ∃ p, dInsert.toll.pending = some p ∧ p.op = .insert ∧ tollCode dInsert p = cOK :=
  ⟨_, rfl, rfl, by decide +kernel⟩

/-- The extent offered to job 2. -/
def xOffered : Extent := { xNear with token := .offered, receiver := 2 }

theorem witness_TollRevocation : tollCode (dToll .revoke xNear) (pToll .revoke) = cOK ∧ tollCode (dToll .modify xNear) (pToll .modify) = cOK ∧
    tollCode (dToll .accept xOffered) (pToll .accept) = cOK ∧ extOf (dToll .revoke xNear) (fld (pToll .revoke).d1.toNat 21 27) = some xNear ∧
    extOf (dToll .accept xOffered) (fld (pToll .accept).d1.toNat 21 27) = some xOffered ∧ (dToll .revoke xNear).toll.slots.length = 16 ∧
    (dToll .revoke xNear).quay.dir = [] ∧ (dToll .revoke xNear).quay.accums = [] ∧ (dToll .revoke xNear).flying = [] ∧
    (dToll .revoke xNear).quay.trans = [] ∧ xNear.revoking = false ∧ xNear.moving = false ∧ xNear.token = .owned :=
  ⟨by decide +kernel, by decide +kernel, by decide +kernel, by decide +kernel, by decide +kernel, rfl, rfl, rfl, rfl, rfl, rfl, rfl, rfl⟩

/-- The extent's revocation, or its handover, in slot 0. -/
def dDrain (handover warned : Bool) : Dev :=
  { dNear with toll.slots := { busy := true, handover := handover, base := 1, warned := warned } :: List.replicate 15 {} }

theorem witness_DrainsEnd (h w : Bool) :
    let d := dDrain h w
    ∃ sl, d.toll.slots[0]? = some sl ∧ sl.busy = true ∧ sl.handover = h ∧ sl.warned = w ∧ extOf d sl.base = some xNear ∧
      xNear.e.base = sl.base ∧ d.flying = [] ∧ d.quay.trans = [] ∧ d.quay.dir = [] ∧ d.quay.accums = [] := by
  exact ⟨_, rfl, rfl, rfl, rfl, rfl, rfl, rfl, rfl, rfl, rfl⟩

/-- An extent's token offered, with no slot of the drain; a drain with a request that has passed the Toll, and with a directory entry. -/
theorem witness_DrainsEnd_offered : extOf { dNear with toll.extents := [xOffered] } 1 = some xOffered ∧ xOffered.token = .offered ∧
    extOf dNear 1 = some xNear ∧ xNear.token ≠ .offered := ⟨rfl, rfl, rfl, by decide⟩

def fPassed : Flying :=
  { id := 1, q := { op := .rd, origin := .landing 0, h := { tc := 4, mark := false, acq := false, rel := false, scope := 0, reqId := 7, src := 1, job := 1, offset := 0x200000, node := 5, tide := 0, epoch := 0, len := 7, fmt := 0, trial := 0, tchk := 0, aux := 0, range := 0, rsvd := false } }, entry := 0, homeBank := 0, base := 1, wait := .quay }

theorem witness_DrainsEnd_walk :
    ¬ ((∀ f ∈ ({ dDrain false false with flying := [fPassed] } : Dev).flying, f.base = 1 → passedToll f = false)) ∧
    accumsOfExt (dDrain false false) xNear = [] ∧ inWindow { xNear with e.moored := true, window := 0 } 0 = true :=
  ⟨fun h => absurd (h fPassed (List.mem_singleton.mpr rfl) rfl) (by decide), rfl, by decide +kernel⟩

theorem witness_CrossingMapRows (bank : Nat) (h : bank = 0 ∨ bank = 1) :
    ∀ o ∈ [0x100, 0x138, 0x180], Reaches dServe .ef (pg 0x21 bank + o) ⟨0x21, bank, 0⟩ := by
  simp only [List.forall_mem_cons]
  rcases h with rfl | rfl <;>
    exact ⟨⟨rfl, rfl, rfl, rfl, rfl, rfl, rfl⟩, ⟨rfl, rfl, rfl, rfl, rfl, rfl, rfl⟩, ⟨rfl, rfl, rfl, rfl, rfl, rfl, rfl⟩, nofun⟩

/-- Two earlier epochs, and a request that has passed the Toll under the older of them. -/
def dEpochs (l : List Flying) : Dev := { dServe with xmap.old := [{ epoch := 3, since := 5 }, { epoch := 2, since := 4 }], flying := l }

def freeMaps (d : Dev) : List OldMap := d.xmap.old.filter (fun m => !d.flying.any (fun f => f.q.h.epoch.toNat == m.epoch && passedToll f))

theorem witness_MapEpochs : dServe.xmap.pending = none ∧
    (∃ c : CommitPending, ({ dServe with xmap.pending := some c } : Dev).xmap.pending = some c ∧ c.setEpoch = none) ∧
    (∃ c : CommitPending, c.setEpoch = some 7) ∧
    freeMaps (dEpochs []) = [{ epoch := 3, since := 5 }] ++ [{ epoch := 2, since := 4 }] ∧ freeMaps dServe = [] :=
  ⟨rfl, ⟨{ map := {}, commitAt := 0, setEpoch := none }, rfl, rfl⟩, ⟨{ map := {}, commitAt := 0, setEpoch := some 7 }, rfl⟩, rfl, rfl⟩

theorem witness_OrderOfRefusals : firstRefusal [cLENGTH, cDENIED] = some cDENIED := rfl


/-! ### Rings, requests, memory -/

/-- A device in service as node 5, with end points, job 1 of every end point, extent `xNear`, near store for berth 0 and Landing 0 up. -/
def dMem : Dev :=
  { dServe with
    xmap.node := 5
    xmap.nodeValid := true
    xmap.current := { berths := [(0, { nearQuota := 4, rings := 1, landings := 1 })], nearSegs := [(0, 0), (1, 1), (2, 2), (3, 3)] }
    toll.extents := [xNear]
    toll.jobs := [(1, { valid := true, ranges := [(0, 0x3FFFF)] })]
    wharf.epValid := true
    lands := modAt (fun l => { l with st := .up }) dServe.lands 0 }

/-- A device with one extent. -/
def dExt (x : Extent) : Dev := { dMem with toll.extents := [x] }

def rFirst : DescRef := ⟨0, 0, 0⟩

/-- A descriptor's place while its 64 bytes are read. -/
def xBlank : Desc :=
  { r := rFirst, id := 0, engine := 0, opcode := 0, job := 1, sv := false, notify := false, order := false, count := 0, svRef := 0,
    tide := 0, epoch := 0, raw := [], phase := .fetching }

/-- A ring of job 1 with one descriptor rung at `base`, and bytes in the near store. -/
def dFetch (x : Extent) (base : Nat) (l : List (Nat × Byte)) : Dev :=
  { dExt x with
    xmap.rings := [(0, { enable := true, job := 1, producer := 1, descBase := base, cplBase := 0x201000, log2Size := 4 })]
    tiers.mem := l }

def fetchIn (d : Dev) (base : Nat) : Got × Dev := engRead rFirst fetchKey 1 0 5 base 64 { d with descs := d.descs ++ [xBlank] }

/-- What a fetch has read is refused whole with these codes. -/
def refusalsOf (d : Dev) (base : Nat) : List Nat :=
  match fetchIn d base with
  | (.ok l, t) => seqRefusals t (descOfBytes rFirst l)
  | _ => []

theorem witness_DescriptorFetch (x : Extent) (b : Nat) (l : List (Nat × Byte)) :
    (ringOf dServe 0 0).enable = false ∧
    bankLive (dFetch x b l) (bankOfBerth 0) = true ∧ (ringOf (dFetch x b l) 0 0).enable = true ∧ (ringOf (dFetch x b l) 0 0).stopped = false ∧
    (ringOf (dFetch x b l) 0 0).fetched ≠ (ringOf (dFetch x b l) 0 0).producer ∧ descOf (dFetch x b l) rFirst = none :=
  ⟨rfl, rfl, rfl, rfl, by show (0 : Nat) ≠ 1; decide, rfl⟩

theorem witness_DescriptorFetch_reads :
    (fetchIn (dFetch { xNear with held := true } 0x200000 []) 0x200000).1 = .wait ∧
    (fetchIn (dFetch xNear 0x400000 []) 0x400000).1 = .fail cDENIED ∧
    (∃ l, (fetchIn (dFetch xNear 0x200000 [(2, 1), (4, 1)]) 0x200000).1 = .ok l) ∧
    firstRefusal (refusalsOf (dFetch xNear 0x200000 [(2, 1), (4, 1)]) 0x200000) = none ∧
    firstRefusal (refusalsOf (dFetch xNear 0x200000 [(2, 1), (4, 2)]) 0x200000) = some cDENIED ∧ cDENIED ≠ cSTALE :=
  ⟨by decide +kernel, by decide +kernel, ⟨_, rfl⟩, by decide +kernel, by decide +kernel, by decide⟩

/-- The first code of the descriptor of engine `e` that has been read, and whether its engine may find one that comes before it. -/
def fetchFinds (e : Byte) (rest : List (Nat × Byte)) : Option Nat × Bool :=
  let l := [(2, e), (3, 1), (4, 1)] ++ rest
  match fetchIn (dFetch xNear 0x200000 l) 0x200000 with
  | (.ok b, t) => (firstRefusal (seqRefusals t (descOfBytes rFirst b)), engineDecides (descOfBytes rFirst b))
  | _ => (none, false)

theorem witness_DescriptorFetch_refusals : fetchFinds 0x30 [(6, 5)] = (some cSTALE, true) ∧ fetchFinds 0x30 [(8, 1)] = (some cFENCED, true) ∧
    fetchFinds 0x01 [(0x14, 1)] = (some cUNSUP, false) := by decide +kernel

/-- A no-op of ring 0, in a phase and at a stage of its completion. -/
def xNoop (p : DescPhase) (stage : Nat) (statuses : NMap Nat) : Desc :=
  { xBlank with engine := 1, phase := p, stage := stage, statuses := statuses }

def dNoop (p : DescPhase) (stage : Nat) (statuses : NMap Nat) : Dev :=
  { dFetch xNear 0x200000 [] with descs := [xNoop p stage statuses] }

theorem witness_RingControlAndCompletion (p : DescPhase) (st : Nat) (m : NMap Nat) :
    descOf (dNoop p st m) rFirst = some (xNoop p st m) ∧ (xNoop p st m).r = rFirst ∧ NMap.wf {} (dNoop p st m).xmap.rings = true ∧
    (xNoop p st m).engine = 0x01 ∧ (xNoop p st m).opcode = 0 ∧ startable (dNoop .admitted 0 []) (xNoop .admitted 0 []) = true ∧
    descBusy (dNoop p st m) rFirst = false ∧ bankLive (dNoop p st m) (bankOfBerth 0) = true ∧ (xNoop p st m).notify = false ∧
    (xNoop p st m).cfg = none ∧
    (ringOf (dNoop p st m) 0 0).consumer = 0 ∧ (ringOf (dNoop p st m) 0 0).recorded = [] ∧
    NMap.get 0 (xNoop .finished 2 []).statuses recordKey = cOK ∧
    NMap.get 0 (xNoop .finished 2 [(recordKey, cPOISON)]).statuses recordKey ≠ cOK ∧
    NMap.get 0 (xNoop .finished 1 [(vectorKey, cPOISON)]).statuses vectorKey ≠ cOK :=
  ⟨rfl, rfl, rfl, rfl, rfl, rfl, rfl, rfl, rfl, rfl, rfl, rfl, rfl, by decide, by decide⟩

/-- A request of job 1 on class 4, of `n` bytes at an offset, with data. -/
def hdr (off n : Nat) (l : List Byte) : Hdr :=
  { tc := 4, mark := false, acq := false, rel := false, scope := 0, reqId := 7, src := 1, job := 1, offset := .ofNat 48 off, node := 5,
    tide := 0, epoch := 0, len := .ofNat 8 (n - 1), fmt := 0, trial := 0, tchk := .ofNat 32 (if l.isEmpty then 0 else crc32c l), aux := 0,
    range := 0, rsvd := false }

/-- A store to the doorbell of ring 0 of berth 0, and the device with its ring. -/
def qBell (v : Nat) : Req := { op := .wr, origin := .landing 0, h := hdr doorbellBase 8 (leBytes 8 v), data := leBytes 8 v }

def dBell : Dev := { dMem with xmap.rings := [(0, { enable := true, job := 1, producer := 1, log2Size := 4 })] }

theorem landed_of (d : Dev) (n : Nat) (q : Req) (h1 : q.origin = .landing n) (h2 : q.h.tc ≠ 0)
    (h : (landOpen d n && !quiet d && !headerBad (opCode q.op) q.h && !q.h.mark && !turnTaken d q) = true) : Landed d n q := by
  simp only [Bool.and_eq_true, Bool.not_eq_true'] at h
  exact ⟨h1, h.1.1.1.1, h.1.1.1.2, h.1.1.2, fun e => absurd e h2, h.1.2, h.2⟩

theorem landed_bell (v : Nat) (h : v ∈ [1, 16, 17, 2 ^ 32]) : Landed dBell 0 (qBell v) := by
  refine landed_of _ _ _ rfl (by show (4 : BitVec 3) ≠ 0; decide) ?_
  revert v
  decide +kernel

theorem witness_Doorbell (v : Nat) (h : v ∈ [1, 16, 17, 2 ^ 32]) :
    doorbellAt (qBell v).h.offset.toNat = some (0, 0) ∧ (tollSays dBell 0 (qBell v)).1 = .pass none ∧
    (farePass (tollSays dBell 0 (qBell v)).2 .wr (qBell v).h).1 ≠ .red ∧ tchkBad (qBell v) = false ∧
    (meterRx (misroute (farePass (tollSays dBell 0 (qBell v)).2 .wr (qBell v).h).2 0 (some 0) 0 doorbellBase) (some 0) 32).sys.westHeld
      = false := by
  revert v
  decide +kernel

/-! ### The Toll's tests -/

theorem noProt (d : Dev) (x : Extent) (h : d.toll.extents = [x]) (hp : x.e.prot = 0) (off src : Nat) :
    ∀ y, extAt d off = some y → protTide d y src = none := by
  intro y hy
  have hm := List.mem_of_find?_eq_some hy
  rw [h, List.mem_singleton] at hm
  subst hm
  simp only [protTide, hp]
  rfl

/-- A state of the extent that test 4 answers. -/
def xRevoked : Extent := { xNear with revoking := true }
def xDrains : Extent := { xNear with token := .draining, receiver := 1 }
def xHeld : Extent := { xNear with held := true }

theorem witness_TollTests_before (h : Hdr) : ({ dMem with salv.fencedOut := true } : Dev).salv.fencedOut = true ∧
    dServe.salv.fencedOut = false ∧ dServe.xmap.nodeValid = false ∧ extAt dServe h.offset.toNat = none :=
  ⟨rfl, rfl, rfl, rfl⟩

theorem witness_TollTests (x : Extent) (hp : x.e.prot = 0) :
    (∀ y, extAt (dExt x) (hdr 0x200000 8 []).offset.toNat = some y → protTide (dExt x) y (hdr 0x200000 8 []).src.toNat = none) ∧
    (dExt x).salv.fencedOut = false ∧ (dExt x).xmap.nodeValid = true ∧
    (hdr 0x200000 8 []).node.toNat = (dExt x).xmap.node ∧ acceptsEp (jobOf (dExt x) 1) (hdr 0x200000 8 []).src.toNat = true ∧
    (hdr 0x200000 8 []).tide.toNat = (jobOf (dExt x) 1).tide ∧ epochIs (dExt x) (hdr 0x200000 8 []).epoch.toNat = .resolvable ∧
    ({ hdr 0x200000 8 [] with node := 4 } : Hdr).node.toNat ≠ (dExt x).xmap.node ∧
    ({ hdr 0x200000 8 [] with tide := 1 } : Hdr).tide.toNat ≠ (jobOf (dExt x) 1).tide ∧
    epochIs (dExt x) ({ hdr 0x200000 8 [] with epoch := 0xFFFF } : Hdr).epoch.toNat ≠ .resolvable :=
  ⟨noProt _ x rfl hp _ _, rfl, rfl, rfl, (by decide +kernel : acceptsEp (jobOf dMem 1) (hdr 0x200000 8 []).src.toNat = true), rfl, 
    (by decide +kernel : epochIs dMem 0 = .resolvable), by show (4 : Nat) ≠ 5; decide, by show (1 : Nat) ≠ 0; decide,
    (by decide +kernel : epochIs dMem 0xFFFF ≠ .resolvable)⟩

theorem witness_TollTests_last : test3 dMem .rd (hdr 0 8 []) = none ∧ test3 (dExt xNear) .rd (hdr 0x200000 8 []) = some xNear ∧
    test4 xNear 1 = .pass ∧ test4 xRevoked 1 = .refuse 0x05 ∧ test4 xDrains 1 = .refuse 0x0C ∧ test4 xHeld 1 = .held ∧
    test3 (dExt xRevoked) .wr (hdr 0x200000 8 []) = some xRevoked ∧ test3 (dExt xDrains) .wr (hdr 0x200000 8 []) = some xDrains ∧
    test3 (dExt xHeld) .wr (hdr 0x200000 8 []) = some xHeld :=
  ⟨by decide +kernel, by decide +kernel, rfl, rfl, rfl, rfl, by decide +kernel, by decide +kernel, by decide +kernel⟩

/-! ### Requests at their home -/

/-- Eight bytes of data. -/
def eight : List Byte := leBytes 8 0x0123456789ABCDEF

/-- A read and a write on Landing 0. -/
def qRd : Req := { op := .rd, origin := .landing 0, h := hdr 0x200000 8 [] }
def qWr : Req := { op := .wr, origin := .landing 0, h := hdr 0x200000 8 eight, data := eight }

theorem witness_Requests_refused : requestOf (.wr 0 qWr.h qWr.data) = some (0, qWr) ∧ requestOf (.rd 0 qRd.h) = some (0, qRd) ∧
    Landed (dExt xRevoked) 0 qWr ∧ (tollSays (dExt xRevoked) 0 qWr).1 = .refuse cREVOKED ∧
    Landed (dExt xHeld) 0 qRd ∧ (tollSays (dExt xHeld) 0 qRd).1 = .held xHeld ∧ xHeld.moving = false :=
  ⟨rfl, rfl, landed_of _ _ _ rfl (by decide) (by decide +kernel), by decide +kernel, landed_of _ _ _ rfl (by decide) (by decide +kernel),
    by decide +kernel, rfl⟩

/-- The device that the Toll leaves. -/
def passedBy (d : Dev) (q : Req) : Dev := (tollSays d 0 q).2

def goes : LineSays → Bool
  | .go => true
  | _ => false

theorem eq_go_of_goes (a : LineSays) (h : goes a = true) : a = .go := by
  cases a with
  | go => rfl
  | _ => exact Bool.noConfusion h

/-- Nothing hinders a request of a device with no snoop transaction, as a test. -/
def unhinderedOk (d : Dev) (f : Flying) (x : Extent) : Bool :=
  extOf d f.base == some x && flyingOf d f.id == some f && blocker d f == none && d.quay.trans == [] && sweptSet d f x == none &&
    (homeRefuses d f x).isNone && accumsUnder d f == [] &&
    (!needsLines d f x || goes (askLines d f.homeBank f.id (askOf d f x) (linesOf x f.q.h.offset.toNat (lenOf f.q.h)))) &&
    (snapWait d f x).isNone && (reconWait d f x).isNone

theorem unhindered_of (d : Dev) (f : Flying) (x : Extent) (h : unhinderedOk d f x = true) : Unhindered d f x := by
  simp only [unhinderedOk, Bool.and_eq_true, Bool.or_eq_true, beq_iff_eq, Bool.not_eq_true', Option.isNone_iff_eq_none] at h
  obtain ⟨⟨⟨⟨⟨⟨⟨⟨⟨e1, e2⟩, e3⟩, e4⟩, e5⟩, e6⟩, e7⟩, e8⟩, e9⟩, e10⟩ := h
  exact ⟨e1, e2, e3, fun _ => by simp [wbAnswers, transOf, e4], fun _ _ _ _ => by simp [transOf, e4], e5, e6, .inr (.inr e7),
    e8.imp id (eq_go_of_goes _), e9, e10⟩

theorem witness_Requests_onward (q : Req) (h : q = qWr ∨ q = qRd) : Landed dMem 0 q ∧ (tollSays dMem 0 q).1 = .pass (some xNear) ∧
    Onward (passedBy dMem q) 0 q xNear ∧ Unhindered (homeDev (passedBy dMem q) 0 q xNear) (atHome (passedBy dMem q) 0 q xNear) xNear := by
  rcases h with rfl | rfl <;>
    exact ⟨landed_of _ _ _ rfl (by decide) (by decide +kernel), by decide +kernel,
      ⟨by decide +kernel, .inr rfl, (by decide), by decide +kernel, by intro h; simp [cacheable, xNear] at h⟩,
      unhindered_of _ _ _ (by decide +kernel)⟩

/-- Every memory form: a request of it on its class, and the extent that it names. -/
def formsOf : List (Instr × Extent) :=
  let at_ (tc : BitVec 3) (n : Nat) (l : List Byte) : Hdr := { hdr 0x200000 n l with tc := tc }
  let line : List Byte := List.replicate 64 0
  let word : List Byte := eight
  let moored : Extent := { xNear with e.moored := true }
  [(.atomic 0 { at_ 4 8 word with aux := 2 } word, xNear), (.homeAtomic 0 { at_ 1 8 word with aux := 2 } word, xNear),
   (.publish 0 (at_ 1 8 (word ++ word)) (word ++ word), xNear), (.flush 0 (at_ 4 1 []), xNear), (.eadd 0 { at_ 4 64 line with fmt := 1 } line, xNear),
   (.rdShared 0 (at_ 4 64 []), moored), (.rdOwn 0 (at_ 4 64 []), moored), (.upgrade 0 (at_ 4 64 []), moored), (.wb 0 (at_ 4 64 line) line, moored),
   (.evictClean 0 (at_ 4 64 []), moored), (.doorbellStore 0 (at_ 4 8 word) word, xNear)]

def dForm (x : Extent) : Dev := { dExt x with quay.agents := [(3, { endPoint := 1, job := 1, valid := true })] }

def landedOk (d : Dev) (q : Req) : Bool :=
  q.origin == .landing 0 && q.h.tc != 0 && landOpen d 0 && !quiet d && !headerBad (opCode q.op) q.h && !q.h.mark && !turnTaken d q

def onwardOk (dt : Dev) (q : Req) (x : Extent) : Bool :=
  !(fareOn dt q).2.1 && extBank x == 0 && (!tabled q x || (overCredit (metered dt 0 q x) (fareOn dt q).1 (extBank x)).isNone) && !tchkBad q &&
    q.op != .rd && q.op != .rdComb

def formOk (p : Instr × Extent) : Bool :=
  match requestOf p.1 with
  | some (0, q) =>
    let d := dForm p.2
    let dt := (tollSays d 0 q).2
    landedOk d q && (tollSays d 0 q).1 == .pass (some p.2) && onwardOk dt q p.2 &&
      unhinderedOk (homeDev dt 0 q p.2) (atHome dt 0 q p.2) p.2
  | _ => false

theorem meets_of_formOk (p : Instr × Extent) (h : formOk p = true) : ∃ q, requestOf p.1 = some (0, q) ∧ Landed (dForm p.2) 0 q ∧
    (tollSays (dForm p.2) 0 q).1 = .pass (some p.2) ∧ Onward (tollSays (dForm p.2) 0 q).2 0 q p.2 ∧
    Unhindered (homeDev (tollSays (dForm p.2) 0 q).2 0 q p.2) (atHome (tollSays (dForm p.2) 0 q).2 0 q p.2) p.2 := by
  unfold formOk at h
  split at h
  next q hq =>
    simp only [Bool.and_eq_true] at h
    obtain ⟨⟨⟨a, b⟩, c⟩, e⟩ := h
    simp only [landedOk, onwardOk, Bool.and_eq_true, Bool.or_eq_true, beq_iff_eq, bne_iff_ne, Bool.not_eq_true',
      Option.isNone_iff_eq_none] at a b c
    obtain ⟨⟨⟨⟨⟨⟨a1, a2⟩, a3⟩, a4⟩, a5⟩, a6⟩, a7⟩ := a
    obtain ⟨⟨⟨⟨⟨c1, c2⟩, c3⟩, c4⟩, c5⟩, c6⟩ := c
    refine ⟨q, hq, ⟨a1, a3, a4, a5, fun e => absurd e a2, a6, a7⟩, b, ⟨c1, .inr c2, fun e => ?_, c4, fun e => ?_⟩, unhindered_of _ _ _ e⟩
    · rcases c3 with c3 | c3
      · rw [c3] at e; cases e
      · exact c3
    · rcases e.1 with e | e
      · exact c5 e
      · exact c6 e
  next => cases h

theorem witness_Requests_forms : ∀ p ∈ formsOf, formOk p = true := by
  have h : formsOf.map formOk = List.replicate 11 true := by decide +kernel
  intro p hp
  exact List.eq_of_mem_replicate (h ▸ List.mem_map_of_mem hp)

/-! ### Operations at their home -/

/-- A request in flight at the home bank East of the extent at base 1. -/
def fly (op : Op) (h : Hdr) (l : List Byte) : Flying :=
  { id := 1, q := { op := op, origin := .landing 0, h := h, data := l }, entry := 0, homeBank := 0, base := 1, wait := .quay }

/-- The device with the request. -/
def dFly (x : Extent) (f : Flying) : Dev := { dExt x with flying := [f] }

/-- An extent of a tier. -/
def xTier (t : Tier) : Extent := { xNear with e.tier := t }

/-- A flash tile of the extent that is staged. -/
def dStaged (f : Flying) : Dev :=
  { dFly (xTier .flash) f with tiers.staged := [{ bank := 0, addr := flashBase, data := List.replicate 256 0 }] }

def fRd : Flying := fly .rd (hdr 0x200000 8 []) []
def fWr : Flying := fly .wr (hdr 0x200000 8 eight) eight

theorem witness_LoadsAndStores_load : fRd.q.op = .rd ∧ fRd.q.h.acq = false ∧ (xTier .near).e.tier = .near ∧ (xTier .stack).e.tier = .stack ∧
    zeroTile { xTier .host with e.zero := true } 0x200000 = true ∧
    (dStaged fRd).tiers.staged.any (fun t => t.addr == extCell (dStaged fRd) (xTier .flash) (0x200000 / 256 * 256)) = true ∧
    zeroTile (xTier .flash) 0x200000 = false ∧
    (dFly (xTier .flash) fRd).tiers.staged.any (fun t => t.addr == extCell (dFly (xTier .flash) fRd) (xTier .flash) (0x200000 / 256 * 256)) = false ∧
    ((dFly (xTier .flash) fRd).flying.filter (inTable 0)).length < 16384 :=
  ⟨rfl, rfl, rfl, rfl, by decide +kernel, by decide +kernel, rfl, rfl, by decide +kernel⟩

theorem witness_LoadsAndStores_store (x : Extent) (h : x = xTier .near ∨ x = xTier .host ∨ x = xTier .flash) :
    fWr.q.op = .wr ∧ isOwn fWr.q = false ∧ isProtection (dFly x fWr) x = false ∧ targetsOf (dFly x fWr) x = [] ∧
    missingTile x 0x200000 = false ∧ stageRoom (dFly x fWr) 0 0 = true ∧ needsHost (dFly x fWr) fWr x = false ∧
    (writePlain (dFly (xTier .near) fWr) (xTier .near) (accOf fWr.q (xTier .near)) 0x200000 eight).1 = cOK ∧
    (writePlain (dFly (xTier .host) fWr) (xTier .host) (accOf fWr.q (xTier .host)) 0x200000 eight).1 ≠ cOK := by
  rcases h with rfl | rfl | rfl <;>
    exact ⟨rfl, rfl, rfl, rfl, rfl, by decide +kernel, rfl, by decide +kernel, by decide +kernel⟩

/-- Node 9, the partner of a mirrored extent; a read of its Tow. -/
def xMirror (t : Tier) : Extent := { xNear with e.prot := 1, e.partner := 9, e.tier := t }

def fMember : Flying := fly .rd { hdr 0x200000 8 [] with src := 258 } []

def dMirror (t : Tier) (st : MemberState) : Dev :=
  { dFly (xMirror t) fMember with
    salv.peers := [(3, { node := 9, epBase := 0, valid := true, st := st })], toll.jobs := [(1, { valid := true, ranges := [(512, 4)] })] }

theorem witness_LoadsAndStores_member (t : Tier) (h : t = .near ∨ t = .stack) :
    memberRead (dMirror t .current) (xMirror t) fMember.q = true ∧ fMember.q.h.acq = false ∧ memberRead (dFly (xTier t) fRd) (xTier t) fRd.q = false := by
  rcases h with rfl | rfl <;> decide +kernel

/-- The flash staging area with other tiles. -/
def dStageFill (n : Nat) (f : Flying) : Dev :=
  { dFly (xTier .flash) f with tiers.staged := List.replicate n { bank := 0, addr := 0, data := [] } }

theorem stageFull (n : Nat) (h : 262144 ≤ n) : stageRoom (dStageFill n fWr) 0 flashBase = false := by
  simp [stageRoom, stagedIn, dStageFill, flashBase, h]

def dStageFull (f : Flying) : Dev := dStageFill 262144 f

theorem witness_LoadsAndStores_full : fWr.q.op = .wr ∧ isProtection (dStageFull fWr) (xTier .flash) = false ∧
    stageRoom (dStageFull fWr) fWr.homeBank flashBase = false ∧ inTable fWr.homeBank fWr = false ∧
    ((dStageFull fWr).flying.filter (inTable fWr.homeBank)).length < 16384 ∧ flyingOf (dStageFull fWr) fWr.id = some fWr := by
  exact ⟨rfl, rfl, stageFull _ (Nat.le_refl _), rfl, by decide, rfl⟩

theorem witness_NearStore : xNear.e.tier = .near ∧ xNear.e.encrypt = false ∧ xNear.e.zero = false ∧ 0 < eight.length ∧
    0x2000F8 % 256 + eight.length ≤ 256 ∧ Memory.wf dMem.tiers.mem = true ∧ extCell dMem xNear (0x2000F8 / 256 * 256) % 256 = 0 ∧
    extCell dMem xNear (0x2000F8 / 256 * 256) + 256 ≤ 2 ^ 40 ∧ (writePlain dMem xNear { off := 0x2000F8, berth := 0 } 0x2000F8 eight).1 = cOK ∧
    ∀ g ∈ granulesIn 0 0xF8 8, poisoned dMem g = false ∧ faulty dMem g = false :=
  ⟨rfl, rfl, rfl, by decide, by decide, rfl, by decide +kernel, by decide +kernel, by decide +kernel, fun _ _ => ⟨rfl, rfl⟩⟩

/-- An atomic of 8 bytes, an operand or two, and its device. -/
def fAtomic (aux : BitVec 8) (scope : BitVec 2) (home : Bool) (l : List Byte) : Flying :=
  let h : Hdr := hdr 0x200000 8 l
  { id := 1, q := { op := .atomic, home := home, origin := .landing 0, h := { h with aux := aux, scope := scope }, data := l }, entry := 0,
    homeBank := 0, base := 1, wait := .quay }

theorem witness_Atomics_table : (0 : Nat) < 2 ^ (8 * 4) ∧ 2 ^ 63 < 2 ^ (8 * 8) ∧ 2 ^ 128 - 1 < 2 ^ (8 * 16) := by decide

theorem witness_Atomics : targetsOf dMem xNear = [] ∧
    (∀ f ∈ [fAtomic 2 0 false eight, fAtomic 1 2 true (eight ++ eight), fAtomic 0 2 false eight],
      f.q.op = .atomic ∧ (readPlain dMem xNear (accOf f.q xNear) 0x200000 8).1 = cOK ∧ (f.q.h.scope ≠ 2 ∨ f.q.home = true ∨ f.q.home = false)) ∧
    atomicNew 1 8 0 (leNat eight) 5 = none ∧ atomicNew 2 8 0 (leNat eight) 0 = some (leNat eight) ∧
    (writePlain dMem xNear { off := 0x200000, berth := 0 } 0x200000 eight).1 = cOK ∧
    (writePlain dMem (xTier .host) { off := 0x200000, berth := 0 } 0x200000 eight).1 ≠ cOK := by
  refine ⟨rfl, by decide +kernel, by decide +kernel, by decide +kernel, by decide +kernel, by decide +kernel⟩

def fPublish (l : List Byte) : Flying := fly .publish (hdr 0x200000 8 l) l

theorem witness_Publish : (fPublish (eight ++ eight)).q.op = .publish ∧
    (readPlain dMem xNear (accOf (fPublish (eight ++ eight)).q xNear) 0x200000 8).1 = cOK ∧
    leNat (readPlain dMem xNear (accOf (fPublish (eight ++ eight)).q xNear) 0x200000 8).2.1 ≠ leAt (eight ++ eight) 0 8 ∧
    leNat (readPlain dMem xNear (accOf (fPublish (eight ++ eight)).q xNear) 0x200000 8).2.1 = leAt (leBytes 8 0 ++ eight) 0 8 :=
  ⟨rfl, by decide +kernel, by decide +kernel, by decide +kernel⟩

/-- An EADD of FP32 elements. -/
def fEadd : Flying :=
  let h : Hdr := hdr 0x200000 64 (List.replicate 64 0)
  fly .eadd { h with fmt := 1 } (List.replicate 64 0)

/-- An accumulator of the granule. -/
def aSum (fmt : EddyFmt) (wb : Bool) : Accum :=
  { bank := 0, offset := 0x200000, fmt := fmt, elems := List.replicate 16 0, lastAdd := 0, writingBack := wb }

def dSums (l : List Accum) : Dev := { dFly xNear fEadd with quay.accums := l }

theorem witness_Eddy : fEadd.q.op = .eadd ∧ poisoned (dSums []) (extCell (dSums []) xNear 0x200000) = false ∧ accumAt (dSums []) 0 0x200000 = none ∧
    (accumsIn (dSums []) 0).length < 32768 ∧ accumAt (dSums [aSum .fp32 false]) 0 0x200000 = some (aSum .fp32 false) ∧
    (aSum .fp32 false).fmt = eddyFmtOf fEadd.q.h.fmt.toNat ∧ (aSum .int32 false).fmt ≠ eddyFmtOf fEadd.q.h.fmt.toNat ∧
    accumAt (dSums [aSum .int32 false]) 0 0x200000 = some (aSum .int32 false) ∧ (aSum .fp32 true).writingBack = true ∧
    zeroTile xNear 0x200000 = false ∧ poisoned { dSums [] with tiers.poison := [0] } (extCell (dSums []) xNear 0x200000) = true ∧
    (∀ a ∈ (dSums []).quay.accums, a.bank = 0 → ¬ (0x200000 ≤ a.offset ∧ a.offset < 0x200000 + 256)) :=
  ⟨rfl, rfl, rfl, by decide, rfl, rfl, by decide, rfl, rfl, rfl, by decide +kernel, nofun⟩

def fFlush : Flying := fly .flush (hdr 0x200000 1 []) []

def dFlush (l : NSet) : Dev := { dSums [aSum .fp32 true] with flying := [fFlush], quay.flushes := [{ id := 1, granules := l }] }

theorem witness_Flush : fFlush.q.op = .flush ∧
    (dSums [aSum .fp32 false]).quay.accums.filter (fun a => a.bank == 0 && decide (0x200000 ≤ a.offset) && decide (a.offset < 0x200000 + 256)) ≠ [] ∧
    (∀ l, (dFlush l).quay.flushes = [{ id := 1, granules := l }] ∧ flyingOf (dFlush l) 1 = some fFlush) ∧ ([0x200000] : NSet) ≠ [] :=
  ⟨rfl, by decide +kernel, fun _ => ⟨rfl, rfl⟩, by decide⟩

/-- The accumulator whose own write is under way, and the write's end. -/
theorem witness_EddyWriteback_write :
    let d := dSums [{ aSum .fp32 true with write := some 5 }]
    accumAt d 0 0x200000 = some { aSum .fp32 true with write := some 5 } ∧ (some 5 : Option Nat).isSome = true ∧ (aSum .fp32 true).write = none := ⟨rfl, rfl, rfl⟩

/-- The device that has read the accumulator's granule and performs the write of its sums. -/
def dWrote (e : Extent) : Dev :=
  let d := { dSums [aSum .fp32 true] with toll.extents := [e] }
  let r := readPlain d e { off := 0x200000, berth := 0 } 0x200000 64
  attemptOwn (ownWrite (accumMod r.2.2 0 0x200000 (fun a => { a with writingBack := true, write := some r.2.2.nextFlying })) e 0x200000
    (sumGranule (aSum .fp32 true) r.2.1) .internal 0) r.2.2.nextFlying

theorem witness_EddyWriteback_wrote : (accumAt (dWrote xNear) 0 0x200000).map (fun b => b.wrote) = some (some cOK) ∧
    (accumAt (dWrote { xNear with e.tier := .flash }) 0 0x200000).map (fun b => b.wrote) ≠ none := by decide +kernel

/-- A moored extent; an agent of slot 3 at end point 1; the device with a request and a directory. -/
def xMoored : Extent := { xNear with e.moored := true }

def dAgents (f : Flying) (l : List DirEntry) : Dev :=
  { dFly xMoored f with quay.agents := [(3, { endPoint := 1, job := 1, valid := true })], quay.dir := l }

def fLine (op : Op) : Flying := fly op (hdr 0x200000 64 []) []

def eLine (st : LineState) : DirEntry := { bank := 0, line := 0, way := 0, st := st, sharers := [3] }

theorem witness_Caching (op : Op) (h : op ∈ [Op.rdShared, .rdOwn, .upgrade, .wb, .evictClean]) :
    xMoored.e.moored = true ∧ grantable (dAgents (fLine op) []) (fLine op) xMoored = some (3, 0) ∧ (fLine op).q.h.acq = false ∧
    (readPlain (dAgents (fLine op) []) xMoored (accOf (fLine op).q xMoored) 0x200000 64).1 = cOK ∧
    dirFind (dAgents (fLine op) []) 0 0 = none ∧ grantable (dFly xMoored (fLine op)) (fLine op) xMoored = none ∧
    dirFind (dAgents (fLine op) [eLine .shared]) 0 0 = some (eLine .shared) ∧ (eLine .shared).coarse = false ∧ pointsTo (eLine .shared) 3 = true ∧
    isOwn (fLine .wb).q = false ∧ targetsOf (dAgents (fLine op) [eLine .owned]) xMoored = [] ∧ lineOf xMoored 0x200000 = 0 ∧
    ownsLine (dAgents (fLine op) [eLine .owned]) (fLine op) 0 = true ∧ ownsLine (dAgents (fLine op) []) (fLine op) 0 = false ∧
    grantSlot (dAgents (fLine op) [eLine .shared]) (fLine op).q.h = some 3 ∧ (eLine .shared).st = .shared := by
  revert op
  decide +kernel

/-- An ACQUIRE on Landing 0, an RD_COMB of two, and a read of a ring's engine with its response. -/
def qAcquire : Req := { op := .acquire, origin := .landing 0, h := hdr 0 1 [] }

theorem witness_Acquire : Landed dMem 0 qAcquire ∧ (tollSays dMem 0 qAcquire).1 = .pass none ∧
    (farePass (passedBy dMem qAcquire) .acquire qAcquire.h).1 ≠ .red :=
  ⟨landed_of _ _ _ rfl (by decide) (by decide +kernel), by decide +kernel, by decide +kernel⟩

def hComb : Hdr := let h : Hdr := hdr 0x200000 8 []; { h with aux := 2 }

theorem witness_Comb :
    let parts : List (Nat × Nat) := [(1, 7), (2, 8)]
    let d1 := count (arrive dMem 0 .rdComb hComb) (pgI 0x11 8 0) 0x848
    let d2 := onLand d1 0 (fun l => { l with accepted := l.accepted ++ [{ flit := l.rxFlits, src := 2, reqId := 8 }] })
    let q : Req := { op := .rdComb, origin := .comb 0 (parts.map (fun c => (c.1, c.2, .fresh))), h := hComb }
    let r := tollOf d2 q 0
    landOpen dMem 0 = true ∧ quiet dMem = false ∧ headerBad 0x18 hComb = false ∧ (land dMem 0).gen2 = false ∧ hComb.aux.toNat = 2 ∧
    sharesSrc parts = false ∧ hComb.mark = false ∧ turnTaken d2 q = false ∧ r.2.1 = .pass (some xNear) ∧ Onward r.2.2 0 r.1 xNear ∧
    Unhindered (homeDev r.2.2 0 r.1 xNear) (atHome r.2.2 0 r.1 xNear) xNear :=
  ⟨by decide +kernel, rfl, by decide +kernel, rfl, rfl, rfl, rfl, by decide +kernel, by decide +kernel,
    ⟨by decide +kernel, .inr rfl, (by decide), by decide +kernel, by intro h; simp [cacheable, xNear] at h⟩, unhindered_of _ _ _ (by decide +kernel)⟩

def oRead : OutReq :=
  { reqId := 9, berth := 0, landing := 0, node := 6, offset := 0x200000, len := 8, op := .rd, h := hdr 0x200000 8 [], data := [] }

def dAsked : Dev := { dMem with descs := [{ xBlank with phase := .running, out := [oRead] }] }

def rspRead : RspHdr := { op := 0x30, reqId := 9, dst := 0, status := 0, tchk := .ofNat 32 (crc32c eight), cred := 2, grant := 0, dlen := 7 }

theorem witness_Response : landOpen dAsked 0 = true ∧ roleOf dAsked (rspRead.dst + 512).toNat = none ∧ roleOf dAsked rspRead.dst.toNat = some 0 ∧
    rspRead.op ≠ 0x34 ∧ rspRead.status.toNat = cOK ∧
    (∃ x, dAsked.descs.find? (fun y => y.r.berth == 0 && y.out.any (fun o => o.reqId == rspRead.reqId.toNat)) = some x ∧
      x.out.find? (fun o => o.reqId == rspRead.reqId.toNat) = some oRead) ∧ oRead.op = .rd ∧ crc32c (sub eight 0 oRead.len) = rspRead.tchk.toNat :=
  ⟨by decide +kernel, by decide +kernel, by decide +kernel, by decide, rfl, ⟨_, rfl, rfl⟩, rfl, by decide +kernel⟩

/-! ### Management, acknowledgements, snoops, agents -/

/-- A management request of 8 bytes on class 0; the device that admits end points from 0 on. -/
def hMgmt (n : Nat) (l : List Byte) : Hdr := let h : Hdr := hdr (pg 0x10 0 + 0x120) n l; { h with tc := 0, mark := false, job := 0 }

def dAdmit (range0 : Nat) : Dev := { dMem with regs := [(pg 0x10 0 + 0x140, range0)] }

def someEps : Nat := 2 ^ 63 + 256 * 2 ^ 18

theorem witness_Management (v : Nat) (h : v = 0 ∨ v = someEps) : AtRest (dAdmit v) ∧ landOpen (dAdmit v) 0 = true ∧ quiet (dAdmit v) = false ∧
    headerBad 0x20 (hMgmt 4 []) = false ∧ headerBad 0x21 (hMgmt 8 eight) = false ∧ mgmtAdmits (dAdmit someEps) (hMgmt 4 []).src.toNat = true ∧
    mgmtAdmits (dAdmit 0) (hMgmt 4 []).src.toNat = false := by
  rcases h with rfl | rfl <;>
    exact ⟨atRest_of _ rfl, rfl, rfl, by decide +kernel, by decide +kernel, by decide +kernel, by decide +kernel⟩

/-- A store that waits for its acknowledgement. -/
def dAck : Dev := { dMem with flying := [{ fWr with wait := .ack cOK [] }] }

theorem witness_StoreAck : (∃ f, flyingOf dAck 1 = some f ∧ f.wait = .ack cOK []) ∧ flyingOf dMem 1 = none ∧
    dMem.tiers.deltas.find? (fun x => x.1 == 3 && x.2.1 == 5) = none := ⟨⟨_, rfl, rfl⟩, rfl, rfl⟩

/-- A delta queued for stripe 5 of channel 3; a channel of the parity position's site out of service. -/
def dDelta (down : BitVec 32) : Dev :=
  { dMem with tiers.deltas := [(3, 5, 0, eight)], tiers.sites := modAt (fun u => { u with down := down }) dMem.tiers.sites 8 }

theorem witness_Delta : (dDelta 0).tiers.deltas.find? (fun x => x.1 == 3 && x.2.1 == 5) = some (3, 5, 0, eight) ∧
    unitState (dDelta 0) ((5 + 3) % 9) 3 5 = .up 8 ∧ ∀ st, unitState (dDelta 8) ((5 + 3) % 9) 3 5 ≠ .up st :=
  ⟨rfl, by decide +kernel, fun st => by rw [show unitState (dDelta 8) ((5 + 3) % 9) 3 5 = .missing by decide +kernel]; simp⟩

theorem witness_EddyWriteback :
    accumAt (dSums [aSum .fp32 true]) 0 0x200000 = some (aSum .fp32 true) ∧ accumAt (dSums [aSum .fp32 false]) 0 0x200000 = some (aSum .fp32 false) ∧
    extAt (dSums [aSum .fp32 true]) 0x200000 = some xNear ∧ (readPlain (dSums [aSum .fp32 true]) xNear { off := 0x200000, berth := 0 } 0x200000 64).1 = cOK ∧
    (writePlain (dSums [aSum .fp32 true]) xNear { off := 0x200000, berth := 0 } 0x200000 (sumGranule (aSum .fp32 true) (List.replicate 64 0))).1 = cOK ∧
    (readPlain { dSums [aSum .fp32 true] with tiers.poison := [0] } xNear { off := 0x200000, berth := 0 } 0x200000 64).1 ≠ cOK :=
  ⟨rfl, rfl, by decide +kernel, by decide +kernel, by decide +kernel, by decide +kernel⟩

/-- A snoop of agent 3, and the transaction of line 0 that sent it. -/
def sOut (k : SnoopKind) : Snoop := { id := 12, kind := k, agent := 3, endPoint := 1, job := 1, sent := 0 }

def tOut (k : SnoopKind) (why : TransKind) : Trans := { bank := 0, line := 0, kind := why, snoops := [sOut k], waiters := [] }

def dSnoop (k : SnoopKind) (why : TransKind) : Dev := { dAgents (fLine .rdOwn) [eLine .owned] with quay.trans := [tOut k why] }

theorem witness_Snoops (k : SnoopKind) (why : TransKind) : landOpen (dSnoop k why) 0 = true ∧ landOpen (dSnoop k why) 1 = false ∧
    snoopOf (dSnoop k why) (11 : BitVec 16).toNat = none ∧ snoopOf (dSnoop k why) (12 : BitVec 16).toNat = some (tOut k why, sOut k) ∧
    (sOut k).endPoint = (1 : BitVec 18).toNat ∧ (sOut k).endPoint ≠ (2 : BitVec 18).toNat ∧
    answers .inv .invAck = true ∧ answers .inv .data = false ∧ answers .recall .data = true ∧
    crc32c (sub (List.replicate 64 0) 0 64) = (BitVec.ofNat 32 (crc32c (List.replicate 64 0))).toNat ∧
    offsetOfLine (dSnoop k why) 0 = some (xMoored, 0x200000) ∧ TransKind.recalling ≠ .sweep ∧ SnoopKind.recall ≠ .inv :=
  ⟨rfl, rfl, rfl, rfl, rfl, by show (1 : Nat) ≠ 2; decide, rfl, rfl, rfl, by decide +kernel, rfl, by decide, by decide⟩

theorem witness_AgentData (bank : Nat) (h : bank = 0 ∨ bank = 1) : bank < 2 ∧ Reaches dServe .pcie1 (pg 0x40 bank + 0x118) ⟨0x40, bank, 0⟩ := by
  rcases h with rfl | rfl <;> exact ⟨by decide, rfl, rfl, rfl, rfl, rfl, rfl, rfl⟩

/-- A set being swept, its recalls answered. -/
def dSweep : Dev := { dServe with quay.sweeps := [(1, 7)] }

theorem witness_Arrays (bank : Nat) (h : bank = 0 ∨ bank = 1) : bankLive dServe bank = true ∧ dServe.quay.spareEast < 512 ∧ dServe.quay.spareWest < 512 ∧
    512 ≤ ({ dServe with quay.spareEast := 512, quay.spareWest := 512 } : Dev).quay.spareEast ∧ (0, 7) ∉ dSweep.quay.sweeps ∧
    (1, 7) ∈ dSweep.quay.sweeps ∧
    ∀ t ∈ dSweep.quay.trans, (t.kind == .sweep && t.bank == 1 && setOfLine t.line == 7) = true → t.snoops = [] := by
  rcases h with rfl | rfl <;> exact ⟨rfl, by decide, by decide, by decide, by decide, by decide, nofun⟩

/-! ### Tiers -/

/-- Every spare row of channel 5 of site 2 in use. -/
def dNoRows : Dev :=
  { dServe with tiers.sites := modAt (fun u => { u with rowSpares := [(5, Config.stackSpareRows (2 * 32 + 5) + 1)] }) dServe.tiers.sites 2 }

theorem witness_Spares_rows : NMap.get 0 (site dServe 2).rowSpares 5 ≤ Config.stackSpareRows (2 * 32 + 5) ∧
    Config.stackSpareRows (2 * 32 + 5) < NMap.get 0 (site dNoRows 2).rowSpares 5 := ⟨Nat.zero_le _, Nat.lt_succ_self _⟩

theorem witness_Spares : NMap.get 0 dServe.tiers.nearSpares 63 < 64 ∧ NSet.mem dServe.tiers.vaultsDown 63 = false ∧
    0 < (dServe.tiers.groups.getD (31 / 16) {}).sparePct ∧ dServe.tiers.groups.length = 2 := ⟨by decide, rfl, by decide, rfl⟩

/-- Site 2 with channels out of service, or failed; a rebuild; the spare's role. -/
def dSite (n : Nat) (down : BitVec 32) (failed : Bool) (role9 : SiteRole) (r : Option StackRebuild) : Dev :=
  { dServe with
    tiers.sites := modAt (fun u => { u with role := role9 }) (modAt (fun u => { u with down := down, failed := failed }) dServe.tiers.sites n) 9
    tiers.rebuild := r }

theorem witness_StackChannels : (dSite 2 0 false .spare none).tiers.sites.length = 10 ∧ (site (dSite 2 0 false .spare none) 2).down.getLsbD 31 = false ∧
    ((site (dSite 2 0 false .spare none) 2).down ||| BitVec.ofNat 32 (2 ^ 31)) ||| (site (dSite 2 0 false .spare none) 2).loan ≠ BitVec.allOnes 32 ∧
    (site (dSite 8 0x10 false .spare none) 8).down.getLsbD 4 = true ∧ (site (dSite 2 0 false .spare none) 2).failed = false ∧
    (site (dSite 2 0 false .spare none) 2).role ≠ .retired ∧ (site (dSite 2 0 false .spare none) 2).role = .member ∧
    (site (dSite 2 0 false .spare none) 9).role = .spare ∧ (site (dSite 2 0 false .spare none) 9).failed = false ∧
    (dSite 2 0 false .target (some { position := 5, ready := false })).tiers.rebuild.isSome = true ∧
    (site (dSite 2 0 false .target none) 9).role ≠ .spare ∧ (site (dSite 2 0 true .spare none) 2).failed = true ∧
    (dSite 2 0 false .spare (some { position := 5, ready := false })).sys.westHeld = false :=
  ⟨rfl, rfl, by decide, rfl, rfl, by decide, rfl, rfl, rfl, rfl, by decide, rfl, rfl⟩

theorem witness_Rebuilds : (site (dSite 8 0x10 false .spare none) 8).role = .member ∧ (site (dSite 8 0x10 false .spare none) 8).failed = false ∧
    (site (dSite 8 0x10 false .spare none) 8).down.getLsbD 4 = true ∧ (site (dSite 8 0x10 false .spare none) 9).loan.getLsbD 4 = false ∧
    (site (dSite 8 0x10 false .spare none) 9).down.getLsbD 4 = false ∧ (dSite 8 0x10 false .spare none).sys.westHeld = false ∧
    (dSite 2 0 true .target (some { position := 2, ready := true })).tiers.rebuild = some { position := 2, ready := true } ∧
    (site (dSite 2 0 true .target (some { position := 2, ready := true })) 9).role = .target ∧
    (∀ c ∈ loggedStripes { dServe with tiers.dirtyEast := [3 * 2 ^ 24 + 5] } 0, parityUp dServe c = true) ∧
    (∀ c ∈ loggedStripes dServe 1, parityUp dServe c = true) :=
  ⟨rfl, rfl, rfl, rfl, rfl, rfl, rfl, rfl, by decide +kernel, by decide +kernel⟩

/-- A stripe whose data unit at position 1 and parity unit at position 0 hold the same byte. -/
def dStripe : Dev := { dServe with tiers.mem := [(stackCell 0 0 0 0, 0x5A), (stackCell 1 0 0 0, 0x5A)] }

theorem witness_Reconstruction : (∀ p, p < 9 → p ≠ 1 → storedOk dStripe p 0 0 0 = true) ∧
    (∀ i, i < 64 → (List.range 9).foldl (fun (b : Byte) p => b ^^^ NMap.get 0 dStripe.tiers.mem (stackCell p 0 0 0 + i)) 0 = 0) := by
  constructor <;> decide +kernel

theorem witness_Spares_none : 64 ≤ NMap.get 0 ({ dServe with tiers.nearSpares := [(3, 64)] } : Dev).tiers.nearSpares 3 := by decide

/-- Site 2, all of whose channels but the last are down. -/
theorem witness_StackChannels_whole : (site (dSite 2 0x7FFFFFFF false .spare none) 2).role = .member ∧
    (site (dSite 2 0x7FFFFFFF false .spare none) 2).down.getLsbD 31 = false ∧
    ((site (dSite 2 0x7FFFFFFF false .spare none) 2).down ||| BitVec.ofNat 32 (2 ^ 31)) |||
      (site (dSite 2 0x7FFFFFFF false .spare none) 2).loan = BitVec.allOnes 32 := ⟨rfl, by decide, by decide⟩

/-- A rebuild of position 2 whose cursor stands in channel 3. -/
def dCursor : Dev := dSite 2 0 true .target (some { position := 2, ready := true, cursor := 3 * 12582912 + 7 })

theorem witness_StackChannels_endRebuild : dCursor.tiers.rebuild = some { position := 2, ready := true, cursor := 3 * 12582912 + 7 } ∧
    (site dCursor 9).role = .target ∧ (site dCursor 9).failed = false ∧ (site dCursor 2).role = .member ∧ (site dCursor 2).position = 2 ∧
    belowCursor dCursor 2 2 12582911 = true ∧ belowCursor dCursor 2 3 12582911 = false ∧ (site dCursor 4).position ≠ 2 := by decide +kernel

/-- A unit at fault, and another of its stripe that cannot be read. -/
theorem witness_Rebuilds_unit : Memory.wf dStripe.tiers.mem = true ∧ NSet.wf dStripe.tiers.faults = true ∧
    poisoned (applyStripe dStripe 0 0) (stackCell 1 0 0 64) = false ∧
    (∀ p ∈ (List.range 9).filter (fun p => p != 1), storedOk (applyStripe dStripe 0 0) p 0 0 0 = true) ∧
    (∃ p ∈ (List.range 9).filter (fun p => p != 1), storedOk (applyStripe { dStripe with tiers.faults := [stackCell 2 0 0 0] } 0 0) p 0 0 0 = false) ∧
    Memory.wf dStripe.tiers.mem = true ∧ NSet.wf ({ dStripe with tiers.faults := [stackCell 2 0 0 0] } : Dev).tiers.faults = true :=
  ⟨by decide +kernel, by decide +kernel, by decide +kernel, by decide +kernel, ⟨2, by decide, by decide +kernel⟩, by decide +kernel, by decide +kernel⟩

/-! ### A move of an extent none of whose tiles has been written -/

def xZero : Extent := { xNear with e.zero := true }

def yFlash : Extent := { xZero with e.zero := false, e.tier := .flash }

/-- A MOVE of the extent to flash, in a phase. -/
def mMove (p : MovePhase) (marked : NSet) : MoveItem :=
  { r := rFirst, item := 0, bank := 0, base := 1, job := 1, destTier := .flash, destBase := 0, pin := false, waitPins := true, phase := p,
    marked := marked }

def dMove (p : MovePhase) (marked : NSet) : Dev := { dExt xZero with tiers.moves := [mMove p marked] }

/-- The move at its switch. -/
def dZero : Dev := dMove .switching []

theorem putBytes_zeros : ∀ n c, putBytes [] c (List.replicate n 0) = []
  | 0, _ => rfl
  | n + 1, c => by rw [List.replicate_succ, putBytes]; exact putBytes_zeros n (c + 1)

theorem storeZeros : ∀ l : List (Nat × List Byte), (∀ p ∈ l, tierOfCell p.1 = .flash ∧ p.2 = List.replicate 64 0) → storeGranules l dZero = dZero
  | [], _ => rfl
  | (g, b) :: l, h => by
    obtain ⟨h1, rfl⟩ : tierOfCell g = .flash ∧ b = List.replicate 64 0 := h _ (List.mem_cons_self)
    have h2 : setMem dZero g (List.replicate 64 0) = dZero := by
      show ({ dZero with tiers.mem := putBytes [] g (List.replicate 64 0) } : Dev) = dZero
      rw [putBytes_zeros]; rfl
    rw [storeGranules, h1]
    show storeGranules l (cleanGranule (setMem dZero g (List.replicate 64 0)) g) = dZero
    rw [h2]
    exact storeZeros l (fun p hp => h p (List.mem_cons_of_mem _ hp))

theorem flashCells (c i : Nat) (h : c < 2 ^ 40) (hi : i < 4) : tierOfCell (flashBase + c + 64 * i) = .flash := by
  have h1 : ¬ hostBase ≤ flashBase + c + 64 * i := by simp only [hostBase, flashBase]; omega
  have h2 : flashBase ≤ flashBase + c + 64 * i := by omega
  simp [tierOfCell, h1, h2]

theorem tileMoves (t : Nat) (h : t < 8192) : moveTile xZero yFlash dZero t = (cOK, dZero) := by
  have hz : zeroTile xZero (extBase xZero + t * 256) = true := rfl
  have hc : extCell dZero yFlash (extBase xZero + t * 256) = flashBase + t * 256 := by
    show flashBase + 0 * 2 ^ 46 + (0 * 2 ^ 21 + (extBase xZero + t * 256 - extBase xZero)) = _
    omega
  have hg : ∀ g ∈ granulesIn (flashBase + t * 256) 0 256, tierOfCell g = .flash := by
    intro g hg
    simp only [granulesIn, List.mem_map, List.mem_filter, List.mem_range] at hg
    obtain ⟨i, ⟨hi, -⟩, rfl⟩ := hg
    exact flashCells _ i (by omega) hi
  have hb : (granulesIn (flashBase + t * 256) 0 256).any (fun g => wholeCheck dZero g != cOK) = false := by
    rw [List.any_eq_false]
    intro g hm
    simp [wholeCheck, hg g hm]
  have hs : storeGranules (touched (flashBase + t * 256) 0 256 (List.replicate 256 0)) dZero = dZero := by
    apply storeZeros
    intro p hp
    simp only [touched, granulesIn, List.mem_map, List.mem_filter, List.mem_range] at hp
    obtain ⟨g, ⟨i, ⟨hi, -⟩, rfl⟩, rfl⟩ := hp
    refine ⟨flashCells _ i (by omega) hi, ?_⟩
    simp only [Nat.add_sub_cancel_left]
    rcases (show i = 0 ∨ i = 1 ∨ i = 2 ∨ i = 3 by omega) with rfl | rfl | rfl | rfl <;> rfl
  have hk : keysOf dZero xZero = none := rfl
  simp only [moveTile, hz, hc, hk, if_true, hb, hs]
  rfl

theorem tilesMove : ∀ l : List Nat, (∀ t ∈ l, t < 8192) → moveTiles xZero yFlash l dZero = (cOK, dZero)
  | [], _ => rfl
  | t :: l, h => by
    rw [moveTiles, tileMoves t (h t List.mem_cons_self)]
    exact tilesMove l (fun t ht => h t (List.mem_cons_of_mem _ ht))

theorem witness_Moves_switch :
    let m := mMove .switching []
    let y : Extent := { xZero with e := { xZero.e with tier := m.destTier, localBase := m.destBase, zero := false }, written := [] }
    (moveTiles xZero y (List.range (extBytes xZero / 256)) dZero).1 = cOK := by
  show (moveTiles xZero yFlash (List.range (extBytes xZero / 256)) dZero).1 = cOK
  have h : extBytes xZero / 256 = 8192 := rfl
  rw [h, tilesMove _ (fun t ht => List.mem_range.mp ht)]

/-! ### The tiers' work and the Tow -/

/-- Bytes of the near store from a cell on. -/
def memAt (a : Nat) (l : List Byte) : List (Nat × Byte) := (l.zipIdx.filter (fun p => p.1 != 0)).map (fun p => (a + p.2, p.1))

/-- A descriptor's 64 bytes from its eight words. -/
def raw8 (l : List Nat) : List Byte := l.flatMap (leBytes 8)

/-- A descriptor of an engine of job 1, of one item, that may start. -/
def xDesc (engine op : Nat) (raw : List Nat) : Desc :=
  { xBlank with engine := engine, opcode := op, count := 1, raw := raw8 raw, phase := .admitted }

/-- A device with room in every tier for berth 0, the descriptor alone, and bytes in the near store. -/
def dDesc (x : Desc) (l : List (Nat × Byte)) : Dev :=
  { dMem with
    xmap.current := { berths := [(0, { nearQuota := 4, flashQuota := 4, rings := 1, landings := 1, clusters := BitVec.allOnes 64 })],
                      nearSegs := [(0, 0), (1, 1), (2, 2), (3, 3)] }
    descs := [x]
    tiers.mem := l }

/-- A Tow item at the extent's byte 0x1000. -/
def towMem (off dest : Nat) : List (Nat × Byte) := memAt 0x1000 (leBytes 8 off ++ leBytes 8 dest)

def xTow (op : Nat) : Desc := xDesc 0x50 op [0, 0, 0, 0x201000, 0, 0, 0, 0]

/-- What the item reads as, and the device after. -/
def towReads (op off dest : Nat) : Got × Dev :=
  let d := dDesc (xTow op) (towMem off dest)
  descRead (runDesc d rFirst) { xTow op with phase := .running } 0 5 (dfld (xTow op) 0x18 0 48 + 16 * 0) 16

def towFinds (op off dest : Nat) : Nat × Option Extent :=
  match towReads op off dest with
  | (.ok l, t) => towExtent t { xTow op with phase := .running } (towItem l) (op == 4)
  | _ => (1, none)

theorem witness_Tow (op : Nat) (h : op ∈ [1, 2, 3, 4]) : engineDesc (dDesc (xTow op) (towMem 0x200000 0)) rFirst 0x50 op = some (xTow op) ∧
    (xTow op).count = (xTow op).nextItem + 1 ∧ (towReads op 0x200000 0).1 = .ok (leBytes 8 0x200000 ++ leBytes 8 0) ∧
    towFinds op 0x200000 0 = (cOK, some xNear) ∧ towFinds op 0x400000 0 = (cDENIED, none) ∧ towFinds op 0x200001 0 = (cUNSUP, none) := by
  revert op
  decide +kernel

theorem witness_Tow_items :
    let t := (towReads 1 0x200000 0x8000000).2
    let it := towItem (leBytes 8 0x200000 ++ leBytes 8 0x8000000)
    snapUses t 1 = false ∧ tierOf it.destTier = .flash ∧ destCode t xNear (tierOf it.destTier) it.destBase = cOK ∧ queuedMoves t 0 < 4096 ∧
    tierOf (towItem (leBytes 8 0x200000 ++ leBytes 8 0)).destTier = xNear.e.tier ∧ moveHead t 1 = none ∧
    0 < pinCount { t with tiers.pins := [{ bank := 0, job := 1, base := 1, count := 2 }] } 1 1 ∧
    pinCount { t with tiers.pins := [{ bank := 0, job := 1, base := 1, count := 2 }] } 1 1 < 65535 ∧
    stagedTiles { t with tiers.staged := [{ bank := 0, addr := flashBase, data := [] }] } (xTier .flash) = true ∧ stagedTiles t (xTier .flash) = false :=
  ⟨by decide +kernel, rfl, by decide +kernel, by decide +kernel, rfl, by decide +kernel, by decide +kernel, by decide +kernel,
    by decide +kernel, by decide +kernel⟩

theorem witness_Flash : dServe.tiers.groups.length = 2 ∧ dServe.tiers.flash.length = 32 ∧ (dServe.tiers.flash.getD 31 {}).down = false ∧
    dServe.flying = [] ∧ (dServe.tiers.groups.getD (31 / 16) {}).gone = none ∧ (dServe.tiers.groups.getD (31 / 16) {}).rebuilding = none ∧
    (dServe.tiers.groups.getD 0 {}).rebuilding = none := ⟨rfl, rfl, rfl, rfl, rfl, rfl, rfl⟩

/-- Channel 17 down: its group is rebuilt without it. -/
def dGroup : Dev :=
  { dServe with
    tiers.flash := modAt (fun _ => { down := true }) dServe.tiers.flash 17
    tiers.groups := [{}, { rebuilding := some 17 }] }

theorem witness_Flash_rebuild : (dGroup.tiers.flash.getD 17 {}).down = true ∧ (dGroup.tiers.groups.getD 1 {}).rebuilding = some 17 ∧
    (dGroup.tiers.groups.getD (18 / 16) {}).rebuilding.isSome = true ∧ (dGroup.tiers.flash.getD 18 {}).down = false ∧
    dGroup.tiers.groups.length = 2 ∧ dGroup.tiers.flash.length = 32 := ⟨rfl, rfl, rfl, rfl, rfl, rfl⟩

theorem witness_Flash_drain : ∀ t ∈ (dStaged fRd).tiers.staged.filter (fun t => t.bank == 0), ∀ g ∈ granulesIn t.addr 0 256,
    faulty (dStaged fRd) g = false := fun _ _ _ _ => rfl

/-- A request in the Tow's wait table, for its tier or for room in the staging area. -/
def fTow (late staging : Bool) : Flying :=
  if staging then { fWr with wait := .stage 0 late } else { fRd with wait := .tier 0 late }

theorem witness_WaitTable (t : Tier) (late staging : Bool) :
    flyingOf (dFly (xTier t) (fTow late staging)) 1 = some (fTow late staging) ∧ (fTow late staging).id = 1 ∧
    (fTow late staging).wait = (if staging then .stage 0 late else .tier 0 late) ∧ extOf (dFly (xTier t) (fTow late staging)) 1 = some (xTier t) ∧
    (xTier t).e.tier = t ∧ (staging = false → (fTow late staging).q.op ≠ .wr) := by
  cases staging <;> exact ⟨rfl, rfl, rfl, rfl, rfl, by intro h; simp [fTow, fRd, fly] at h ⊢⟩

theorem witness_Moves (p : MovePhase) (l : NSet) : (dMove p l).tiers.moves = [mMove p l] ∧ extOf (dMove p l) 1 = some xZero ∧ xZero.e.base = 1 ∧
    (dMove p l).flying = [] ∧ (dMove p l).quay.trans = [] ∧ (dMove p l).quay.dir = [] ∧ (dMove p l).quay.accums = [] ∧
    (dMove p l).tiers.persists = [] ∧ (mMove .copy []).marked.length < 4096 ∧ 4096 ≤ (mMove .copy (List.range 4096)).marked.length ∧
    1 ≤ reg dServe (pg 0x33 0 + 0x120) ∧ reg dServe (pg 0x33 0 + 0x120) < 10 ∧ tierUp (dMove p l) xZero.e.tier 0 = true ∧
    copyPassed xZero (mMove p l) = true ∧ copyPassed { xZero with e.tier := .host } (mMove .copy []) = false ∧
    copyPassed { xZero with e.tier := .host } { mMove .switching [] with asked := 8192 } = true ∧ (mMove .switching []).marked = [] ∧
    pinned (dMove p l) 1 = false ∧ pinned { dMove p l with tiers.pins := [{ bank := 0, job := 1, base := 1, count := 2 }] } 1 = true ∧
    (mMove p l).pin = false ∧ moveRuns (mMove .switching []) = true ∧ moveRuns (mMove (.pinWait 0) []) = false :=
  ⟨rfl, rfl, rfl, rfl, rfl, rfl, rfl, rfl, by decide, by simp [mMove], by decide, by decide, rfl, rfl, rfl, rfl, rfl, rfl, rfl, rfl, rfl, rfl⟩

/-- A second channel of the group fails; tiles of its stripes, one written since the first failed. -/
def dSecond (g : FlashGroup) : Dev :=
  { dGroup with tiers.flash := modAt (fun _ => { down := true }) dGroup.tiers.flash 18, tiers.groups := [{}, g] }

theorem witness_Flash_second : (dSecond { rebuilding := some 17 }).tiers.groups.length = 2 ∧
    ((dSecond { rebuilding := some 17 }).tiers.groups.getD 1 {}).rebuilding = some 17 ∧
    (∃ c, c < 16 ∧ 1 * 16 + c ≠ 17 ∧ ((dSecond { rebuilding := some 17 }).tiers.flash.getD (1 * 16 + c) {}).down = true) ∧
    ¬ (∃ c, c < 16 ∧ 1 * 16 + c ≠ 17 ∧ (dGroup.tiers.flash.getD (1 * 16 + c) {}).down = true) ∧
    flashBank (flashBase + 128 * 2 ^ 46) = 1 ∧ NSet.mem [flashBase + 128 * 2 ^ 46] ((flashBase + 128 * 2 ^ 46) / 256 * 256) = true ∧
    (({ gone := some 17, stuck := true } : FlashGroup).gone = some 17) := by
  refine ⟨rfl, rfl, ⟨2, by decide, by decide, rfl⟩, ?_, by decide +kernel, by decide +kernel, rfl⟩
  rintro ⟨c, h1, h2, h3⟩
  revert h3 h2
  revert c
  decide

theorem witness_Tow_held : ({ (towReads 1 0x200000 0).2 with sys.westHeld := true } : Dev).sys.westHeld = true ∧
    extBank { xNear with e.berth := 128 } = 1 ∧ extBank xNear = 0 ∧ (towReads 1 0x200000 0).2.sys.westHeld = false ∧
    (towExtent { (towReads 1 0x200000 0).2 with toll.extents := [{ xNear with e.berth := 128 }] } { xTow 1 with phase := .running }
      (towItem (leBytes 8 0x200000 ++ leBytes 8 0)) false).2 = some { xNear with e.berth := 128 } := by
  refine ⟨rfl, by decide, by decide, by decide +kernel, by decide +kernel⟩

theorem witness_Moves_fail : tierUp (dMove .switching []) .host 0 = false ∧ copyPassed { xZero with e.tier := .host } { mMove .switching [] with asked := 8192 } = true ∧
    (mMove (.pinWait 7) []).phase = .pinWait 7 := ⟨by decide +kernel, rfl, rfl⟩

/-- The extent, not ZERO, whose vault has failed: its first tile cannot be read at the switch. -/
def dUnread : Dev := { dMove .switching [] with toll.extents := [xNear], tiers.vaultsDown := [0] }

theorem witness_Moves_unreadable : extOf dUnread 1 = some xNear ∧
    (moveTiles xNear { xNear with e.tier := .flash } (List.range (extBytes xNear / 256)) dUnread).1 ≠ cOK := by
  have h : List.range (extBytes xNear / 256) = 0 :: List.range' 1 8191 := by
    show List.range 8192 = _
    rw [List.range_eq_range']; rfl
  have e : (moveTile xNear { xNear with e.tier := .flash } dUnread 0).1 ≠ cOK := by decide +kernel
  refine ⟨rfl, ?_⟩
  rw [h]
  have go : ∀ (c : Nat) (p q : Nat × Dev), p.1 ≠ c → (if p.1 == c then q else p).1 ≠ c := by
    intro c p q hp
    rw [if_neg (by simpa using hp)]
    exact hp
  exact go _ _ (moveTiles xNear { xNear with e.tier := .flash } _ _) e

/-! ### The Raft -/

/-- An image of entries, each given by its first five words. -/
def imageBytes (check : Nat) (l : List (List Nat)) : List Byte :=
  leBytes 4 0x52414654 ++ leBytes 2 1 ++ leBytes 2 l.length ++ leBytes 8 5 ++ leBytes 4 9 ++ leBytes 4 0 ++ leBytes 4 (64 + 64 * l.length) ++
    leBytes 4 check ++ List.replicate 32 0 ++ l.flatMap (fun e => e.flatMap (leBytes 4) ++ List.replicate (64 - 4 * e.length) 0)

/-- An SU that does nothing; a SOURCE of stream 0 that feeds a SINK of stream 1, in FP16. -/
def imgIdle : List Byte := imageBytes 191345582 [[0, 0, 0, 0, 0]]

def imgPass : List Byte := imageBytes 0 [[2 * 2 ^ 16, 0x101 + 2 * 2 ^ 25, 0, 0, 4096], [1 + 3 * 2 ^ 16, 0x101 + 2 ^ 16, 1, 0, 512]]

/-- A LOAD of 128 bytes at the extent's byte 0x1000. -/
def xLoad (len : Nat) : Desc := xDesc 0x10 1 [0, 0, 0, 0x201000, len, 0, 0, 0]

def loadReads (len base : Nat) (l : List Byte) : Got × Dev :=
  let x := xDesc 0x10 1 [0, 0, 0, base, len, 0, 0, 0]
  readImage (runDesc (dDesc x (memAt 0x1000 l)) rFirst) x

/-- The CRC of the idle image, in two halves. -/
def crcFold (r : Nat) (l : List Byte) : Nat := l.foldl (fun r b => crcByte 0x82F63B78 r b.toNat) r

def zeroedImage : List Byte := putAt imgIdle 0x1C (List.replicate 4 0)

theorem crcFold_append (r : Nat) (a b : List Byte) : crcFold r (a ++ b) = crcFold (crcFold r a) b := List.foldl_append ..

theorem imageCheck_eq (l : List Byte) (n : Nat) :
    imageCheck l n = crcFold 0xFFFFFFFF (putAt (sub l 0 n) 0x1C (List.replicate 4 0)) ^^^ 0xFFFFFFFF := rfl

theorem checkOf (k : Nat) (hk : k = 191345582 ∨ k = 1) : imageCheck (imageBytes k [[0, 0, 0, 0, 0]]) 128 = 191345582 := by
  have h : putAt (sub (imageBytes k [[0, 0, 0, 0, 0]]) 0 128) 0x1C (List.replicate 4 0) = zeroedImage.take 64 ++ zeroedImage.drop 64 := by
    rcases hk with rfl | rfl <;> decide +kernel
  have h1 : crcFold 0xFFFFFFFF (zeroedImage.take 64) = 2235424875 := by decide +kernel
  have h2 : crcFold 2235424875 (zeroedImage.drop 64) ^^^ 0xFFFFFFFF = 191345582 := by decide +kernel
  rw [imageCheck_eq, h, crcFold_append, h1, h2]

theorem witness_Load : engineDesc (dDesc (xLoad 128) (memAt 0x1000 imgIdle)) rFirst 0x10 1 = some (xLoad 128) ∧ (xLoad 128).table = [] ∧
    (xLoad 128).count ≠ 0 ∧ (loadReads 128 0x201000 imgIdle).1 = .ok imgIdle ∧ (loadReads 128 0x401000 imgIdle).1 = .fail cDENIED :=
  ⟨by decide +kernel, rfl, by decide, by decide +kernel, by decide +kernel⟩

theorem witness_Load_good : imageCode (loadReads 128 0x201000 imgIdle).2 (xLoad 128) imgIdle = cOK := by
  have h1 : (imageOf imgIdle).fits = true ∧ (imageOf imgIdle).total = 128 ∧ (imageOf imgIdle).check = 191345582 ∧ imageOk (imageOf imgIdle) = true ∧
    bit (imageOf imgIdle).tag 63 = false := by decide +kernel
  have h2 : (spots (loadReads 128 0x201000 imgIdle).2 ⟨(xLoad 128).r.berth, (xLoad 128).job, (imageOf imgIdle).tag,
      (imageOf imgIdle).check, (imageOf imgIdle).w, (imageOf imgIdle).h, []⟩).isEmpty = false := by decide +kernel
  have h3 : imageCheck imgIdle 128 = 191345582 := checkOf _ (.inl rfl)
  simp only [imageCode, h1.1, h1.2.1, h3, h1.2.2.1, h1.2.2.2.1, h1.2.2.2.2]
  rw [h1.2.2.1] at h2
  simp only [h2]
  rfl

theorem witness_Load_bad (t : Dev) : imageCode t (xLoad 128) (imageBytes 1 [[0, 0, 0, 0, 0]]) = cUNCORR := by
  have h1 : (imageOf (imageBytes 1 [[0, 0, 0, 0, 0]])).fits = true ∧ (imageOf (imageBytes 1 [[0, 0, 0, 0, 0]])).total = 128 ∧
    (imageOf (imageBytes 1 [[0, 0, 0, 0, 0]])).check = 1 := by decide +kernel
  simp only [imageCode, h1.1, h1.2.1, checkOf 1 (.inr rfl), h1.2.2]
  rfl

theorem witness_Load_waits :
    (readImage (runDesc { dDesc (xLoad 128) [] with toll.extents := [xHeld] } rFirst) (xLoad 128)).1 = .wait := by decide +kernel

/-- A copy of an image, held by a descriptor or idle. -/
def cOf (img : List Byte) (placed : Bool) (holder : Option DescRef) : Copy :=
  { id := 0, bank := 0, berth := 0, job := 1, tag := 5, check := 0, row := 0, col := 0, w := 1, h := 1, ctx := 0, image := img, placed := placed,
    holder := holder }

def dCopy (x : Desc) (c : Copy) (l : List (Nat × Byte)) : Dev := { dDesc x l with raft.copies := [c] }

/-- A copy of descriptor 0 that runs, with units in its hand. -/
def cHand (img : List Byte) (hand : List Nat) : Copy := { cOf img true (some rFirst) with on := true, hand := hand }

def xEvict : Desc := xDesc 0x10 3 [0, 0, 0, 5, 0, 0, 0, 0]

theorem witness_Evict : engineDesc (dCopy xEvict (cOf [] true none) []) rFirst 0x10 3 = some xEvict ∧ idleCopy (cOf [] true none) = true ∧
    xEvict.count ≤ ((dCopy xEvict (cOf [] true none) []).raft.copies.filter (fun c =>
      c.job == xEvict.job && c.berth == rFirst.berth && c.tag == dnum xEvict 0x18 8 && idleCopy c)).length ∧
    copyOf (dCopy xEvict (cOf [] false none) []) 0 = some (cOf [] false none) ∧ copyOf (dCopy xEvict (cOf [] true none) []) 0 = some (cOf [] true none) :=
  ⟨by decide +kernel, rfl, by decide +kernel, rfl, rfl⟩

/-- A training descriptor that waits for a copy of its built-in image. -/
def xWaits : Desc := let x := xDesc 0x20 1 [0, 0, 0, 0, 0, 0, 0, 0]; { x with phase := .running, needCopy := true }

theorem witness_LoadWait : descOf (dDesc xWaits []) rFirst = some xWaits ∧ xWaits.engine ≠ 0x10 ∧ xWaits.needCopy = true ∧ xWaits.phase = .running ∧
    firstRefusal (xWaits.pre ++ [cBUSY]) = some cBUSY :=
  ⟨rfl, by decide, rfl, rfl, by decide⟩

/-- A LOAD whose image has been read and whose item waits for room. -/
def xLoads : Desc := { xLoad 128 with phase := .running, table := imgIdle }

theorem witness_LoadWait_load : descOf (dDesc xLoads []) rFirst = some xLoads ∧ loadOpen xLoads = true ∧ xLoads.nextItem < xLoads.count :=
  ⟨rfl, by decide +kernel, by decide⟩

/-- A RUN of two streams, with the table at the extent's byte 0x1000, from `src` to byte 0x2000. -/
def xRun (table : Nat) : Desc := xDesc 0x10 2 [0, 0, 0, 0, table + 2 * 2 ^ 48, 0, 0, 0]

def streamTable (src : Nat) : List Byte :=
  (leBytes 8 (src + 5 * 2 ^ 48) ++ leBytes 4 1 ++ leBytes 4 1 ++ leBytes 8 1 ++ leBytes 8 0) ++
  (leBytes 8 (0x202000 + 5 * 2 ^ 48 + 2 ^ 62) ++ leBytes 4 1 ++ leBytes 4 1 ++ leBytes 8 1 ++ leBytes 8 0)

def runReads (table : Nat) : Got × Dev :=
  let x := xRun table
  descRead (runDesc (dDesc x (memAt 0x1000 (streamTable 0x203000))) rFirst) x tableKey 5 (dfld x 0x20 0 48) (32 * dfld x 0x20 48 5)

theorem witness_Run_start : engineDesc (dDesc (xRun 0x201000) (memAt 0x1000 (streamTable 0x203000))) rFirst 0x10 2 = some (xRun 0x201000) ∧
    (xRun 0x201000).copies = [] ∧ (xRun 0x201000).table = [] ∧ (runReads 0x201000).1 = .ok (streamTable 0x203000) ∧
    (runReads 0x401000).1 = .fail cDENIED ∧ paramWords (xRun 0x201000) = 0 ∧
    (descRead (runReads 0x201000).2 (xRun 0x201000) tableKey 5 0 0).1 = .ok [] ∧ firstRefusal ((xRun 0x201000).pre ++ [cDENIED]) = some cDENIED ∧
    (descRead (runDesc { dDesc (xRun 0x201000) [] with toll.extents := [xHeld] } rFirst) (xRun 0x201000) tableKey 5 0x201000 64).1 = .wait :=
  ⟨by decide +kernel, rfl, rfl, by decide +kernel, by decide +kernel, by decide +kernel, by decide +kernel, by decide, by decide +kernel⟩

/-- The RUN with its streams and its copy, that has its item in hand; a write of the copy's item before it not yet acknowledged. -/
def xRuns (src : Nat) : Desc := { xRun 0x201000 with phase := .running, copies := [0], table := streamTable src, nextItem := 1 }

def dRuns (img : List Byte) (src : Nat) : Dev := dCopy (xRuns src) (cHand img [0]) []

def dRunWrites : Dev :=
  { dCopy (xRuns 0x203000) { cHand imgPass [0] with writing := some 7 } [] with
    flying := [{ fWr with q := { fWr.q with origin := .engine rFirst 7 } }] }

def runSources (img : List Byte) (src : Nat) : List (Nat × SrcIs) × Dev :=
  let srcs := sortBy (fun p => p.1.stream) ((imageOf img).entries.zipIdx.filter (fun p => p.1.op == 2))
  readSources (xRuns src) (streamsOf (xRuns src)) 0 srcs (dRuns img src)

def runResult (img : List Byte) (src : Nat) : ItemRes :=
  runItem (imageOf img).entries (envOf (imageOf img) (cHand img [0])) ((runSources img src).1.map (fun p => (p.1, p.2.flow)))

theorem witness_Run_item : runningRun (dRuns imgPass 0x203000) rFirst = some (xRuns 0x203000) ∧ 0 ∈ inHand (dRuns imgPass 0x203000) (xRuns 0x203000) ∧
    copyFor (dRuns imgPass 0x203000) (xRuns 0x203000) 0 = some (cHand imgPass [0]) ∧
    mayCommit (runSources imgPass 0x203000).2 (xRuns 0x203000) 0 = true ∧ mayCommit dRunWrites (xRuns 0x203000) 0 = false :=
  ⟨by decide +kernel, by decide +kernel, by decide +kernel, by decide +kernel, by decide +kernel⟩

theorem witness_Run_commits : (runSources imgPass 0x203000).1.any (fun p => p.2.waits) = false ∧
    itemCode (runSources imgPass 0x203000).1 (runResult imgPass 0x203000) = cOK ∧ (runResult imgPass 0x203000).sinks.map (·.1) = [1] ∧
    ((imageOf imgPass).entries[1]?).isSome = true ∧ itemCode (runSources imgIdle 0x203000).1 (runResult imgIdle 0x203000) = cOK ∧
    (runResult imgIdle 0x203000).sinks.map (·.1) = [] ∧
    (runSources imgPass 0x403000).1.any (fun p => p.2.waits) = false ∧
    itemCode (runSources imgPass 0x403000).1 (runResult imgPass 0x403000) ≠ cOK :=
  ⟨by decide +kernel, by decide +kernel, by decide +kernel, by decide +kernel, by decide +kernel, by decide +kernel, by decide +kernel,
    by decide +kernel⟩

/-- The RUN at its end. -/
theorem witness_Run_end : runningRun (dCopy (xRuns 0x203000) (cHand imgPass []) []) rFirst = some (xRuns 0x203000) ∧ (xRuns 0x203000).r = rFirst ∧
    unitsDone (dCopy (xRuns 0x203000) (cHand imgPass []) []) rFirst = true ∧ unitsDone (dRuns imgPass 0x203000) rFirst = false :=
  ⟨by decide +kernel, rfl, by decide +kernel, by decide +kernel⟩

theorem witness_SuFaults : bankLive dServe (1023 / 512) = true ∧ runningIn dServe 1023 = none ∧ suDown dServe 1023 = false ∧
    NMap.get 0 dServe.raft.lastFail (1023 * 2) = 0 ∧ bankLive dWestHeld (1023 / 512) = false := ⟨rfl, rfl, by decide +kernel, rfl, rfl⟩

theorem witness_Remap (bank : Nat) (h : bank = 0 ∨ bank = 1) : Reaches dServe .pcie0 (pg 0x50 bank + 0x118) ⟨0x50, bank, 0⟩ := by
  rcases h with rfl | rfl <;> exact ⟨rfl, rfl, rfl, rfl, rfl, rfl, rfl⟩

/-- Row 15 of the West stopped, column 3 pending, and an idle copy there. -/
def dRemap (m : RowMap) (c : Copy) : Dev := { dServe with raft.rows := modAt (fun _ => m) dServe.raft.rows 31, raft.copies := [c] }

theorem witness_Remap_rows :
    (rowMap dServe 31).pends = [] ∧ (rowMap (dRemap { pends := [3] } { cOf [] true none with bank := 1, row := 15 }) 31).stopped = false ∧
    (rowMap (dRemap { pends := [3], stopped := true } { cOf [] true none with bank := 1, row := 15 }) 31).pends ≠ [] ∧
    (rowMap (dRemap { pends := [3], stopped := true } { cOf [] true none with bank := 1, row := 15 }) 31).stopped = true ∧
    ([{ cOf [] true none with bank := 1, row := 15 }].filter (fun c => c.bank == 1 && decide (c.row ≤ 15) && decide (15 < c.row + c.h))).all
      idleCopy = true ∧ idleCopy (cOf [] true (some rFirst)) = false := ⟨rfl, rfl, by decide, rfl, rfl, rfl⟩

/-! ### Training state and snapshots -/

/-- A training descriptor with its tables, on an active copy. -/
def xTs (op : Nat) (raw : List Nat) (table : List Byte) : Desc :=
  let x : Desc := xDesc 0x20 op raw
  { x with phase := .running, copies := [0], table := table, nextItem := 1 }

def dTs (x : Desc) : Dev := dCopy x (cHand [] [0]) []

/-- The same before it has a copy, behind another descriptor that waits for one. -/
def xTsNew (x : Desc) : Desc := { x with copies := [], nextItem := 0 }

def dTsBehind (x : Desc) : Dev := { dDesc x [] with descs := [{ xWaits with r := ⟨0, 1, 0⟩ }, xTsNew x] }

/-- A tensor of one element whose parameter, moments and gradient stand from `p` on. -/
def tensorAt (p : Nat) : List Byte := [p, 0x203040, 0x203080, 0x2030C0, 0, 1, 0, 0].flatMap (leBytes 8)

def xOpt (p : Nat) : Desc := xTs 1 [0, 0, 0, 0, 64, 0, 0, 0] (tensorAt p)
def xNorm : Desc := xTs 2 [0, 0, 0, 0, 64, 0, 0, 0] (tensorAt 0x203000)
def xMerge : Desc := xTs 3 [0, 0, 0, 0, 0, 1, 0, 0] (leBytes 8 (0x203000 + 5 * 2 ^ 48) ++ leBytes 8 1)

/-- The same, one field out of its range. -/
def xBad (op : Nat) : Desc := xTs op [0, 0, 0, 0, 3, 0, 0, 0] (leBytes 8 (2 ^ 63 + 5 * 2 ^ 48) ++ leBytes 8 0)

theorem witness_Training : engineDesc (dTs (xOpt 0x203000)) rFirst 0x20 1 = some (xOpt 0x203000) ∧ engineDesc (dTs xNorm) rFirst 0x20 2 = some xNorm ∧
    engineDesc (dTs xMerge) rFirst 0x20 3 = some xMerge ∧ (xOpt 0x203000).table ≠ [] ∧ xNorm.table ≠ [] ∧ xMerge.table ≠ [] ∧
    firstRefusal (optRefusals (xOpt 0x203000)) = none ∧ firstRefusal (normRefusals xNorm) = none ∧
    firstRefusal (mergeRefusals (runDesc (dTs xMerge) rFirst) xMerge) = none ∧ activeCopies (dTs xMerge) xMerge = [cHand [] [0]] ∧
    (cHand [] [0]).on = true ∧ (cHand [] [0]).hand = [0] ∧ xMerge.copies ≠ [] ∧
    (∀ m ∈ xMerge.marks, m.2 ≠ zeroDue) ∧ xMerge.count ≠ 0 ∧ xMerge.count ≤ xMerge.nextItem ∧ xMerge.redo = [] ∧ xMerge.units = none ∧
    firstRefusal (optRefusals (xBad 1)) ≠ none ∧ firstRefusal (normRefusals (xBad 2)) ≠ none ∧
    firstRefusal (mergeRefusals (runDesc (dTs (xBad 3)) rFirst) (xBad 3)) ≠ none :=
  ⟨by decide +kernel, by decide +kernel, by decide +kernel, by decide, by decide, by decide, by decide +kernel, by decide +kernel, by decide +kernel,
    by decide +kernel, rfl, rfl, by decide, nofun, by decide, by decide, rfl, rfl, by decide +kernel, by decide +kernel, by decide +kernel⟩

/-- The built-in image of NORM, and what refuses the descriptor without copies. -/
def bNorm : BuiltIn := { tag := 0x8000000000002003, w := 1, h := 1, limit := 0 }

def normCodes (x : Desc) : List Nat := x.pre ++ (normRefusals x ++ codeIf (berthTooSmall (dTsBehind x) x bNorm) cLENGTH)

theorem witness_Training_noCopies : firstRefusal (normCodes (xTsNew (xBad 2))) ≠ none ∧ firstRefusal (normCodes (xTsNew xNorm)) = none ∧
    firstRefusal (normCodes { xTsNew xNorm with count := 0 }) = none ∧ (xTsNew xNorm).copies = [] ∧
    engineDesc (dTsBehind xNorm) rFirst 0x20 2 = some (xTsNew xNorm) ∧ behindOthers (runDesc (dTsBehind xNorm) rFirst) (xTsNew xNorm) = true :=
  ⟨by decide +kernel, by decide +kernel, by decide +kernel, rfl, by decide +kernel, by decide +kernel⟩

/-- What the item's reads come to, and the device after the item. -/
def optReads (p : Nat) : List SrcIs × Dev :=
  let f := dnum (xOpt p) 0x24 4
  let e := (tsEntries (xOpt p)).headD (tsEntry [])
  readRuns (xOpt p) 0 0 1 [runAt 5 e.p (fld f 4 4) false, runAt 5 e.m (fld f 8 4) false, runAt 5 e.v (fld f 8 4) false,
    runAt 5 e.g (fld f 12 4) (bit f 20)] (runDesc (dTs (xOpt p)) rFirst)

def optAfter (p : Nat) : Dev :=
  let e := (tsEntries (xOpt p)).headD (tsEntry [])
  letGo (if readsCode (optReads p).1 = cOK then optCommit (optReads p).2 (xOpt p) 0 e 0 1 (optReads p).1
    else noteItem (count (optReads p).2 (pg 0x50 (bankOfBerth 0)) 0x808) rFirst 0 (readsCode (optReads p).1)) rFirst 0

theorem witness_OptStep : (itemAt (dfld (xOpt 0x203000) 0x24 27 4) (tsEntries (xOpt 0x203000)) 0).map (·.2) = some (0, 1) ∧
    bit (dnum (xOpt 0x203000) 0x24 4) 24 = false ∧ (optReads 0x203000).1.any (·.waits) = false ∧
    readsCode (optReads 0x203000).1 = cOK ∧ mayCommit (optReads 0x203000).2 (xOpt 0x203000) 0 = true ∧ (optReads 0x403000).1.any (·.waits) = false ∧
    readsCode (optReads 0x403000).1 ≠ cOK ∧ optDone (optAfter 0x203000) rFirst = true ∧ optDone (optAfter 0x403000) rFirst = true :=
  ⟨by decide +kernel, by decide +kernel, by decide +kernel, by decide +kernel, by decide +kernel, by decide +kernel, by decide +kernel,
    by decide +kernel, by decide +kernel⟩

/-- An item that stays tainted after its re-runs: it fails with UNCORRECTABLE. -/
def xSpoilt : Desc := let x := xOpt 0x203000; { x with marks := [(0, spoilt)] }

def spoiltReads : List SrcIs × Dev :=
  let f := dnum xSpoilt 0x24 4
  let e := (tsEntries xSpoilt).headD (tsEntry [])
  readRuns xSpoilt 0 0 1 [runAt 5 e.p (fld f 4 4) false, runAt 5 e.m (fld f 8 4) false, runAt 5 e.v (fld f 8 4) false,
    runAt 5 e.g (fld f 12 4) (bit f 20)] (runDesc (dTs xSpoilt) rFirst)

theorem witness_OptStep_spoilt : (∀ m ∈ xSpoilt.marks, m.2 ≠ zeroDue) ∧ engineDesc (dTs xSpoilt) rFirst 0x20 1 = some xSpoilt ∧
    readsCode spoiltReads.1 = cOK ∧ isSpoilt spoiltReads.2 rFirst 0 = true ∧
    optDone (letGo (noteItem (count spoiltReads.2 (pg 0x50 (bankOfBerth 0)) 0x808) rFirst 0 cUNCORR) rFirst 0) rFirst = true :=
  ⟨by decide, by decide +kernel, by decide +kernel, by decide +kernel, by decide +kernel⟩

/-- An item that is done leaves no unit, and its descriptor. -/
def endsUnits (x : Desc) (item : Nat) (g : ItemIs × Dev) : Bool :=
  g.1 == .done && unitsDone (letGo g.2 x.r item) x.r && (descOf (letGo g.2 x.r item) x.r).isSome

theorem witness_NormAndMerge : endsUnits xNorm 0 (normItem (runDesc (dTs xNorm) rFirst) xNorm 0) = true ∧
    (itemAt (dfld xNorm 0x24 27 4) (tsEntries xNorm) 0).isSome = true ∧
    endsUnits xMerge 0 (mergeItem (runDesc (dTs xMerge) rFirst) xMerge 0) = true :=
  ⟨by decide +kernel, by decide +kernel, by decide +kernel⟩

/-- A SNAP_OPEN of one item, of slot 3, whose bitmap has `len` bytes; its list at the extent's byte 0x1000. -/
def xOpen (len : Nat) : Desc := xDesc 0x20 0x10 [0, 0, 0, 0x201000, 3 * 2 ^ 32, 0, len, 0]

def dOpen (x : Desc) (sl : SnapSlot) : Dev :=
  { dDesc x (memAt 0x1000 (leBytes 8 0x200000 ++ leBytes 8 0 ++ leBytes 8 0x400000 ++ leBytes 8 0)) with
    tiers.snaps := modAt (fun _ => sl) dServe.tiers.snaps 3 }

def openReads (len : Nat) : Got × Dev :=
  let x := xOpen len
  descRead (runDesc (dOpen x {}) rFirst) x tableKey 5 (dfld x 0x18 0 48) (32 * x.count)

def openNeeds : Nat :=
  match openReads 1024 with
  | (.ok l, t) => total ([snapArg (sub l 0 32)].map (fun a => match extOf t a.src with | some e => extBytes e / 2048 | none => 0))
  | _ => 0

theorem witness_SnapOpen : (dOpen (xOpen 1024) {}).tiers.snaps.length = 32 ∧ engineDesc (dOpen (xOpen 1024) {}) rFirst 0x20 0x10 = some (xOpen 1024) ∧
    (xOpen 1024).count ≠ 0 ∧ openNeeds = 1024 ∧ (∃ l, (openReads 1024).1 = .ok l) ∧ dnum (xOpen 1023) 0x30 4 < 1024 ∧ 1024 ≤ dnum (xOpen 1024) 0x30 4 ∧
    bankOfBerth 0 * 16 + dfld (xOpen 1024) 0x24 0 4 = 3 ∧ ((dOpen (xOpen 1024) {}).tiers.snaps.getD 3 {}).st = .free ∧
    ((dOpen (xOpen 1024) { st := .copying }).tiers.snaps.getD 3 {}).st ≠ .free :=
  ⟨rfl, by decide +kernel, by decide, by decide +kernel, ⟨_, rfl⟩, by decide +kernel, by decide +kernel, by decide +kernel, rfl, by decide⟩

/-- An open slot of job 1 with one item. -/
def slotOf1 (st : SnapState) (i : SnapItem) : SnapSlot := { st := st, job := 1, items := [i] }

def iSnap : SnapItem := { src := 1, bounce := 0, dest := 2, tiles := 8192 }

def xSnapEnd (op : Nat) : Desc := xDesc 0x20 op [0, 0, 0, 0, 3 * 2 ^ 32, 0, 0, 0]

theorem witness_SnapEnd (op : Nat) (h : op = 0x11 ∨ op = 0x12) :
    engineDesc (dOpen (xSnapEnd op) {}) rFirst 0x20 op = some (xSnapEnd op) ∧ (xSnapEnd op).count = 1 ∧
    bankOfBerth 0 * 16 + dfld (xSnapEnd op) 0x24 0 4 = 3 ∧ (slotOf1 .copying iSnap).st ≠ .free ∧ (slotOf1 .copying iSnap).job = (xSnapEnd op).job ∧
    ({ slotOf1 .copying iSnap with job := 2 } : SnapSlot).job ≠ (xSnapEnd op).job ∧ ({ slotOf1 .copying iSnap with items := [] } : SnapSlot).items.length < 1 ∧
    (slotOf1 .copying iSnap).opener = none ∧ (slotOf1 .copying iSnap).sealer = none ∧ (dOpen (xSnapEnd op) (slotOf1 .copying iSnap)).flying = [] ∧
    firstRefusal ((xSnapEnd op).pre ++ [cUNSUP]) = some cUNSUP ∧
    firstRefusal ((xSnapEnd op).pre ++ (codeIf ((slotOf1 .copying iSnap).job != (xSnapEnd op).job) cDENIED ++
      codeIf (decide ((slotOf1 .copying iSnap).items.length < (xSnapEnd op).count)) cLENGTH)) = none := by
  rcases h with rfl | rfl <;>
    exact ⟨by decide +kernel, rfl, by decide +kernel, by decide, rfl, by decide, by decide, rfl, rfl, rfl, by decide, by decide +kernel⟩

/-- A device whose slot 3 stands so. -/
def dSnapAt (sl : SnapSlot) : Dev := dOpen (xSnapEnd 0x11) sl

theorem witness_SnapCourse : ([iSnap].map (·.src)).all (sourceQuiet (dSnapAt (slotOf1 .holding iSnap))) = true ∧
    ((dSnapAt (slotOf1 .holding iSnap)).tiers.snaps.getD (0 * 16 + 3) {}) = slotOf1 .holding iSnap ∧
    ([iSnap].map (·.src)).all (sourceQuiet { dSnapAt (slotOf1 .holding iSnap) with quay.accums := [aSum .fp32 false] }) = false ∧
    bitmapZero { dSnapAt {} with flying := [{ fWr with q := { fWr.q with origin := .engine rFirst 0 } }] }
      { slotOf1 .holding iSnap with opener := some rFirst } = false ∧
    copyNext (slotOf1 .copying iSnap) 0 0 = true ∧ copyNext (slotOf1 .copying iSnap) 0 1 = false ∧
    copyNext { slotOf1 .copying iSnap with ahead := [(0, 8191)] } 0 8191 = true ∧
    8191 < iSnap.tiles ∧ NSet.mem iSnap.copied 8191 = false ∧ NSet.mem ({ iSnap with copied := [8191] } : SnapItem).copied 8191 = true ∧
    ({ iSnap with copied := List.range 8192 } : SnapItem).tiles ≤ ({ iSnap with copied := List.range 8192 } : SnapItem).copied.length ∧
    (∃ x, extOf { dSnapAt (slotOf1 .draining iSnap) with toll.extents := [{ xNear with e.base := 2 }] } iSnap.dest = some x) :=
  ⟨by decide +kernel, rfl, by decide +kernel, by decide +kernel, by decide +kernel, by decide +kernel, by decide +kernel, by decide, rfl, rfl,
    by simp [iSnap], ⟨_, rfl⟩⟩

/-- The OPEN with its table elsewhere, or of nothing; its source held; a destination for its item. -/
def xOpenAt (base : Nat) : Desc := xDesc 0x20 0x10 [0, 0, 0, base, 3 * 2 ^ 32, 0, 1024, 0]

def dOpenDest : Dev := { dOpen (xOpen 1024) {} with toll.extents := [xNear, { xNear with e.base := 2, e.tier := .flash }] }

def destReads : Got × Dev := descRead (runDesc dOpenDest rFirst) (xOpen 1024) tableKey 5 0x201000 32

theorem witness_SnapOpen_reads :
    engineDesc (dOpen { xOpen 1024 with count := 0 } {}) rFirst 0x20 0x10 = some { xOpen 1024 with count := 0 } ∧
    (descRead (runDesc { dOpen (xOpen 1024) {} with toll.extents := [xHeld] } rFirst) (xOpen 1024) tableKey 5 0x201000 32).1 = .wait ∧
    (descRead (runDesc (dOpen (xOpenAt 0x401000) {}) rFirst) (xOpenAt 0x401000) tableKey 5 0x401000 32).1 = .fail cDENIED ∧
    firstRefusal ((xOpenAt 0x401000).pre ++ ([] ++ [cDENIED])) = some cDENIED ∧ firstRefusal ((xOpen 1024).pre ++ [cBUSY]) = some cBUSY ∧
    (match destReads with
     | (.ok l, t) => decide (snapCode t (xOpen 1024) (snapBases (snapArg l)) (snapArg l) = cOK)
     | _ => false) = true :=
  ⟨by decide +kernel, by decide +kernel, by decide +kernel, by decide, by decide, by decide +kernel⟩

/-- A slot whose end a SEAL, or a DROP, waits for. -/
def slotWaits (st : SnapState) (i : SnapItem) (sealer dropper : Option DescRef) : SnapSlot :=
  { slotOf1 st i with sealer := sealer, dropper := dropper }

theorem witness_SnapEnd_waits : let q : DescRef := ⟨0, 0, 1⟩
    (slotWaits .draining iSnap (some rFirst) none).sealer = some rFirst ∧ (slotWaits .draining iSnap none (some rFirst)).dropper = some rFirst ∧
    (slotWaits .draining iSnap none (some q)).dropper ≠ some rFirst ∧ (slotWaits .draining iSnap none (some q)).dropper.isSome = true ∧
    descOf { dOpen (xSnapEnd 0x12) (slotWaits .draining iSnap (some q) none) with descs := [xSnapEnd 0x12, { xSnapEnd 0x11 with r := q }] } q =
      some { xSnapEnd 0x11 with r := q } ∧
    (slotWaits .draining { iSnap with done := true } (some q) none).items.all (·.done) = true := by decide +kernel

theorem witness_SnapPoint :
    let sl : SnapSlot := { slotOf1 .holding iSnap with opener := some rFirst }
    sl.dropper = none ∧ bitmapZero (dSnapAt sl) sl = true ∧ ([iSnap].map (·.src)).all (sourceQuiet (dSnapAt sl)) = true ∧
    bitmapZero { dSnapAt sl with descs := [{ xOpen 1024 with out := [oRead] }] } sl = false ∧ (dSnapAt sl).flying = [] := by decide +kernel

/-- An item with a bounce extent, whose source is read at once or waits. -/
def iBounce : SnapItem := { iSnap with bounce := 3 }

def dBounce (t : Tier) : Dev :=
  { dSnapAt (slotOf1 .copying iBounce) with toll.extents := [xTier t, { xNear with e.base := 3 }], flying := [] }

theorem witness_SnapTile : extOf (dBounce .near) iBounce.src = some (xTier .near) ∧ extOf (dBounce .near) 3 = some { xNear with e.base := 3 } ∧
    (snapGot (snapRead (dBounce .near) (xTier .near) 3 0 0 1 .source) 3 0 0).isSome = true ∧
    snapGot (snapRead (dBounce .flash) (xTier .flash) 3 0 0 1 .source) 3 0 0 = none ∧ (slotOf1 .copying iBounce).full = none ∧
    copyNext (slotOf1 .copying iBounce) 0 0 = true ∧ ([iBounce].map (·.src)).all (sourceQuiet (dBounce .near)) = true ∧ iSnap.bounce = 0 ∧ iSnap.status = 0 :=
  ⟨rfl, rfl, by decide +kernel, by decide +kernel, rfl, by decide +kernel, by decide +kernel, rfl, rfl⟩

/-! ### The Purser -/

/-- A table record of `rows` rows of 4 FP16 elements at the extent's byte 0x4000. -/
def recTable (rows rows2 map : Nat) : List Byte := [0x204000, if 2 ≤ map then 0x206000 else 0, rows, rows2, 0, 0, 4 + 2 ^ 16 + map * 2 ^ 20, 0].flatMap (leBytes 8)

/-- A table slot of job 1. -/
def tSlot (st : SlotState) : TableSlot := { st := st, job := 1, record := recTable 8 0 0, version := 1 }

/-- A Purser descriptor of slot 6 whose record stands at the extent's byte 0x1000, and the device. -/
def xPurser (op : Nat) (expect : Nat) : Desc := xDesc 0x30 op [0, 0, 0, 0x201000, 6 + expect * 2 ^ 32, 0, 0, 0]

def dPurser (x : Desc) (sl : TableSlot) (l : List Byte) : Dev := { dDesc x (memAt 0x1000 l) with purser.slots := [(6, sl)] }

def purserReads (op : Nat) (l : List Byte) : Got × Dev :=
  let x := xPurser op 1
  descRead (runDesc (dPurser x (tSlot .defined) l) rFirst) x tableKey 5 (dfld x 0x18 0 48) 64

theorem witness_Tables (op : Nat) (h : op ∈ [1, 2, 3]) : engineDesc (dPurser (xPurser op 1) (tSlot .defined) (recTable 8 0 0)) rFirst 0x30 op = some (xPurser op 1) ∧
    (xPurser op 1).count ≠ 0 ∧ purserSlot (xPurser op 1) = 6 ∧ tableSlot (dPurser (xPurser op 1) (tSlot .defined) []) 6 = tSlot .defined ∧
    tableSlot (dDesc (xPurser op 1) []) 6 = {} ∧ (purserReads op (recTable 8 0 0)).1 = .ok (recTable 8 0 0) ∧ (tableOfBytes (recTable 8 0 0)).bad = false ∧
    (tableOfBytes (recTable 0 0 0)).bad = true ∧ (tSlot .defined).job = (xPurser op 1).job ∧
    ({ tSlot .defined with job := 2 } : TableSlot).job ≠ (xPurser op 1).job ∧ (xPurser op 1).opcode ≠ 0x10 ∧
    tableSlot (purserReads op (recTable 8 0 0)).2 6 = tSlot .defined ∧ dnum (xPurser op 1) 0x24 4 = (tSlot .defined).version ∧
    dnum (xPurser op 2) 0x24 4 ≠ (tSlot .defined).version ∧ ({ tSlot .defined with oldVersion := 1 } : TableSlot).oldVersion ≠ 0 := by
  revert op
  decide +kernel

/-- What a descriptor of the slot is refused with. -/
def purserFinds (op : Nat) (sl : TableSlot) : List Nat := slotRefusals (dPurser (xPurser op 1) sl []) (xPurser op 1)

theorem witness_Tables_refusals : cDENIED ∈ purserFinds 1 { tSlot .defined with job := 2 } ∧ cDENIED ∉ purserFinds 1 (tSlot .defined) ∧
    firstRefusal (purserFinds 1 { tSlot .defined with job := 2 }) = some cDENIED ∧ firstRefusal (purserFinds 1 (tSlot .defined)) = some cUNSUP ∧
    firstRefusal (purserFinds 1 {} ++ codeIf (tableOfBytes (recTable 0 0 0)).bad cUNSUP) = some cUNSUP ∧
    firstRefusal (purserFinds 1 {} ++ codeIf (tableOfBytes (recTable 8 0 0)).bad cUNSUP) = none ∧
    firstRefusal (purserFinds 2 (tSlot .freeing)) = some cUNSUP ∧ firstRefusal (purserFinds 2 (tSlot .defined)) = none ∧
    firstRefusal (purserFinds 3 { tSlot .defined with oldVersion := 1 } ++ [cBUSY]) = some cBUSY ∧ firstRefusal (purserFinds 3 (tSlot .defined)) = none ∧
    (tSlot .defined).freer ≠ some rFirst ∧ (tSlot .defined).switcher ≠ some rFirst := by decide +kernel

theorem witness_Tables_drained :
    let d : Dev := dPurser (xPurser 3 1) { tSlot .defined with version := 2, oldVersion := 1 } []
    tableBound d 6 1 = false ∧ tableBound { d with purser.bound := [⟨rFirst, 0, 6, 1⟩] } 6 1 = true ∧
    (tableSlot d (0 * 1024 + 6)).st = .defined ∧ (tableSlot d 6).oldVersion ≠ 0 ∧ (tableSlot d 6).switcher = none := by decide +kernel

theorem witness_Tables_freed :
    let sl : TableSlot := { tSlot .freeing with freer := some rFirst }
    let d : Dev := dPurser (xPurser 2 1) sl []
    (tableSlot d (0 * 1024 + 6)).st = .freeing ∧ (tableSlot d 6).oldVersion = 0 ∧ tableBound d 6 0 = false ∧
    tableBound { d with purser.bound := [⟨rFirst, 0, 6, 1⟩] } 6 0 = true ∧ (tableSlot d 6).freer = some rFirst ∧
    (tableSlot (dPurser (xPurser 3 1) { tSlot .defined with version := 2, oldVersion := 1, switcher := some rFirst } []) 6).switcher = some rFirst := by
  decide +kernel

theorem witness_Indices (map : Nat) (h : map ∈ [0, 1, 2, 3]) : (tableOfBytes (recTable 8 4 map)).map = map ∧ 0 < (tableOfBytes (recTable 8 4 map)).rows ∧
    0 < (tableOfBytes (recTable 8 4 map)).rows2 ∧ (tableOfBytes (recTable 8 4 map)).limit = 0 ∧ 31 < (tableOfBytes (recTable 8 4 map)).rows * (tableOfBytes (recTable 8 4 map)).rows2 := by
  revert map
  decide +kernel

/-- A GATHER or UPDATE bound to the table, on an active copy; its one index at the extent's byte 0x1000, its vectors at 0x2000. -/
def xLookup (op : Nat) : Desc :=
  let x : Desc := xDesc 0x30 op [0, 0, 0, 0, 6 + 2 ^ 15, 0, 0, 0]
  { x with phase := .running, copies := [0], nextItem := 1
           table := leBytes 8 0x201000 ++ leBytes 4 8 ++ leBytes 4 0 ++ List.replicate 24 0 ++ leBytes 8 (0x202000 + 5 * 2 ^ 48) ++ leBytes 8 64 ++
             List.replicate 72 0 }

def dLookup (x : Desc) : Dev :=
  { dPurser x (tSlot .defined) (leBytes 8 3) with purser.bound := [⟨rFirst, 0, 6, 1⟩], raft.copies := [cHand [] [0]] }

def tLookup : Table := tableOfBytes (recTable 8 0 0)

theorem witness_Lookups (op : Nat) (h : op ∈ [0x10, 0x11, 0x20]) : engineDesc (dLookup (xLookup op)) rFirst 0x30 op = some (xLookup op) ∧
    boundOf (dLookup (xLookup op)) rFirst = some (6, 1, tLookup) ∧ activeCopies (dLookup (xLookup op)) (xLookup op) = [cHand [] [0]] ∧
    (xLookup op).copies ≠ [] ∧ (xLookup op).redo = [] ∧ unitsIn (xLookup op) ≤ (xLookup op).nextItem ∧ NMap.get 0 (xLookup op).marks mergedKey ≠ 1 := by
  revert op
  decide +kernel

/-- The bag of the GATHER, and the item of the UPDATE. -/
def bagOf : ItemIs × Dev :=
  let x := xLookup 0x10
  gatherBag (argsOf x.table) 6 1 tLookup (runDesc (dLookup x) rFirst) x 0

def updateOf : ItemIs × Dev :=
  let x := xLookup 0x11
  updateItem (argsOf x.table) 6 1 tLookup (runDesc (dLookup x) rFirst) x 0

theorem witness_Gather : endsUnits (xLookup 0x10) 0 bagOf = true := by decide +kernel

/-- The UPDATE once its rows are merged; a MIGRATE not yet bound. -/
def xMerged : Desc := { xLookup 0x11 with marks := [(mergedKey, 1)] }

def dUnbound (expect : Nat) (sl : TableSlot) : Dev := dPurser (xPurser 0x20 expect) sl []

theorem witness_Update : endsUnits (xLookup 0x11) 0 updateOf = true ∧ engineDesc (dLookup xMerged) rFirst 0x30 0x11 = some xMerged ∧
    NMap.get 0 xMerged.marks mergedKey = 1 ∧ activeCopies (dLookup xMerged) xMerged ≠ [] :=
  ⟨by decide +kernel, by decide +kernel, rfl, by decide +kernel⟩

theorem witness_Migrate : engineDesc (dUnbound 2 (tSlot .defined)) rFirst 0x30 0x20 = some (xPurser 0x20 2) ∧
    boundOf (dUnbound 2 (tSlot .defined)) rFirst = none ∧ firstRefusal (slotRefusals (dUnbound 2 (tSlot .freeing)) (xPurser 0x20 2)) = some cUNSUP ∧
    firstRefusal (slotRefusals (dUnbound 2 (tSlot .defined)) (xPurser 0x20 2)) = none ∧
    dnum (xPurser 0x20 2) 0x24 4 ≠ (tableSlot (dUnbound 2 (tSlot .defined)) (purserSlot (xPurser 0x20 2))).version := by decide +kernel

theorem witness_Migrate_binds : boundOf (dUnbound 1 (tSlot .defined)) rFirst = none ∧
    engineDesc (dUnbound 1 (tSlot .defined)) rFirst 0x30 0x20 = some (xPurser 0x20 1) ∧
    firstRefusal (slotRefusals (dUnbound 1 (tSlot .defined)) (xPurser 0x20 1)) = none ∧
    dnum (xPurser 0x20 1) 0x24 4 = (tableSlot (dUnbound 1 (tSlot .defined)) (purserSlot (xPurser 0x20 1))).version := by decide +kernel

/-- A row locked by another, or none. -/
def dUpdate (locks : List RowLock) (x : Desc) : Dev := { dLookup x with purser.locks := locks }

def kRow (row : Nat) : RowKey := ⟨0, 6, 1, false, row⟩

/-- A lock of row 3 and one that waits for a row. -/
def lRow (migrate acted : Bool) (dest : Nat) : RowLock :=
  { id := 9, key := kRow 3, holder := { r := rFirst, migrate := migrate, items := [0], acted := acted, dest := dest } }

def wRow (row : Nat) : LockWait := { key := kRow row, use := (lRow false false 0).holder }

def dLocks (l : RowLock) (w : LockWait) : Dev := { dUpdate [l] (xLookup 0x11) with purser.waits := [w] }

theorem witness_Locks (mig acted : Bool) (dest : Nat) :
    (dLocks (lRow mig acted dest) (wRow 3)).purser.waits.find? (fun w => w.key.bank == 0 && lockFree (dLocks (lRow mig acted dest) (wRow 3)) w.key) = none ∧
    (dLocks (lRow mig acted dest) (wRow 4)).purser.waits.find? (fun w => w.key.bank == 0 && lockFree (dLocks (lRow mig acted dest) (wRow 4)) w.key) =
      some (wRow 4) ∧
    lockOf (dLocks (lRow mig acted dest) (wRow 3)) 9 = some (lRow mig acted dest) ∧ (lRow mig acted dest).key.bank = 0 ∧
    itemBusy (dLocks (lRow mig acted dest) (wRow 3)) rFirst (lockKey 9) = false ∧ itemStatus (dLocks (lRow mig acted dest) (wRow 3)) rFirst (lockKey 9) = cOK ∧
    (lRow mig acted dest).holder.status = cOK := ⟨rfl, rfl, rfl, rfl, rfl, rfl, rfl⟩

/-! ### Sounding -/

/-- An index record of one list of vectors of 4 elements in 4 parts, its side area at the extent's byte 0x6000. -/
def recIndex (cap : Nat) : List Byte :=
  [0x203000, 0x203100, 0x204000, 0x206000, cap + 2 ^ 32, 4 + 4 * 2 ^ 12 + 2 ^ 19, 0, 0].flatMap (leBytes 8)

def iSlot (st : SlotState) : IndexSlot := { st := st, job := 1, record := recIndex 64, version := 1 }

/-- A Sounding descriptor of slot 6 with its argument at the extent's byte 0x1000, and the device. -/
def xSound (op : Nat) : Desc := xDesc 0x40 op [0, 0, 0, 0x201000, 6, 0, 0, 0]

def dSound (x : Desc) (sl : IndexSlot) (l : List Byte) : Dev := { dDesc x (memAt 0x1000 l) with sound.slots := [(6, sl)] }

def soundReads (op : Nat) (l : List Byte) : Got × Dev :=
  let x := xSound op
  descRead (runDesc (dSound x (iSlot .defined) l) rFirst) x tableKey 5 (dfld x 0x18 0 48) 64

theorem witness_Indexes (op : Nat) (h : op ∈ [1, 2, 0x21]) :
    engineDesc (dSound (xSound op) (iSlot .defined) (recIndex 64)) rFirst 0x40 op = some (xSound op) ∧ (xSound op).count ≠ 0 ∧ soundSlot (xSound op) = 6 ∧
    indexSlot (dSound (xSound op) (iSlot .defined) []) 6 = iSlot .defined ∧ indexSlot (dDesc (xSound op) []) 6 = {} ∧
    (soundReads op (recIndex 64)).1 = .ok (recIndex 64) ∧ (indexOf (recIndex 64)).bad = false ∧ (indexOf (recIndex 0)).bad = true ∧
    (iSlot .defined).job = (xSound op).job ∧ (iSlot .defined).merging = none ∧ (iSlot .defined).oldVersion = 0 ∧ (iSlot .defined).merger ≠ some rFirst := by
  revert op
  decide +kernel

/-- What a descriptor of the slot is refused with. -/
def soundFinds (op : Nat) (sl : IndexSlot) : List Nat := indexRefusals (dSound (xSound op) sl []) (xSound op)

theorem witness_Indexes_refusals : cDENIED ∈ soundFinds 1 { iSlot .defined with job := 2 } ∧ cDENIED ∉ soundFinds 1 (iSlot .defined) ∧
    firstRefusal (soundFinds 1 {} ++ codeIf (indexOf (recIndex 0)).bad cUNSUP) = some cUNSUP ∧
    firstRefusal (soundFinds 1 {} ++ codeIf (indexOf (recIndex 64)).bad cUNSUP) = none ∧
    firstRefusal (soundFinds 2 (iSlot .freeing)) = some cUNSUP ∧ firstRefusal (soundFinds 2 (iSlot .defined)) = none ∧
    firstRefusal (soundFinds 0x21 { iSlot .defined with oldVersion := 1 } ++ [cBUSY]) = some cBUSY ∧
    firstRefusal (soundFinds 0x21 (iSlot .defined)) = none ∧ (iSlot .defined).freer ≠ some rFirst := by decide +kernel

theorem witness_Indexes_drained :
    let d : Dev := dSound (xSound 0x21) { iSlot .defined with version := 2, oldVersion := 1 } []
    let q : QBound := { b := ⟨rFirst, 0, 6, 1⟩, dir := 0, mseq := 0, snap := 0, voids := [] }
    indexBound d 6 1 none = false ∧ indexBound { d with sound.bound := [q] } 6 1 none = true ∧ (indexSlot d (0 * 256 + 6)).st = .defined ∧
    (indexSlot d 6).oldVersion ≠ 0 ∧ (indexSlot d 6).merger = none := by decide +kernel

/-- A bound QUERY, APPEND or MERGE. -/
def qOf (version : Nat) : QBound := { b := ⟨rFirst, 0, 6, version⟩, dir := 0x204000, mseq := 0, snap := 0, voids := [] }

/-- An APPEND of one insert at the extent's byte 0x1000. -/
def dAppend : Dev := { dSound (xSound 0x20) (iSlot .defined) (List.replicate 6 0 ++ [1] ++ List.replicate 5 0 ++ leBytes 4 77) with sound.bound := [qOf 0] }

def appended : ItemIs × Dev := appendItem 6 (indexOf (recIndex 64)) (runDesc dAppend rFirst) { xSound 0x20 with phase := .running } 0

theorem witness_Append : engineDesc dAppend rFirst 0x40 0x20 = some (xSound 0x20) ∧ (qboundOf dAppend rFirst).isSome = true ∧
    (xSound 0x20).count = (xSound 0x20).nextItem + 1 ∧ appended.1 = .done ∧
    (descOf (onDesc appended.2 rFirst passItem) rFirst).isSome = true :=
  ⟨by decide +kernel, rfl, rfl, by decide +kernel, by decide +kernel⟩

/-- A side record whose write is acknowledged. -/
def dSide : Dev := { dMem with sound.slots := [(6, { iSlot .defined with lastSeq := 1, open_ := [(1, rFirst, 0)] })] }

theorem witness_SideRecord : (indexSlot dSide (0 * 256 + 6)).open_.find? (fun o => o.1 == 1) = some (1, rFirst, 0) ∧
    itemBusy dSide rFirst 0 = false ∧ dSide.descs = [] ∧ itemStatus dSide rFirst 0 = cOK := ⟨rfl, rfl, rfl, rfl⟩

theorem witness_Indexes_freed :
    let d : Dev := dSound (xSound 2) { iSlot .freeing with freer := some rFirst } []
    (indexSlot d (0 * 256 + 6)).st = .freeing ∧ (indexSlot d 6).oldVersion = 0 ∧ indexBound d 6 0 none = false ∧
    indexBound { d with sound.bound := [qOf 1] } 6 0 none = true ∧
    indexBound { d with sound.bound := [qOf 1] } 6 1 (some rFirst) = false := by decide +kernel

/-- A failed side record; a MERGE of nothing. -/
theorem witness_SideRecord_void : (indexSlot { dSide with descs := [{ xSound 0x20 with statuses := [(0, cPOISON)] }] } (0 * 256 + 6)).lastSeq = 1 ∧
    itemStatus { dSide with descs := [{ xSound 0x20 with statuses := [(0, cPOISON)] }] } rFirst 0 ≠ cOK ∧
    itemBusy { dSide with descs := [{ xSound 0x20 with statuses := [(0, cPOISON)] }] } rFirst 0 = false := by decide +kernel

/-- A MERGE's argument: the new directory; one with a reserved bit; and the slot as the MERGE binds it. -/
def argMerge (high : Nat) : List Byte := [0x205000 + high * 2 ^ 48, 0x208000, 0x1000, 0, 0, 0, 0, 0].flatMap (leBytes 8)

def mergeBad (l : List Byte) : Bool :=
  fld (leAt l 0 8) 48 16 != 0 || fld (leAt l 8 8) 48 16 != 0 || fld (leAt l 8 8) 0 8 != 0 || !allZero (sub l 0x18 40)

theorem witness_Merge : (soundReads 0x21 (argMerge 0)).1 = .ok (argMerge 0) ∧ mergeBad (argMerge 0) = false ∧ mergeBad (argMerge 1) = true ∧
    (let l := argMerge 0
     let x := xSound 0x21
     qboundOf (bindIndex (onIndex (soundReads 0x21 l).2 6 (fun k => { k with merging := some (rFirst, fld (leAt l 0 8) 0 48, k.vseq) })) x 1 0) rFirst) =
      some (qOf 1) := by decide +kernel

/-- A MERGE all of whose writes are acknowledged. -/
def dMerging (code : Nat) : Dev :=
  { dSound { xSound 0x21 with nextItem := 1, phase := .running, statuses := if code = 0 then [] else [(0, code)] }
      { iSlot .defined with merging := some (rFirst, 0x205000, 0) } [] with sound.bound := [qOf 1] }

theorem witness_MergeSwitch : (indexSlot (dMerging 0) (0 * 256 + 6)).merging = some (rFirst, 0x205000, 0) ∧
    (descOf (dMerging 0) rFirst).map (fun y => decide (y.count ≤ y.nextItem)) = some true ∧ descBusy (dMerging 0) rFirst = false ∧
    itemStatus (dMerging 0) rFirst 0 = cOK ∧ itemStatus (dMerging cPOISON) rFirst 0 ≠ cOK ∧
    (descOf (dMerging cPOISON) rFirst).map (fun y => decide (y.count ≤ y.nextItem)) = some true := by decide +kernel

/-- A QUERY bound to an index on an active copy; its vector at the extent's byte 0x2000, its block to 0x2100. The codebook stands
outside every extent. -/
def xQuery : Desc :=
  let x : Desc := xDesc 0x40 0x10 [0, 0, 0, 0, 6 + 2 ^ 8 + 2 ^ 16, 0, 0, 0]
  { x with phase := .running, copies := [0], nextItem := 1
           table := leBytes 8 0x202000 ++ leBytes 8 64 ++ leBytes 8 (0x202100 + 5 * 2 ^ 48) ++ leBytes 8 256 }

def recNoBook : List Byte := [0x203000, 0x403100, 0x204000, 0x206000, 64 + 2 ^ 32, 4 + 4 * 2 ^ 12 + 2 ^ 19, 0, 0].flatMap (leBytes 8)

def dQuery : Dev := { dSound xQuery { iSlot .defined with record := recNoBook } [] with sound.bound := [qOf 1], raft.copies := [cHand [] [0]] }

def queried : ItemIs × Dev :=
  queryItem (indexOf (indexSlot dQuery (soundSlot xQuery)).record) (qOf 1) (runDesc dQuery rFirst) xQuery 0

theorem witness_Query : engineDesc dQuery rFirst 0x40 0x10 = some xQuery ∧ xQuery.copies ≠ [] ∧ activeCopies dQuery xQuery = [cHand [] [0]] ∧
    xQuery.redo = [] ∧ unitsIn xQuery ≤ xQuery.nextItem ∧ dfld xQuery 0x30 0 48 = 0 ∧ qboundOf dQuery rFirst = some (qOf 1) ∧
    endsUnits xQuery 0 queried = true :=
  ⟨by decide +kernel, by decide, by decide +kernel, rfl, by decide, by decide +kernel, rfl, by decide +kernel⟩

/-- A scan of one tile queued at a punt. -/
def scOne : Scan := { r := rFirst, item := 0, list := 0, tiles := [(0, 0x202000, 3)], m := 4, k := 2, table := [], filter := [] }

def dPunt : Dev := { dDesc xQuery [] with sound.punts := modAt (fun _ => { scans := [scOne] }) dServe.sound.punts 31 }

theorem witness_Punts : bankLive dPunt (31 / 16) = true ∧ (puntAt dPunt 31).scans = [scOne] ∧ descOf dPunt scOne.r = some xQuery ∧
    (puntAt dPunt 30).scans = [] ∧ bankLive dWestHeld (31 / 16) = false := ⟨rfl, rfl, rfl, rfl, rfl⟩

theorem witness_Punts_waits : puntWaits dPunt xQuery 0x202000 = false ∧ puntWaits { dPunt with toll.extents := [xHeld] } xQuery 0x202000 = true := by decide +kernel

/-- A COMBINE of two shards, its counters at the extent's byte 0x3000. -/
def xCombine (table params : List Byte) : Desc :=
  let x : Desc := xDesc 0x40 0x11 [0, 0, 0, 0, 2, 0, 0, 0]
  { x with phase := .running, table := table, params := params, copies := [0] }

def argCombine : List Byte := leBytes 8 0x202000 ++ leBytes 8 256 ++ leBytes 8 0x203000 ++ leBytes 8 (0x204000 + 5 * 2 ^ 48) ++ leBytes 8 256 ++ List.replicate 24 0

def dCombine (l : List (Nat × Byte)) : Dev := dDesc (xCombine argCombine []) l

def counters (l : List (Nat × Byte)) : Got :=
  (descRead (dCombine l) (xCombine argCombine []) countersKey 5 (cargsOf argCombine).done (4 * shardsOf (xCombine argCombine []))).1

/-- What refuses a COMBINE that has no copies. -/
def combineCodes (x : Desc) : List Nat :=
  x.pre ++ (combineRefusals x (cargsOf x.table) ++ codeIf (berthTooSmall (runDesc (dDesc x []) rFirst) x (combineOn x)) cLENGTH)

theorem witness_Combine_begins :
    let x : Desc := { xCombine argCombine [] with copies := [] }
    engineDesc (dDesc x []) rFirst 0x40 0x11 = some x ∧ x.params = [] ∧ x.copies = [] ∧ x.table ≠ [] ∧ firstRefusal (combineCodes x) = none ∧
    firstRefusal (combineCodes { x with count := 0 }) = none ∧
    firstRefusal (combineCodes { x with table := leBytes 8 (2 ^ 63) ++ argCombine.drop 8 }) ≠ none :=
  ⟨by decide +kernel, rfl, rfl, by decide, by decide +kernel, by decide +kernel, by decide +kernel⟩

theorem witness_Combine : engineDesc (dCombine []) rFirst 0x40 0x11 = some (xCombine argCombine []) ∧ (xCombine argCombine []).copies ≠ [] ∧
    engineDesc (dDesc (xCombine argCombine [1, 1]) []) rFirst 0x40 0x11 = some (xCombine argCombine [1, 1]) ∧
    combineWaiting (dCombine []) rFirst = some (xCombine argCombine []) ∧ counters [(0x3000, 1), (0x3004, 1)] = .ok (leBytes 4 1 ++ leBytes 4 1) ∧
    counters [(0x3000, 1)] = .ok (leBytes 4 1 ++ leBytes 4 0) ∧ combineWaiting (dCombine [(0x3000, 1), (0x3004, 1)]) rFirst = some (xCombine argCombine []) :=
  ⟨by decide +kernel, by decide, by decide +kernel, by decide +kernel, by decide +kernel, by decide +kernel, by decide +kernel⟩

/-- A PQ_SCAN with its table. -/
def xPq : Desc := let x : Desc := xDesc 0x60 1 [0, 0, 0, 0, 4 + 2 ^ 8, 0x201000, 0x202000, 0]; { x with table := List.replicate 64 0 }

theorem witness_PqScan : engineDesc (dDesc xPq []) rFirst 0x60 1 = some xPq ∧ xPq.count ≠ 0 ∧ xPq.table ≠ [] := ⟨by decide +kernel, by decide, by decide⟩

/-! ### Landings, Wharf, scheduler -/

/-- Landing 3 in a state, with a value of its LAND_CTL. -/
def dLand (st : LinkState) (f : Landing → Landing) (ctl : Nat) : Dev :=
  { dServe with lands := modAt (fun l => f { l with st := st }) dServe.lands 3, regs := [(landPage 3 + 0x100, ctl)] }

theorem witness_Links_train : dServe.lands.length = 16 ∧ bankLive dServe (3 / 8) = true ∧ 0x10 ≤ dServe.sys.step ∧
    bit (reg dServe (landPage 3 + 0x100)) 2 = true ∧ (land dServe 3).st = .down ∧ PartnerOffer.ef1 ≠ .none ∧
    min (widest (0 : BitVec 4).toNat) (land dServe 3).cap = 0 ∧
    min (widest (15 : BitVec 4).toNat) (land dServe 3).cap ≠ 0 ∧ 2 ^ fld (reg dServe (landPage 3 + 0x100)) 4 2 ≤ min (widest (15 : BitVec 4).toNat) (land dServe 3).cap ∧
    bit (reg (dLand .disabled id 2) (landPage 3 + 0x100)) 2 = false ∧
    (land (dLand .training (fun l => { l with trained := true }) 6) 3).st = .training ∧
    (land (dLand .training (fun l => { l with trained := true }) 6) 3).trained = true ∧ (land dServe 3).st ≠ .training :=
  ⟨rfl, rfl, by decide, by decide +kernel, rfl, by decide, by decide +kernel, by decide +kernel, by decide +kernel, by decide +kernel, rfl, rfl,
    by decide⟩

theorem witness_Links_up (st : LinkState) (h : st = .up ∨ st = .retraining) : (land (dLand st (fun l => { l with width := 4 }) 6) 3).st = st ∧
    (dLand st (fun l => { l with width := 4 }) 6).lands.length = 16 ∧ (land (dLand st (fun l => { l with width := 4 }) 6) 3).replay = [] ∧
    widest (3 : BitVec 4).toNat ≠ 0 ∧ widest (0 : BitVec 4).toNat = 0 ∧
    2 ^ fld (reg (dLand st (fun l => { l with width := 4 }) 6) (landPage 3 + 0x100)) 4 2 ≤ min (min (widest (3 : BitVec 4).toNat) 4) 4 ∧
    min (min (widest (3 : BitVec 4).toNat) 4) 4 < (land (dLand st (fun l => { l with width := 4 }) 6) 3).width := by
  rcases h with rfl | rfl <;> exact ⟨rfl, rfl, rfl, by decide, rfl, by decide +kernel, by decide +kernel⟩

theorem witness_Links_registers : Reaches dServe .pcie0 (landPage 3 + 0x100) ⟨0x11, 3 / 8, 3 % 8⟩ ∧ bit (reg dServe (landPage 3 + 0x100)) 3 = false ∧
    NMap.wf (2 ^ 64) dServe.regs = true ∧ Reaches (dLand .disabled id 2) .pcie0 (landPage 3 + 0x100) ⟨0x11, 3 / 8, 3 % 8⟩ ∧
    bit (reg (dLand .disabled id 2) (landPage 3 + 0x100)) 3 = false ∧ (land (dLand .disabled id 2) 3).st = .disabled :=
  ⟨⟨rfl, rfl, rfl, rfl, rfl, rfl, rfl⟩, by decide +kernel, rfl, ⟨rfl, rfl, rfl, rfl, rfl, rfl, rfl⟩, by decide +kernel, rfl⟩

/-- A flit with nothing in it but its first word: its content in four parts, and its check value. -/
def part0 (w : Nat) : List Byte := leBytes 8 w ++ List.replicate 54 0
def partZ : List Byte := List.replicate 62 0
def flitOf (w check : Nat) : List Byte := (part0 w ++ (partZ ++ (partZ ++ partZ))) ++ leBytes 8 check

def fold64 (r : Nat) (l : List Byte) : Nat := l.foldl (fun r b => crcByte 0xC96C5795D7870F42 r b.toNat) r

theorem fold64_append (r : Nat) (a b : List Byte) : fold64 r (a ++ b) = fold64 (fold64 r a) b := List.foldl_append ..

theorem crc64_eq (l : List Byte) : crc64 l = fold64 0xFFFFFFFFFFFFFFFF l ^^^ 0xFFFFFFFFFFFFFFFF := rfl

theorem check_holds (w a b c k : Nat) (h0 : fold64 0xFFFFFFFFFFFFFFFF (part0 w) = a) (h1 : fold64 a partZ = b) (h2 : fold64 b partZ = c)
    (h3 : fold64 c partZ ^^^ 0xFFFFFFFFFFFFFFFF = k) : crc64 (part0 w ++ (partZ ++ (partZ ++ partZ))) = k := by
  rw [crc64_eq, fold64_append, fold64_append, fold64_append, h0, h1, h2, h3]

/-- A traffic flit of SEQ 5, an idle flit, a control flit. -/
def flit5 : List Byte := flitOf (5 + 2 ^ 26) 10902929182820509349
def flitIdle : List Byte := flitOf 0 13021020697539691691
def flitCtl : List Byte := flitOf (2 ^ 27) 14333304519017838489

theorem witness_Flits_good : crc64 (sub flit5 0 248) = leAt flit5 248 8 ∧ fld (leAt flit5 0 8) 26 2 = 1 ∧ fld (leAt flit5 0 8) 0 12 = 5 := by
  have h : sub flit5 0 248 = part0 (5 + 2 ^ 26) ++ (partZ ++ (partZ ++ partZ)) := by decide +kernel
  refine ⟨?_, by decide +kernel, by decide +kernel⟩
  rw [h, check_holds _ 7893890628460031476 657315431209429113 9726177562712455845 10902929182820509349 (by decide +kernel) (by decide +kernel)
    (by decide +kernel) (by decide +kernel)]
  decide +kernel

theorem witness_Flits_idle : crc64 (sub flitIdle 0 248) = leAt flitIdle 248 8 ∧ fld (leAt flitIdle 0 8) 26 2 = 0 := by
  have h : sub flitIdle 0 248 = part0 0 ++ (partZ ++ (partZ ++ partZ)) := by decide +kernel
  refine ⟨?_, by decide +kernel⟩
  rw [h, check_holds _ 13657400180621429760 14099407903962750694 6705212691892282349 13021020697539691691 (by decide +kernel) (by decide +kernel)
    (by decide +kernel) (by decide +kernel)]
  decide +kernel

theorem witness_Flits_control : crc64 (sub flitCtl 0 248) = leAt flitCtl 248 8 ∧ fld (leAt flitCtl 0 8) 26 2 = 2 := by
  have h : sub flitCtl 0 248 = part0 (2 ^ 27) ++ (partZ ++ (partZ ++ partZ)) := by decide +kernel
  refine ⟨?_, by decide +kernel⟩
  rw [h, check_holds _ 14101593889665106449 14201516004708790748 5837106840241452336 14333304519017838489 (by decide +kernel) (by decide +kernel)
    (by decide +kernel) (by decide +kernel)]
  decide +kernel

/-- Landing 3 up, the expected SEQ, and what its replay buffer holds. -/
def dFlit (rx : Nat) (l : List ReplayFlit) (missed : Nat) : Dev :=
  dLand .up (fun x => { x with rxNext := rx, replay := l, fogMissedNow := missed }) 6

theorem witness_Flits (rx : Nat) (l : List ReplayFlit) (m : Nat) : (dFlit rx l m).lands.length = 16 ∧ NMap.wf (2 ^ 64) (dFlit 0 [] 0).regs = true ∧
    bankLive (dFlit rx l m) (3 / 8) = true ∧ (land (dFlit rx l m) 3).st = .up ∧ (land (dFlit rx l m) 3).rxNext = rx ∧
    (land (dFlit rx l m) 3).replay = l ∧ linkUp (dFlit rx l m) 3 = true ∧ 0x11 ≤ (dFlit rx l m).sys.step ∧ linkUp dServe 3 = false ∧
    0 < reg dServe (landPage 3 + 0x118) ∧ reg dServe (landPage 3 + 0x118) ≤ 7 ∧ (land (dFlit rx l m) 3).fogMissedNow = m ∧
    0 + 1 < reg dServe (landPage 3 + 0x128) ∧ reg dServe (landPage 3 + 0x128) ≤ 254 + 1 ∧ Still (dFlit rx l m) ∧
    (land (dFlit rx l m) 3).sinceCtl < 256 :=
  ⟨rfl, rfl, rfl, rfl, rfl, rfl, rfl, (by decide : (0x11 : Nat) ≤ 0x12), rfl, by decide +kernel, by decide +kernel, rfl, by decide +kernel,
    by decide +kernel, ⟨rfl, rfl⟩, by show 0 < 256; decide⟩

/-- A frame to Landing 0 of bank East, and the devices that hold it. -/
def gRsp (admitted : Bool) (cls : Nat) : Frame :=
  { id := 3, bank := 0, input := 17, output := 0, cls := cls, slots := 4, stamp := 0, admitted := admitted, msg := .rsp 0x30 7 1 0 0 0 0 [] }

def dFrame (f : Frame) (used : Nat) : Dev :=
  { dMem with wharf.frames := [f], wharf.nextFrame := 4, wharf.gused := if used = 0 then [] else [(4, used)], wharf.shusedEast := if used = 0 then 0 else 380416 }

theorem witness_Wharf : bankLive (dFrame (gRsp false 4) 0) 0 = true ∧ inputHead (dFrame (gRsp false 4) 0) 0 17 0 4 = some (gRsp false 4) ∧
    inputHead (dFrame (gRsp false 4) 32) 0 17 0 4 = some (gRsp false 4) ∧ (gRsp false 4).group = 0 ∧ (gRsp false 4).output < 8 ∧
    overAge (dFrame (gRsp false 4) 0) (gRsp false 4) = false ∧
    min 1 (gminOf (dFrame (gRsp false 4) 0) 0 0 4 - NMap.get 0 (dFrame (gRsp false 4) 0).wharf.gused 4) = 1 ∧
    min 1 (gminOf (dFrame (gRsp false 4) 32) 0 0 4 - NMap.get 0 (dFrame (gRsp false 4) 32).wharf.gused 4) = 0 ∧
    sharedSize (dFrame (gRsp false 4) 32) 0 - sharedUsed (dFrame (gRsp false 4) 32) 0 = 0 ∧ inputHead dMem 0 17 0 4 = none ∧
    (dFrame (gRsp false 4) 0).wharf.frames.find? (fun f => f.id == 3 && f.bank == 0) = some (gRsp false 4) ∧
    isHead (dFrame (gRsp false 4) 0) (gRsp false 4) = true ∧ (gRsp false 4).report = false ∧ (gRsp false 4).yellow = false :=
  ⟨rfl, rfl, rfl, rfl, by decide, by decide +kernel, by decide +kernel, by decide +kernel, by decide +kernel, rfl, rfl, rfl, rfl, rfl⟩

theorem witness_Wharf_sends : (land (dFrame (gRsp true 2) 0) 0).st = .up ∧ bankLive (dFrame (gRsp true 2) 0) (0 / 8) = true ∧
    (dFrame (gRsp true 2) 0).lands.length = 16 ∧
    chooseFrame (count (dFrame (gRsp true 2) 0) (pg 0x70 (0 / 8)) 0x810 (gateHeld (dFrame (gRsp true 2) 0) 0)) 0 = some (gRsp true 2, 0, true) ∧
    (land (dFrame (gRsp true 2) 0) 0).replay.length + ((gRsp true 2).slots + 14) / 15 ≤ 512 ∧ (land dServe 0).st ≠ .up ∧
    chooseFrame (count dMem (pg 0x70 (0 / 8)) 0x810 (gateHeld dMem 0)) 0 = none :=
  ⟨rfl, rfl, rfl, by decide +kernel, by decide, by decide, by decide +kernel⟩

theorem witness_Wharf_registers (bank : Nat) (h : bank = 0 ∨ bank = 1) : Reaches dServe .pcie0 (pg 0x10 bank + 0x120) ⟨0x10, bank, 0⟩ ∧
    Reaches dServe .pcie0 (pg 0x10 bank + 0x138) ⟨0x10, bank, 0⟩ ∧ Reaches dServe .i3c (pg 0x71 0 + 0x108) ⟨0x71, 0, 0⟩ ∧
    Reaches dServe .pcie0 (pg 0x72 bank + 0x108) ⟨0x72, bank, 0⟩ ∧ dServe.flying = [] ∧ reg dServe (pg 0x71 0 + 0x110) ≤ reg dServe (pg 0x71 0 + 0x120) ∧
    (NMap.get {} dServe.sched.fare (reg dServe (pg 0x71 0 + 0x100) % 4096)).enable = false := by
  rcases h with rfl | rfl <;>
    exact ⟨⟨rfl, rfl, rfl, rfl, rfl, rfl, rfl⟩, ⟨rfl, rfl, rfl, rfl, rfl, rfl, rfl⟩, ⟨rfl, rfl, rfl, rfl, rfl, rfl, rfl⟩, ⟨rfl, rfl, rfl, rfl, rfl, rfl, rfl⟩, rfl,
      by decide +kernel, rfl⟩

theorem witness_Wharf_fare : (∃ i, i < 4 ∧ fld (0xC0 : BitVec 32).toNat (2 + 2 * i) 2 = 3) ∧
    ¬ (∃ i, i < 4 ∧ fld (1 : BitVec 32).toNat (2 + 2 * i) 2 = 3) ∧ (1 : BitVec 32).getLsbD 0 = true :=
  ⟨⟨2, by decide, by decide⟩, by decide, by decide⟩

theorem witness_LossList : ∃ l rest, ({ dServe with quay.losses := [⟨3, 100, false, false, false, [1]⟩] } : Dev).quay.losses = l :: rest ∧ l.landing = 3 ∧
    l.building = false := ⟨_, _, rfl, rfl, rfl⟩

/-- A Timetable of Landing 8 × bank with a shadow list, and the page's TT_ENTRY_SEL. -/
def dTime (bank : Nat) (t : Timetable) (sel : Nat) : Dev :=
  { dServe with sched.tts := modAt (fun _ => t) dServe.sched.tts (bank * 8), regs := if sel = 0 then [] else [(pg 0x70 bank + 0x220, sel)] }

def ttWith (l : List GateEntry) (n next : Nat) (armed : Bool) : Timetable := { resetTimetable with shadow := l, shadowN := n, nextBase := next, armed := armed }

theorem armMay (t : Timetable) (bank off : Nat) : mayWrite (dTime bank t 0x1FF) .pcie1 off = mayWrite (dTime bank resetTimetable 0x1FF) .pcie1 off := rfl

theorem witness_Timetables (bank : Nat) (h : bank = 0 ∨ bank = 1) (t : Timetable) : (dTime bank t 0x1FF).sched.tts.length = 16 ∧
    Reaches (dTime bank t 0x1FF) .pcie1 (pg 0x70 bank + 0x228) ⟨0x70, bank, 0⟩ ∧ Reaches (dTime bank t 0x1FF) .pcie1 (pg 0x70 bank + 0x208) ⟨0x70, bank, 0⟩ ∧
    reg (dTime bank t 0x1FF) (pg 0x70 bank + 0x220) = 0x1FF ∧ bit 0x1FF 8 = true ∧ bit 0xFF 8 = false ∧
    bank * 8 + reg (dTime bank t 0x1FF) (pg 0x70 bank + 0x200) % 8 = bank * 8 ∧ ttOf (dTime bank t 0x1FF) (bank * 8) = t := by
  rcases h with rfl | rfl <;>
    exact ⟨rfl, ⟨rfl, rfl, (armMay t _ _).trans (by decide +kernel), rfl, rfl, rfl, rfl⟩,
      ⟨rfl, rfl, (armMay t _ _).trans (by decide +kernel), rfl, rfl, rfl, rfl⟩, rfl, rfl, rfl, rfl, rfl⟩

theorem witness_Timetables_arm : (ttWith [] 0 64 false).shadowN = 0 ∧ 256 < (ttWith [] 257 64 false).shadowN ∧ (ttWith [] 257 64 false).shadowN < 512 ∧
    (∃ i, i < (ttWith [7] 1 64 false).shadowN ∧ (ttEntry (ttWith [7] 1 64 false).shadow i).toNat % 2 ^ 32 < 8) ∧
    (¬ ∃ i, i < (ttWith [8] 1 64 false).shadowN ∧ (ttEntry (ttWith [8] 1 64 false).shadow i).toNat % 2 ^ 32 < 8) ∧
    (ttWith [8] 1 63 false).nextBase < dServe.sys.ltc + 64 ∧ dServe.sys.ltc + 64 ≤ (ttWith [8] 1 64 false).nextBase ∧
    dServe.sys.ltc < (ttWith [8] 1 64 true).nextBase ∧ (ttWith [8] 1 0 true).nextBase ≤ dServe.sys.ltc := by
  refine ⟨rfl, by decide, by decide, ⟨0, by decide, by decide⟩, ?_, by decide, by decide, by decide, by decide⟩
  rintro ⟨i, hi, h⟩
  rcases (show i = 0 by simp only [ttWith] at hi; omega) with rfl
  exact absurd h (by decide)

theorem witness_Timetables_switch : (ttOf dServe 3).armed = false ∧ (ttOf (dTime 0 (ttWith [8] 1 64 true) 0) 0).armed = true ∧
    (ttOf (dTime 0 (ttWith [8] 1 64 true) 0) 0).nextBase ≤ 0 + (gateNow (ttOf (dTime 0 (ttWith [8] 1 64 true) 0) 0) 0).2 ∧
    0 + (gateNow (ttOf dServe 3) 0).2 > 0 ∧ 0 + (gateNow (ttWith [8] 1 (2 ^ 40) true) 0).2 < (ttWith [8] 1 (2 ^ 40) true).nextBase :=
  ⟨rfl, rfl, by decide +kernel, by decide +kernel, by decide +kernel⟩

/-! ### PCIe, CXL, management interfaces -/

/-- Port 0 up with a function 1 whose window is 2 MiB, as a protocol, in a reset phase. -/
def fnOne : PcieFn := { endPoint := 1, job := 1, valid := true, log2 := 22, log2Now := 21, base := 1 }

def dPort (proto : PcieProto) (fnValid : Bool) (phase : ResetPhase) : Dev :=
  { dMem with
    sys.phase := phase
    ports := modAt (fun q => { q with up := true, bme := true, proto := proto,
                                      fns := modAt (fun _ => { fnOne with valid := fnValid }) q.fns 1 }) dMem.ports 0 }

theorem portMay (proto : PcieProto) (phase : ResetPhase) (h : phase = .none ∨ phase = .quiesce) : portOpen (dPort proto true phase) 0 = true := by
  rcases h with rfl | rfl <;> cases proto <;> decide +kernel

theorem witness_Pcie (proto : PcieProto) (phase : ResetPhase) (h : phase = .none ∨ phase = .quiesce) : (dPort proto true phase).ports.length = 2 ∧
    portOpen (dPort proto true phase) 0 = true ∧ (port (dPort proto true phase) 0).up = true ∧
    Still (dPort proto true phase) ∧ quiet (dPort proto true .none) = false ∧ quiet (dPort proto true .quiesce) = true ∧
    (port (dPort proto true phase) 0).fns.getD 1 {} = fnOne ∧ fnOne.log2Now ≠ 0 ∧ 0x1FFFF8 + 8 ≤ 2 ^ fnOne.log2Now ∧ ¬ 0x1FFFF8 + 9 ≤ 2 ^ fnOne.log2Now ∧
    (fnOne.base * 2 ^ 21 + 0x1FFFF8) / 256 = (fnOne.base * 2 ^ 21 + 0x1FFFF8 + 8 - 1) / 256 ∧ (port dServe 0).up = false ∧ dServe.ports.length = 2 ∧
    PcieProto.cxl31 ≠ .pcie ∧ ((port (dPort proto false phase) 0).fns.getD 1 {}).valid = false := by
  have h1 := portMay proto phase h
  rcases h with rfl | rfl <;>
    exact ⟨rfl, h1, rfl, ⟨rfl, rfl⟩, rfl, rfl, rfl, by decide, by decide, by decide, by decide, rfl, rfl, by decide, rfl⟩

theorem witness_Pcie_bar0 : (ctlRead .pcie0 (pg 0x10 0 + 0x120) 32 (count (dPort .pcie true .none) (portPage 0) 0x800) {}).1 = cOK ∧
    (ctlRead .pcie0 (pg 0x10 0 + 0x122) 32 (count (dPort .pcie true .none) (portPage 0) 0x800) {}).1 ≠ cOK ∧
    (ctlWrite .pcie0 (pg 0x10 0 + 0x100) 32 64 (count (dPort .pcie true .none) (portPage 0) 0x808) {}).1 = cOK ∧
    (ctlWrite .pcie0 (pg 0x10 0 + 0x122) 32 0 (count (dPort .pcie true .none) (portPage 0) 0x808) {}).1 ≠ cOK ∧
    (port (ctlWrite .pcie0 (pg 0x10 0 + 0x122) 32 0 (count (dPort .pcie true .none) (portPage 0) 0x808) {}).2.1 0).up = true := by
  decide +kernel

theorem witness_Pcie_sizes : portOpen (dPort .pcie true .none) 0 = true ∧ Still (dPort .pcie true .none) ∧ (0x1FFFF8 : Nat) < 2 ^ 48 ∧
    (0x3FFF : Nat) < 0x4000 ∧ 4096 < 4097 ∧ 512 < (List.replicate 513 (0 : Byte)).length ∧ (leBytes 4 1).length = 4 :=
  ⟨by decide +kernel, ⟨rfl, rfl⟩, by decide, by decide, by decide, by rw [List.length_replicate]; decide, rfl⟩

/-- A read of the host by a request. -/
def dHost : Dev :=
  { dFly (xTier .host) { fRd with wait := .tier 0 false } with
    ports := modAt (fun q => { q with up := true, hostReads := [{ id := 4, port := 0, use := .request 1, since := 0 }] }) dMem.ports 0 }

/-- A read of the host for tile 9 of the source of a move to the near store. -/
def mHost : MoveItem := { mMove .copy [] with destTier := .near, destBase := 1, reading := [9] }

def dHostMove : Dev :=
  { dExt (xTier .host) with
    tiers.moves := [mHost]
    ports := modAt (fun q => { q with up := true, hostReads := [{ id := 4, port := 0, use := .move 1 9, since := 0 }] }) dMem.ports 0 }

theorem witness_HostReads : hostRead dMem 0 4 = .none ∧
    hostRead dHost 0 4 = .request { id := 4, port := 0, use := .request 1, since := 0 } { fRd with wait := .tier 0 false } (xTier .host) ∧
    hostRead dHostMove 0 4 = .move { id := 4, port := 0, use := .move 1 9, since := 0 } mHost 9 (xTier .host) :=
  ⟨rfl, rfl, rfl⟩

theorem witness_Ports : portThere dServe 0 = true ∧ (port { dServe with ports := modAt (fun q => { q with training := true }) dServe.ports 0 } 0).training = true ∧
    mayTrain dServe 0 2 16 .pcie = true ∧ (port dServe 0).training = false ∧ dServe.flying = [] ∧
    Reaches dServe .ef (portPage 0 + 0x100) ⟨0x12, 0, 0⟩ ∧ portThere (setReg dServe (portPage 0 + 0x100) (reg dServe (portPage 0 + 0x100) % 16)) 0 = true ∧
    genCap (setReg dServe (portPage 0 + 0x100) (reg dServe (portPage 0 + 0x100) % 16)) 0 ≠ 3 ∧
    Reaches dServe .ef (portPage 0 + 0x120) ⟨0x12, 0, 0⟩ ∧ reg dServe (portPage 0 + 0x110) % 8 = 0 ∧
    reg { dServe with regs := [(portPage 0 + 0x110, 7)] } (portPage 0 + 0x110) % 8 ≠ 0 :=
  ⟨rfl, rfl, by decide +kernel, rfl, rfl, ⟨rfl, rfl, rfl, rfl, rfl, rfl, rfl⟩, by decide +kernel, by decide +kernel, ⟨rfl, rfl, rfl, rfl, rfl, rfl, rfl⟩, by decide +kernel, by decide +kernel⟩

/-- Port 0 with a pending vector. -/
def dVector : Dev := { dPort .cxl20 true .none with
  ports := modAt (fun q => { q with vectors := [(4096 + 2047, { masked := true, pending := true })] }) (dPort .cxl20 true .none).ports 0 }

theorem witness_Vectors : (port dVector 0).up = true ∧ (vectorOf dVector 0 1 2047).pending = true ∧ (port dVector 0).bme = true ∧
    NMap.wf {} (port dVector 0).vectors = true ∧ (vectorOf dVector 0 0 63).pending = false ∧
    (port (dPort .cxl20 true .none) 0).vectors.all (fun e => !e.2.pending) = true ∧ (port dVector 0).proto ≠ .pcie := by decide +kernel

/-- Port 0 up and disabled by its GEN_CAP; with a pending vector and no Bus Master Enable; with a read it has kept. -/
theorem witness_Ports_off :
    let d : Dev := { dPort .pcie true .none with regs := [(portPage 0 + 0x100, 3)] }
    Reaches d .ef (portPage 0 + 0x100) ⟨0x12, 0, 0⟩ ∧
    genCap (setReg (dropHalves d .ef) (portPage 0 + 0x100) (reg d (portPage 0 + 0x100) % 16)) 0 = 3 ∧ (port d 0).up = true :=
  ⟨⟨rfl, rfl, by decide +kernel, rfl, rfl, rfl, rfl⟩, by decide +kernel, rfl⟩

theorem witness_Vectors_off :
    let d : Dev := { dVector with ports := modAt (fun q => { q with bme := false }) dVector.ports 0 }
    (port d 0).up = true ∧ (vectorOf d 0 1 2047).pending = true ∧ (port d 0).bme = false ∧ NMap.wf {} (port d 0).vectors = true ∧
    ((port { dHost with ports := modAt (fun q => { q with hostReads := q.hostReads.map (fun r => { r with sent := false }) }) dHost.ports 0 } 0).hostReads.filter
      (fun r => !r.sent)) ≠ [] := by decide +kernel

theorem witness_Functions : fnOne.log2Now ≠ 0 ∧ ((port dServe 0).fns.getD 7 {}).log2Now = 0 ∧ (0 : Nat) < 7 ∧ (2047 : Nat) < 2048 := ⟨by decide, rfl, by decide, by decide⟩

/-- The I3C address assigned and an endpoint ID set. -/
def dI3c (eid : Nat) (hdrOn : Bool) : Dev := { dServe with mgmt.i3cAddr := 9, mgmt.i3cValid := true, mgmt.eid := eid, mgmt.hdr := hdrOn }

theorem witness_I3c (eid : Nat) (b : Bool) : (dI3c eid b).sys.power = .on ∧ (dI3c eid b).sys.phase ≠ .links ∧ (dI3c eid b).mgmt.hdr = b ∧
    (dI3c eid b).mgmt.i3cValid = true ∧ Still (dI3c eid b) ∧ (dI3c eid b).mgmt.eid = eid ∧
    dServe.mgmt.i3cValid = false ∧ doeOpen (dPort .pcie true .none) 0 = true ∧ customsLive (dPort .pcie true .none) = true ∧ doeOpen dServe 0 = false ∧
    (dPort .pcie true .none).mgmt.spdmDoe0.stage < 2 ∧ dServe.sys.straps.debug = 0 :=
  ⟨rfl, by show ResetPhase.none ≠ .links; decide, rfl, rfl, ⟨rfl, rfl⟩, rfl, rfl, rfl, rfl, rfl, by decide, rfl⟩

theorem witness_Mgmt_off : (dI3c 9 true).mgmt.hdr = true ∧ ¬ (({ dServe with sys.power := .off } : Dev).sys.power = .on ∧ dServe.sys.phase ≠ .links) ∧
    ([0] : List Byte) ≠ [] ∧ (dI3c 9 false).mgmt.eid ≠ 0 ∧ dServe.sys.power = .on ∧ dServe.sys.phase ≠ .links :=
  ⟨rfl, fun h => absurd h.1 (by decide), by decide, by decide, rfl, by decide⟩

/-! ### Customs

What a blob unwraps to, and whether a signature verifies, rest on keys that are free values: no state can be shown that meets `unwrapBlob = some _`,
a verified unlock or an image without a reason. -/

/-- A key slot, the running trial of TYPE 2, what FW_SRC names, and the bytes there. -/
def dCust (k : KeySlot) (b : ImageBanks) (src : Nat) (l : List (Nat × Byte)) : Dev :=
  { dMem with
    cust.keys := [(5, k)], cust.banks := modAt (fun _ => b) dMem.cust.banks 1, cust.keyData := List.replicate 16 (BitVec.allOnes 64)
    regs := [(pg 0x02 0 + 0x300, src)], tiers.mem := l }

theorem mayWrite_of_regs (a b : Dev) (p : Path) (off : Nat) (h : a.regs = b.regs) : mayWrite a p off = mayWrite b p off := by
  simp only [mayWrite, policyAllows, reg, h]

theorem custMay (k : KeySlot) (b : ImageBanks) (off : Nat) : mayWrite (dCust k b 1 []) .i3c off = mayWrite (dCust {} {} 1 []) .i3c off :=
  mayWrite_of_regs _ _ _ _ rfl

theorem witness_Customs (k : KeySlot) (b : ImageBanks) : ∀ o ∈ [0x108, 0x110, 0x308], Reaches (dCust k b 1 []) .i3c (pg 0x02 0 + o) ⟨0x02, 0, 0⟩ := by
  simp only [List.forall_mem_cons]
  exact ⟨⟨rfl, rfl, (custMay k b _).trans (by decide +kernel), rfl, rfl, rfl, rfl⟩,
    ⟨rfl, rfl, (custMay k b _).trans (by decide +kernel), rfl, rfl, rfl, rfl⟩,
    ⟨rfl, rfl, (custMay k b _).trans (by decide +kernel), rfl, rfl, rfl, rfl⟩, nofun⟩

theorem witness_Customs_keys : (NMap.get {} (dCust { loaded := true, refs := 1 } {} 1 []).cust.keys (5 : BitVec 12).toNat).loaded = true ∧
    (NMap.get {} (dCust { loaded := true } {} 1 []).cust.keys 4).loaded = false ∧ ({ dMem with cust.debugUnlocked := true } : Dev).cust.debugUnlocked = true ∧
    0 < (NMap.get {} (dCust { loaded := true, refs := 1 } {} 1 []).cust.keys 5).refs ∧ (NMap.get {} (dCust { loaded := true } {} 1 []).cust.keys 5).refs = 0 ∧
    dMem.sys.straps.debug = 0 ∧ NMap.wf {} (dCust { loaded := true } {} 1 []).cust.keys = true := ⟨rfl, rfl, rfl, by decide, rfl, rfl, rfl⟩

theorem witness_Customs_unlock (msg : List Byte) : edVerify ((List.range 57).map Config.debugKeyByte) msg
    (((dCust {} {} 1 []).cust.keyData.flatMap (fun w => leBytes 8 w.toNat)).take 114) = false := by
  have h : edDecode ((((dCust {} {} 1 []).cust.keyData.flatMap (fun w => leBytes 8 w.toNat)).take 114).take 57) = none := by decide +kernel
  simp only [edVerify, h]
  split <;> simp_all

theorem witness_Customs_policy : bit (reg dMem (pg 0x02 0 + 0x108)) 8 = false ∧ ∃ i, i < 4 ∧ fld (3 : BitVec 32).toNat (2 * i) 2 = 3 :=
  ⟨by decide +kernel, 0, by decide, by decide⟩

/-- A STAGE of TYPE 2 that waits for a read, and the device that runs it; one whose read has been answered; one whose image is in. -/
def fwAsked : FwRun := { type := 2, src := 0x200000 + 2 ^ 48, asked := true }

def dStage : Dev := { dCust {} {} 1 [] with cust.fw := some fwAsked }

theorem witness_Customs_stage : dStage.cust.fw.isSome = true ∧ (dCust {} {} 1 []).cust.fw = none ∧
    Reaches dStage .i3c (pg 0x02 0 + 0x308) ⟨0x02, 0, 0⟩ ∧
    ({ fwAsked with answer := some (cPOISON, []) } : FwRun).answer = some (cPOISON, []) ∧ cPOISON ≠ cOK ∧ fwAsked.answer = none ∧
    fwWant ({ fwAsked with got := List.replicate 512 0 } : FwRun).got ≤ ({ fwAsked with got := List.replicate 512 0 } : FwRun).got.length ∧
    imageReason {} 2 (List.replicate 512 0) ≠ 0 :=
  ⟨rfl, rfl, ⟨rfl, rfl, (mayWrite_of_regs dStage (dCust {} {} 1 []) _ _ rfl).trans (by decide +kernel), rfl, rfl, rfl, rfl⟩, rfl, by decide, rfl,
    by decide +kernel, by decide +kernel⟩

theorem witness_Customs_banks (b : ImageBanks) : (dCust {} b 1 []).cust.banks.getD ((2 : BitVec 8).toNat - 1) {} = b ∧
    ({ staged := true } : ImageBanks).staged = true ∧ ({ trialRuns := true, running := [1] } : ImageBanks).running ≠ [] := ⟨rfl, rfl, by decide⟩

/-! ### Salvage and Causeway -/

theorem witness_Salvage (bank : Nat) (h : bank = 0 ∨ bank = 1) : Reaches dMem .pcie0 (pg 0x34 bank + 0x128) ⟨0x34, bank, 0⟩ ∧
    Reaches dMem .pcie0 (pg 0x34 bank + 0x138) ⟨0x34, bank, 0⟩ ∧ Reaches dMem .pcie0 (pg 0x34 bank + 0x1F8) ⟨0x34, bank, 0⟩ ∧
    dMem.salv.fencedOut = false ∧ extOf dMem (fld (reg dMem (pg 0x34 bank + 0x140)) 21 27) = none ∧ NSet.wf dMem.tiers.poison = true ∧
    (stagedConvoy dMem (reg dMem (pg 0x34 bank + 0x1C0) % 4096)).getD 0 0 = 0 ∧ fld 0 0 5 < 3 := by
  rcases h with rfl | rfl <;>
    exact ⟨⟨rfl, rfl, rfl, rfl, rfl, rfl, rfl⟩, ⟨rfl, rfl, rfl, rfl, rfl, rfl, rfl⟩, ⟨rfl, rfl, rfl, rfl, rfl, rfl, rfl⟩, rfl, by decide +kernel, rfl, by decide +kernel, by decide⟩

/-- A peer table with a member in a state, and traffic to it that is not answered. -/
def dPeer (st : MemberState) : Dev :=
  { dMem with
    regs := [(pg 0x34 0 + 0x128, 2), (pg 0x34 0 + 0x140, 0x200000)]
    salv.peers := [(0, { node := 6, epBase := 9, valid := true, st := st })], salv.isolatedSince := some 100
    salv.protect := [{ out := { oRead with op := .wr }, flying := 1, node := 6, since := 0 }] }

theorem witness_Salvage_members : (dPeer .current).salv.isolatedSince = some 100 ∧ bit (reg (dPeer .current) (pg 0x34 0 + 0x128)) 1 = true ∧
    (dPeer .current).salv.fencedOut = false ∧ (∃ q, (dPeer .current).salv.protect.find? (fun q => q.node == 6) = some q) ∧
    dMem.salv.protect.find? (fun q => q.node == 6) = none ∧ dMem.salv.isolatedSince = none ∧ memberIs (dPeer .current) 6 .stale = false ∧
    memberIs (dPeer .stale) 6 .stale = true ∧ extOf (dPeer .current) (fld (reg (dPeer .current) (pg 0x34 0 + 0x140)) 21 27) = some xNear :=
  ⟨rfl, by decide +kernel, rfl, ⟨_, rfl⟩, rfl, rfl, by decide +kernel, by decide +kernel, by decide +kernel⟩

theorem witness_Salvage_probe :
    let x : Extent := { xNear with e.prot := 1, e.partner := 6 }
    let d : Dev := { dPeer .unreachable with toll.extents := [x] }
    memberIs d 6 .unreachable = true ∧ memberIs (dPeer .stale) 6 .unreachable = false ∧ d.salv.fencedOut = false ∧ d.wharf.epValid = true ∧
    d.toll.extents.find? (protectedWith d 6) = some x := by decide +kernel

theorem witness_Salvage_inFlight : fencesFlying { fWr with wait := .tier 0 false } = true ∧ fencesFlying { fWr with wait := .ack cOK [] } = false := ⟨rfl, rfl⟩

/-- A rebuilt extent with tiles missing from `k` on; a staged convoy entry. -/
def dRebuilt (k : Nat) : Dev := { dMem with toll.extents := [{ xNear with rebuildFrom := some k }], salv.stage := [(0, [0x423])] }

theorem witness_Salvage_rebuild : (dRebuilt 0).toll.extents.filter (fun x => x.rebuildFrom.isSome) = [{ xNear with rebuildFrom := some 0 }] ∧
    nextMissing { xNear with rebuildFrom := some 0 } ≠ none ∧ nextMissing { xNear with rebuildFrom := some 8192 } = none ∧
    (dRebuilt 8192).toll.extents.filter (fun x => x.rebuildFrom.isSome) ≠ [] :=
  ⟨rfl, by decide +kernel, by decide +kernel, by decide⟩

theorem witness_Convoy : Reaches (dRebuilt 0) .pcie0 (pg 0x34 0 + 0x1F8) ⟨0x34, 0, 0⟩ ∧ reg (dRebuilt 0) (pg 0x34 0 + 0x1C0) % 4096 = 0 ∧
    (stagedConvoy (dRebuilt 0) 0) = [0x423] ∧ fld 0x423 0 5 = 3 ∧ fld 0x423 5 5 = 1 ∧ fld 0x423 11 21 = 0 ∧
    ∀ i, 1 ≤ i ∧ i ≤ 4 → fld ([0x423].getD i 0) 56 8 = 0 := by
  refine ⟨⟨rfl, rfl, rfl, rfl, rfl, rfl, rfl⟩, by decide +kernel, rfl, rfl, rfl, rfl, ?_⟩
  rintro i ⟨h1, h2⟩
  rcases (show i = 1 ∨ i = 2 ∨ i = 3 ∨ i = 4 by omega) with rfl | rfl | rfl | rfl <;> rfl

/-- The Causeway's direction to the West as `c`. -/
def dWay (c : CwDir) (held lost : Bool) : Dev := { dServe with cw.toWest := c, sys.westHeld := held, sys.cwLost := lost }

def wayOf (errs : NMap Nat) : CwDir :=
  { inService := [0, 33], retired := [4], spares := 0, errs := errs, rxNext := [(6, 10)]
    replay := [{ pair := .request, cls := 6, seq := 10, group := 33 }] }

theorem witness_Causeway (l : NMap Nat) : live (dWay (wayOf l) false false) = true ∧ NSet.mem (wayOf l).inService 33 = true ∧
    NMap.get 0 (wayOf l).rxNext 6 = 10 ∧ (9 : Nat) < 10 ∧ (10 : Nat) < 11 ∧ (wayOf l).inService ≠ [] ∧ NSet.mem (wayOf l).inService 4 = false ∧
    NSet.mem (wayOf l).retired 1 = false ∧ (wayOf l).spares < 2 ∧ (wayOf l).spares < (wayOf l).retired.length ∧ NSet.mem (wayOf l).inService 1 = false :=
  ⟨rfl, rfl, rfl, by decide, by decide, (by decide : ([0, 33] : List Nat) ≠ []), rfl, rfl, (by decide : (0 : Nat) < 2),
    (by decide : (0 : Nat) < 1), rfl⟩

theorem witness_Causeway_errors : dServe.sys.ltc < (wayOf []).window + reg dServe (pg 0x03 0 + 0x150) ∧
    (wayOf []).window + reg dServe (pg 0x03 0 + 0x150) ≤ ({ dServe with sys.ltc := 2 ^ 40 } : Dev).sys.ltc ∧
    reg dServe (pg 0x03 0 + 0x148) < NMap.get 0 (wayOf [(33, 2 ^ 20)]).errs 33 ∧ NMap.get 0 (wayOf []).errs 33 ≤ reg dServe (pg 0x03 0 + 0x148) := by
  decide +kernel

theorem witness_Causeway_loss : (dWay {} false false).cw.toWest.inService = [] ∧ (dWay {} false false).sys.westHeld = false ∧ (dWay {} false false).flying = [] ∧ (dWay {} false false).descs = [] ∧
    live (dWay {} true true) = true ∧ (dWay {} true true).sys.cwLost = true ∧ (dWay {} true false).sys.westHeld = true ∧
    (dWay {} true false).sys.cwLost = false ∧ live (dWay {} true false) = true := ⟨rfl, rfl, rfl, rfl, rfl, rfl, rfl, rfl, rfl⟩

/-! ### Power, resets, start -/

/-- A device in a power state, with samples and a duty. -/
def dPower (pw : Power) (samples : List Nat) (duty ltc : Nat) : Dev :=
  { dServe with sys.power := pw, sys.samples := samples, sys.duty := duty, sys.ltc := ltc }

theorem witness_Power : (dPower .off [] 16 0).sys.power = .off ∧ dServe.sys.power = .on ∧ (dPower .latched [] 16 0).sys.power = .latched ∧
    10 ≤ ((1801 :: List.replicate 9 1801).take 100).length ∧ (∀ w ∈ (1801 :: List.replicate 9 1801).take 10, 1800 < w) ∧ dServe.sys.hot = false ∧
    reg dServe (pg 0x03 0 + 0x138) < 110 ∧ live (dPower .on [2000] 3 800000) = true ∧
    reg dServe (pg 0x03 0 + 0x128) * 1 < total (dPower .on [2000] 3 800000).sys.samples ∧
    (dPower .on [2000] 3 800000).sys.dutyAt + 800000 ≤ (dPower .on [2000] 3 800000).sys.ltc ∧
    total (dPower .on [100] 15 8000000).sys.samples * 100 < reg dServe (pg 0x03 0 + 0x128) * 97 * 1 ∧
    (dPower .on [100] 15 8000000).sys.dutyAt + 8000000 ≤ (dPower .on [100] 15 8000000).sys.ltc ∧ live (dPower .on [2000] 2 0) = true ∧
    reg dServe (pg 0x03 0 + 0x128) * 105 * 1 < total (dPower .on [2000] 2 0).sys.samples * 100 ∧ (dPower .on [2000] 2 0).sys.halfRate = false :=
  ⟨rfl, rfl, rfl, by decide, by decide, rfl, by decide +kernel, rfl, by decide +kernel, by decide, by decide +kernel, by decide, rfl, by decide +kernel, rfl⟩

theorem witness_Phy : (land dMem 0).st = .up ∧ 0 < dMem.lands.length ∧ live dMem = true ∧ (land dMem 1).st ≠ .up := ⟨rfl, by decide, rfl, by decide⟩

/-- A start at a step, in a phase of a reset, with a strap and what failed before. -/
def dStart (step : Nat) (phase : ResetPhase) (hold : Bool) (boot spare fails failStep : Nat) : Dev :=
  { dServe with sys.step := step, sys.phase := phase, sys.hold := hold, sys.straps.boot := boot, sys.straps.spare := spare, sys.fails := fails,
                sys.failStep := failStep }

theorem witness_Resets (phase : ResetPhase) : (dStart 0x12 phase false 0 1 0 0).sys.power = .on ∧ (dStart 0x12 phase false 0 1 0 0).sys.phase = phase ∧
    (dStart 0x12 phase false 0 1 0 0).sys.hold = false ∧ (dStart 0x12 phase true 0 1 0 0).sys.hold = true ∧ 0x11 ≤ (dStart 0x12 phase false 0 1 0 0).sys.step ∧
    (dStart 0x10 phase false 0 1 0 0).sys.step < 0x11 :=
  ⟨rfl, rfl, rfl, rfl, (by decide : (0x11 : Nat) ≤ 0x12), (by decide : (0x10 : Nat) < 0x11)⟩

theorem witness_Resets_register (phase : ResetPhase) (h : phase = .none ∨ phase = .notice) :
    Reaches (dStart 0x12 phase false 0 1 0 0) .pcie0 (pg 0x03 0 + 0x100) ⟨0x03, 0, 0⟩ := by
  rcases h with rfl | rfl <;> exact ⟨rfl, rfl, rfl, rfl, rfl, rfl, rfl⟩

theorem witness_Resets_calm : dServe.descs = [] ∧ dServe.quay.accums = [] ∧ dServe.tiers.moves = [] ∧ dServe.tiers.persists = [] ∧ dServe.tiers.deltas = [] ∧
    dServe.purser.locks = [] ∧ dServe.purser.waits = [] ∧ dServe.purser.shares = [] ∧ dServe.raft.copies = [] ∧
    ∀ n, n < 32 → (snapSlot dServe n).st = .free :=
  ⟨rfl, rfl, rfl, rfl, rfl, rfl, rfl, rfl, rfl, by decide⟩

theorem witness_Start : (dStart 0x11 .none false 0 1 0 0).sys.unit = 0 ∧ (dStart 0x11 .none false 0 1 0 0).sys.open_ = [] ∧ State.reset.dev.sys.step = 0 ∧
    ((unitsOf State.reset.dev).dropWhile (· != State.reset.dev.sys.unit)).head? = some 0 ∧
    ((unitsOf (dStart 5 .none false 0 0 0 0)).dropWhile (· != 4)).head? = some 4 ∧ (dStart 5 .none false 0 0 0 0).sys.straps.spare ≠ 1 ∧
    ((unitsOf (dStart 0x11 .none false 0 1 2 0x11)).dropWhile (· != 0)).head? = some 0 ∧ hasAlt (dStart 0x11 .none false 0 1 2 0x11) 0 = false ∧
    (dStart 0x11 .none false 0 1 2 0x11).sys.failStep = 0x11 ∧ 2 ≤ (dStart 0x11 .none false 0 1 2 0x11).sys.fails ∧
    (dStart 0x11 .none false 0 1 1 0x11).sys.fails < 2 ∧ (dStart 2 .none false 1 1 0 0).sys.straps.boot = 1 ∧ imageReason {} 1 [] ≠ 0 ∧
    (dStart 0x11 .none false 0 1 0 0).xmap.nodeValid = false ∧ ({ dStart 0x11 .none false 0 1 0 0 with xmap.nodeValid := true } : Dev).xmap.nodeValid = true ∧
    ({ dStart 0x10 .none false 0 1 0 0 with sys.unit := 15 } : Dev).sys.westHeld = false :=
  ⟨rfl, rfl, rfl, by decide +kernel, by decide +kernel, by decide, by decide +kernel, by decide +kernel, rfl, by decide, by decide, rfl, by decide +kernel, rfl, rfl, rfl⟩

/-- Vault 0 out of service at the NEAR step: it is skipped. The PCIE step, whose port fails. -/
theorem witness_Start_skips : let d : Dev := { dStart 8 .none false 0 1 0 0 with tiers.vaultsDown := [0] }
    ((unitsOf d).dropWhile (· != d.sys.unit)).head? = some 0 ∧ skipped d 0 = true ∧ skipped d 1 = false ∧ d.sys.power = .on ∧ d.sys.phase = .none ∧
    d.sys.hold = false ∧ d.sys.step < 0x12 := ⟨by decide +kernel, by decide +kernel, by decide +kernel, rfl, rfl, rfl, by decide⟩

theorem witness_Start_port : ((unitsOf (dStart 0xF .none false 0 0 0 0)).dropWhile (· != 0)).head? = some 0 ∧ UnitEnd.timeLimit ≠ .good ∧
    (dStart 0xF .none false 0 0 0 0).sys.step = 0xF ∧ skipped (dStart 5 .none false 0 0 0 0) 4 = false := ⟨by decide +kernel, by decide, rfl, rfl⟩

theorem witness_Start_log : let x : LogEntry := { step := 8, outcome := 0, detail := 0, start := 1, elapsed := 0, cause := 0 }
    let d : Dev := { dStart 8 .none false 0 1 0 0 with sys.logbook := [{ x with step := 7 }, x] }
    live dServe = true ∧ d.sys.logbook = [{ x with step := 7 }] ++ x :: [] ∧ x.step = d.sys.step ∧ x.outcome = 0 ∧
    ∀ y ∈ [{ x with step := 7 }], ¬ (y.step = d.sys.step ∧ y.outcome = 0) := ⟨rfl, rfl, rfl, rfl, by simp [dStart]⟩

/-! ## Ill-formed commands: each check refuses a term -/

def rBad : List DescRef := [⟨256, 0, 0⟩, ⟨0, 64, 0⟩]

theorem test_illFormed_descriptor : rBad.all (fun r => !r.wellFormed && !(Instr.raftRun r).wellFormed && !(Instr.move r).wellFormed) = true := by decide

theorem test_illFormed_control :
    ([.controlRegisterWrite .ef 0 16 0, .counterLowHalfRead .ef 4, .counterHighHalfRead .ef 8, .evtStatWrite .ef 0x24 0, .evtSetWrite .ef 1 0,
      .evtEnWrite .ef 0x28 0, .cntClear .ef 0x10, .cntFreeze .ef 8 true, .feValidClear .ef 0x60, .tollInsert .ef 2, .xmapCommit .ef 2,
      .ringApply .ef 2 0, .jobWrite .ef 2 0] : List Instr).all (fun c => !c.wellFormed) = true := by decide

theorem test_illFormed_causeway :
    ([.causewayFrameRx true ⟨.request, 8⟩ 0 0 true, .causewayFrameRx true ⟨.answer, 0⟩ 34 0 true, .laneGroupRetire true 34, .spareGroupTrained false 34, .causewayRetrain 35 0,
      .causewayRetrain 0 35] : List Instr).all (fun c => !c.wellFormed) = true := by decide

theorem test_illFormed_memory :
    ([.rd 16 (hdr 0 1 []), .wr 16 (hdr 0 1 []) [], .snoopAns 16 0 0 .data 0 [], .stackDeltaApply 32 0, .eddyIdleExpiry 2 0, .directoryEccError 0 262144 0,
      .directoryEccError 0 0 16, .directorySweepDone 0 262144, .tollCacheEccError 2, .descriptorFetch 256 0, .descriptorFetch 0 64, .revokeComplete 16,
      .quayAgentDataWrite .ef 2 0] : List Instr).all (fun c => !c.wellFormed) = true := by decide

theorem test_illFormed_tiers :
    ([.rowReplace 10 0 0, .rowReplace 0 32 0, .stackSiteFail 10, .stackChannelDown 0 32, .flashChannelFail 32, .vaultFail 64, .nearRowReplace 64 0,
      .loggedParityRecomputeDone 2, .suFault 1024 .residue, .remapApply 0 16, .remapApply 2 0, .snapPoint 0 16, .snapTileCopied 2 0 0 0,
      .purserVersionDrained 0 1024, .sideRecordWritten 0 256 0, .puntScanDone 32] : List Instr).all (fun c => !c.wellFormed) = true := by decide

theorem test_illFormed_links :
    ([.flitRx 0 [] true [], .flitRx 16 (List.replicate 256 0) true [], .laneLockLoss 0 4, .laneErrLimit 16 0, .frameAdmit 0 0 50 0, .frameAdmit 0 0 0 8,
      .frameAged 2 0, .ttSwitch 16, .meterSnap .ef 2] : List Instr).all (fun c => !c.wellFormed) = true := by decide

theorem test_illFormed_interfaces :
    ([.pcieMemoryRead 2 0 0 1, .pciePostedWrite 0 8 0 [], .pcieAtomicop 0 1 0 .swap 2 [], .hdmDecoderCommit 0 4 1, .msixUnmask 0 8 0,
      .pcieLinkUp 0 3 1 .pcie, .pcieLinkUp 0 0 17 .pcie, .read32 [0x7E, 0x1F, 0x3D, 2], .write32 [0x7E, 0x1F, 0x3D, 1], .read64 [], .write64 [],
      .getVersion .mctp [0x10, 0x81], .getDigests .mctp [0x10, 0x84], .chunkGet .doe0 [0x12, 0x85], .jtagInstruction 2 0 false, .salvFence .ef 2] :
        List Instr).all (fun c => !c.wellFormed) = true := by decide

theorem test_wellFormed : ([.rd 15 (hdr 0 1 []), .raftRun ⟨255, 63, 2 ^ 32 - 1⟩, .suFault 1023 .link, .flitRx 15 (List.replicate 256 0) true [],
    .write64 [0x7E, 0x1F, 0x3D, 4], .getVersion .mctp [0x10, 0x84], .pcieLinkUp 1 2 16 .cxl31] : List Instr).all Instr.wellFormed = true := by decide +kernel

/-! ## Small tests

Expected values: the published check values of the codes and ciphers, and the spec's worked examples, as each theorem names them. -/

/-- No row of the table gives bits. -/
theorem test_decode_none : decodeTableWord 32 0 = none ∧ (State.reset.withFetchWord 32 0) = State.reset := by decide

/-- The nine digits, and the check values published for CRC-32C and CRC-64 (ECMA-182, reflected). -/
def digits : List Byte := [0x31, 0x32, 0x33, 0x34, 0x35, 0x36, 0x37, 0x38, 0x39]

theorem test_crc32c : crc32c digits = 0xE3069283 := by decide +kernel

theorem test_crc64 : crc64 digits = 0x995DC9BBDF1939FA := by decide +kernel

/-- FIPS 197, C.3. -/
theorem test_aes256 : aesEnc (roundKeys (List.range 32)) ((List.range 16).map (· * 17)) =
    [0x8E, 0xA2, 0xB7, 0xCA, 0x51, 0x67, 0x45, 0xBF, 0xEA, 0xFC, 0x49, 0x90, 0x4B, 0x49, 0x60, 0x89] := by decide +kernel

/-- 00, Example: reading a completion record: FENCED stands before LENGTH. -/
theorem test_refusalOrder : firstRefusal [cLENGTH, cFENCED] = some cFENCED := by decide

/-- 17, Example: finding four pages. -/
theorem test_pages : landPage 11 + 0x108 = 0x823108 ∧ pageAt 0x872080 = some ⟨0x31, 1, 2⟩ ∧ pageAt 0x906100 = some ⟨0x51, 1, 6⟩ ∧
    pageAt 0x944000 = some ⟨0x62, 1, 4⟩ ∧ readSlot dServe {} ⟨0x11, 1, 3⟩ 0 % 2 ^ 32 = 0x00010B11 ∧
    readSlot dServe {} ⟨0x51, 1, 6⟩ 0 % 2 ^ 32 = 0x00014651 ∧ readSlot dServe {} ⟨0x62, 1, 4⟩ 0 % 2 ^ 32 = 0x00011462 := by decide +kernel

/-- 13, Example: a host window with a flag. -/
theorem test_windowSplit : tilePieces 0x40100080 512 = [(0x40100080, 128), (0x40100100, 256), (0x40100200, 128)] := by decide

/-- 12, Example: one job pressing past its rates. Store 99 finds 216 bytes and is yellow, store 100 finds 288 and is green. -/
def fareJob : FareJob :=
  { enable := true, cir := 14400, cbs := 21600, pir := 28800, pbs := 43200, tc := 144 * 800, tp := 20000 * 800, seen := 392 }

theorem test_fareExample : (colourOf fareJob 396 4 288).1 = .yellow ∧ (colourOf (colourOf fareJob 396 4 288).2 400 4 288).1 = .green ∧
    (colourOf { fareJob with tp := 0, seen := 395 } 396 4 288).1 = .red := by decide +kernel

/-- 09, Example: a composed table, a migration and an update. -/
def recExample : List Byte := [0x204000, 0x304000, 50000, 1000, 0, 0, 64 + 2 ^ 16 + 3 * 2 ^ 20, 0].flatMap (leBytes 8)

theorem test_composedIndices : resolveRows (tableOfBytes recExample) 1000003 = some [(false, 1000), (true, 3)] ∧
    resolveRows (tableOfBytes recExample) 2000003 = some [(false, 2000), (true, 3)] ∧ resolveRows (tableOfBytes recExample) 60000000 = none := by
  decide +kernel

/-- 05, Example: 4,096 sources reduce into 2 KiB. The stored element is 147 / 32. -/
theorem test_eddyExample : leAt (sumGranule { bank := 0, offset := 0, fmt := .bf16, elems := [0x40830000], lastAdd := 0 } [0x00, 0x3F]) 0 2 = 0x4093 := by
  decide +kernel

/-- 07, Example: one block to MXFP8: 1,000, 300 and −0.013 in a block of E4M3. -/
def block5 : List Val := [fp32.dec 0x447A0000, fp32.dec 0x43960000, fp32.dec 0xBC54FDF4] ++ List.replicate 29 (fp32.dec 0)

theorem test_blockExample : (formBlock 4 (List.replicate 32 .rne) block5).1 = 0x80 ∧ (formBlock 4 (List.replicate 32 .rne) block5).2.1.take 4 = [0x7E, 0x71, 0x83, 0] ∧
    (formBlock 4 (List.replicate 32 .rne) block5).2.2.any id = true ∧ scaledElemAt 4 160 = 224 ∧ scaleAt 4 160 = 5 := by decide +kernel

/-- 10, Example: a snapshot and a late shard: with SNAP 1,003, ID 77 stands by 1,001, ID 12 by 1,003; with 1,004 the delete of ID 77. -/
def sideExample : List SideRec := [⟨1001, 1, 5, 77, []⟩, ⟨1002, 2, 0, 12, []⟩, ⟨1003, 1, 9, 12, []⟩, ⟨1004, 2, 0, 77, []⟩]

theorem test_sideExample : (latestRecs (sideExample.take 3)).map (·.seq) = [1001, 1003] ∧ (latestRecs sideExample).map (·.seq) = [1003, 1004] := by decide

/-- 02, Example: a handover with requests in flight: while it drains the old owner meets ACCESS_REVOKED, the receiver BUSY_RETRY. -/
theorem test_handoverExample : let x : Extent := { xNear with e.ownerJob := 0x1A2, token := .draining, receiver := 0x2B0 }
    test4 x 0x1A2 = .refuse 0x05 ∧ test4 x 0x2B0 = .refuse 0x0C := by decide

/-! ### Single commands -/

/-- The device after a command. -/
def after (c : Instr) (d : Dev) : Dev :=
  match exec c (on d) with
  | .next t => t.dev
  | _ => d

/-- 02 R73, 04: a store of job 1 lands in the near store and waits for its acknowledgement; its acknowledgement ends it. -/
theorem test_wr : memBytes (after (.wr 0 qWr.h eight) dMem) 0 8 = eight ∧ (after (.wr 0 qWr.h eight) dMem).flying.length = 1 ∧
    (after (.storeAck 0) (after (.wr 0 qWr.h eight) dMem)).flying = [] := by decide +kernel

/-- 04 R137: FADD apart, an ADD leaves the sum, modulo 2^64, and answers the old operand. -/
theorem test_atomic_wraps :
    let d : Dev := { dMem with tiers.mem := memAt 0 (List.replicate 8 0xFF) }
    let h : Hdr := hdr 0x200000 8 (leBytes 8 2)
    memBytes (after (.atomic 0 { h with aux := 2 } (leBytes 8 2)) d) 0 8 = leBytes 8 1 := by decide +kernel

/-- 02 R48 test 2: a wrong tide is refused, and nothing is stored. -/
theorem test_wr_fenced : (after (.wr 0 { qWr.h with tide := 1 } eight) dMem).tiers.mem = [] := by decide +kernel

/-- 02 R56, R58: OFFER takes effect: the token is offered to the receiver, and the command is done with OK. -/
theorem test_offer : let t := after .tollTakeEffect (dToll .offer xNear)
    (extOf t 1).map (fun x => (x.token, x.receiver)) = some (.offered, 2) ∧ t.toll.done = true ∧ t.toll.result = 0 := by decide +kernel

/-- 00 R15: EVT_SET raises the bits of the page, INT_SUM and the interrupt. -/
theorem test_evtSet : reg (after (.evtSetWrite .ef (pg 0x40 1) 0x1F) dEvents) (pg 0x40 1 + 0x20) ≠ 0 := by decide +kernel

/-- 16 R487: the tenth sample above 1,800 W latches the power off. -/
theorem test_powerSample : (after (.powerSample 1801 480) (dPower .on (List.replicate 9 1801) 16 0)).sys.power = .latched ∧
    (after (.powerSample 1801 480) (dPower .on (List.replicate 8 1801) 16 0)).sys.power = .on := by decide +kernel

/-- 13 R426, 15 R468: a private instruction with debug locked selects BYPASS. -/
theorem test_jtag : (after (.jtagInstruction 1 0x2A true) dServe).mgmt.tapWest = 0xFF ∧ (after (.jtagInstruction 0 0x2A false) dServe).mgmt.tapEast = 0x2A := by
  decide +kernel

/-- 11 R372, R373: a Foghorn frame ends the run of missed ones and leaves its identifier in the partner's register. -/
theorem test_foghorn : (land (after (.foghornRx 3 0x12345678) (dFlit 0 [] 2)) 3).fogMissedNow = 0 ∧
    reg (after (.foghornRx 3 0x12345678) (dFlit 0 [] 2)) (landPage 3 + 0x130) = 0x12345678 := by decide +kernel

/-- 12 R394: DISARM clears ARMED before the base time. -/
theorem test_disarm : (ttOf (after (.ttDisarm .ef 0) (dTime 0 (ttWith [8] 1 64 true) 0)) 0).armed = false ∧
    (ttOf (after (.ttDisarm .ef 0) { dTime 0 (ttWith [8] 1 64 true) 0 with sys.ltc := 64 }) 0).armed = true := by decide +kernel

/-- 03 R110: PIN of an item adds one to the job's count. -/
theorem test_pin : pinCount (after (.pin rFirst) (dDesc (xTow 2) (towMem 0x200000 0))) 1 1 = 1 := by decide +kernel

/-- 06 R213: a residue failure, and a second within its time, which takes the SU out of service. -/
theorem test_suFault : let d := after (.suFault 5 .residue) dServe
    suDown d 5 = false ∧ suDown (after (.suFault 5 .residue) d) 5 = true := by decide +kernel
end Sys2Proof.Tests
end

/-! ## Proofs: accesses of the control space (00 R11, R12, R15, R16; 15 R476; 17 R511, R515) -/

section
/-! SUPPORT. Sparse maps that are read with another unlisted value than the one their canonical form excludes: the register store,
whose reset value goes with the register. -/

namespace Sys2Proof.NMap

variable {α : Type} [DecidableEq α]

/-- A key below every key of a canonical map is unlisted, whatever unlisted keys read as. -/
theorem get_unlisted {d f : α} {m : NMap α} {lo k : Nat} (h : wfFrom f lo m = true) (hk : k < lo) : get d m k = d := by
  cases m with
  | nil => rfl
  | cons e m =>
    obtain ⟨j, w⟩ := e
    simp only [wfFrom, Bool.and_eq_true, decide_eq_true_eq] at h
    obtain ⟨⟨hj, _⟩, _⟩ := h
    have hne : ¬ j = k := by omega
    have hlt : k < j := by omega
    simp [get, hne, hlt]

/-- A written key reads the value written, whatever value the canonical form excludes. -/
theorem get_set_same {d f : α} {m : NMap α} {lo : Nat} (k : Nat) (v : α) (h : wfFrom f lo m = true) :
    get d (set d m k v) k = v := by
  induction m generalizing lo with
  | nil => by_cases hv : v = d <;> simp [set, get, hv]
  | cons e m ih =>
    obtain ⟨j, w⟩ := e
    simp only [wfFrom, Bool.and_eq_true, decide_eq_true_eq] at h
    obtain ⟨_, hm⟩ := h
    rcases Nat.lt_trichotomy j k with hlt | rfl | hgt
    · have h1 : ¬ j = k := by omega
      have h2 : ¬ k < j := by omega
      simpa [set, get, hlt, h1, h2] using ih hm
    · by_cases hv : v = d
      · simpa [set, hv] using get_unlisted hm (Nat.lt_succ_self j)
      · simp [set, get, hv]
    · have h1 : ¬ j < k := by omega
      have h2 : ¬ j = k := by omega
      by_cases hv : v = d
      · simp [set, get, h1, h2, hgt, hv]
      · simp [set, get, h1, h2, hv]

/-- A key that is not written reads what it read, whatever the written key and it read as where they are unlisted. -/
theorem get_set_other {d e f : α} {m : NMap α} {lo k i : Nat} (v : α) (h : wfFrom f lo m = true) (hi : i ≠ k) :
    get e (set d m k v) i = get e m i := by
  induction m generalizing lo with
  | nil => by_cases hv : v = d <;> simp [set, get, hv, hi.symm]
  | cons x m ih =>
    obtain ⟨j, w⟩ := x
    simp only [wfFrom, Bool.and_eq_true, decide_eq_true_eq] at h
    obtain ⟨_, hm⟩ := h
    rcases Nat.lt_trichotomy j k with hlt | rfl | hgt
    · simp [set, get, hlt, ih hm]
    · by_cases hv : v = d
      · rcases Nat.lt_or_ge i j with hij | hij
        · simp [set, get, hv, hi.symm, hij, get_unlisted hm (Nat.lt_succ_of_lt hij)]
        · simp [set, get, hv, hi.symm, Nat.not_lt.mpr hij]
      · simp [set, get, hv, hi.symm]
    · have h1 : ¬ j < k := by omega
      have h2 : ¬ j = k := by omega
      by_cases hv : v = d
      · simp [set, h1, h2, hv]
      · rcases Nat.lt_or_ge i k with hik | hik
        · have h3 : ¬ j = i := by omega
          have h4 : i < j := by omega
          simp [set, get, h1, h2, hv, hi.symm, hik, h3, h4]
        · simp [set, get, h1, h2, hv, hi.symm, Nat.not_lt.mpr hik]

/-- A write keeps the canonical form that excludes `f`, where it does not write `f`. -/
theorem set_wfFrom_of_ne {d f : α} {m : NMap α} {lo k : Nat} {v : α} (h : wfFrom f lo m = true) (hk : lo ≤ k) (hv : v ≠ f) :
    wfFrom f lo (set d m k v) = true := by
  induction m generalizing lo with
  | nil => by_cases hd : v = d <;> simp [set, wfFrom, hd, hk, hv]
  | cons e m ih =>
    obtain ⟨j, w⟩ := e
    have h0 := h
    simp only [wfFrom, Bool.and_eq_true, decide_eq_true_eq] at h
    obtain ⟨⟨hj, hw⟩, hm⟩ := h
    rcases Nat.lt_trichotomy j k with hlt | rfl | hgt
    · simp [set, wfFrom, hlt, hj, hw, ih hm hlt]
    · by_cases hd : v = d
      · simpa [set, hd] using wfFrom_mono (Nat.le_succ_of_le hj) hm
      · simp [set, wfFrom, hd, hj, hv, hm]
    · have h1 : ¬ j < k := by omega
      have h2 : ¬ j = k := by omega
      by_cases hd : v = d
      · simpa [set, h1, h2, hd] using h0
      · simp [set, wfFrom, h1, h2, hd, hk, hv, hw, hm, Nat.succ_le_of_lt hgt]

end Sys2Proof.NMap
end

section
/-! SUPPORT. Bits of numbers, the pages of the control space, and stored registers. -/

namespace Sys2Proof.Machine

open Sys2Proof

/-! ## Bits -/

theorem lor64_assoc (a b c : Nat) : lor64 (lor64 a b) c = lor64 a (lor64 b c) := by
  simp [lor64, BitVec.or_assoc]

theorem lor64_zero {a : Nat} (h : a < 2 ^ 64) : lor64 a 0 = a := by
  have hor : BitVec.ofNat 64 a ||| BitVec.ofNat 64 0 = BitVec.ofNat 64 a := BitVec.or_zero
  rw [lor64, hor, BitVec.toNat_ofNat, Nat.mod_eq_of_lt h]

theorem lor64_lt (a b : Nat) : lor64 a b < 2 ^ 64 := BitVec.isLt _

theorem land64_lt_left {a b w : Nat} (h : a < 2 ^ w) : land64 a b < 2 ^ w := by
  rw [land64, BitVec.toNat_and, BitVec.toNat_ofNat]
  exact Nat.lt_of_le_of_lt Nat.and_le_left (Nat.lt_of_le_of_lt (Nat.mod_le _ _) h)

/-- Bits that a mask lets through pass it still when others are added. -/
theorem land64_lor64_ne_zero {b c : Nat} (a : Nat) (h : land64 b c ≠ 0) : land64 (lor64 a b) c ≠ 0 := by
  intro hzero
  have hall : (BitVec.ofNat 64 a ||| BitVec.ofNat 64 b) &&& BitVec.ofNat 64 c = 0#64 :=
    BitVec.eq_of_toNat_eq (by
      simp only [land64, lor64, BitVec.ofNat_toNat, BitVec.setWidth_eq] at hzero
      exact hzero)
  have habsorb : BitVec.ofNat 64 b &&& BitVec.ofNat 64 c =
      BitVec.ofNat 64 b &&& ((BitVec.ofNat 64 a ||| BitVec.ofNat 64 b) &&& BitVec.ofNat 64 c) := by
    ext i
    simp only [BitVec.getElem_and, BitVec.getElem_or]
    cases (BitVec.ofNat 64 b)[i] <;> simp
  rw [land64, habsorb, hall, BitVec.and_zero] at h
  exact h rfl

theorem lor64_testBit {i : Nat} (hi : i < 64) (a b : Nat) : (lor64 a b).testBit i = (a.testBit i || b.testBit i) := by
  rw [lor64, BitVec.toNat_or, BitVec.toNat_ofNat, BitVec.toNat_ofNat, Nat.testBit_or, Nat.testBit_mod_two_pow,
    Nat.testBit_mod_two_pow]
  simp [hi]

/-- The bits listed are the ones of the number they give. -/
theorem ofBits_testBit {i : Nat} (hi : i < 64) : ∀ l : List Nat, (ofBits l).testBit i = decide (i ∈ l)
  | [] => by simp [ofBits]
  | j :: l => by
    rw [ofBits, lor64_testBit hi, ofBits_testBit hi l, Nat.testBit_two_pow]
    simp [eq_comm]

theorem bit_eq_testBit (n i : Nat) : bit n i = n.testBit i := by
  rw [Nat.testBit_eq_decide_div_mod_eq]
  simp [bit, beq_eq_decide]

theorem ofBits_lt : ∀ l : List Nat, ofBits l < 2 ^ 64
  | [] => by simp [ofBits]
  | _ :: _ => lor64_lt _ _

/-- A number of at most 64 bits is given by the list of its ones. -/
theorem ofBits_bitsOf {w n : Nat} (hw : w ≤ 64) (hn : n < 2 ^ w) : ofBits (bitsOf w n) = n := by
  apply Nat.eq_of_testBit_eq
  intro i
  have hbig : ∀ k, w ≤ k → n.testBit k = false := fun k hk =>
    Nat.testBit_lt_two_pow (Nat.lt_of_lt_of_le hn (Nat.pow_le_pow_right (by decide) hk))
  by_cases hi : i < 64
  · rw [ofBits_testBit hi]
    by_cases hiw : i < w
    · simp [bitsOf, bit_eq_testBit, hiw]
    · simp [bitsOf, hiw, hbig i (Nat.le_of_not_lt hiw)]
  · have h64 : 2 ^ 64 ≤ 2 ^ i := Nat.pow_le_pow_right (by decide) (Nat.le_of_not_lt hi)
    rw [Nat.testBit_lt_two_pow (Nat.lt_of_lt_of_le (ofBits_lt _) h64), hbig i (by omega)]

/-! ## Pages -/

/-- Every REGION is a whole number of pages (17 R510). -/
theorem region_aligned : ∀ b ∈ blockTypes, b.region % 0x1000 = 0 := by decide

theorem regionOf_aligned (code : Nat) : regionOf code % 0x1000 = 0 := by
  unfold regionOf
  split
  · next b hb => exact region_aligned b (List.mem_of_find?_eq_some hb)
  · rfl

theorem pageBase_aligned (pa : PageId) : pageBase pa % 0x1000 = 0 := by
  have := regionOf_aligned pa.code
  unfold pageBase
  omega

/-- Offsets of one 4 KiB page of a bank lie in the same block types. -/
theorem findType_congr {a b : Nat} (h : a / 0x1000 = b / 0x1000) :
    blockTypes.find? (fun t => decide (t.region ≤ a) && decide (a < t.region + t.perBank * 0x1000)) =
      blockTypes.find? (fun t => decide (t.region ≤ b) && decide (b < t.region + t.perBank * 0x1000)) := by
  apply List.find?_congr
  intro t ht
  have hal := region_aligned t ht
  have hlo : t.region ≤ a ↔ t.region ≤ b := by omega
  have hhi : a < t.region + t.perBank * 0x1000 ↔ b < t.region + t.perBank * 0x1000 := by omega
  rw [decide_eq_decide.mpr hlo, decide_eq_decide.mpr hhi]

/-- Offsets of one 4 KiB page lie in one page of the map. -/
theorem pageAt_congr {a b : Nat} (h : a / 0x1000 = b / 0x1000) : pageAt a = pageAt b := by
  have hbank : a / 0x800000 = b / 0x800000 := by omega
  have hpage : a % 0x800000 / 0x1000 = b % 0x800000 / 0x1000 := by omega
  simp only [pageAt, hbank, findType_congr hpage]
  split
  · split
    · next t ht =>
      have hal := region_aligned t (List.mem_of_find?_eq_some ht)
      have hloc : (a % 0x800000 - t.region) / 0x1000 = (b % 0x800000 - t.region) / 0x1000 := by omega
      rw [hloc]
    · rfl
  · rfl

/-- A register of the first 0x100 bytes of a page is kept under its own offset. -/
theorem canon_common {off : Nat} (h : off % 0x1000 < 0x100) : canon off = off := by
  unfold canon
  split
  · rfl
  · have h1 : ¬ 0x100 ≤ off % 0x1000 := by omega
    have h2 : ¬ 0x138 ≤ off % 0x1000 := by omega
    have h3 : ¬ off % 0x1000 = 0x110 := by omega
    have h4 : ¬ off % 0x1000 = 0x120 := by omega
    have h5 : ¬ off % 0x1000 = 0x128 := by omega
    simp [h1, h2, h3, h4, h5]

theorem canon_pageBase_add (pa : PageId) {o : Nat} (h : o < 0x100) : canon (pageBase pa + o) = pageBase pa + o := by
  have := pageBase_aligned pa
  exact canon_common (by omega)

/-! ## Stored registers -/

/-- The register store is canonical: no register holds 2^64, which none can. -/
abbrev RegsCanonical (d : Dev) : Prop := NMap.wf (2 ^ 64) d.regs = true

theorem reg_setReg_same {d : Dev} {off v : Nat} (h : RegsCanonical d) : reg (setReg d off v) off = v % 2 ^ 64 :=
  NMap.get_set_same _ _ h

theorem reg_setReg_other {d : Dev} {off off' v : Nat} (h : RegsCanonical d) (hne : canon off' ≠ canon off) :
    reg (setReg d off v) off' = reg d off' :=
  NMap.get_set_other _ h hne

theorem setReg_canonical {d : Dev} {off v : Nat} (h : RegsCanonical d) : RegsCanonical (setReg d off v) :=
  NMap.set_wfFrom_of_ne h (Nat.zero_le _) (by omega)

end Sys2Proof.Machine
end

section
/-! SUPPORT. Events raised by EVT_SET: the EVT_STAT of the page takes them, and no other register changes (00 R15). -/

namespace Sys2Proof.Machine

open Sys2Proof

/-- Whether a page is dead depends on the system's state alone. -/
theorem pageDead_of_sys {d e : Dev} (h : e.sys = d.sys) (pa : PageId) : pageDead e pa = pageDead d pa := by
  simp only [pageDead, h]

theorem deadAt_of_pageAt {d : Dev} {page : Nat} {pa : PageId} (h : pageAt page = some pa) : deadAt d page = pageDead d pa := by
  simp only [deadAt, h]

theorem deadAt_raise (d : Dev) (page b q : Nat) : deadAt (raise d page b) q = deadAt d q := by
  unfold deadAt
  split
  · exact pageDead_of_sys (raise_sys d page b) _
  · rfl

theorem raise_regs {d : Dev} {page : Nat} (b : Nat) (h : deadAt d page = false) :
    (raise d page b).regs = (setReg d (page + 0x20) (lor64 (reg d (page + 0x20)) (2 ^ b))).regs := by
  simp [raise, h]

theorem reg_of_regs {d e : Dev} (h : e.regs = d.regs) (off : Nat) : reg e off = reg d off := by
  simp only [reg, h]

theorem raise_canonical {d : Dev} {page : Nat} (b : Nat) (h : deadAt d page = false) (hd : RegsCanonical d) :
    RegsCanonical (raise d page b) := by
  unfold RegsCanonical
  rw [raise_regs b h]
  exact setReg_canonical hd

/-- Events raised one after the other add their bits to EVT_STAT, and change no other register. -/
theorem raiseAll_regs {page : Nat} (l : List Nat) : ∀ {d : Dev}, deadAt d page = false → RegsCanonical d →
    reg d (page + 0x20) < 2 ^ 64 →
    reg (l.foldl (fun d b => raise d page b) d) (page + 0x20) = lor64 (reg d (page + 0x20)) (ofBits l) ∧
    ∀ off, canon off ≠ canon (page + 0x20) → reg (l.foldl (fun d b => raise d page b) d) off = reg d off := by
  induction l with
  | nil => exact fun _ _ hlt => ⟨(lor64_zero hlt).symm, fun _ _ => rfl⟩
  | cons b l ih =>
    intro d hlive hd hlt
    have hstat : reg (raise d page b) (page + 0x20) = lor64 (reg d (page + 0x20)) (2 ^ b) := by
      rw [reg_of_regs (raise_regs b hlive), reg_setReg_same hd, Nat.mod_eq_of_lt (lor64_lt _ _)]
    have hother : ∀ off, canon off ≠ canon (page + 0x20) → reg (raise d page b) off = reg d off := fun off hne => by
      rw [reg_of_regs (raise_regs b hlive), reg_setReg_other hd hne]
    obtain ⟨ihstat, ihother⟩ := ih (d := raise d page b) (by rw [deadAt_raise, hlive]) (raise_canonical b hlive hd)
      (by rw [hstat]; exact lor64_lt _ _)
    constructor
    · rw [List.foldl_cons, ihstat, hstat, lor64_assoc, ofBits]
    · intro off hne
      rw [List.foldl_cons, ihother off hne, hother off hne]

theorem deadAt_raiseAll {page q : Nat} (l : List Nat) : ∀ d : Dev,
    deadAt (l.foldl (fun d b => raise d page b) d) q = deadAt d q := by
  induction l with
  | nil => exact fun _ => rfl
  | cons b l ih => exact fun d => (ih _).trans (deadAt_raise d page b q)

theorem deadAt_setEvents (d : Dev) (pa : PageId) (v q : Nat) : deadAt (setEvents d pa v) q = deadAt d q := deadAt_raiseAll _ d

/-- EVT_SET of a live page sets the bits of EVT_STAT that the page has, and changes no other register (00 R15). -/
theorem setEvents_regs {d : Dev} {pa : PageId} {v : Nat} (hlive : deadAt d (pageBase pa) = false) (hd : RegsCanonical d)
    (hlt : reg d (pageBase pa + 0x20) < 2 ^ 64) (hv : land64 v (eventMask pa.code) < 2 ^ 32) :
    reg (setEvents d pa v) (pageBase pa + 0x20) = lor64 (reg d (pageBase pa + 0x20)) (land64 v (eventMask pa.code)) ∧
    ∀ off, canon off ≠ pageBase pa + 0x20 → reg (setEvents d pa v) off = reg d off := by
  obtain ⟨hstat, hother⟩ := raiseAll_regs (bitsOf 32 (land64 v (eventMask pa.code))) hlive hd hlt
  rw [ofBits_bitsOf (by decide) hv] at hstat
  rw [canon_pageBase_add pa (by decide)] at hother
  exact ⟨hstat, hother⟩

/-- An enabled event of a live page with INT_EN set asserts the block's interrupt (17 R521). -/
theorem blockInt_of_enabled {d : Dev} {page : Nat} (hlive : deadAt d page = false) (hen : bit (reg d (page + 0x10)) 0 = true)
    (hmask : land64 (reg d (page + 0x20)) (reg d (page + 0x28)) ≠ 0) : blockInt d page = true := by
  simp [blockInt, hlive, hen, hmask]

end Sys2Proof.Machine
end

section
/-! SUPPORT. Which slots of a page hold a register, and what the others read and take: nothing (00 R12). -/

namespace Sys2Proof.Machine

open Sys2Proof

/-- The block-specific registers of every type start above the common page (17 R514). -/
theorem rowsOf_above_common (code : Nat) : ∀ r ∈ rowsOf code, 0x100 ≤ r.off := by
  unfold rowsOf
  split <;> decide

theorem common_rows_beside_events :
    ∀ r ∈ commonRows, ¬ (decide (r.off ≤ 0x20) && decide (0x20 < r.off + 8 * r.n) && (0x20 - r.off) % 8 == 0) = true := by decide

/-- EVT_STAT and EVT_SET share a slot of their own, which no row holds. -/
theorem rowAt_events (code : Nat) : rowAt code 0x20 = none := by
  unfold rowAt
  rw [List.find?_eq_none]
  intro r hr
  rcases List.mem_append.mp hr with hc | hb
  · exact common_rows_beside_events r hc
  · have := rowsOf_above_common code r hb
    have hout : ¬ r.off ≤ 0x20 := by omega
    simp [hout]

/-- A slot that holds no register lies in no row of the common page or of the page's type. -/
theorem outside_row {code o : Nat} (h : rowAt code o = none) (ho : o % 8 = 0) {r : RegRow} (hr : r ∈ commonRows ++ rowsOf code)
    (hal : r.off % 8 = 0) : ¬ (r.off ≤ o ∧ o < r.off + 8 * r.n) := by
  rintro ⟨hlo, hhi⟩
  have hslot : (o - r.off) % 8 = 0 := by omega
  have hno := List.find?_eq_none.mp h r hr
  simp [hlo, hhi, hslot] at hno

theorem wideAt_of_rowAt_none {pa : PageId} {o : Nat} (h : rowAt pa.code o = none) : wideAt pa o = false := by
  simp only [wideAt, h]

theorem wideAt_of_rowAt {pa : PageId} {o : Nat} {row : RegRow} (h : rowAt pa.code o = some row) : wideAt pa o = row.wide := by
  simp only [wideAt, h]

theorem readStored_of_rowAt_none {d : Dev} {pa : PageId} {o off : Nat} (h : rowAt pa.code o = none) : readStored d pa o off = 0 := by
  simp only [readStored, h]

theorem writeStored_of_rowAt_none {d : Dev} {pa : PageId} {o v : Nat} (h : rowAt pa.code o = none) : writeStored d pa o v = d := by
  simp only [writeStored, h]

end Sys2Proof.Machine
end

section
/-! SUPPORT. Accesses of the control space: a command that reaches the registers of a device at rest does what `ctlRead` or `ctlWrite`
does, and one lemma for each case of these. -/

namespace Sys2Proof.Machine

open Sys2Proof

/-! ## Devices that stay at rest -/

/-- Rest does not depend on the register store, the halves kept for a path, or what has been sent. -/
theorem AtRest.with_regs_halves_tx {d : Dev} (h : AtRest d) (m sh lh t) :
    AtRest { d with regs := m, shadow := sh, lowHeld := lh, tx := t } :=
  ⟨h.flying, h.trans, h.written, h.flushes, h.tlps, h.sent, h.moves, h.persists, h.noTow, h.noHeld, h.noWalk, h.noStage⟩

theorem AtRest.emit {d : Dev} (h : AtRest d) (o : Out) : AtRest (emit d o) := h.with_regs_halves_tx d.regs d.shadow d.lowHeld _

theorem AtRest.dropHalves {d : Dev} (h : AtRest d) (p : Path) : AtRest (dropHalves d p) := h.with_regs_halves_tx d.regs _ _ d.tx

theorem AtRest.still {d : Dev} (h : AtRest d) : Still d := ⟨by simp [h.flying], by simp [h.noStage]⟩

theorem AtRest.policyRefused {d : Dev} (h : AtRest d) (off : Nat) : AtRest (policyRefused d off) := by
  obtain ⟨m1, h1⟩ := count_regs_only d custPage 0x810 1
  obtain ⟨m2, t, h2⟩ := raiseFe_regs_tx (count d custPage 0x810) custPage 2 { unit := false, addr := off, code := cDENIED }
  rw [Machine.policyRefused, h2, h1]
  exact h.with_regs_halves_tx m2 d.shadow d.lowHeld t

/-! ## Commands that access the control space -/

section
variable {s : State} {p : Path} (hrest : AtRest s.dev) (hreach : pathReaches s.dev p = true) (hquiet : pathQuiet s.dev p = false)
include hrest hreach hquiet

/-- A read leaves what `ctlRead` leaves, and answers what it reads. -/
theorem read_atRest {c : Instr} {off st v : Nat} {D : Dev}
    (hc : exec c s = s.runCtl (fun d fz => (accessRead p off 32 d fz, fz)))
    (hread : ctlRead p off 32 s.dev s.fuses = (st, v, D)) (hD : AtRest D) :
    exec c s = .next { s with dev := settle s.dev (emit D (.ctl p st (.ofNat 64 v))) } := by
  have hdue := dueCtl_none (fz := s.fuses) hrest.still.1 hrest.still.2
  have hgo := goOnCtl_rest (fz := s.fuses) (hD.emit (.ctl p st (.ofNat 64 v)))
  simp [hc, State.runCtl, State.runFuses, hdue, accessRead, hreach, hquiet, hread, hgo]

/-- A write leaves what `ctlWrite` leaves, and answers its status. -/
theorem write_atRest {off width st : Nat} {v : BitVec 64} {D : Dev}
    (hwrite : ctlWrite p off width v.toNat s.dev s.fuses = (st, D, s.fuses)) (hD : AtRest D) :
    exec (.controlRegisterWrite p off width v) s = .next { s with dev := settle s.dev (emit D (.ctl p st 0)) } := by
  have hdue := dueCtl_none (fz := s.fuses) hrest.still.1 hrest.still.2
  have hgo := goOnCtl_rest (fz := s.fuses) (hD.emit (.ctl p st 0))
  have hc : exec (.controlRegisterWrite p off width v) s = s.write p off width (fun _ => v.toNat) := rfl
  simp only [hc, State.write, State.runCtl, State.runFuses, hdue, accessWrite, hreach, hquiet, hwrite, hgo, Bool.not_true,
    Bool.false_eq_true, if_false]

end

/-! ## The cases of an access -/

section
variable {d : Dev} {fz : Fuses} {p : Path} {off width v : Nat} {pa : PageId}

theorem accessOk_32 (h : off % 4 = 0) : accessOk off 32 = true := by simp [accessOk, h]

theorem accessOk_64 (h : off % 8 = 0) : accessOk off 64 = true := by simp [accessOk, h]

/-- An access that is not 32 or 64 bits wide and naturally aligned (00 R11). -/
theorem accessOk_false (h : ¬ ((width = 32 ∧ off % 4 = 0) ∨ (width = 64 ∧ off % 8 = 0))) : accessOk off width = false := by
  simpa [accessOk] using h

theorem ctlRead_misaligned (h : accessOk off width = false) : ctlRead p off width d fz = (cUNSUP, 0, dropHalves d p) := by
  simp [ctlRead, h]

theorem ctlWrite_misaligned (h : accessOk off width = false) : ctlWrite p off width v d fz = (cUNSUP, dropHalves d p, fz) := by
  simp [ctlWrite, h]

theorem ctlWrite_refused (hok : accessOk off width = true) (h : mayWrite d p off = false) :
    ctlWrite p off width v d fz = (refusalOf p, policyRefused (dropHalves d p) off, fz) := by
  simp [ctlWrite, hok, h]

/-- A read outside every live page returns 0 (00 R12; 17 R511). -/
theorem ctlRead_noLivePage (hok : accessOk off width = true) (h : ∀ pa, pageAt off = some pa → pageDead d pa = true) :
    ctlRead p off width d fz = (cOK, 0, dropHalves d p) := by
  cases hp : pageAt off with
  | none => simp [ctlRead, hok, hp]
  | some pa => simp [ctlRead, hok, hp, pageDead_of_sys (dropHalves_sys d p), h pa hp]

/-- A write outside every live page is discarded (00 R12; 17 R511). -/
theorem ctlWrite_noLivePage (hok : accessOk off width = true) (hmay : mayWrite d p off = true)
    (h : ∀ pa, pageAt off = some pa → pageDead d pa = true) :
    ctlWrite p off width v d fz = (cOK, dropHalves d p, fz) := by
  cases hp : pageAt off with
  | none => simp [ctlWrite, hok, hmay, hp]
  | some pa => simp [ctlWrite, hok, hmay, hp, pageDead_of_sys (dropHalves_sys d p), h pa hp]

/-- A 32-bit read of a slot that holds no 64-bit register returns its half. -/
theorem ctlRead_narrow (h4 : off % 4 = 0) (hp : pageAt off = some pa) (hl : pageDead d pa = false) (hw : wideAt pa (slotOfs off) = false) :
    ctlRead p off 32 d fz = (cOK, if off % 8 == 0 then readSlot (dropHalves d p) fz pa (slotOfs off) % 2 ^ 32
      else readSlot (dropHalves d p) fz pa (slotOfs off) / 2 ^ 32, dropHalves d p) := by
  simp [ctlRead, accessOk_32 h4, hp, pageDead_of_sys (dropHalves_sys d p), hl, hw]

/-- A 32-bit read of a half of a 64-bit register. -/
theorem ctlRead_wide (h4 : off % 4 = 0) (hp : pageAt off = some pa) (hl : pageDead d pa = false) (hw : wideAt pa (slotOfs off) = true) :
    let r := readHalf (dropHalves d p) p off (readSlot (dropHalves d p) fz pa (slotOfs off)) (NMap.get none d.shadow (pathIx p))
    ctlRead p off 32 d fz = (cOK, r.1, r.2) := by
  simp [ctlRead, accessOk_32 h4, hp, pageDead_of_sys (dropHalves_sys d p), hl, hw]

/-- A write of a live page is the page's. -/
theorem ctlWrite_page (hok : accessOk off width = true) (hmay : mayWrite d p off = true) (hp : pageAt off = some pa)
    (hl : pageDead d pa = false) :
    let r := writePage p pa off width (v % 2 ^ width) (NMap.get none d.lowHeld (pathIx p)) (dropHalves d p) fz
    ctlWrite p off width v d fz = (cOK, r.1, r.2) := by
  simp [ctlWrite, hok, hmay, hp, pageDead_of_sys (dropHalves_sys d p), hl]

/-- The low half of a 64-bit register is returned, and its high half is captured (00 R16). -/
theorem readHalf_low {cap : Option (Nat × Nat)} (h : off % 8 = 0) :
    readHalf d p off v cap = (v % 2 ^ 32, { d with shadow := NMap.set none d.shadow (pathIx p) (some (off, v / 2 ^ 32)) }) := by
  simp [readHalf, h]

/-- The high half is what the capture of its register holds (00 R16). -/
theorem readHalf_captured {h : Nat} (h8 : off % 8 = 0) : readHalf d p (off + 4) v (some (off, h)) = (h, d) := by
  have hhigh : ¬ (off + 4) % 8 = 0 := by omega
  simp [readHalf, hhigh]

/-- A write of the high half of a slot that holds no 64-bit register and no events is discarded (17 R515). -/
theorem writePage_high_narrow {held : Option (Nat × Nat)} (hw : wideAt pa (slotOfs off) = false) (hhigh : off % 8 = 4)
    (he : slotOfs off ≠ 0x20) : writePage p pa off width v held d fz = (d, fz) := by
  simp [writePage, hw, hhigh, he]

/-- A write of the low half, or of the whole, of a slot that holds no 64-bit register and no events writes the 32-bit register. -/
theorem writePage_low_narrow {held : Option (Nat × Nat)} (hw : wideAt pa (slotOfs off) = false) (hlow : off % 8 ≠ 4)
    (he : slotOfs off ≠ 0x20) : writePage p pa off width v held d fz = writeNarrow d fz pa (slotOfs off) (v % 2 ^ 32) := by
  simp [writePage, hw, hlow, he]

/-- A write of the high half of the events' slot is one of EVT_SET. -/
theorem writePage_evtSet {held : Option (Nat × Nat)} (hhigh : off % 8 = 4) (he : slotOfs off = 0x20) :
    writePage p pa off width v held d fz = (setEvents d pa v, fz) := by
  simp [writePage, he, hhigh, wideAt_of_rowAt_none (rowAt_events pa.code)]

end

end Sys2Proof.Machine
end

section
/-! SUPPORT. A slot that no row of its page holds reads 0 and takes no write (00 R12): every register that a page's read or write names
lies in a row of the map. -/

namespace Sys2Proof.Machine

open Sys2Proof

/-- One row of the type's own registers holds every slot of a range. -/
def rowCovers (code lo hi : Nat) : Bool :=
  (rowsOf code).any (fun r => decide (r.off % 8 = 0) && decide (r.off ≤ lo) && decide (hi ≤ r.off + 8 * r.n))

/-- A slot that holds no register is none that a register of the map stands at. -/
theorem absurd_of_occupied {P : Prop} {code c o : Nat} (h : rowAt code o = none) (hc : code = c) (ho : (rowAt c o).isSome = true) : P := by
  rw [hc] at h
  simp [h] at ho

/-- A slot that holds no register lies in no range that a row covers. -/
theorem outside_range {code o : Nat} (h : rowAt code o = none) (h8 : o % 8 = 0) (c lo hi : Nat) (hr : rowCovers c lo hi = true) :
    (code == c && decide (lo ≤ o) && decide (o < hi)) = false := by
  obtain ⟨r, hmem, hcov⟩ := List.any_eq_true.mp hr
  simp only [Bool.and_eq_true, decide_eq_true_eq] at hcov
  obtain ⟨⟨hal, hlo⟩, hhi⟩ := hcov
  by_cases hc : code = c
  · subst hc
    have hout := outside_row h h8 (List.mem_append_right _ hmem) hal
    have hno : ¬ (lo ≤ o ∧ o < hi) := fun hin => hout ⟨by omega, by omega⟩
    simpa using hno
  · simp [hc]

section
variable {d : Dev} {fz : Fuses} {pa : PageId} {o off v : Nat} (h : rowAt pa.code o = none)
include h

/-! ## Reads -/

/-- The slots of the first-error record are held by every page. -/
theorem not_firstError : [0x40, 0x48, 0x50, 0x58, 0x60].contains o = false := by
  simp only [List.contains_eq_mem, decide_eq_false_iff_not, List.mem_cons, List.not_mem_nil, or_false]
  rintro (rfl | rfl | rfl | rfl | rfl) <;> exact absurd_of_occupied h rfl rfl

section
variable (h8 : o % 8 = 0)
include h8

theorem readManage_unoccupied : readManage d fz pa o off = 0 := by
  unfold readManage
  split
  case h_17 =>
    simp only [outside_range h h8 0x01 0x200 0x240 rfl, outside_range h h8 0x02 0x200 0x238 rfl, Bool.false_eq_true, if_false,
      readStored_of_rowAt_none h]
  all_goals exact absurd_of_occupied h ‹_› rfl

theorem readFabric_unoccupied : readFabric d pa o off = 0 := by
  unfold readFabric
  dsimp only
  split
  case h_18 =>
    simp only [outside_range h h8 0x20 0x200 0x280 rfl, outside_range h h8 0x21 0x140 0x160 rfl,
      outside_range h h8 0x21 0x168 0x188 rfl, Bool.false_eq_true, if_false, readStored_of_rowAt_none h]
  all_goals exact absurd_of_occupied h ‹_› rfl

theorem readTiers_unoccupied : readTiers d pa o off = 0 := by
  unfold readTiers
  dsimp only
  split
  case h_17 =>
    simp only [outside_range h h8 0x33 0x1C0 0x200 rfl, outside_range h h8 0x33 0x200 0x240 rfl,
      outside_range h h8 0x33 0x340 0x3C0 rfl, outside_range h h8 0x34 0x1C8 0x1F8 rfl, Bool.false_eq_true, if_false,
      readStored_of_rowAt_none h]
  all_goals exact absurd_of_occupied h ‹_› rfl

theorem readCompute_unoccupied : readCompute d pa o off = 0 := by
  unfold readCompute
  dsimp only
  split
  case h_21 =>
    simp only [outside_range h h8 0x50 0x200 0x280 rfl, outside_range h h8 0x60 0x108 0x148 rfl,
      outside_range h h8 0x61 0x108 0x148 rfl, outside_range h h8 0x71 0x200 0x230 rfl, outside_range h h8 0x72 0x180 0x1D0 rfl,
      Bool.false_eq_true, if_false, readStored_of_rowAt_none h]
  all_goals exact absurd_of_occupied h ‹_› rfl

/-- A slot that holds no register, BLK_ID, BLK_CAP or EVT_STAT, which no row lists, reads 0. -/
theorem readSlot_unoccupied (hid : o ≠ 0) (hcap : o ≠ 8) (hevt : o ≠ 0x20) : readSlot d fz pa o = 0 := by
  unfold readSlot
  dsimp only
  split
  case h_1 => exact absurd rfl hid
  case h_2 => exact absurd rfl hcap
  case h_5 => exact absurd rfl hevt
  case h_8 =>
    simp only [not_firstError h, readManage_unoccupied h h8, readFabric_unoccupied h h8, readTiers_unoccupied h h8,
      readCompute_unoccupied h h8, Bool.false_eq_true, if_false, ite_self]
  all_goals exact absurd_of_occupied h rfl rfl

end

/-! ## Writes -/

theorem writeManageFabric_unoccupied : writeManageFabric d pa o v = d := by
  unfold writeManageFabric
  dsimp only
  split
  case h_13 => exact writeStored_of_rowAt_none h
  all_goals exact absurd_of_occupied h ‹_› rfl

theorem writeBlock_unoccupied : writeBlock d pa o v = d := by
  unfold writeBlock
  dsimp only
  split
  case h_12 => exact writeManageFabric_unoccupied h
  all_goals exact absurd_of_occupied h ‹_› rfl

/-- A slot that holds neither a register nor the events takes no write. -/
theorem writeNarrow_unoccupied (hevt : o ≠ 0x20) : writeNarrow d fz pa o v = (d, fz) := by
  unfold writeNarrow
  dsimp only
  split
  case h_2 => exact absurd rfl hevt
  case h_5 =>
    have hfw : (pa.code == 0x02 && o == 0x308) = false := by
      by_contra hfw
      simp only [Bool.not_eq_false, Bool.and_eq_true, beq_iff_eq] at hfw
      obtain ⟨hc, rfl⟩ := hfw
      exact absurd_of_occupied h hc rfl
    simp only [hfw, Bool.false_eq_true, if_false, writeBlock_unoccupied h]
  all_goals exact absurd_of_occupied h rfl rfl

end

end Sys2Proof.Machine
end

section
/-! SUPPORT. Accesses of an offset that no register occupies (00 R12; 17 R515). -/

namespace Sys2Proof.Machine

open Sys2Proof

section
variable {d : Dev} {fz : Fuses} {p : Path} {off width v : Nat} {pa : PageId} (hpage : pageAt off = some pa)
  (hlive : pageDead d pa = false)
include hpage hlive

/-- A 32-bit read of a slot that nothing occupies returns 0. -/
theorem ctlRead_unoccupied (h4 : off % 4 = 0) (hrow : rowAt pa.code (slotOfs off) = none) (hid : slotOfs off ≠ 0)
    (hcap : slotOfs off ≠ 8) (hevt : slotOfs off ≠ 0x20) : ctlRead p off 32 d fz = (cOK, 0, dropHalves d p) := by
  rw [ctlRead_narrow h4 hpage hlive (wideAt_of_rowAt_none hrow),
    readSlot_unoccupied hrow (Nat.mul_mod_left _ _) hid hcap hevt, Nat.zero_mod, Nat.zero_div, ite_self]

/-- A write of a slot that nothing occupies is discarded. -/
theorem ctlWrite_unoccupied (hok : accessOk off width = true) (hmay : mayWrite d p off = true)
    (hrow : rowAt pa.code (slotOfs off) = none) (hevt : slotOfs off ≠ 0x20) :
    ctlWrite p off width v d fz = (cOK, dropHalves d p, fz) := by
  have hw := wideAt_of_rowAt_none hrow
  rw [ctlWrite_page hok hmay hpage hlive]
  by_cases hhigh : off % 8 = 4
  · rw [writePage_high_narrow hw hhigh hevt]
  · rw [writePage_low_narrow hw hhigh hevt, writeNarrow_unoccupied hrow hevt]

/-- The high half of a 32-bit register's slot reads 0. -/
theorem ctlRead_high_narrow {row : RegRow} (hhigh : off % 8 = 4) (hrow : rowAt pa.code (slotOfs off) = some row)
    (hnarrow : row.wide = false) (hsmall : readSlot (dropHalves d p) fz pa (slotOfs off) < 2 ^ 32) :
    ctlRead p off 32 d fz = (cOK, 0, dropHalves d p) := by
  have hlow : (off % 8 == 0) = false := by simp [hhigh]
  rw [ctlRead_narrow (by omega) hpage hlive ((wideAt_of_rowAt hrow).trans hnarrow), hlow, if_neg Bool.false_ne_true,
    Nat.div_eq_of_lt hsmall]

/-- A 32-bit write of the high half of a 32-bit register's slot is discarded. -/
theorem ctlWrite_high_narrow {row : RegRow} (hhigh : off % 8 = 4) (hmay : mayWrite d p off = true)
    (hrow : rowAt pa.code (slotOfs off) = some row) (hnarrow : row.wide = false) :
    ctlWrite p off 32 v d fz = (cOK, dropHalves d p, fz) := by
  have hevt : slotOfs off ≠ 0x20 := fun he => by
    rw [he, rowAt_events] at hrow
    cases hrow
  rw [ctlWrite_page (accessOk_32 (by omega)) hmay hpage hlive,
    writePage_high_narrow ((wideAt_of_rowAt hrow).trans hnarrow) hhigh hevt]

end

/-- Where an offset reads 0 and discards what is written, each access of it leaves nothing but the halves dropped and its answer. -/
theorem accesses_perform_nothing {s : State} {p : Path} {off : Nat} {v : BitVec 64} (hrest : AtRest s.dev)
    (hreach : pathReaches s.dev p = true) (hquiet : pathQuiet s.dev p = false) (h4 : off % 4 = 0)
    (hread : ctlRead p off 32 s.dev s.fuses = (cOK, 0, dropHalves s.dev p))
    (hwrite : ∀ width, accessOk off width = true →
      ctlWrite p off width v.toNat s.dev s.fuses = (cOK, dropHalves s.dev p, s.fuses)) :
    let t : State := { s with dev := settle s.dev (emit (dropHalves s.dev p) (.ctl p 0 0)) }
    exec (.counterLowHalfRead p off) s = .next t ∧ exec (.counterHighHalfRead p off) s = .next t ∧
      exec (.controlRegisterWrite p off 32 v) s = .next t ∧
      (off % 8 = 0 → exec (.controlRegisterWrite p off 64 v) s = .next t) :=
  have hdrop := hrest.dropHalves p
  ⟨read_atRest hrest hreach hquiet rfl hread hdrop, read_atRest hrest hreach hquiet rfl hread hdrop,
    write_atRest hrest hreach hquiet (hwrite 32 (accessOk_32 h4)) hdrop,
    fun h8 => write_atRest hrest hreach hquiet (hwrite 64 (accessOk_64 h8)) hdrop⟩

end Sys2Proof.Machine
end

section
/-! The control space: accesses that perform nothing, unoccupied offsets, EVT_SET and counter halves. -/

namespace Sys2Proof.Machine

open Sys2Proof

/-- Settles O6: in each of the three cases the access leaves what `dropHalves` leaves, and in the last what the refusal adds, and the
device at rest goes on with nothing. -/
theorem refusedAccessesPerformNothing : Obligations.RefusedAccessesPerformNothing := by
  refine ⟨?_, ?_, ?_⟩
  · intro s p off width v hrest hreach hquiet
    refine ⟨fun hbad => ?_, fun hmis => ?_⟩
    · exact write_atRest hrest hreach hquiet (ctlWrite_misaligned (accessOk_false hbad)) (hrest.dropHalves p)
    · have hbad : accessOk off 32 = false := accessOk_false (by omega)
      exact ⟨read_atRest hrest hreach hquiet rfl (ctlRead_misaligned hbad) (hrest.dropHalves p),
        read_atRest hrest hreach hquiet rfl (ctlRead_misaligned hbad) (hrest.dropHalves p)⟩
  · intro s p off v pa hrest hreach hquiet hmay h8 hpage hwest hheld
    have hdead : ∀ q, pageAt off = some q → pageDead s.dev q = true := by
      intro q hq
      obtain rfl : pa = q := Option.some.inj (hpage.symm.trans hq)
      simp [pageDead, hwest, hheld]
    have hok : ∀ w, w = 32 ∨ w = 64 → accessOk off w = true := by
      rintro w (rfl | rfl)
      · exact accessOk_32 (by omega)
      · exact accessOk_64 h8
    exact ⟨fun w hw => write_atRest hrest hreach hquiet (ctlWrite_noLivePage (hok w hw) hmay hdead) (hrest.dropHalves p),
      read_atRest hrest hreach hquiet rfl (ctlRead_noLivePage (hok 32 (.inl rfl)) hdead) (hrest.dropHalves p)⟩
  · intro s p off width v hrest hreach hquiet hok hmay
    have hcode : refusalOf p = if p = .pcie0 ∨ p = .pcie1 then 0x0D else 0x04 := by cases p <;> rfl
    have hwrite := ctlWrite_refused (v := v.toNat) (fz := s.fuses) hok hmay
    rw [hcode] at hwrite
    exact write_atRest hrest hreach hquiet hwrite ((hrest.dropHalves p).policyRefused off)

/-- Settles O7: outside every live page the access ends before a register is named; in a slot of a live page that no row holds the page
reads 0 and takes no write; and a 32-bit register leaves the high half of its slot 0. -/
theorem unoccupiedOffsetReadsZeroAndDiscardsWrites : Obligations.UnoccupiedOffsetReadsZeroAndDiscardsWrites := by
  intro s p off v hrest hreach hquiet hmay
  refine ⟨fun hnone h4 => ?_, fun pa hpage hlive h4 hrow hid hcap hevt => ?_, fun pa row hpage hlive hhigh hrow hnarrow => ⟨?_, ?_⟩⟩
  · have hdead : ∀ pa, pageAt off = some pa → pageDead s.dev pa = true := fun pa hpa => by simp [hnone] at hpa
    exact accesses_perform_nothing hrest hreach hquiet h4 (ctlRead_noLivePage (accessOk_32 h4) hdead)
      (fun _ hok => ctlWrite_noLivePage hok hmay hdead)
  · exact accesses_perform_nothing hrest hreach hquiet h4 (ctlRead_unoccupied hpage hlive h4 hrow hid hcap hevt)
      (fun _ hok => ctlWrite_unoccupied hpage hlive hok hmay hrow hevt)
  · exact write_atRest hrest hreach hquiet (ctlWrite_high_narrow hpage hlive hhigh hmay hrow hnarrow) (hrest.dropHalves p)
  · intro hsmall
    exact read_atRest hrest hreach hquiet rfl (ctlRead_high_narrow hpage hlive hhigh hrow hnarrow hsmall) (hrest.dropHalves p)

/-- Settles O10: EVT_SET is the high half of the events' slot, and raises the bits that the page has, one after the other. -/
theorem eventSetRaisesAndCountsNothing : Obligations.EventSetRaisesAndCountsNothing := by
  intro s p pa v hr hcanon hlt d page set
  have hal := pageBase_aligned pa
  obtain ⟨_, _, _, hpage, hlive, _⟩ := id hr
  have hdead : deadAt (dropHalves d p) page = false := by
    rw [deadAt_of_pageAt ((pageAt_congr (by omega)).trans hpage), pageDead_of_sys (dropHalves_sys d p), hlive]
  have hset : set < 2 ^ 32 := land64_lt_left v.isLt
  obtain ⟨hstat, hother⟩ := setEvents_regs (v := v.toNat) hdead hcanon hlt hset
  refine ⟨setEvents (dropHalves d p) pa v.toNat, ?_, hstat, hother, fun hen hmask => ?_⟩
  · refine writes_of _ s p _ pa 32 (fun _ => v.toNat) _ rfl hr (accessOk_32 (by omega)) ?_
    rw [Nat.mod_eq_of_lt v.isLt]
    exact writePage_evtSet (by omega) (by unfold slotOfs; omega)
  · have hctl : reg (setEvents (dropHalves d p) pa v.toNat) (page + 0x10) = reg d (page + 0x10) :=
      hother _ (by rw [canon_pageBase_add pa (by decide)]; omega)
    have hevt : reg (setEvents (dropHalves d p) pa v.toNat) (page + 0x28) = reg d (page + 0x28) :=
      hother _ (by rw [canon_pageBase_add pa (by decide)]; omega)
    refine blockInt_of_enabled (by rw [deadAt_setEvents, hdead]) (by rw [hctl, hen]) ?_
    rw [hstat, hevt]
    exact land64_lor64_ne_zero _ hmask

/-- Settles O11: the low half captures, and the high half returns the capture. -/
theorem counterHalvesAreReadFromOneInstant : Obligations.CounterHalvesAreReadFromOneInstant := by
  intro s p off pa row hrest hreach hquiet h8 hpage hpage4 hlive hrow hwide
  have hslot : slotOfs off = off % 0x1000 := by unfold slotOfs; omega
  have hslot4 : slotOfs (off + 4) = off % 0x1000 := by unfold slotOfs; omega
  have hw : wideAt pa (off % 0x1000) = true := (wideAt_of_rowAt hrow).trans hwide
  refine ⟨?_, fun h hcap => ?_⟩
  · have hread := ctlRead_wide (p := p) (fz := s.fuses) (by omega) hpage hlive (hslot ▸ hw)
    rw [hslot, readHalf_low h8] at hread
    exact read_atRest hrest hreach hquiet rfl hread ((hrest.dropHalves p).with_regs_halves_tx _ _ _ _)
  · have hread := ctlRead_wide (p := p) (fz := s.fuses) (by omega) hpage4 hlive (hslot4 ▸ hw)
    rw [hcap, readHalf_captured h8] at hread
    exact read_atRest hrest hreach hquiet rfl hread (hrest.dropHalves p)

end Sys2Proof.Machine
end

/-! ## Proofs: the idle step, stores and write-backs, and the Causeway (01 R24-R27, R33, R35; 03 R87-R90; 05 R168-R171) -/

section
/-! SUPPORT. What the idle step's parts leave alone: the requests in flight and the image that is being staged. -/

namespace Sys2Proof.Machine

open Sys2Proof

/-- Drawing the sizes of texts uses up free values alone. -/
theorem textSizes_fresh_only : ∀ (k : Nat) (d : Dev), ∃ n, (textSizes k d).2 = { d with fresh := n }
  | 0, d => ⟨d.fresh, rfl⟩
  | k + 1, d => by
    obtain ⟨n, h⟩ := textSizes_fresh_only k (freeVal d).2
    exact ⟨n, h⟩

/-- The console's step leaves the requests in flight and Customs alone. -/
theorem conStep_flying_cust (d : Dev) : (conStep d).flying = d.flying ∧ (conStep d).cust = d.cust := by
  unfold conStep
  dsimp only
  split
  · exact ⟨rfl, rfl⟩
  · obtain ⟨n, hn⟩ := textSizes_fresh_only ((d.tx.drop d.mgmt.conSeen).filter _).length d
    rw [hn]
    split
    · exact ⟨rfl, rfl⟩
    · simp

/-- With nothing new and nothing left to print, the console does nothing. -/
theorem conStep_of_printed {d : Dev} (hbuf : d.mgmt.conBuf = []) (hseen : d.mgmt.conSeen = d.tx.length) : conStep d = d := by
  have hkeep : { d with mgmt.conSeen := d.tx.length } = d := by rw [← hseen]
  simpa [conStep, hbuf, hseen] using hkeep

/-- A delta changes memory and the count of its site. -/
theorem applyDelta_tiers_regs (d : Dev) (x : Nat × Nat × Nat × List Byte) :
    ∃ t m, applyDelta d x = { d with tiers := t, regs := m } := by
  unfold applyDelta
  dsimp only
  split
  · next st _ =>
    obtain ⟨m, h⟩ := count_regs_only (setMem d _ _) (pgI 0x31 5 st) 0x818 1
    exact ⟨_, m, h⟩
  · exact ⟨_, d.regs, rfl⟩

/-- What a list of updates of tiers and registers changes lies in these. -/
theorem foldl_tiers_regs {α : Type} (f : Dev → α → Dev) (h : ∀ d a, ∃ t m, f d a = { d with tiers := t, regs := m }) :
    ∀ (l : List α) (d : Dev), ∃ t m, l.foldl f d = { d with tiers := t, regs := m }
  | [], d => ⟨d.tiers, d.regs, rfl⟩
  | a :: l, d => by
    obtain ⟨t1, m1, h1⟩ := h d a
    obtain ⟨t2, m2, h2⟩ := foldl_tiers_regs f h l (f d a)
    exact ⟨t2, m2, by rw [List.foldl_cons, h2, h1]⟩

theorem rebuildGranule_tiers_regs (pos chan stripe : Nat) (d : Dev) (o : Nat) :
    ∃ t m, rebuildGranule pos chan stripe d o = { d with tiers := t, regs := m } := by
  unfold rebuildGranule
  extract_lets g others
  split
  · exact ⟨d.tiers, d.regs, rfl⟩
  · split
    · exact ⟨_, d.regs, rfl⟩
    · exact ⟨_, d.regs, rfl⟩

/-- Rebuilding a unit changes the tiers and counts. -/
theorem rebuildUnit_tiers_regs (pos chan : Nat) (d : Dev) (stripe : Nat) :
    ∃ t m, rebuildUnit pos chan d stripe = { d with tiers := t, regs := m } := by
  obtain ⟨t1, m1, h1⟩ := foldl_tiers_regs applyDelta applyDelta_tiers_regs
    (d.tiers.deltas.filter (fun x => x.1 == chan && x.2.1 == stripe)) d
  obtain ⟨t2, m2, h2⟩ := foldl_tiers_regs (rebuildGranule pos chan stripe) (rebuildGranule_tiers_regs pos chan stripe)
    [0, 64, 128, 192] (applyStripe d chan stripe)
  exact ⟨t2, m2, by rw [rebuildUnit, h2, applyStripe, h1]⟩

/-- A tick of a rebuild changes the tiers and counts. -/
theorem rebuildTick_tiers_regs (d : Dev) : ∃ t m, rebuildTick d = { d with tiers := t, regs := m } := by
  unfold rebuildTick
  split
  · exact ⟨d.tiers, d.regs, rfl⟩
  · next r _ =>
    dsimp only
    split
    · exact ⟨d.tiers, d.regs, rfl⟩
    · split
      · exact ⟨_, d.regs, rfl⟩
      · obtain ⟨t1, m1, h1⟩ := rebuildUnit_tiers_regs r.position (r.cursor / stripesPerChan) d (r.cursor % stripesPerChan)
        rw [h1]
        split
        · obtain ⟨m2, h2⟩ := count_regs_only _ (pg 0x34 (bankOfSite r.position)) 0x800 256
          exact ⟨_, m2, by rw [h2]⟩
        · obtain ⟨m2, h2⟩ := count_regs_only _ (pg 0x34 (bankOfSite r.position)) 0x800 256
          exact ⟨_, m2, by rw [h2]⟩

/-- A cycle that passes changes the LTC alone. -/
theorem tick_sys_only (d : Dev) : ∃ y, tick d = { d with sys := y } := by
  unfold tick
  split
  · exact ⟨_, rfl⟩
  · exact ⟨d.sys, rfl⟩

/-- Where nothing is rebuilt onto the spare, its tick does nothing. -/
theorem rebuildTick_of_none {d : Dev} (h : d.tiers.rebuild = none) : rebuildTick d = d := by simp [rebuildTick, h]

/-- A cycle of a device with no request in flight and no image being staged: a rebuild goes on, and the console sends. -/
theorem step_of_nothing_due {s : State} (hpend : s.pending = []) (hfly : s.dev.flying = []) (hfw : s.dev.cust.fw = none) :
    step s = .next { s with dev := settle s.dev (conStep (if live s.dev then rebuildTick (tick s.dev) else tick s.dev)) } := by
  have hdue : ∀ d, d.flying = [] → d.cust.fw = none → dueCtl (conStep d) s.fuses = (conStep d, s.fuses) := by
    intro d hf hw
    obtain ⟨hcf, hcc⟩ := conStep_flying_cust d
    exact dueCtl_none (by simp [hcf, hf]) (by simp [hcc, hw])
  obtain ⟨y, htick⟩ := tick_sys_only s.dev
  obtain ⟨t, m, hrebuild⟩ := rebuildTick_tiers_regs (tick s.dev)
  have hend := hdue (if live s.dev then rebuildTick (tick s.dev) else tick s.dev)
    (by rw [hrebuild, htick]; split <;> exact hfly) (by rw [hrebuild, htick]; split <;> exact hfw)
  simp only [step_nil s hpend, idle, hend]

end Sys2Proof.Machine
end

section
/-! The idle step. -/

namespace Sys2Proof.Machine

open Sys2Proof

/-- Settles O3: with nothing due, what the cycle leaves is what the rebuild and the console leave. -/
theorem idleStepIsOneCycle : Obligations.IdleStepIsOneCycle := by
  intro s hpend hrest d
  have htick : d = tick s.dev := rfl
  clear_value d
  subst htick
  obtain ⟨y, hsys⟩ := tick_sys_only s.dev
  have hstep := step_of_nothing_due hpend hrest.flying hrest.noStage
  refine ⟨fun hlive => ?_, fun hnone => ?_⟩
  · rwa [if_pos hlive] at hstep
  · rw [rebuildTick_of_none (d := tick s.dev) (by rw [hsys]; exact hnone), ite_self] at hstep
    refine ⟨hstep, fun hbuf hseen => ?_⟩
    rwa [conStep_of_printed (d := tick s.dev) (by rw [hsys]; exact hbuf) (by rw [hsys]; exact hseen)] at hstep

end Sys2Proof.Machine
end

section
/-! SUPPORT. What the home's own work does, case by case: acknowledgements, parity deltas and the write-backs of accumulators. -/

namespace Sys2Proof.Machine

open Sys2Proof

/-! ## Acknowledgements and parity deltas (01 R35; 03 R87, R88, R90) -/

section
variable {d : Dev} {id : Nat}

theorem storeAcked_of_ack {f : Flying} {st : Nat} {l : List Byte} (h : flyingOf d id = some f) (hw : f.wait = .ack st l) :
    storeAcked d id = finishFlying d f st l := by simp [storeAcked, h, hw]

theorem storeAcked_of_none (h : flyingOf d id = none) : storeAcked d id = d := by simp [storeAcked, h]

end

section
variable {d : Dev} {chan stripe : Nat}

theorem deltaApply_of_none (h : d.tiers.deltas.find? (fun x => x.1 == chan && x.2.1 == stripe) = none) :
    deltaApply d chan stripe = d := by simp [deltaApply, h]

/-- The device without the oldest delta queued for the stripe. -/
def dequeueDelta (d : Dev) (chan stripe : Nat) : Dev :=
  { d with tiers.deltas := delFirst (fun x => x.1 == chan && x.2.1 == stripe) d.tiers.deltas }

section
variable {o : Nat} {l : List Byte} (h : d.tiers.deltas.find? (fun x => x.1 == chan && x.2.1 == stripe) = some (chan, stripe, o, l))
include h

/-- The parity unit takes the delta by XOR, and its site counts it. -/
theorem deltaApply_of_up {st : Nat} (hup : unitState d (parityPos chan stripe) chan stripe = .up st) :
    let cell := stackCell (parityPos chan stripe) chan stripe o
    deltaApply d chan stripe =
      count (setMem (dequeueDelta d chan stripe) cell (xorBytes (memBytes d cell l.length) l)) (pgI 0x31 5 st) 0x818 := by
  have hkept : unitState (dequeueDelta d chan stripe) (parityPos chan stripe) chan stripe = .up st := hup
  have hqueue : deltaApply d chan stripe = applyDelta (dequeueDelta d chan stripe) (chan, stripe, o, l) := by
    simp only [deltaApply, h, hup, dequeueDelta]
  simp only [hqueue, applyDelta, hkept]
  rfl

/-- A unit that is not served takes nothing: its stripe is logged. -/
theorem deltaApply_of_not_up (hdown : ∀ st, unitState d (parityPos chan stripe) chan stripe ≠ .up st) :
    deltaApply d chan stripe =
      logStripe (dequeueDelta d chan stripe) (if parityPos chan stripe < 5 then 0 else 1) chan stripe := by
  cases hu : unitState d (parityPos chan stripe) chan stripe with
  | up st => exact absurd hu (hdown st)
  | missing => simp only [deltaApply, h, hu, dequeueDelta]
  | withheld => simp only [deltaApply, h, hu, dequeueDelta]

end

end

/-! ## Write-backs of accumulators (05 R168, R169, R171) -/

/-- The device once a write-back has read its granule and the write of the sums has come to the home. -/
def sendSums (d : Dev) (bank g : Nat) (a : Accum) (x : Extent) : Dev :=
  let r := readPlain d x { off := g, berth := x.e.berth } g 64
  let id := r.2.2.nextFlying
  let d1 := accumMod r.2.2 bank g (fun a => { a with writingBack := true, write := some id })
  attemptOwn (ownWrite d1 x g (sumGranule a r.2.1) .internal 0) id

/-- A write of sums that has ended counts or loses them, and the accumulator closes. -/
theorem wroteSums_of_extAt {d : Dev} {a : Accum} {x : Extent} (st : Nat) (hx : extAt d a.offset = some x) :
    wroteSums d a st = closeAccum (if st = cOK then count d (pg 0x41 a.bank) 0x810 else loseSums d a.bank x a.offset st) a := by
  simp only [wroteSums, hx, beq_iff_eq]

section
variable {d : Dev} {bank g : Nat} {a : Accum} (ha : accumAt d bank g = some a)
include ha

/-- An accumulator whose sums are being written waits for the write. -/
theorem finishWb_of_writing (hw : a.write.isSome = true) : finishWb d bank g = d := by simp [finishWb, ha, hw]

variable {x : Extent} (hw : a.write = none) (hx : extAt d g = some x)
include hw hx

/-- A granule that cannot be read loses the sums. -/
theorem finishWb_of_unread (hread : (readPlain d x { off := g, berth := x.e.berth } g 64).1 ≠ cOK) :
    let r := readPlain d x { off := g, berth := x.e.berth } g 64
    finishWb d bank g = closeAccum (loseSums r.2.2 bank x g r.1) a := by
  simp [finishWb, ha, hw, hx, hread]

section
variable (hread : (readPlain d x { off := g, berth := x.e.berth } g 64).1 = cOK)
include hread

/-- A write of the sums that has ended at once closes the accumulator. -/
theorem finishWb_of_wrote {b : Accum} {st : Nat} (hb : accumAt (sendSums d bank g a x) bank g = some b) (hst : b.wrote = some st) :
    finishWb d bank g = wroteSums (sendSums d bank g a x) b st := by
  unfold sendSums at hb ⊢
  simp [finishWb, ha, hw, hx, hread, hb, hst]

/-- A write of the sums that goes on leaves the accumulator open. -/
theorem finishWb_of_unwritten (hopen : ∀ b, accumAt (sendSums d bank g a x) bank g = some b → b.wrote = none) :
    finishWb d bank g = sendSums d bank g a x := by
  unfold sendSums at hopen ⊢
  simp only [finishWb, ha, hw, hx, hread, Option.isSome_none, Bool.false_eq_true, if_false, bne_self_eq_false]
  split
  · next b hb => simp only [hopen b hb]
  · rfl

end

end

end Sys2Proof.Machine
end

section
/-! Store acknowledgements, parity deltas and the write-backs of the Eddy. -/

namespace Sys2Proof.Machine

open Sys2Proof

theorem exec_storeAck (s : State) (id : Nat) : exec (.storeAck id) s = .next (goingOn s (storeAcked s.dev id)) := rfl

theorem exec_stackDeltaApply (s : State) (chan stripe : Nat) :
    exec (.stackDeltaApply chan stripe) s = .next (goingOn s (deltaApply s.dev chan stripe)) := rfl

theorem exec_eddyIdleExpiry {s : State} {bank g : Nat} {a : Accum} (ha : accumAt s.dev bank g = some a) :
    exec (.eddyIdleExpiry bank g) s = .next (goingOn s (if a.writingBack then s.dev
      else startWb (advanceTo s.dev (a.lastAdd + reg s.dev (pg 0x41 bank + 0x100))) bank g [])) := by
  change execEddyIdleExpiry bank g s = _
  simp only [execEddyIdleExpiry, runReq_next, ha, goingOn]

theorem exec_eddyWritebackDone {s : State} {bank g : Nat} {a : Accum} (ha : accumAt s.dev bank g = some a) :
    exec (.eddyWritebackDone bank g) s = .next (goingOn s (if a.writingBack then finishWb s.dev bank g else s.dev)) := by
  change execEddyWritebackDone bank g s = _
  simp only [execEddyWritebackDone, runReq_next, ha, goingOn]

/-- Settles O30: each of the four commands leaves what the home's own work leaves in its case, and the device goes on. -/
theorem storesAndEddyWriteBacksAreAcknowledged : Obligations.StoresAndEddyWriteBacksAreAcknowledged := by
  refine ⟨?_, ?_⟩
  · intro s id chan stripe d mine pp
    refine ⟨fun f st l hf hw => ?_, fun hf => ?_, fun hnone => ?_, fun o l hsome => ?_⟩
    · rw [exec_storeAck, storeAcked_of_ack hf hw]
    · rw [exec_storeAck, storeAcked_of_none hf]
    · rw [exec_stackDeltaApply, deltaApply_of_none hnone]
    · refine ⟨fun st hup => ?_, fun hdown => ?_⟩
      · rw [exec_stackDeltaApply, deltaApply_of_up hsome hup]
        rfl
      · rw [exec_stackDeltaApply, deltaApply_of_not_up hsome hdown]
        rfl
  · intro s bank g a d ha
    have hidle := exec_eddyIdleExpiry ha
    have hdone := exec_eddyWritebackDone ha
    refine ⟨fun hwb => ?_, fun hwb => ?_, fun hwb => ?_, fun hw => ?_, fun x hwb hw hx => ?_⟩
    · rw [hidle, hwb]
      rfl
    · rw [hidle, if_pos hwb]
    · rw [hdone, hwb]
      rfl
    · rw [hdone, finishWb_of_writing ha hw, ite_self]
    · rw [if_pos hwb] at hdone
      refine ⟨fun hread => ⟨fun b st hb hst => ?_, fun hopen => ?_⟩, fun hread => ?_, fun st hxa => wroteSums_of_extAt st hxa⟩
      · rw [hdone, finishWb_of_wrote ha hw hx hread hb hst]
        rfl
      · rw [hdone, finishWb_of_unwritten ha hw hx hread hopen]
        rfl
      · rw [hdone, finishWb_of_unread ha hw hx hread]
        rfl

end Sys2Proof.Machine
end

section
/-! SUPPORT. The loss of the Causeway on a device with no request in flight and no descriptor in hand: what is taken from the West bank
brings neither, and leaves memory alone (01 R27). -/

namespace Sys2Proof.Machine

open Sys2Proof

/-! ## The stripe dirty log -/

theorem foldl_raise_regs_tx {α : Type} (page : α → Nat) (b : Nat) : ∀ (l : List α) (d : Dev),
    ∃ m t, l.foldl (fun d i => raise d (page i) b) d = { d with regs := m, tx := t }
  | [], d => ⟨d.regs, d.tx, rfl⟩
  | i :: l, d => by
    obtain ⟨m1, t1, h1⟩ := raise_regs_tx d (page i) b
    obtain ⟨m2, t2, h2⟩ := foldl_raise_regs_tx page b l (raise d (page i) b)
    exact ⟨m2, t2, by rw [List.foldl_cons, h2, h1]⟩

/-- Logging a stripe changes the two banks' logs and marks, and on overflow raises events. -/
theorem logStripe_logs_only (d : Dev) (bank chan stripe : Nat) : ∃ m t e w oe ow, logStripe d bank chan stripe =
    { d with regs := m, tx := t, tiers.dirtyEast := e, tiers.dirtyWest := w, tiers.ovfEast := oe, tiers.ovfWest := ow } := by
  obtain ⟨m, t, h⟩ := foldl_raise_regs_tx (fun i => pg 0x31 bank i) 5 (List.range 5) d
  unfold logStripe
  rw [h]
  cases hbank : bank == 0 with
  | true =>
    simp only [if_true]
    split_ifs
    · exact ⟨d.regs, d.tx, _, _, _, _, rfl⟩
    · exact ⟨d.regs, d.tx, _, _, _, _, rfl⟩
    · exact ⟨m, t, _, _, _, _, rfl⟩
  | false =>
    simp only [Bool.false_eq_true, if_false]
    split_ifs
    · exact ⟨d.regs, d.tx, _, _, _, _, rfl⟩
    · exact ⟨d.regs, d.tx, _, _, _, _, rfl⟩
    · exact ⟨m, t, _, _, _, _, rfl⟩

/-! ## With no request in flight and no descriptor in hand -/

/-- No request is in flight, no descriptor is in hand, and memory is `m`. -/
structure Vacant (m : NMap Byte) (d : Dev) : Prop where
  flying : d.flying = []
  descs : d.descs = []
  mem : d.tiers.mem = m

namespace Vacant

variable {m : NMap Byte} {d : Dev}

/-- A step that keeps a vacant device vacant does so for each of a list. -/
theorem foldl {α : Type} {f : Dev → α → Dev} (hf : ∀ {d}, Vacant m d → ∀ a, Vacant m (f d a)) :
    ∀ (l : List α) {d : Dev}, Vacant m d → Vacant m (l.foldl f d)
  | [], _, h => h
  | a :: l, _, h => foldl hf l (hf h a)

theorem raise (h : Vacant m d) (page b : Nat) : Vacant m (raise d page b) := by
  obtain ⟨r, t, hr⟩ := raise_regs_tx d page b
  rw [hr]
  exact ⟨h.flying, h.descs, h.mem⟩

theorem raiseFe (h : Vacant m d) (page b : Nat) (f : Fe) : Vacant m (raiseFe d page b f) := by
  obtain ⟨r, t, hr⟩ := raiseFe_regs_tx d page b f
  rw [hr]
  exact ⟨h.flying, h.descs, h.mem⟩

theorem onDesc (h : Vacant m d) (r : DescRef) (f : Desc → Desc) : Vacant m (onDesc d r f) :=
  ⟨h.flying, by rw [onDesc_descs, h.descs]; rfl, h.mem⟩

theorem noteItem (h : Vacant m d) (r : DescRef) (item status : Nat) : Vacant m (noteItem d r item status) :=
  h.onDesc r _

/-! ## Deltas, holds and moves -/

theorem logStripe (h : Vacant m d) (bank chan stripe : Nat) : Vacant m (logStripe d bank chan stripe) := by
  obtain ⟨r, t, e, w, oe, ow, hlog⟩ := logStripe_logs_only d bank chan stripe
  rw [hlog]
  exact ⟨h.flying, h.descs, h.mem⟩

theorem logWestDeltas (h : Vacant m d) : Vacant m (logWestDeltas d) := by
  have hlogged := foldl (f := fun d (x : Nat × Nat × Nat × List Byte) => Machine.logStripe d 0 x.1 x.2.1)
    (fun h x => h.logStripe 0 x.1 x.2.1)
    (d.tiers.deltas.filter (fun x => bankOfSite (holderOf d (parityPos x.1 x.2.1) x.1 x.2.1) == 1)) h
  exact ⟨hlogged.flying, hlogged.descs, hlogged.mem⟩

/-- Nothing is held, so that releasing a hold lets nothing come again. -/
theorem releaseHeld_eq (h : Vacant m d) (base : Nat) : releaseHeld d base = d := by
  have hkeep : { d with flying := [] } = d := by rw [← h.flying]
  simp [releaseHeld, h.flying, hkeep]

theorem onExt (h : Vacant m d) (base : Nat) (f : Extent → Extent) : Vacant m (onExt d base f) :=
  ⟨h.flying, h.descs, h.mem⟩

theorem stallTime (h : Vacant m d) (berth cause cyc : Nat) : Vacant m (stallTime d berth cause cyc) := by
  unfold Machine.stallTime
  dsimp only
  split
  · exact h
  · exact ⟨h.flying, h.descs, h.mem⟩

theorem endHold (h : Vacant m d) (x : Extent) : Vacant m (endHold d x) := by
  have hstalled : ∀ cyc, Vacant m (Machine.stallTime
      (Machine.onExt d x.e.base (fun x => { x with moving := false, held := false })) x.e.berth 6 cyc) :=
    fun cyc => (h.onExt _ _).stallTime _ _ _
  unfold Machine.endHold
  dsimp only
  rw [(hstalled _).releaseHeld_eq]
  exact hstalled _

theorem unhold (h : Vacant m d) (base : Nat) : Vacant m (unhold d base) := by
  have hfree := h.onExt base (fun x => { x with held := false })
  rw [Machine.unhold, hfree.releaseHeld_eq]
  exact hfree

theorem endMove (h : Vacant m d) (i : MoveItem) (code : Nat) : Vacant m (endMove d i code) :=
  noteItem (d := { d with tiers.moves := d.tiers.moves.filter (fun n => !(n.r == i.r && n.item == i.item)) })
    ⟨h.flying, h.descs, h.mem⟩ i.r i.item code

theorem abandonMove (h : Vacant m d) (i : MoveItem) (code : Nat) : Vacant m (abandonMove d i code) := by
  unfold Machine.abandonMove
  extract_lets mine d0 d1
  have hd0 : Vacant m d0 := ⟨h.flying, h.descs, h.mem⟩
  have hd1 : Vacant m d1 := hd0.endMove i code
  clear_value d1
  split
  · exact hd1
  · exact (hd1.raiseFe _ _ _).endHold _

/-! ## Links, snapshots and scans of the West bank -/

theorem dropTlps (h : Vacant m d) (p : Nat) (mine : Tlp → Bool) : Vacant m (dropTlps d p mine) :=
  ⟨by simp [Machine.dropTlps, h.flying], h.descs, h.mem⟩

theorem noteIsolated (h : Vacant m d) : Vacant m (noteIsolated d) := by
  unfold Machine.noteIsolated
  split
  · exact ⟨h.flying, h.descs, h.mem⟩
  · exact h

/-- A port that goes down abandons the MOVEs of its host's memory; no request waits for it. -/
theorem resetPort (h : Vacant m d) (p : Nat) : Vacant m (resetPort d p) := by
  unfold Machine.resetPort
  extract_lets was d1 d2
  have hd1 : Vacant m d1 := ⟨(h.dropTlps p _).flying, h.descs, h.mem⟩
  have hwaits : failHost d1 (hostWaits d1 p) = d1 := by simp [hostWaits, hd1.flying, failHost]
  have hd2 : Vacant m d2 := by
    simp only [d2, hwaits]
    exact foldl (fun h i => h.abandonMove i cTIER) _ hd1
  apply noteIsolated
  split
  · exact hd2.raise _ _
  · exact hd2

theorem dropWestLinks (h : Vacant m d) : Vacant m (dropWestLinks d) := by
  unfold Machine.dropWestLinks
  dsimp only
  apply resetPort
  exact ⟨h.flying, h.descs, h.mem⟩

theorem accrue (h : Vacant m d) (b : Nat) : Vacant m (accrue d b) := ⟨h.flying, h.descs, h.mem⟩

theorem endSnapWaits_eq (h : Vacant m d) : endSnapWaits d = d := by simp [endSnapWaits, h.flying, retry]

theorem haltSlot (h : Vacant m d) (n code : Nat) : Vacant m (haltSlot d n code) := by
  unfold Machine.haltSlot
  extract_lets s d1 d2 endAll
  have hd1 : Vacant m d1 := ⟨h.flying, h.descs, h.mem⟩
  have hd2 : Vacant m d2 := by
    simp only [d2]
    split
    · exact foldl (fun h b => h.unhold b) _ hd1
    · exact hd1
  have hend : ∀ r, endAll d2 r = d2 := by
    intro r
    cases r with
    | none => rfl
    | some r => simp [endAll, descOf, hd2.descs]
  rw [hend, hend, hd2.endSnapWaits_eq]
  exact hd2

theorem dropSlot (h : Vacant m d) (n code : Nat) : Vacant m (dropSlot d n code) := by
  have hhalted := (h.accrue (snapSlot d n).berth).haltSlot n code
  unfold Machine.dropSlot
  split
  · exact h
  · exact ⟨hhalted.flying, hhalted.descs, hhalted.mem⟩

theorem accrueWest (h : Vacant m d) : Vacant m (accrueWest d) := foldl (fun h b => h.accrue b) _ h

theorem abortItems (h : Vacant m d) : Vacant m (abortItems d) :=
  foldl (fun h p => h.noteItem p.r p.item cABORTED) _ (foldl (fun h i => h.noteItem i.r i.item cABORTED) _ h)

theorem abortScans (h : Vacant m d) : Vacant m (abortScans d) := foldl (fun h s => h.onDesc s.r _) _ h

theorem dropWestState (h : Vacant m d) : Vacant m (dropWestState d) := by
  unfold Machine.dropWestState
  extract_lets hi still westDesc d1
  have hd1 : Vacant m d1 :=
    (foldl (fun h i => h.dropSlot (16 + i) cABORTED) (List.range 16) h.accrueWest).abortItems.abortScans
  clear_value d1
  exact ⟨hd1.flying, List.filter_eq_nil_iff.mpr (by simp [hd1.descs]), hd1.mem⟩

/-! ## Requests across the Causeway -/

theorem abortAcross_eq (h : Vacant m d) : abortAcross d = d := by
  have hkeep : { d with flying := [] } = d := by rw [← h.flying]
  simp [abortAcross, h.flying, hkeep]

theorem abortOut_eq (h : Vacant m d) : abortOut d = d := by simp [abortOut, h.descs]

end Vacant

/-! ## The West bank lost -/

/-- An update of the first element that has a property keeps what holds of every element, where the update itself keeps it. -/
theorem forall_mem_modFirst {α : Type} {p : α → Bool} {f : α → α} {P : α → Prop} (hf : ∀ a, P a → P (f a)) :
    ∀ {l : List α}, (∀ a ∈ l, P a) → ∀ a ∈ modFirst p f l, P a
  | [], h => h
  | b :: l, h => by
    obtain ⟨hb, hl⟩ := List.forall_mem_cons.mp h
    unfold modFirst
    split
    · exact List.forall_mem_cons.mpr ⟨hf b hb, hl⟩
    · exact List.forall_mem_cons.mpr ⟨hb, forall_mem_modFirst hf hl⟩

/-- The Quay, the Raft and the Tow hold nothing of the West bank. -/
structure EastOnly (d : Dev) : Prop where
  accums : ∀ x ∈ d.quay.accums, x.bank = 0
  trans : ∀ x ∈ d.quay.trans, x.bank = 0
  copies : ∀ x ∈ d.raft.copies, x.bank = 0
  moves : ∀ x ∈ d.tiers.moves, x.bank = 0

theorem bank_of_mem_filter {α : Type} {bank : α → Nat} {l : List α} : ∀ x ∈ l.filter (fun x => bank x == 0), bank x = 0 := by
  intro x hx
  simpa using (List.mem_filter.mp hx).2

theorem dropWestState_eastOnly (d : Dev) : EastOnly (dropWestState d) := by
  unfold dropWestState
  extract_lets hi still westDesc d1
  clear_value d1
  exact ⟨bank_of_mem_filter, bank_of_mem_filter, bank_of_mem_filter, bank_of_mem_filter⟩

/-- The West bank is held in reset, the Causeway is lost, nothing of the West bank is left, and memory is `m`. -/
structure WestLost (m : NMap Byte) (d : Dev) : Prop where
  held : d.sys.westHeld = true
  lost : d.sys.cwLost = true
  east : EastOnly d
  mem : d.tiers.mem = m

namespace WestLost

variable {m : NMap Byte} {d : Dev}

theorem foldl {α : Type} {f : Dev → α → Dev} (hf : ∀ {d}, WestLost m d → ∀ a, WestLost m (f d a)) :
    ∀ (l : List α) {d : Dev}, WestLost m d → WestLost m (l.foldl f d)
  | [], _, h => h
  | a :: l, _, h => foldl hf l (hf h a)

theorem sendSnoop (h : WestLost m d) (bank line : Nat) (s : Snoop) (group : Nat) : WestLost m (sendSnoop d bank line s group).1 := by
  unfold Machine.sendSnoop
  split
  · exact h
  · split
    · exact h
    · exact ⟨h.held, h.lost, ⟨h.east.accums, h.east.trans, h.east.copies, h.east.moves⟩, h.mem⟩

theorem onTrans (h : WestLost m d) (bank line : Nat) {g : Trans → Trans} (hg : ∀ t, (g t).bank = t.bank) :
    WestLost m (onTrans d bank line g) :=
  have htrans := forall_mem_modFirst (p := fun t : Trans => t.bank == bank && t.line == line) (fun t ht => (hg t).trans ht) h.east.trans
  ⟨h.held, h.lost, ⟨h.east.accums, htrans, h.east.copies, h.east.moves⟩, h.mem⟩

theorem resendSnoops (h : WestLost m d) (from_ : Option Nat) : WestLost m (resendSnoops d from_) := by
  refine foldl (fun h t => foldl (fun h s => ?_) _ h) _ h
  dsimp only
  split
  · exact (h.sendSnoop _ _ _ _).onTrans _ _ (fun _ => rfl)
  · exact h

theorem degrade (h : WestLost m d) (bank : Nat) : WestLost m (degrade d bank) := by
  obtain ⟨r, t, hr⟩ := raise_regs_tx { d with salv.degraded := true } (pg 0x34 bank) 0
  rw [Machine.degrade, raiseDegraded, hr]
  exact ⟨h.held, h.lost, ⟨h.east.accums, h.east.trans, h.east.copies, h.east.moves⟩, h.mem⟩

end WestLost

/-- The loss of the Causeway takes the West bank's state with it, and leaves memory. -/
theorem causewayLoss_westLost {d : Dev} (hlive : live d = true) (hheld : d.sys.westHeld = false)
    (hempty : d.cw.toWest.inService = [] ∨ d.cw.toEast.inService = []) (hf : d.flying = []) (hd : d.descs = []) :
    WestLost d.tiers.mem (causewayLoss d) := by
  have hvac : Vacant d.tiers.mem (dropWestState (dropWestLinks (logWestDeltas d))) :=
    (Vacant.mk hf hd rfl).logWestDeltas.dropWestLinks.dropWestState
  have heast := dropWestState_eastOnly (dropWestLinks (logWestDeltas d))
  have hgo : (!live d || d.sys.westHeld || !(d.cw.toWest.inService.isEmpty || d.cw.toEast.inService.isEmpty)) = false := by
    rcases hempty with he | he <;> simp [hlive, hheld, he]
  unfold causewayLoss
  rw [hgo, if_neg Bool.false_ne_true]
  generalize dropWestState (dropWestLinks (logWestDeltas d)) = e at hvac heast
  dsimp only
  have hcut : Vacant d.tiers.mem { e with sys.westHeld := true, sys.cwLost := true, cw := {} } := ⟨hvac.flying, hvac.descs, hvac.mem⟩
  rw [hcut.abortAcross_eq, hcut.abortOut_eq]
  refine (WestLost.foldl (fun h i => h.resendSnoops (some (8 + i))) _ ?_).degrade 0
  exact ⟨rfl, rfl, ⟨heast.accums, heast.trans, heast.copies, heast.moves⟩, hvac.mem⟩

end Sys2Proof.Machine
end

section
/-! SUPPORT. The Causeway's frames, lane groups, retraining and return, case by case (01 R25-R27). -/

namespace Sys2Proof.Machine

open Sys2Proof

/-- An update of a direction writes what it makes of the direction there is. -/
theorem onCw_eq_const (d : Dev) (west : Bool) (f : CwDir → CwDir) : onCw d west f = onCw d west (fun _ => f (cwDir d west)) := by
  cases west <;> rfl

/-! ## Frames (01 R25) -/

/-- A message that crosses enters the replay buffer under its flow's next sequence number, on a group in service. -/
theorem sendCw_of_inService {d : Dev} {west : Bool} (p : CwPair) (cls : Nat) (h : (cwDir d west).inService ≠ []) :
    let c := cwDir d west
    let n := NMap.get 0 c.txNext (cwKey p cls)
    ∃ g, g ∈ c.inService ∧ sendCw d west p cls = onCw d west (fun _ => { c with
      replay := c.replay ++ [{ pair := p, cls := cls, seq := n, group := g }], txNext := NMap.set 0 c.txNext (cwKey p cls) (n + 1) }) := by
  intro c n
  have hlt : n % c.inService.length < c.inService.length := Nat.mod_lt _ (List.length_pos_iff.mpr h)
  refine ⟨c.inService[n % c.inService.length], List.getElem_mem hlt, ?_⟩
  rw [sendCw, List.getElem?_eq_getElem hlt]
  exact onCw_eq_const d west _

section
variable {d : Dev} {west : Bool} {p : CwPair} {cls g seq : Nat}

/-- A frame of a group out of service is not received. -/
theorem frameRx_of_outOfService {good : Bool} (h : NSet.mem (cwDir d west).inService g = false) :
    frameRx d west p cls g seq good = d := by simp [frameRx, h]

/-- A frame before its turn waits to be sent again. -/
theorem frameRx_of_early (h : NMap.get 0 (cwDir d west).rxNext (cwKey p cls) < seq) :
    frameRx d west p cls g seq true = d := by simp [frameRx, h]

variable (hlive : live d = true) (hin : NSet.mem (cwDir d west).inService g = true)
include hlive hin

/-- The frame whose turn it is leaves the replay buffer, and the next one's turn comes. -/
theorem frameRx_of_next (h : NMap.get 0 (cwDir d west).rxNext (cwKey p cls) = seq) :
    frameRx d west p cls g seq true = onCw d west (fun _ => { cwDir d west with
      replay := (cwDir d west).replay.filter (fun f => !(f.pair == p && f.cls == cls && f.seq == seq))
      rxNext := NMap.set 0 (cwDir d west).rxNext (cwKey p cls) (seq + 1) }) := by
  simp only [frameRx, hlive, hin, h, Bool.not_true, Bool.or_self, Bool.false_eq_true, if_false, Nat.lt_irrefl]
  rw [onCw_eq_const]
  simp only [beq_self_eq_true, if_true]

/-- A frame that has been delivered is only acknowledged. -/
theorem frameRx_of_delivered (h : seq < NMap.get 0 (cwDir d west).rxNext (cwKey p cls)) :
    frameRx d west p cls g seq true = onCw d west (fun _ => { cwDir d west with
      replay := (cwDir d west).replay.filter (fun f => !(f.pair == p && f.cls == cls && f.seq == seq)) }) := by
  have hle : ¬ NMap.get 0 (cwDir d west).rxNext (cwKey p cls) < seq := by omega
  have hne : (NMap.get 0 (cwDir d west).rxNext (cwKey p cls) == seq) = false := by simp; omega
  simp only [frameRx, hlive, hin, hle, hne, Bool.not_true, Bool.or_self, Bool.false_eq_true, if_false]
  exact onCw_eq_const d west _

theorem frameRx_of_bad : frameRx d west p cls g seq false = countErr d west g := by simp [frameRx, hlive, hin]

end

section
variable {d : Dev} {west : Bool} {g : Nat}

theorem countErr_in_window (h : d.sys.ltc < (cwDir d west).window + reg d (pg 0x03 0 + 0x150)) :
    countErr d west g = onCw d west (fun _ => { cwDir d west with
      errs := NMap.set 0 (cwDir d west).errs g (NMap.get 0 (cwDir d west).errs g + 1) }) := by
  have hopen : decide ((cwDir d west).window + reg d (pg 0x03 0 + 0x150) ≤ d.sys.ltc) = false := decide_eq_false (by omega)
  simp only [countErr, hopen, Bool.false_eq_true, if_false]
  exact onCw_eq_const d west _

/-- The first failure after a window has run out begins the next. -/
theorem countErr_after_window (h : (cwDir d west).window + reg d (pg 0x03 0 + 0x150) ≤ d.sys.ltc) :
    countErr d west g = onCw d west (fun _ => { cwDir d west with window := d.sys.ltc, errs := NMap.set 0 [] g 1 }) := by
  simp only [countErr, decide_eq_true h, if_true]
  exact onCw_eq_const d west _

end

/-! ## Lane groups (01 R26) -/

section
variable {d : Dev} {west : Bool} {g : Nat}

theorem retireGroup_of_outOfService (h : NSet.mem (cwDir d west).inService g = false) : retireGroup d west g = d := by
  simp [retireGroup, h]

theorem retireGroup_within_limit (h : NMap.get 0 (cwDir d west).errs g ≤ reg d (pg 0x03 0 + 0x148)) : retireGroup d west g = d := by
  simp [retireGroup, h]

/-- A group past its limit leaves service, and its frames go over the groups left. -/
theorem retireGroup_past_limit (hlive : live d = true) (hin : NSet.mem (cwDir d west).inService g = true)
    (h : reg d (pg 0x03 0 + 0x148) < NMap.get 0 (cwDir d west).errs g) :
    let c := cwDir d west
    let left := NSet.del c.inService g
    let d1 := onCw d west (fun _ => { c with inService := left, retired := NSet.add c.retired g, errs := NMap.set 0 c.errs g 0
                                             replay := c.replay.map (replayOn left g) })
    retireGroup d west g = degrade (count (raiseFe d1 (pg 0x03 0) 0 (feUnit (groupUnit west g))) (pg 0x03 0) 0x810) 0 := by
  have hover : ¬ NMap.get 0 (cwDir d west).errs g ≤ reg d (pg 0x03 0 + 0x148) := by omega
  simp only [retireGroup, hlive, hin, hover, decide_false, Bool.not_true, Bool.or_self, Bool.false_eq_true, if_false]
  rw [onCw_eq_const]

theorem replayOn_eq (left : NSet) (g : Nat) :
    replayOn left g = fun f => if f.group = g then { f with group := (left[f.seq % left.length]?).getD g } else f := by
  funext f
  simp [replayOn]

/-- A spare that has trained takes the place of a retired group. -/
theorem spareTrained_takes_place (hlive : live d = true) (hg : g < 34) (hout : NSet.mem (cwDir d west).inService g = false)
    (hret : NSet.mem (cwDir d west).retired g = false) (h2 : (cwDir d west).spares < 2)
    (hr : (cwDir d west).spares < (cwDir d west).retired.length) :
    spareTrained d west g = onCw d west (fun _ => { cwDir d west with
      inService := NSet.add (cwDir d west).inService g, spares := (cwDir d west).spares + 1 }) := by
  have h34 : ¬ 34 ≤ g := by omega
  have hspares : ¬ 2 ≤ (cwDir d west).spares := by omega
  have hplace : ¬ (cwDir d west).retired.length ≤ (cwDir d west).spares := by omega
  simp only [spareTrained, hlive, hout, hret, h34, hspares, hplace, decide_false, Bool.not_true, Bool.or_self,
    Bool.false_eq_true, if_false]
  exact onCw_eq_const d west _

theorem spareTrained_of_refused (h : 2 ≤ (cwDir d west).spares ∨ NSet.mem (cwDir d west).inService g = true) :
    spareTrained d west g = d := by
  rcases h with h | h <;> simp [spareTrained, h]

end

/-! ## Loss, retraining and return (01 R27) -/

theorem causewayLoss_of_not_lost {d : Dev}
    (h : d.sys.westHeld = true ∨ (d.cw.toWest.inService ≠ [] ∧ d.cw.toEast.inService ≠ [])) : causewayLoss d = d := by
  rcases h with h | ⟨hw, he⟩
  · simp [causewayLoss, h]
  · simp [causewayLoss, hw, he]

/-- A Logbook entry goes before those there are, and changes neither the Causeway nor the hold of the West bank. -/
theorem addLog_logbook (d : Dev) (step outcome detail cause : Nat) :
    (∃ e, (addLog d step outcome detail cause).sys.logbook = (e :: d.sys.logbook).take 8192 ∧
      e.step = step ∧ e.outcome = outcome ∧ e.cause = cause) ∧
    (addLog d step outcome detail cause).sys.cwLost = d.sys.cwLost := by
  unfold addLog
  extract_lets v us e src sys d1
  have hd1 : d1.sys.logbook = (e :: d.sys.logbook).take 8192 ∧ d1.sys.cwLost = d.sys.cwLost := by
    simp [d1, sys, src, v, freeVal]
  clear_value d1
  obtain ⟨hlog, hlost⟩ := hd1
  split
  · exact ⟨⟨e, hlog, rfl, rfl, rfl⟩, hlost⟩
  · rw [raise_sys]
    exact ⟨⟨e, hlog, rfl, rfl, rfl⟩, hlost⟩

section
variable {d : Dev} {a b : Nat}

theorem causewayRetrain_of_notLost (h : d.sys.cwLost = false) : causewayRetrain d a b = d := by simp [causewayRetrain, h]

variable (hlive : live d = true) (hlost : d.sys.cwLost = true)
include hlive hlost

/-- An attempt in which no group of a direction trained is recorded as failed. -/
theorem causewayRetrain_of_failed (h : a = 0 ∨ b = 0) : causewayRetrain d a b = addLog d 0x07 4 0 0x10 := by
  have hfail : (decide (0 < a) && decide (0 < b)) = false := by rcases h with h | h <;> simp [h]
  simp [causewayRetrain, hlive, hlost, hfail]

/-- An attempt that succeeded is recorded, as degraded where groups are missing, and the directions start with the groups that trained. -/
theorem causewayRetrain_of_trained (ha : 0 < a) (hb : 0 < b) : ∃ o c,
    let d1 := addLog d 0x07 o 0 c
    let dir (n : Nat) : CwDir := { inService := List.range (min n 32), retired := (List.range 34).drop n, window := d.sys.ltc }
    causewayRetrain d a b = { d1 with cw.toWest := dir a, cw.toEast := dir b, sys.cwLost := false } := by
  cases hfew : decide (a < 32) || decide (b < 32) with
  | true => exact ⟨2, 1, by simp [causewayRetrain, hlive, hlost, ha, hb, hfew]⟩
  | false => exact ⟨1, 0, by simp [causewayRetrain, hlive, hlost, ha, hb, hfew]⟩

/-- Every attempt is recorded in the Logbook at step CAUSEWAY, and the Causeway is back where each direction has a group. -/
theorem causewayRetrain_logs : ∃ e, let t := causewayRetrain d a b
    t.sys.logbook = (e :: d.sys.logbook).take 8192 ∧ e.step = 0x07 ∧
    (0 < a → 0 < b → t.sys.cwLost = false ∧ t.cw.toWest.inService = List.range (min a 32) ∧
      t.cw.toEast.inService = List.range (min b 32)) ∧
    (a = 0 ∨ b = 0 → e.outcome = 4 ∧ e.cause = 0x10 ∧ t.sys.cwLost = true) := by
  by_cases h : a = 0 ∨ b = 0
  · obtain ⟨⟨e, hlog, hstep, hout, hcause⟩, hkept⟩ := addLog_logbook d 0x07 4 0 0x10
    rw [causewayRetrain_of_failed hlive hlost h]
    exact ⟨e, hlog, hstep, fun ha hb => by omega, fun _ => ⟨hout, hcause, hkept.trans hlost⟩⟩
  · obtain ⟨o, c, ht⟩ := causewayRetrain_of_trained (a := a) (b := b) hlive hlost (by omega) (by omega)
    obtain ⟨⟨e, hlog, hstep, _⟩, _⟩ := addLog_logbook d 0x07 o 0 c
    rw [ht]
    exact ⟨e, hlog, hstep, fun _ _ => ⟨rfl, rfl, rfl⟩, fun h' => absurd h' h⟩

end

theorem westRejoin_of_notHeld {d : Dev} (h : d.sys.westHeld = false) : westRejoin d = d := by simp [westRejoin, h]

theorem westRejoin_of_retrained {d : Dev} (hlive : live d = true) (hheld : d.sys.westHeld = true) (hback : d.sys.cwLost = false) :
    westRejoin d = recomputeDone (recomputeDone (trainPort { d with sys.westHeld := false } 1) 0) 1 := by
  simp only [westRejoin, hlive, hheld, hback, Bool.not_true, Bool.or_self, Bool.false_eq_true, if_false]

end Sys2Proof.Machine
end

section
/-! The Causeway. -/

namespace Sys2Proof.Machine

open Sys2Proof

section
variable (s : State) (west : Bool)

theorem exec_causewayFrameRx (p : CwPair) (cls g seq : Nat) (good : Bool) :
    exec (.causewayFrameRx west ⟨p, cls⟩ g seq good) s = .next (leaving s (frameRx s.dev west p cls g seq good)) := rfl

theorem exec_laneGroupRetire (g : Nat) : exec (.laneGroupRetire west g) s = .next (leaving s (retireGroup s.dev west g)) := rfl

theorem exec_spareGroupTrained (g : Nat) : exec (.spareGroupTrained west g) s = .next (leaving s (spareTrained s.dev west g)) := rfl

theorem exec_causewayLoss : exec .causewayLoss s = .next (goingOn s (causewayLoss s.dev)) := rfl

theorem exec_causewayRetrain (a b : Nat) : exec (.causewayRetrain a b) s = .next (leaving s (causewayRetrain s.dev a b)) := rfl

theorem exec_westBankRejoin : exec .westBankRejoin s = .next (goingOn s (westRejoin s.dev)) := rfl

end

/-- Settles O58: each command of the Causeway leaves what its own function leaves, case by case; at the loss no request is in flight and no
descriptor in hand, so that nothing comes again and memory stays. -/
theorem causewayRetiresGroupsAndHoldsTheWestBank : Obligations.CausewayRetiresGroupsAndHoldsTheWestBank := by
  intro s west good pair cls g seq a b d dir put clk seen inDir key next rest
  have hout (h : ¬ inDir) : NSet.mem (cwDir d west).inService g = false := Bool.eq_false_iff.mpr h
  refine ⟨?_, ?_, ?_, ?_, ?_, ?_, ?_, ?_, ?_, ?_, ?_, ?_, ?_, ?_, ?_, ?_, ?_⟩
  · exact sendCw_of_inService pair cls
  · intro hlive hin hnext
    rw [exec_causewayFrameRx, frameRx_of_next hlive hin hnext]
    rfl
  · intro hlive hin hlt
    rw [exec_causewayFrameRx, frameRx_of_delivered hlive hin hlt]
    rfl
  · intro hlive hin hlt
    rw [exec_causewayFrameRx, frameRx_of_early hlt]
  · intro hlive hin hopen
    rw [exec_causewayFrameRx, frameRx_of_bad hlive hin, countErr_in_window hopen]
    rfl
  · intro hlive hin hover
    rw [exec_causewayFrameRx, frameRx_of_bad hlive hin, countErr_after_window hover]
    rfl
  · intro h
    rw [exec_causewayFrameRx, frameRx_of_outOfService (hout h), exec_laneGroupRetire, retireGroup_of_outOfService (hout h)]
    exact ⟨rfl, rfl⟩
  · intro hlive hin hlimit
    rw [exec_laneGroupRetire, retireGroup_past_limit hlive hin hlimit, replayOn_eq]
    rfl
  · intro hlive hin hlimit
    rw [exec_laneGroupRetire, retireGroup_within_limit hlimit]
  · intro hlive hg h hret h2 hr
    rw [exec_spareGroupTrained, spareTrained_takes_place hlive hg (hout h) hret h2 hr]
    rfl
  · intro h
    rw [exec_spareGroupTrained, spareTrained_of_refused h]
  · intro hlive hheld hempty hf hd
    obtain ⟨hwest, hlost, heast, hmem⟩ := causewayLoss_westLost hlive hheld hempty hf hd
    exact ⟨_, exec_causewayLoss s, hwest, hlost, heast.accums, heast.trans, heast.copies, heast.moves, hmem⟩
  · intro h
    rw [exec_causewayLoss, causewayLoss_of_not_lost h]
  · intro hlive hlost
    obtain ⟨e, hlog, hstep, htrained, hfailed⟩ := causewayRetrain_logs (a := a) (b := b) hlive hlost
    exact ⟨_, e, exec_causewayRetrain s a b, hlog, hstep, htrained, hfailed⟩
  · intro h
    rw [exec_causewayRetrain, causewayRetrain_of_notLost h]
  · intro hlive hheld hback
    rw [exec_westBankRejoin, westRejoin_of_retrained hlive hheld hback]
  · intro h
    rw [exec_westBankRejoin, westRejoin_of_notHeld h]

end Sys2Proof.Machine
end

/-! ## Proofs: the Toll, the Crossing map, rings and requests (02 R39-R75; 00 R21; 03 R106; 08 R275; 14 R441) -/

section
/-! SUPPORT. A write of TOLL_CMD (02 R50, R52, R73). -/

namespace Sys2Proof.Machine

open Sys2Proof

/-- A command is written to TOLL_CMD: lost while another is pending, else done with the code of the check that fails, or pending. -/
def tollStarted (d : Dev) (op : TollOp) (job : Nat) : Dev :=
  let data (k : Nat) : Word := .ofNat 64 (reg d (pg 0x20 0 + 0x100 + 8 * k))
  if d.toll.pending.isSome then raise { d with toll.lost := true } (pg 0x20 0) 3
  else
    let d1 : Dev := { d with toll.done := false, toll.result := 0, toll.slot := 0 }
    let c : TollPending := { op := op, job := job, d0 := data 0, d1 := data 1, d2 := data 2, d3 := data 3 }
    if tollCode d1 c = cOK then cross { d1 with toll.pending := some c } 0 1 .update 0
    else { d1 with toll.pending := none, toll.walkWait := false, toll.done := true, toll.result := tollCode d1 c }

/-- A word that spells a command, with its JOB field, starts that command. -/
theorem tollCmd_of_op {v : Nat} {op : TollOp} (d : Dev) (h : tollOpOf (fld v 0 4) = some op) :
    tollCmd d v = tollStarted d op (fld v 4 12) := by
  simp only [tollCmd, tollStarted, h, beq_iff_eq]
  rfl

/-- The fields of a command word: the command's number, and JOB above it. -/
theorem fld_command {k j : Nat} (hk : k < 16) (hj : j < 2 ^ 12) : fld (k + j * 16) 0 4 = k ∧ fld (k + j * 16) 4 12 = j := by
  simp only [fld]
  omega

/-- A 32-bit write of a slot of a bank's page that holds neither a 64-bit register nor the events writes the register there. -/
theorem writePage_pg {code o : Nat} (bank : Nat) (h8 : o % 8 = 0) (hlt : o < 0x1000) (he : o ≠ 0x20)
    (hw : wideAt ⟨code, bank, 0⟩ o = false) (p : Path) (v : Nat) (held : Option (Nat × Nat)) (d : Dev) (fz : Fuses) :
    writePage p ⟨code, bank, 0⟩ (pg code bank + o) 32 v held d fz = writeNarrow d fz ⟨code, bank, 0⟩ o (v % 2 ^ 32) := by
  have hal : pg code bank % 0x1000 = 0 := pageBase_aligned _
  have hslot : slotOfs (pg code bank + o) = o := by unfold slotOfs; omega
  rw [writePage_low_narrow (by rw [hslot, hw]) (by omega) (by rw [hslot]; exact he), hslot]

theorem writePage_tollCmd (bank : Nat) (p : Path) (v : Nat) (held : Option (Nat × Nat)) (d : Dev) (fz : Fuses) :
    writePage p ⟨0x20, bank, 0⟩ (pg 0x20 bank + 0x120) 32 v held d fz = (tollCmd d (v % 2 ^ 32), fz) :=
  writePage_pg bank rfl (by decide) (by decide) rfl p v held d fz

/-- A row that writes a command to TOLL_CMD leaves the command started. -/
theorem exec_tollRow {c : Instr} {s : State} {p : Path} {bank k j : Nat} {op : TollOp}
    (hr : Reaches s.dev p (pg 0x20 bank + 0x120) ⟨0x20, bank, 0⟩) (hop : tollOpOf k = some op) (hk : k < 16) (hj : j < 2 ^ 12)
    (hc : exec c s = s.write32 p (pg 0x20 bank) 0x120 (k + j * 16)) :
    exec c s = .next (written s p (tollStarted (dropHalves s.dev p) op j)) := by
  obtain ⟨hnum, hjob⟩ := fld_command hk hj
  refine writes_of c s p _ ⟨0x20, bank, 0⟩ 32 (fun _ => k + j * 16) _ hc hr ?_ ?_
  · have hal : pg 0x20 bank % 0x1000 = 0 := pageBase_aligned _
    exact accessOk_32 (by omega)
  · have hv : (k + j * 16) % 2 ^ 32 = k + j * 16 := Nat.mod_eq_of_lt (by omega)
    rw [hv, writePage_tollCmd, hv, tollCmd_of_op _ (hnum.symm ▸ hop), hjob]

end Sys2Proof.Machine
end

section
/-! The Toll's command rows. -/

namespace Sys2Proof.Machine

open Sys2Proof

/-- Settles O12: each of the eight rows writes its command's number, and JOB above it, to TOLL_CMD. -/
theorem tollRowsStartTheirCommand : Obligations.TollRowsStartTheirCommand := by
  intro s p bank job _ hr
  have row {c : Instr} {k j : Nat} {op : TollOp} (hop : tollOpOf k = some op) (hk : k < 16) (hj : j < 2 ^ 12)
      (hc : exec c s = s.write32 p (pg 0x20 bank) 0x120 (k + j * 16)) := exec_tollRow hr hop hk hj hc
  exact ⟨row (k := 1) (j := 0) rfl (by decide) (by decide) rfl, row (k := 2) (j := 0) rfl (by decide) (by decide) rfl,
    row (k := 3) (j := 0) rfl (by decide) (by decide) rfl, row (k := 4) rfl (by decide) job.isLt rfl,
    row (k := 5) rfl (by decide) job.isLt rfl, row (k := 6) (j := 0) rfl (by decide) (by decide) rfl,
    row (k := 7) (j := 0) rfl (by decide) (by decide) rfl, row (k := 8) rfl (by decide) job.isLt rfl⟩

end Sys2Proof.Machine
end

section
/-! SUPPORT. Lists of which one element is changed, and extents found by their BASE. -/

namespace Sys2Proof.Machine

open Sys2Proof

/-- A change of the element that is found there may be spelt as the element it gives. -/
theorem modFirst_const_of_find {α : Type} {p : α → Bool} {a : α} (f : α → α) :
    ∀ {l : List α}, l.find? p = some a → modFirst p (fun _ => f a) l = modFirst p f l
  | [], h => by simp at h
  | b :: l, h => by
    by_cases hb : p b
    · obtain rfl : b = a := by simpa [hb] using h
      simp [modFirst, hb]
    · have hl : l.find? p = some a := by simpa [hb] using h
      simp [modFirst, hb, modFirst_const_of_find f hl]

/-- The element that was found is found again, changed, where the change keeps what it is found by. -/
theorem find_modFirst {α : Type} {p : α → Bool} {f : α → α} {a : α} (hf : p a = true → p (f a) = true) :
    ∀ {l : List α}, l.find? p = some a → (modFirst p f l).find? p = some (f a)
  | [], h => by simp at h
  | b :: l, h => by
    by_cases hb : p b
    · obtain rfl : b = a := by simpa [hb] using h
      simp [modFirst, hb, hf hb]
    · have hl : l.find? p = some a := by simpa [hb] using h
      simp [modFirst, hb, find_modFirst hf hl]

theorem base_of_extOf {d : Dev} {base : Nat} {x : Extent} (h : extOf d base = some x) : x.e.base = base := by
  simpa using List.find?_some h

theorem extOf_of_extents {d t : Dev} (h : t.toll.extents = d.toll.extents) (base : Nat) : extOf t base = extOf d base := by
  simp only [extOf, h]

theorem onExt_const {d : Dev} {base : Nat} {x : Extent} (f : Extent → Extent) (h : extOf d base = some x) :
    onExt d base (fun _ => f x) = onExt d base f := by
  simp only [onExt, modFirst_const_of_find f h]

/-- A changed extent is found at its BASE. -/
theorem extOf_onExt {d : Dev} {base : Nat} {x : Extent} {f : Extent → Extent} (h : extOf d base = some x)
    (hf : (f x).e.base = x.e.base) : extOf (onExt d base f) base = some (f x) :=
  find_modFirst (fun hx => by simpa [hf] using hx) h

end Sys2Proof.Machine
end

section
/-! SUPPORT. The take-effect point of the pending Toll command, case by case (02 R50, R51, R53, R56). -/

namespace Sys2Proof.Machine

open Sys2Proof

theorem exec_tollTakeEffect (s : State) : exec .tollTakeEffect s = .next (goingOn s (takeEffect s.dev)) := rfl

theorem takeEffect_of_none {d : Dev} (h : d.toll.pending = none) : takeEffect d = d := by simp [takeEffect, h]

section
variable {d : Dev} {p : TollPending} (hp : d.toll.pending = some p) (hw : d.toll.walkWait = false)
include hp hw

theorem takeEffect_of_refused (hc : tollCode d p ≠ cOK) : takeEffect d = tollEnd d (tollCode d p) := by
  simp [takeEffect, hp, hw, hc]

variable (hc : tollCode d p = cOK)
include hc

theorem takeEffect_insert (hop : p.op = .insert) : takeEffect d = tollEnd (insertExt d (rawEntry p).e) cOK := by
  simp [takeEffect, hp, hw, hc, hop]

theorem takeEffect_jobWrite (hop : p.op = .jobWrite) :
    takeEffect d = tollEnd { d with toll.jobs := NMap.set {} d.toll.jobs p.job (jobEntry p) } cOK := by
  simp [takeEffect, hp, hw, hc, hop]

variable {x : Extent} (hx : extOf d (fld p.d1.toNat 21 27) = some x)
include hx

theorem takeEffect_read (hop : p.op = .read) :
    takeEffect d = tollEnd ((entryWords x).zipIdx.foldl (fun d v => setReg d (pg 0x20 0 + 0x100 + 8 * v.2) v.1) d) cOK := by
  simp [takeEffect, hp, hw, hc, hop, hx]

theorem takeEffect_offer (hop : p.op = .offer) : takeEffect d = tollEnd (onExt d (fld p.d1.toNat 21 27) (fun x =>
    { x with token := .offered, receiver := p.job, offeredAt := d.sys.ltc })) cOK := by
  simp only [takeEffect, hp, hw, hc, hop, hx, Bool.false_eq_true, if_false, bne_self_eq_false]
  rw [onExt_const (fun x => { x with token := .offered, receiver := p.job, offeredAt := d.sys.ltc }) hx]

theorem takeEffect_cancel (hop : p.op = .cancel) :
    takeEffect d = tollEnd (onExt d (fld p.d1.toNat 21 27) (fun x => { x with token := .owned })) cOK := by
  simp [takeEffect, hp, hw, hc, hop, hx]

end

/-- OFFER and CANCEL pass their checks of an extent that is there alone. -/
theorem extOf_isSome_of_tollCode {d : Dev} {p : TollPending} (hc : tollCode d p = cOK) (hop : p.op = .offer ∨ p.op = .cancel) :
    ∃ x, extOf d (fld p.d1.toNat 21 27) = some x := by
  rcases hx : extOf d (fld p.d1.toNat 21 27) with - | x
  · exfalso
    rcases hop with hop | hop <;> simp [tollCode, hop, hx, cOK, cDENIED] at hc
  · exact ⟨x, rfl⟩

end Sys2Proof.Machine
end

section
/-! The Toll's take-effect point. -/

namespace Sys2Proof.Machine

open Sys2Proof

/-- Settles O13: each operation's case of the take-effect point. -/
theorem tollTakeEffectChangesTheTables : Obligations.TollTakeEffectChangesTheTables := by
  intro s d ends
  have leaves {t : Dev} (h : takeEffect d = t) : exec .tollTakeEffect s = .next (goingOn s t) := by rw [exec_tollTakeEffect, h]
  refine ⟨fun hp => leaves (takeEffect_of_none hp), fun p hp hw =>
    ⟨fun hc => leaves (takeEffect_of_refused hp hw hc), fun hc => ?_⟩⟩
  intro base
  refine ⟨fun hop => leaves (takeEffect_insert hp hw hc hop), fun hop => leaves (takeEffect_jobWrite hp hw hc hop),
    fun hop => ?_, fun hop => ?_, fun x hop hx => leaves (takeEffect_read hp hw hc hx hop)⟩
  · obtain ⟨x, hx⟩ := extOf_isSome_of_tollCode hc (.inl hop)
    exact leaves (takeEffect_offer hp hw hc hx hop)
  · obtain ⟨x, hx⟩ := extOf_isSome_of_tollCode hc (.inr hop)
    exact leaves (takeEffect_cancel hp hw hc hx hop)

end Sys2Proof.Machine
end

section
/-! SUPPORT. What a REVOKE, an ACCEPT or a MODIFY does to the slots and the extents (02 R51, R53, R54, R56), on a device that has
nothing in flight, no line listed and no accumulator open. -/

namespace Sys2Proof.Machine

open Sys2Proof

/-! ## Revocation slots -/

theorem getElem?_modAt {α : Type} {f : α → α} : ∀ {l : List α} {k : Nat} {a : α}, l[k]? = some a → (modAt f l k)[k]? = some (f a)
  | _ :: _, 0, _, h => by simpa [modAt] using congrArg (Option.map f) h
  | _ :: l, k + 1, _, h => by simpa [modAt] using getElem?_modAt (l := l) (by simpa using h)

/-- Slot `i` is free. -/
def slotFree (l : List RvkSlot) (i : Nat) : Bool := l[i]?.any (fun s => !s.busy)

/-- A revocation or a handover takes the lowest free slot. -/
theorem takeSlot_slot (d : Dev) (x : Extent) (handover : Bool) :
    (takeSlot d x handover).toll.slot = (findBelow 16 (slotFree d.toll.slots)).getD 0 := by
  have hfree : ∀ i, slotFree d.toll.slots i = slotFree (accrue d x.e.berth).toll.slots i := fun _ => rfl
  simp only [takeSlot]
  congr 2
  funext i
  rw [hfree, slotFree]
  cases (accrue d x.e.berth).toll.slots[i]? <;> rfl

theorem takeSlot_slots (d : Dev) (x : Extent) (handover : Bool) : (takeSlot d x handover).toll.slots =
    modAt (fun _ => { busy := true, handover := handover, base := x.e.base, since := d.sys.ltc }) d.toll.slots
      (takeSlot d x handover).toll.slot := rfl

/-- Of 16 slots that are not all busy a free one is found. -/
theorem findBelow_slotFree {l : List RvkSlot} (hlen : l.length = 16) (hfree : l.any (fun s => !s.busy) = true) :
    ∃ k s, findBelow 16 (slotFree l) = some k ∧ l[k]? = some s ∧ s.busy = false := by
  obtain ⟨s, hs, hbusy⟩ := List.any_eq_true.mp hfree
  obtain ⟨i, hi, rfl⟩ := List.getElem_of_mem hs
  have hfound : (findBelow 16 (slotFree l)).isSome = true :=
    List.find?_isSome.mpr ⟨i, List.mem_range.mpr (hlen ▸ hi), by simpa [slotFree, hi] using hbusy⟩
  obtain ⟨k, hk⟩ := Option.isSome_iff_exists.mp hfound
  have hk_free := List.find?_some hk
  obtain ⟨t, ht, hidle⟩ := (Option.any_eq_true _ _).mp hk_free
  exact ⟨k, t, hk, ht, by simpa using hidle⟩

/-- A revocation or a handover takes a slot that was free. -/
theorem takeSlot_takes_free {d : Dev} (hlen : d.toll.slots.length = 16) (hfree : d.toll.slots.any (fun s => !s.busy) = true)
    (x : Extent) (handover : Bool) :
    (d.toll.slots.getD (takeSlot d x handover).toll.slot {}).busy = false ∧
    (takeSlot d x handover).toll.slots.getD (takeSlot d x handover).toll.slot {} =
      { busy := true, handover := handover, base := x.e.base, since := d.sys.ltc } := by
  obtain ⟨k, s, hk, hs, hbusy⟩ := findBelow_slotFree hlen hfree
  rw [takeSlot_slots, takeSlot_slot, hk, Option.getD_some, List.getD_eq_getElem?_getD, List.getD_eq_getElem?_getD, hs,
    getElem?_modAt hs]
  exact ⟨hbusy, rfl⟩

/-! ## Snapshots and walks -/

theorem noteDraining_tiers_only (d : Dev) (n : Nat) : ∃ t, noteDraining d n = { d with tiers := t } := by
  unfold noteDraining
  split
  · exact ⟨_, rfl⟩
  · exact ⟨d.tiers, rfl⟩

/-- A snapshot's items on an extent stop without a change outside the tiers. -/
theorem stopSnaps_tiers_only (d : Dev) (base : Nat) : ∃ t, stopSnaps d base = { d with tiers := t } := by
  have fold (l : List Nat) : ∀ d : Dev, ∃ t, l.foldl noteDraining d = { d with tiers := t } := by
    induction l with
    | nil => exact fun d => ⟨d.tiers, rfl⟩
    | cons n l ih =>
      intro d
      obtain ⟨t, ht⟩ := noteDraining_tiers_only d n
      obtain ⟨u, hu⟩ := ih { d with tiers := t }
      exact ⟨u, by rw [List.foldl_cons, ht, hu]⟩
  obtain ⟨t, ht⟩ := fold _ { d with tiers.snaps := d.tiers.snaps.map (stopItems (fun i =>
    i.src == base || i.dest == base || (i.bounce != 0 && i.bounce == base)) cREVOKED) }
  exact ⟨t, ht⟩

theorem endSnapWaits_of_idle {d : Dev} (h : d.flying = []) : endSnapWaits d = d := by simp [endSnapWaits, h, retry]

/-- With no line listed and no accumulator open, a walk is over as it starts: the read-side caches have dropped the extent. -/
theorem startWalk_of_unlisted {d : Dev} (hdir : d.quay.dir = []) (hacc : d.quay.accums = []) (x : Extent) :
    startWalk d x = cacheDrop d (fun c => covers x c.offset) := by
  simp [startWalk, walkExtent, startWbs, cacheDrop, hdir, hacc]

/-! ## The operations -/

section
variable {d : Dev} {p : TollPending} {x : Extent} (hp : d.toll.pending = some p) (hw : d.toll.walkWait = false)
  (hc : tollCode d p = cOK) (hx : extOf d (fld p.d1.toNat 21 27) = some x)
include hp hw hc hx

theorem takeEffect_revoke (hop : p.op = .revoke) (hr : x.revoking = false) (hm : x.moving = false) (ht : x.token = .owned) :
    let y := { x with revoking := true }
    takeEffect d = tollEnd (startWalk (endSnapWaits (stopSnaps
      (onExt (takeSlot d x false) (fld p.d1.toNat 21 27) (fun _ => y)) (fld p.d1.toNat 21 27))) y) cOK := by
  simp [takeEffect, hp, hw, hc, hop, hx, hr, hm, ht]

theorem takeEffect_accept (hop : p.op = .accept) :
    let y := { x with token := .draining }
    takeEffect d = tollEnd (startWalk (onExt (takeSlot d x true) (fld p.d1.toNat 21 27) (fun _ => y)) y) cOK := by
  simp [takeEffect, hp, hw, hc, hop, hx]

/-- MODIFY changes the extent, and else the pins, the caches and the walk alone. -/
theorem takeEffect_modify_extents (hop : p.op = .modify) :
    let e := (rawEntry p).e
    let y := { x with e := { x.e with guestJob := e.guestJob, guestRights := e.guestRights, ownerWr := e.ownerWr } }
    (takeEffect d).toll.extents = (onExt d (fld p.d1.toNat 21 27) (fun _ => y)).toll.extents := by
  simp only [takeEffect, hp, hw, hc, hop, hx, Bool.false_eq_true, if_false, bne_self_eq_false]
  split
  · split
    · rfl
    · rfl
  · rfl

end

section
variable {d : Dev} {p : TollPending} {x : Extent} (hc : tollCode d p = cOK) (hx : extOf d (fld p.d1.toNat 21 27) = some x)
include hc hx

/-- A REVOKE of an extent that is not draining, or revoking already, and an ACCEPT pass their checks where a slot is free alone. -/
theorem slotFree_of_revoke (hop : p.op = .revoke) (hr : x.revoking = false) (ht : x.token = .owned) :
    d.toll.slots.any (fun s => !s.busy) = true := by
  by_contra hfree
  rw [Bool.not_eq_true] at hfree
  simp only [tollCode, hop, hx, hr, ht, hfree] at hc
  exact absurd hc (by decide)

theorem slotFree_of_accept (hop : p.op = .accept) : d.toll.slots.any (fun s => !s.busy) = true := by
  by_contra hfree
  simp only [tollCode, hop, hx, hfree] at hc
  split at hc
  · exact absurd hc (by decide)
  · split at hc
    · exact absurd hc (by decide)
    · exact absurd hc (by decide)

end

end Sys2Proof.Machine
end

section
/-! REVOKE, ACCEPT and MODIFY. -/

namespace Sys2Proof.Machine

open Sys2Proof

/-- Settles O14: REVOKE and ACCEPT take a slot that their checks have found free; the snapshots that stop and the walk, over as it
starts, leave the slots and the extent as marked. -/
theorem tollRevocationAndHandoverMarkTheExtent : Obligations.TollRevocationAndHandoverMarkTheExtent := by
  intro s p x d base hp hw hc hx hlen hdir hacc hfly _
  refine ⟨fun hop hr hm ht => ?_, fun hop => ?_, fun hop => ?_⟩
  · obtain ⟨hwas, hnow⟩ := takeSlot_takes_free hlen (slotFree_of_revoke hc hx hop hr ht) x false
    have hext : extOf (takeSlot d x false) base = some x := hx
    obtain ⟨ts, hts⟩ := stopSnaps_tiers_only (onExt (takeSlot d x false) base (fun _ => { x with revoking := true })) base
    refine ⟨_, exec_tollTakeEffect s, ?_⟩
    rw [takeEffect_revoke hp hw hc hx hop hr hm ht, hts, endSnapWaits_of_idle (by exact hfly),
      startWalk_of_unlisted (by exact hdir) (by exact hacc)]
    exact ⟨extOf_onExt hext rfl, rfl, rfl, hwas, hnow⟩
  · obtain ⟨hwas, hnow⟩ := takeSlot_takes_free hlen (slotFree_of_accept hc hx hop) x true
    have hext : extOf (takeSlot d x true) base = some x := hx
    refine ⟨_, exec_tollTakeEffect s, ?_⟩
    rw [takeEffect_accept hp hw hc hx hop, startWalk_of_unlisted (by exact hdir) (by exact hacc)]
    exact ⟨extOf_onExt hext rfl, rfl, rfl, hwas, hnow⟩
  · refine ⟨_, exec_tollTakeEffect s, ?_⟩
    rw [extOf_of_extents (takeEffect_modify_extents hp hw hc hx hop)]
    exact extOf_onExt hx rfl

end Sys2Proof.Machine
end

section
/-! SUPPORT. The end of a drain, and the timers of the Toll, case by case (02 R53, R54, R57, R58). -/

namespace Sys2Proof.Machine

open Sys2Proof

theorem exec_ferryTimeout (s : State) (base : Nat) : exec (.ferryTimeout base) s = .next (goingOn s (ferryTimeout s.dev base)) := rfl

theorem exec_revokeComplete (s : State) (k : Nat) : exec (.revokeComplete k) s = .next (goingOn s (revokeComplete s.dev k)) := rfl

theorem exec_handoverComplete (s : State) (k : Nat) : exec (.handoverComplete k) s = .next (goingOn s (handoverComplete s.dev k)) := rfl

theorem exec_drainWarn (s : State) (k : Nat) : exec (.drainWarn k) s = .next (goingOn s (drainWarn s.dev k)) := rfl

/-! ## Timers -/

section
variable {d : Dev} {base : Nat} {x : Extent} (hx : extOf d base = some x)
include hx

theorem ferryTimeout_of_offered (ht : x.token = .offered) : ferryTimeout d base = raiseFe
    (onExt (advanceTo d (x.offeredAt + reg d (pg 0x20 0 + 0x140))) base (fun x => { x with token := .owned })) (pg 0x20 (extBank x)) 1
    { unit := false, addr := d.xmap.node * 2 ^ 48 + base * 2 ^ 21, job := x.e.ownerJob } := by
  simp [ferryTimeout, hx, ht]

theorem ferryTimeout_of_not_offered (ht : x.token ≠ .offered) : ferryTimeout d base = d := by simp [ferryTimeout, hx, ht]

end

section
variable {d : Dev} {k : Nat} {sl : RvkSlot} (hs : d.toll.slots[k]? = some sl)
include hs

theorem drainWarn_of_warned (hw : sl.warned = true) : drainWarn d k = d := by simp [drainWarn, hs, hw]

theorem drainWarn_of_unwarned {x : Extent} (hb : sl.busy = true) (hx : extOf d sl.base = some x) (hw : sl.warned = false) :
    drainWarn d k = raiseFe { advanceTo d (sl.since + reg d (pg 0x20 0 + 0x148) + 1) with
        toll.slots := modAt (fun s => { s with warned := true }) d.toll.slots k } (pg 0x20 (extBank x)) 0
      { unit := false, addr := d.xmap.node * 2 ^ 48 + sl.base * 2 ^ 21 } := by
  simp [drainWarn, hs, hb, hw, hx, advanceTo]

end

/-! ## Drains -/

/-- No request that passed the Toll is in flight on the extent at a BASE, and its walk is over (02 R53, R57). -/
def Drained (d : Dev) (base : Nat) (x : Extent) : Prop :=
  (∀ f ∈ d.flying, f.base = base → passedToll f = false) ∧ (∀ t ∈ d.quay.trans, inWindow x t.line = false) ∧
    (∀ e ∈ d.quay.dir, inWindow x e.line = false) ∧ accumsOfExt d x = []

theorem drainCount_eq_zero {d : Dev} {base : Nat} : drainCount d base = 0 ↔ ∀ f ∈ d.flying, f.base = base → passedToll f = false := by
  simp [drainCount]

theorem walkBusy_eq_false {d : Dev} {x : Extent} : walkBusy d x = false ↔ (∀ t ∈ d.quay.trans, inWindow x t.line = false) ∧
    (∀ e ∈ d.quay.dir, inWindow x e.line = false) ∧ accumsOfExt d x = [] := by
  simp [walkBusy, and_assoc]

section
variable {d : Dev} {k : Nat} {sl : RvkSlot} {x : Extent} (hs : d.toll.slots[k]? = some sl) (hb : sl.busy = true)
  (hx : extOf d sl.base = some x)
include hs hb hx

theorem slotReady_of_drained (hd : Drained d sl.base x) : slotReady d k sl.handover = some (x, true) := by
  obtain ⟨hfly, hwalk⟩ := hd
  simp [slotReady, hs, hb, hx, drainCount_eq_zero.mpr hfly, walkBusy_eq_false.mpr hwalk]

theorem slotReady_of_not_drained (hd : ¬ Drained d sl.base x) : slotReady d k sl.handover = some (x, false) := by
  have hover : ¬ (drainCount d sl.base = 0 ∧ walkBusy d x = false) := fun h =>
    hd ⟨drainCount_eq_zero.mp h.1, walkBusy_eq_false.mp h.2⟩
  simp only [slotReady, hs, hb, hx, Bool.true_and, beq_self_eq_true, if_true, Option.map_some, Option.some.injEq, Prod.mk.injEq,
    true_and]
  simpa using hover

theorem revokeComplete_of_not_drained (hh : sl.handover = false) (hd : ¬ Drained d sl.base x) : revokeComplete d k = startWalk d x := by
  have hready := slotReady_of_not_drained hs hb hx hd
  rw [hh] at hready
  simp [revokeComplete, hready]

theorem handoverComplete_of_not_drained (hh : sl.handover = true) (hd : ¬ Drained d sl.base x) :
    handoverComplete d k = startWalk d x := by
  have hready := slotReady_of_not_drained hs hb hx hd
  rw [hh] at hready
  simp [handoverComplete, hready]

theorem revokeComplete_of_drained (hh : sl.handover = false) (hd : Drained d sl.base x) :
    revokeComplete d k = { freeSlot d k x.e.berth with
      quay.cache := d.quay.cache.filter (fun c => !covers x c.offset)
      tiers.pins := d.tiers.pins.filter (fun p => p.base != sl.base)
      toll.extents := d.toll.extents.filter (fun y => y.e.base != sl.base)
      cust.keys := if x.e.encrypt then
          let key := NMap.get {} d.cust.keys x.e.keySlot
          NMap.set {} d.cust.keys x.e.keySlot { key with refs := key.refs - 1 }
        else d.cust.keys } := by
  have hready := slotReady_of_drained hs hb hx hd
  rw [hh] at hready
  simp only [revokeComplete, hready, base_of_extOf hx]
  split
  · rfl
  · rfl

theorem handoverComplete_of_drained (hh : sl.handover = true) (hd : Drained d sl.base x) :
    let y := { x with token := .owned, e := { x.e with ownerJob := x.receiver, ownerWr := true, guestJob := 0, guestRights := 0 } }
    handoverComplete d k = dropPins (onExt (freeSlot (cacheDrop d (fun c => covers x c.offset)) k x.e.berth) sl.base (fun _ => y))
      (extBank x) sl.base ([x.e.ownerJob, x.e.guestJob].filter (fun j => j != x.receiver)) := by
  have hready := slotReady_of_drained hs hb hx hd
  rw [hh] at hready
  simp only [handoverComplete, hready, base_of_extOf hx]

end

end Sys2Proof.Machine
end

section
/-! The end of a drain, and the timers of the Toll. -/

namespace Sys2Proof.Machine

open Sys2Proof

/-- Settles O15: a slot is ready exactly when its extent is drained. -/
theorem drainsEndAndTollTimersExpire : Obligations.DrainsEndAndTollTimersExpire := by
  constructor
  · intro s base x d hx
    refine ⟨fun ht => ?_, fun ht => ?_⟩
    · rw [exec_ferryTimeout, ferryTimeout_of_offered hx ht]
      rfl
    · rw [exec_ferryTimeout, ferryTimeout_of_not_offered hx ht]
  intro s k x sl d hs hb hx drained freed
  refine ⟨fun hd => ⟨fun hh => ?_, fun hh => ?_⟩, fun hh hd => ?_, fun hh hd => ?_, fun hw => ?_, fun hw => ?_⟩
  · rw [exec_revokeComplete, revokeComplete_of_not_drained hs hb hx hh hd]
  · rw [exec_handoverComplete, handoverComplete_of_not_drained hs hb hx hh hd]
  · rw [exec_revokeComplete, revokeComplete_of_drained hs hb hx hh hd]
    rfl
  · have hext : extOf (freeSlot (cacheDrop d (fun c => covers x c.offset)) k x.e.berth) sl.base = some x := hx
    refine ⟨_, exec_handoverComplete s k, ?_⟩
    rw [handoverComplete_of_drained hs hb hx hh hd]
    refine ⟨rfl, fun c hc => ?_, extOf_onExt hext rfl⟩
    have hkept : c ∈ d.quay.cache.filter (fun c => !covers x c.offset) := hc
    simpa using (List.mem_filter.mp hkept).2
  · rw [exec_drainWarn, drainWarn_of_unwarned hs hb hx hw]
    rfl
  · rw [exec_drainWarn, drainWarn_of_warned hs hw]

end Sys2Proof.Machine
end

section
/-! SUPPORT. A COMMIT of the Crossing map that passes its checks crosses the Causeway (01 R25; 02 R62). -/

namespace Sys2Proof.Machine

open Sys2Proof

theorem writePage_xmapCtl (bank : Nat) (p : Path) (v : Nat) (held : Option (Nat × Nat)) (d : Dev) (fz : Fuses) :
    writePage p ⟨0x21, bank, 0⟩ (pg 0x21 bank + 0x138) 32 v held d fz = (writeXmapCtl d (v % 2 ^ 32), fz) :=
  writePage_pg bank rfl (by decide) (by decide) rfl p v held d fz

theorem exec_xmapCommit {s : State} {p : Path} {bank : Nat} (hr : Reaches s.dev p (pg 0x21 bank + 0x138) ⟨0x21, bank, 0⟩) :
    exec (.xmapCommit p bank) s = .next (written s p (commitMap (dropHalves s.dev p) none)) := by
  have hal : pg 0x21 bank % 0x1000 = 0 := pageBase_aligned _
  exact writes_of _ s p _ ⟨0x21, bank, 0⟩ 32 (fun _ => 1) _ rfl hr (accessOk_32 (by omega)) (writePage_xmapCtl bank p _ _ _ _)

/-- A map that passes its checks becomes the pending one, and the update crosses to the West bank. -/
theorem commitMap_of_ok {d : Dev} {set : Option Nat} (hp : d.xmap.pending = none) (hok : (checkMap d set.isSome).1 = cOK) :
    commitMap d set = cross { d with
      xmap.pending := some { map := (checkMap d set.isSome).2, commitAt := reg d (pg 0x21 0 + 0x110), setEpoch := set }
      xmap.done := false } 0 1 .update 0 := by
  simp [commitMap, hp, hok]

/-- Rest does not depend on the Crossing map or on what crosses the Causeway. -/
theorem AtRest.with_xmap_cw {d : Dev} (h : AtRest d) (x c) : AtRest { d with xmap := x, cw := c } :=
  ⟨h.flying, h.trans, h.written, h.flushes, h.tlps, h.sent, h.moves, h.persists, h.noTow, h.noHeld, h.noWalk, h.noStage⟩

/-- Where a write leaves the device at rest, what it has put on the Causeway is all there is. -/
theorem written_cw_of_rest {s : State} {p : Path} {D : Dev} (h : AtRest D) : (written s p D).dev.cw = D.cw := by
  simp only [written, afterAccess, goOnCtl_rest (h.emit _), settle_cw, emit_cw]

/-! ## A device whose COMMIT passes -/

/-- What the statement has a COMMIT leave: the pending map, DONE with a code, or LOST, and no update sent to the West bank. -/
def commitWithoutUpdate (d : Dev) (set : Option Nat) : Dev :=
  if d.xmap.pending.isSome then { d with xmap.lost := true }
  else if (checkMap d set.isSome).1 = cOK then
    { d with xmap.done := false
             xmap.pending := some { map := (checkMap d set.isSome).2, commitAt := reg d (pg 0x21 0 + 0x110), setEpoch := set } }
  else { d with xmap.done := true, xmap.result := (checkMap d set.isSome).1 }

/-- It changes the Crossing map alone. -/
theorem commitWithoutUpdate_xmap_only (d : Dev) (set : Option Nat) : ∃ x, commitWithoutUpdate d set = { d with xmap := x } := by
  unfold commitWithoutUpdate
  split
  · exact ⟨_, rfl⟩
  · split
    · exact ⟨_, rfl⟩
    · exact ⟨_, rfl⟩

/-- A machine in service, at rest, with an empty staged map, and lane group 0 of the Causeway in service towards the West. -/
def sCommits : State := { State.reset with dev := { Dev.reset with sys.step := 0x12, cw.toWest.inService := [0] } }

theorem reaches_sCommits : ∀ o ∈ [0x100, 0x138, 0x180], Reaches sCommits.dev .ef (pg 0x21 0 + o) ⟨0x21, 0, 0⟩ := by
  simp only [List.forall_mem_cons]
  exact ⟨⟨rfl, rfl, rfl, rfl, rfl, rfl, rfl⟩, ⟨rfl, rfl, rfl, rfl, rfl, rfl, rfl⟩, ⟨rfl, rfl, rfl, rfl, rfl, rfl, rfl⟩,
    nofun⟩

/-- The device as the write's page finds it. -/
def dCommits : Dev := dropHalves sCommits.dev .ef

theorem atRest_dCommits : AtRest dCommits :=
  ⟨rfl, rfl, nofun, rfl, by decide, by decide, rfl, rfl, rfl, rfl, rfl, rfl⟩

theorem checkMap_dCommits : (checkMap dCommits (none : Option Nat).isSome).1 = cOK := by decide +kernel

/-- Its COMMIT puts the update's frame into the replay buffer towards the West. -/
theorem replay_after_commit : (written sCommits .ef (commitMap dCommits none)).dev.cw.toWest.replay =
    [{ pair := .update, cls := 0, seq := 0, group := 0 }] := by
  rw [commitMap_of_ok rfl checkMap_dCommits, written_cw_of_rest]
  · rfl
  · exact atRest_dCommits.with_xmap_cw _ _

/-- What the statement has it leave has nothing in that buffer. -/
theorem replay_without_update : (written sCommits .ef (commitWithoutUpdate dCommits none)).dev.cw.toWest.replay = [] := by
  obtain ⟨x, hx⟩ := commitWithoutUpdate_xmap_only dCommits none
  rw [hx, written_cw_of_rest]
  · rfl
  · exact atRest_dCommits.with_xmap_cw _ _

end Sys2Proof.Machine
end

section
/-! The rows of the Crossing map: a COMMIT sends an update as well. -/

namespace Sys2Proof.Machine

open Sys2Proof

/-- Refutes O16: a COMMIT that passes its checks also sends the update across the Causeway, and its frame stands in the replay buffer
towards the West (01 R25); the clause of COMMIT leaves the Causeway as it was. -/
theorem not_crossingMapRowsAndEpochs : ¬ Obligations.CrossingMapRowsAndEpochs := by
  rintro ⟨hrows, -⟩
  obtain ⟨-, hclause, -⟩ := hrows sCommits .ef 0 0 0 0 (by decide) reaches_sCommits
  have hleaves := exec_xmapCommit (reaches_sCommits 0x138 (by decide))
  have hsame : written sCommits .ef (commitMap dCommits none) = written sCommits .ef (commitWithoutUpdate dCommits none) :=
    Host.Outcome.next.inj (hleaves.symm.trans hclause)
  have hreplay := congrArg (fun t : State => t.dev.cw.toWest.replay) hsame
  simp only [replay_after_commit, replay_without_update] at hreplay
  cases hreplay

end Sys2Proof.Machine
end

section
/-! Layouts of descriptors and completion records: a record has one byte for its STATUS. -/

namespace Sys2Proof.Machine

open Sys2Proof

/-- A code past a byte is the refusal it gives alone, since no code of the order of 00 R21 is among the codes. -/
theorem firstRefusal_past_a_byte : firstRefusal [256] = some 256 := rfl

/-- The record of a descriptor refused with it shows STATUS 0. -/
theorem status_past_a_byte :
    leAt (recordBytes {} { descOfBytes ⟨0, 0, 0⟩ [] with refused := some 256 }) 2 1 = 0 := by decide

/-- Refutes O17: its list of codes is any list of numbers, and the code 256 alone is the first refusal, but does not fit the byte that
a record has for its STATUS (02 R70), which reads 0. -/
theorem not_descriptorLayoutsAndTheOrderOfRefusals : ¬ Obligations.DescriptorLayoutsAndTheOrderOfRefusals := by
  rintro ⟨-, hcodes⟩
  obtain ⟨-, -, hstatus, -⟩ := hcodes {} (descOfBytes ⟨0, 0, 0⟩ []) [256] 256 firstRefusal_past_a_byte
  exact absurd (status_past_a_byte.symm.trans hstatus) (by decide)

end Sys2Proof.Machine
end

section
/-! SUPPORT. The fetch of a descriptor, case by case (02 R68, R69, R71; 00 R21). -/

namespace Sys2Proof.Machine

open Sys2Proof

/-! ## Descriptors that go, and rings that stop -/

/-- A descriptor that is gone may leave its berth's meter brought up to now, and nothing else changed. -/
theorem dropDesc_sched_descs (d : Dev) (r : DescRef) :
    ∃ m, dropDesc d r = { d with sched := m, descs := d.descs.filter (fun x => x.r != r) } := by
  simp only [dropDesc]
  split
  · exact ⟨_, rfl⟩
  · exact ⟨d.sched, rfl⟩

@[simp] theorem dropDesc_descs (d : Dev) (r : DescRef) : (dropDesc d r).descs = d.descs.filter (fun x => x.r != r) := by
  obtain ⟨m, h⟩ := dropDesc_sched_descs d r
  rw [h]

@[simp] theorem dropDesc_xmap (d : Dev) (r : DescRef) : (dropDesc d r).xmap = d.xmap := by
  obtain ⟨m, h⟩ := dropDesc_sched_descs d r
  rw [h]

@[simp] theorem dropDesc_tiers (d : Dev) (r : DescRef) : (dropDesc d r).tiers = d.tiers := by
  obtain ⟨m, h⟩ := dropDesc_sched_descs d r
  rw [h]

theorem descOf_of_descs {d e : Dev} (h : e.descs = d.descs) (r : DescRef) : descOf e r = descOf d r := by simp only [descOf, h]

theorem ringOf_of_xmap {d e : Dev} (h : e.xmap = d.xmap) (b r : Nat) : ringOf e b r = ringOf d b r := by simp only [ringOf, h]

@[simp] theorem descOf_dropDesc (d : Dev) (r : DescRef) : descOf (dropDesc d r) r = none := by
  simp [descOf, List.find?_eq_none]

theorem ringOf_setRing {d : Dev} (h : NMap.wf {} d.xmap.rings = true) (b r : Nat) (g : Ring) : ringOf (setRing d b r g) b r = g := by
  have hget := NMap.get_set h (b * 64 + r) g (b * 64 + r)
  rw [if_pos rfl] at hget
  exact hget

/-! ## Refusals -/

/-- A whole refusal of another code than MAP_STALE changes the descriptor alone. -/
theorem refuseDesc_of_not_stale {c : Nat} (d : Dev) (r : DescRef) (hc : c ≠ cSTALE) :
    refuseDesc d r c = onDesc d r (fun x => { x with phase := .finished, refused := some c }) := by
  have hne : (c == cSTALE) = false := by simpa using hc
  simp only [refuseDesc, hne, Bool.false_and, Bool.false_eq_true, if_false]
  split
  · rfl
  · rfl

/-- A descriptor takes the place of what its bytes were read for, and the ring's fetched index moves on. -/
def fetched (d : Dev) (r : DescRef) (l : List Byte) : Dev :=
  let x := descOfBytes r l
  setRing (onDesc d r (fun _ => { x with qsets := (berthOf d r.berth).qsets, pre := seqRefusals d x })) r.berth r.ring
    { ringOf d r.berth r.ring with fetched := (r.index + 1) % 2 ^ 32 }

section
variable {d : Dev} {r : DescRef} {l : List Byte}

theorem admitDesc_of_passed (h : firstRefusal (seqRefusals d (descOfBytes r l)) = none) : admitDesc d r l = fetched d r l := by
  simp only [admitDesc, h, fetched]

variable {c : Nat} (h : firstRefusal (seqRefusals d (descOfBytes r l)) = some c)
include h

/-- The engine may find a refusal that comes first. -/
theorem admitDesc_of_engine (he : engineDecides (descOfBytes r l) = true) (h1 : c ≠ cABORTED) (h2 : c ≠ cFENCED) (h3 : c ≠ cDENIED) :
    admitDesc d r l = fetched d r l := by
  simp [admitDesc, h, fetched, he, h1, h2, h3]

theorem admitDesc_of_refused (he : engineDecides (descOfBytes r l) = false ∨ c = cABORTED ∨ c = cFENCED ∨ c = cDENIED) :
    admitDesc d r l = refuseDesc (fetched d r l) r c := by
  have hwhole : (engineDecides (descOfBytes r l) && c != cABORTED && c != cFENCED && c != cDENIED) = false := by
    rcases he with he | he | he | he <;> simp [he]
  simp only [admitDesc, h, fetched, hwhole, Bool.false_eq_true, if_false]

end

/-! ## The fetch -/

theorem exec_descriptorFetch (s : State) (berth ring : Nat) :
    exec (.descriptorFetch berth ring) s = .next (goingOn s (fetchDesc s.dev berth ring)) := rfl

/-- The next descriptor of a ring: its place, and what stands there while it is read. -/
def nextRef (d : Dev) (berth ring : Nat) : DescRef :=
  { berth := berth, ring := ring, index := (ringOf d berth ring).gen * 2 ^ 32 + (ringOf d berth ring).fetched }

def blankDesc (d : Dev) (berth ring : Nat) : Desc :=
  { r := nextRef d berth ring, id := 0, engine := 0, opcode := 0, job := (ringOf d berth ring).job, sv := false, notify := false,
    order := false, count := 0, svRef := 0, tide := 0, epoch := 0, raw := [], phase := .fetching }

/-- The read of the next descriptor of a ring, under the ring's job and that job's tide. -/
def nextRead (d : Dev) (berth ring : Nat) : Got × Dev :=
  let g := ringOf d berth ring
  engRead (nextRef d berth ring) fetchKey g.job (jobOf d g.job).tide d.xmap.node
    (g.descBase + (nextRef d berth ring).index % 2 ^ g.log2Size * 64) 64 (addDesc d (blankDesc d berth ring))

/-- What the fetch leaves of what the read has come to, and of the device that the read has left. -/
def fetchGot (r : DescRef) (a : Got × Dev) : Dev :=
  match a.1 with
  | .wait => a.2
  | .fail c => stopRing (dropDesc a.2 r) r c
  | .ok l => admitDesc a.2 r l

section
variable {d : Dev} {berth ring : Nat}

theorem fetchDesc_of_idle (h : bankLive d (bankOfBerth berth) = false ∨ (ringOf d berth ring).enable = false ∨
    (ringOf d berth ring).stopped = true ∨ (ringOf d berth ring).fetched = (ringOf d berth ring).producer) :
    fetchDesc d berth ring = d := by
  rcases h with h | h | h | h <;> simp [fetchDesc, h]

variable (hlive : bankLive d (bankOfBerth berth) = true) (hen : (ringOf d berth ring).enable = true)
  (hrun : (ringOf d berth ring).stopped = false) (hrung : (ringOf d berth ring).fetched ≠ (ringOf d berth ring).producer)
  (hnew : descOf d (nextRef d berth ring) = none)
include hlive hen hrun hrung hnew

/-- What the read of the next descriptor has come to decides. -/
theorem fetchDesc_of_rung : fetchDesc d berth ring = fetchGot (nextRef d berth ring) (nextRead d berth ring) := by
  have hguard : (!bankLive d (bankOfBerth berth) || !(ringOf d berth ring).enable || (ringOf d berth ring).stopped ||
      (ringOf d berth ring).fetched == (ringOf d berth ring).producer) = false := by simp [hlive, hen, hrun, hrung]
  have hnone : (descOf d (nextRef d berth ring)).isNone = true := by simp [hnew]
  unfold nextRef at hnone
  simp only [fetchDesc, hguard, hnone, Bool.false_eq_true, if_false, if_true]
  rfl

end

end Sys2Proof.Machine
end

section
/-! The fetch of a descriptor. -/

namespace Sys2Proof.Machine

open Sys2Proof

/-- Settles O18: what the read has come to decides, and of what was read the first refusal. -/
theorem descriptorFetchAdmitsRefusesOrStops : Obligations.DescriptorFetchAdmitsRefusesOrStops := by
  intro s berth ring d g r blank slot
  have leaves {t : Dev} (h : fetchDesc d berth ring = t) : exec (.descriptorFetch berth ring) s = .next (goingOn s t) := by
    rw [exec_descriptorFetch, h]
  refine ⟨fun hidle => leaves (fetchDesc_of_idle hidle), fun hlive hen hrun hrung hnew a t hread => ?_⟩
  have hgot : fetchDesc d berth ring = fetchGot r (a, t) :=
    (fetchDesc_of_rung hlive hen hrun hrung hnew).trans (congrArg (fetchGot r) hread)
  refine ⟨?_, ?_, ?_⟩
  · rintro rfl
    exact leaves hgot
  · rintro c rfl
    exact ⟨leaves hgot, dropDesc_descs t r, dropDesc_xmap t r⟩
  · rintro l rfl
    refine ⟨fun hnone => leaves (hgot.trans (admitDesc_of_passed hnone)), fun c hsome => ⟨fun he h1 h2 h3 => ?_, fun he hc => ?_⟩⟩
    · exact leaves (hgot.trans (admitDesc_of_engine hsome he h1 h2 h3))
    · exact leaves ((hgot.trans (admitDesc_of_refused hsome he)).trans (refuseDesc_of_not_stale _ r hc))

end Sys2Proof.Machine
end

section
/-! SUPPORT. The no-op, and the completion of a descriptor, case by case (02 R69-R72; 01 R36). -/

namespace Sys2Proof.Machine

open Sys2Proof

theorem exec_ringControlNoop {s : State} {r : DescRef} {x : Desc} (h : engineDesc s.dev r 0x01 0 = some x) :
    exec (.ringControlNoop r) s = .next (goingOn s (finishDesc s.dev r)) := by
  have hexec : exec (.ringControlNoop r) s = .next (goingOn s (match engineDesc s.dev r 0x01 0 with
    | some _ => finishDesc s.dev r
    | none => s.dev)) := rfl
  rw [hexec, h]

theorem engineDesc_of_running {d : Dev} {r : DescRef} {x : Desc} (hx : descOf d r = some x)
    (hp : x.phase = .running ∨ (x.phase = .admitted ∧ startable d x = true)) :
    engineDesc d r x.engine x.opcode = some x := by
  rcases hp with hp | ⟨hp, hs⟩
  · simp [engineDesc, hx, hp]
  · simp [engineDesc, hx, hp, hs]

theorem exec_descriptorComplete (s : State) (r : DescRef) : exec (.descriptorComplete r) s =
    .next (goingOn s (completeStage (completeStage (completeStage s.dev r) r) r)) := rfl

/-! ## Stages of a completion -/

theorem completeStage_of_gone {d : Dev} {r : DescRef} (h : descOf d r = none) : completeStage d r = d := by
  simp [completeStage, h]

/-- A completion whose first stage leaves no descriptor is over. -/
theorem exec_descriptorComplete_of_gone {s : State} {r : DescRef} {t : Dev} (h : completeStage s.dev r = t) (ht : descOf t r = none) :
    exec (.descriptorComplete r) s = .next (goingOn s t) := by
  rw [exec_descriptorComplete, h, completeStage_of_gone ht, completeStage_of_gone ht]

section
variable {d : Dev} {r : DescRef} {x : Desc} (hx : descOf d r = some x)
include hx

theorem completeStage_of_unfinished (h : x.phase ≠ .finished ∨ descBusy d r = true) : completeStage d r = d := by
  rcases h with h | h <;> simp [completeStage, hx, h]

variable (hp : x.phase = .finished) (hb : descBusy d r = false) (hl : bankLive d (bankOfBerth r.berth) = true)
include hp hb hl

/-- The record has been acknowledged. -/
theorem completeStage_of_recorded (hs : x.stage = 2) (hok : NMap.get 0 x.statuses recordKey = 0) :
    completeStage d r = recorded d x := by
  simp [completeStage, hx, hp, hb, hl, hs, hok]

/-- The record, or the status vector before it, has failed. -/
theorem completeStage_of_failed {key : Nat} (hs : (x.stage = 2 ∧ key = recordKey) ∨ (x.stage = 1 ∧ key = vectorKey))
    (hbad : NMap.get 0 x.statuses key ≠ 0) :
    completeStage d r = stopFor (dropDesc (unbind d r) r) x (NMap.get 0 x.statuses key) := by
  rcases hs with ⟨hs, rfl⟩ | ⟨hs, rfl⟩
  · simp [completeStage, hx, hp, hb, hl, hs, hbad]
  · simp [completeStage, hx, hp, hb, hl, hs, hbad]

end

/-! ## The end of a completion -/

/-- A ring whose record at the consumer index is the only one written moves past it. -/
theorem advance_of_only {g : Ring} (hrec : g.recorded = []) (k : Nat) :
    advance (k + 1) { g with recorded := NSet.add g.recorded g.consumer } = { g with consumer := (g.consumer + 1) % 2 ^ 32 } := by
  obtain ⟨⟩ := g
  obtain rfl := hrec
  cases k <;> simp [advance, NSet.add, NSet.mem, NSet.del]

/-- The record of the oldest descriptor of a ring is visible: the consumer index moves past its slot. -/
theorem recorded_of_oldest {d : Dev} {x : Desc} (hcfg : x.cfg = none) (hnot : x.notify = false)
    (hold : (ringOf d x.r.berth x.r.ring).consumer = x.r.index % 2 ^ 32) (hrec : (ringOf d x.r.berth x.r.ring).recorded = []) :
    let g := ringOf d x.r.berth x.r.ring
    recorded d x = setRing (dropDesc (unbind d x.r) x.r) x.r.berth x.r.ring { g with consumer := (g.consumer + 1) % 2 ^ 32 } := by
  intro g
  have hadv := advance_of_only hrec (d.descs.length + g.recorded.length)
  simp only [recorded, hcfg, Option.isSome_none, Bool.false_eq_true, if_false, ← hold, g] at hadv ⊢
  rw [hadv]
  simp only [notify, hnot, Bool.not_false, Bool.true_or, if_true]

section
variable {d : Dev} (r : DescRef)

/-- A descriptor that no table or index binds any more, and that is gone, leaves the rings and the tiers alone. -/
theorem ringOf_after_drop (b k : Nat) : ringOf (dropDesc (unbind d r) r) b k = ringOf d b k :=
  ringOf_of_xmap (dropDesc_xmap _ _) b k

theorem descOf_stopRing (c : Nat) : descOf (stopRing d r c) r = descOf d r := by
  refine descOf_of_descs ?_ r
  simp [stopRing]

variable (hwf : NMap.wf {} d.xmap.rings = true)
include hwf

/-- A ring that stops keeps its configuration and its counts. -/
theorem ringOf_stopRing (c : Nat) : ringOf (stopRing d r c) r.berth r.ring =
    { ringOf d r.berth r.ring with stopped := true, code := c, slot := r.index % 2 ^ (ringOf d r.berth r.ring).log2Size } := by
  rw [stopRing, ringOf_of_xmap (raiseFe_xmap _ _ _ _), ringOf_setRing hwf]
  rfl

end

end Sys2Proof.Machine
end

section
/-! The no-op and the completion of a ring's descriptors. -/

namespace Sys2Proof.Machine

open Sys2Proof

/-- Settles O19: the first stage leaves no descriptor, or nothing is done in any. -/
theorem ringControlAndCompletion : Obligations.RingControlAndCompletion := by
  intro s r x d g hx hr hwf
  have hwf' : NMap.wf {} (dropDesc (unbind d r) r).xmap.rings = true := by rw [dropDesc_xmap]; exact hwf
  refine ⟨fun hp he ho => ?_, fun h => ?_, fun hp hb hl hcfg => ⟨fun hs hok hnot hold hrec => ?_, fun key hs hbad => ?_⟩⟩
  · have hdesc := engineDesc_of_running hx hp
    rw [he, ho] at hdesc
    exact exec_ringControlNoop hdesc
  · have hstay := completeStage_of_unfinished hx h
    rw [exec_descriptorComplete, hstay, hstay, hstay]
  · subst hr
    have hleft := (completeStage_of_recorded hx hp hb hl hs hok).trans (recorded_of_oldest hcfg hnot hold hrec)
    have hgone := descOf_dropDesc (unbind d x.r) x.r
    exact ⟨_, exec_descriptorComplete_of_gone hleft hgone, hgone, ringOf_setRing hwf' _ _ _, congrArg (·.mem) (dropDesc_tiers _ _)⟩
  · have hleft := completeStage_of_failed hx hp hb hl hs hbad
    simp only [stopFor, hcfg, Option.isSome_none, Bool.false_eq_true, if_false, hr] at hleft
    have hgone := (descOf_stopRing r (NMap.get 0 x.statuses key)).trans (descOf_dropDesc (unbind d r) r)
    refine ⟨_, exec_descriptorComplete_of_gone hleft hgone, hgone, ?_⟩
    rw [ringOf_stopRing r hwf', ringOf_after_drop]

end Sys2Proof.Machine
end

section
/-! SUPPORT. The Toll's tests, in their order (02 R48, R65; 14 R441). -/

namespace Sys2Proof.Machine

open Sys2Proof

/-! ## Before the tests of a job's request -/

theorem fencedFor_iff {d : Dev} {h : Hdr} : fencedFor d h = true ↔ d.salv.fencedOut = true ∧ h.tc ≠ 0 := by simp [fencedFor]

section
variable {d : Dev} {h : Hdr} (bank : Nat) (op : Op) (engine : Bool)

theorem tollCheck_of_fenced (hf : fencedFor d h = true) : tollCheck d bank op h engine = (.refuse cFENCED, d) := by
  simp [tollCheck, hf]

variable (hf : fencedFor d h = false)
include hf

theorem tollCheck_of_no_node (hn : d.xmap.nodeValid = false) : tollCheck d bank op h engine = (.refuse cBUSY, d) := by
  simp [tollCheck, hf, hn]

theorem tollCheck_of_node (hn : d.xmap.nodeValid = true) : tollCheck d bank op h engine = tollTests d bank op h engine := by
  simp [tollCheck, hf, hn]

end

section
variable {d : Dev} {h : Hdr} (bank : Nat) (op : Op)

theorem tollTests_of_other_node (engine : Bool) (hn : h.node.toNat ≠ d.xmap.node) :
    (tollTests d bank op h engine).1 = .refuse cDENIED := by
  simp [tollTests, hn]

variable (hprot : ∀ x, extAt d h.offset.toNat = some x → protTide d x h.src.toNat = none) (hn : h.node.toNat = d.xmap.node)
include hprot hn

/-- Test 1 for a request that is not protection traffic. -/
theorem tollTests_of_own_node : tollTests d bank op h false =
    if acceptsEp (jobOf d h.job.toNat) h.src.toNat then tollTests.jobTests d bank op h (jobOf d h.job.toNat)
    else (.refuse cDENIED, d) := by
  have hvalid : ((jobOf d h.job.toNat).valid && (false || acceptsEp (jobOf d h.job.toNat) h.src.toNat)) =
      acceptsEp (jobOf d h.job.toNat) h.src.toNat := by
    cases hv : (jobOf d h.job.toNat).valid <;> simp [acceptsEp, hv]
  simp only [tollTests, hn, bne_self_eq_false, Bool.false_eq_true, if_false, hvalid]
  split
  · next x hx =>
    simp only [hprot x hx]
    cases acceptsEp (jobOf d h.job.toNat) h.src.toNat <;> rfl
  · cases acceptsEp (jobOf d h.job.toNat) h.src.toNat <;> rfl

end

/-! ## Tests 2 to 5 -/

/-- Test 5 answers MAP_STALE for an epoch that is not resolvable. -/
theorem test5_code (d : Dev) (bank : Nat) (h : Hdr) :
    (test5 d bank h).1 = if epochIs d h.epoch.toNat = .resolvable then cOK else cSTALE := by
  unfold test5
  split <;> simp [*]

/-- The verdict of a request that test 5 lets pass, or not. -/
theorem verdict_of_test5 (d e : Dev) (bank : Nat) (h : Hdr) (v : TollSays) :
    (if (test5 d bank h).1 == cOK then (v, e) else (.refuse (test5 d bank h).1, (test5 d bank h).2)).1 =
      if epochIs d h.epoch.toNat = .resolvable then v else .refuse cSTALE := by
  rw [test5_code]
  by_cases hres : epochIs d h.epoch.toNat = .resolvable
  · simp [hres]
  · simp [hres, cOK, cSTALE]

section
variable {d : Dev} {op : Op} {h : Hdr} {j : Job} (bank : Nat)

theorem jobTests_of_other_tide (ht : h.tide.toNat ≠ j.tide) : (tollTests.jobTests d bank op h j).1 = .refuse cFENCED := by
  simp [tollTests.jobTests, ht]

variable (ht : h.tide.toNat = j.tide)
include ht

theorem jobTests_acquire : (tollTests.jobTests d bank .acquire h j).1 =
    if epochIs d h.epoch.toNat = .resolvable then .pass none else .refuse cSTALE := by
  simpa [tollTests.jobTests, ht] using verdict_of_test5 d (test5 d bank h).2 bank h (.pass none)

variable (hop : op ≠ .acquire)
include hop

theorem jobTests_of_test3_none (h3 : test3 d op h = none) : (tollTests.jobTests d bank op h j).1 = .refuse cDENIED := by
  simp [tollTests.jobTests, ht, hop, h3]

variable {x : Extent} (h3 : test3 d op h = some x)
include h3

/-- A refusal of test 4 stands, but BUSY_RETRY where test 5 fails as well. -/
theorem jobTests_of_test4_refuse {c : Nat} (h4 : test4 x h.job.toNat = .refuse c) (hc : c ≠ cBUSY) :
    (tollTests.jobTests d bank op h j).1 = .refuse c := by
  simp [tollTests.jobTests, ht, hop, h3, h4, hc]

theorem jobTests_of_test4_busy (h4 : test4 x h.job.toNat = .refuse cBUSY) : (tollTests.jobTests d bank op h j).1 =
    if epochIs d h.epoch.toNat = .resolvable then .refuse cBUSY else .refuse cSTALE := by
  simpa [tollTests.jobTests, ht, hop, h3, h4] using verdict_of_test5 d d bank h (.refuse cBUSY)

theorem jobTests_of_test4_held (h4 : test4 x h.job.toNat = .held) : (tollTests.jobTests d bank op h j).1 = .held x := by
  simp [tollTests.jobTests, ht, hop, h3, h4]

theorem jobTests_of_test4_pass (h4 : test4 x h.job.toNat = .pass) : (tollTests.jobTests d bank op h j).1 =
    if epochIs d h.epoch.toNat = .resolvable then .pass (some x) else .refuse cSTALE := by
  simpa [tollTests.jobTests, ht, hop, h3, h4] using verdict_of_test5 d (test5 d bank h).2 bank h (.pass (some x))

end

end Sys2Proof.Machine
end

section
/-! The Toll's tests. -/

namespace Sys2Proof.Machine

open Sys2Proof

/-- Settles O21: FENCED and test 6 come first, then test 1 and the tests of the job's request. -/
theorem tollTestsComeInOrder : Obligations.TollTestsComeInOrder := by
  intro d bank op h hprot j stale verdict fenced
  refine ⟨fun hf => ?_, fun hf hn => ?_, fun hf hn => ?_⟩
  · exact congrArg Prod.fst (tollCheck_of_fenced bank op false (fencedFor_iff.mpr hf))
  · exact congrArg Prod.fst (tollCheck_of_no_node bank op false (Bool.eq_false_iff.mpr (fun e => hf (fencedFor_iff.mp e))) hn)
  have hcheck : verdict = (tollTests d bank op h false).1 :=
    congrArg Prod.fst (tollCheck_of_node bank op false (Bool.eq_false_iff.mpr (fun e => hf (fencedFor_iff.mp e))) hn)
  refine ⟨fun hbad => ?_, fun hnode hep => ?_⟩
  · by_cases hnode : h.node.toNat = d.xmap.node
    · have hep : acceptsEp j h.src.toNat = false := hbad.resolve_left (fun e => e hnode)
      rw [hcheck, tollTests_of_own_node bank op hprot hnode, hep]
      rfl
    · exact hcheck.trans (tollTests_of_other_node bank op false hnode)
  have hjob : verdict = (tollTests.jobTests d bank op h j).1 := by
    rw [hcheck, tollTests_of_own_node bank op hprot hnode, hep]
    rfl
  refine ⟨fun ht => hjob.trans (jobTests_of_other_tide bank ht), fun ht hop => ?_, fun ht hop => ⟨fun h3 => ?_, fun x h3 => ?_⟩⟩
  · subst hop
    exact hjob.trans (jobTests_acquire bank ht)
  · exact hjob.trans (jobTests_of_test3_none bank ht hop h3)
  refine ⟨fun h4 => ?_, fun h4 => ?_, fun h4 => ?_, fun h4 => ⟨fun hstale => ?_, fun hfresh => ?_⟩⟩
  · exact hjob.trans (jobTests_of_test4_refuse bank ht hop h3 h4 (by decide))
  · rw [hjob, jobTests_of_test4_busy bank ht hop h3 h4]
    split <;> rfl
  · exact hjob.trans (jobTests_of_test4_held bank ht hop h3 h4)
  · rw [hjob, jobTests_of_test4_pass bank ht hop h3 h4, if_neg hstale]
    rfl
  · rw [hjob, jobTests_of_test4_pass bank ht hop h3 h4, if_pos (not_not.mp hfresh)]

end Sys2Proof.Machine
end

section
/-! SUPPORT. A memory request of a Landing, from its arrival to its home (02 R48; 11 R355; 12 R390; 05 R165). -/

namespace Sys2Proof.Machine

open Sys2Proof

/-! ## From the Landing to the Toll -/

/-- A memory command brings its request to its Landing. -/
theorem exec_of_requestOf {c : Instr} {n : Nat} {q : Req} (h : requestOf c = some (n, q)) (s : State) :
    exec c s = .next (goingOn s (landRequest s.dev n q.op q.home q.h q.data)) ∧
      q = { op := q.op, home := q.home, origin := .landing n, h := q.h, data := q.data } := by
  unfold requestOf at h
  split at h
  case h_15 => cases h
  all_goals
    obtain ⟨rfl, rfl⟩ := Prod.mk.inj (Option.some.inj h)
    exact ⟨rfl, rfl⟩

/-- A request of a Landing waits for no home credit at its source. -/
theorem lacksCredit_landing {d : Dev} {q : Req} {n : Nat} (ho : q.origin = .landing n) : lacksCredit d q = none := by
  simp [lacksCredit, ho]

/-- A request that reaches the Toll goes to it as it arrives. -/
theorem landRequest_of_landed {d : Dev} {n : Nat} {q : Req} (hl : Landed d n q)
    (hq : q = { op := q.op, home := q.home, origin := .landing n, h := q.h, data := q.data }) :
    landRequest d n q.op q.home q.h q.data = enterNow (arrive d n q.op q.h) q (n / 8) := by
  have hquiet : quiet (arrive d n q.op q.h) = false := hl.notQuiet
  have hadmits : (q.h.tc == 0 && !mgmtAdmits (arrive d n q.op q.h) q.h.src.toNat) = false := by
    by_cases h0 : q.h.tc = 0
    · have hin : mgmtAdmits (arrive d n q.op q.h) q.h.src.toNat = true := hl.admitted h0
      simp [hin]
    · have htc : (q.h.tc == 0) = false := by simpa using h0
      rw [htc, Bool.false_and]
  have hturn : turnTaken (arrive d n q.op q.h) q = false := hl.first
  simp only [landRequest, ← hq, hl.isOpen, hquiet, hl.header, hadmits, fromLanding, hl.unmarked, enterTurn, hturn, enter,
    lacksCredit_landing hl.origin, Bool.not_true, Bool.not_false, Bool.false_eq_true, if_false, if_true]

theorem tollOf_landing {d : Dev} {q : Req} {n : Nat} (ho : q.origin = .landing n) :
    tollOf (arrive d n q.op q.h) q (n / 8) = (q, tollSays d n q) := by
  simp only [tollOf, ho]
  rfl

section
variable {d : Dev} {n : Nat} {q : Req} (ho : q.origin = .landing n)
include ho

theorem enterNow_of_refuse {code : Nat} (h : (tollSays d n q).1 = .refuse code) :
    enterNow (arrive d n q.op q.h) q (n / 8) = refuseReq (tollSays d n q).2 q code := by
  simp only [enterNow, tollOf_landing ho, h]

theorem enterNow_of_held {x : Extent} (h : (tollSays d n q).1 = .held x) (hm : x.moving = false) :
    enterNow (arrive d n q.op q.h) q (n / 8) = addFlying (tollSays d n q).2
      { id := 0, q := q, entry := n / 8, homeBank := extBank x, base := x.e.base, wait := .hold (tollSays d n q).2.sys.ltc } := by
  simp only [enterNow, tollOf_landing ho, h, hm, Bool.false_eq_true, if_false]

theorem enterNow_of_pass {x : Option Extent} {dt : Dev} (h : tollSays d n q = (.pass x, dt)) :
    enterNow (arrive d n q.op q.h) q (n / 8) = passed dt q (n / 8) x := by
  simp only [enterNow, tollOf_landing ho, h]

/-! ## From the Toll to the home -/

theorem fareOn_landing (dt : Dev) : fareOn dt q =
    ({ q with yellow := (farePass dt q.op q.h).1 == .yellow }, (farePass dt q.op q.h).1 == .red, (farePass dt q.op q.h).2) := by
  simp [fareOn, ho]

/-- The Fare meter gives a request of a Landing its colour, and changes nothing else of it. -/
theorem fareOn_keeps (dt : Dev) : landOf (fareOn dt q).1 = some n ∧ (fareOn dt q).1.op = q.op ∧ (fareOn dt q).1.home = q.home ∧
    (fareOn dt q).1.h = q.h ∧ (fareOn dt q).1.data = q.data := by
  rw [fareOn_landing ho]
  exact ⟨by simp [landOf, ho], rfl, rfl, rfl, rfl⟩

/-- The request as it comes to its home keeps what the checks and the caches see of it. -/
theorem tabledReq_keeps (dt : Dev) (x : Extent) : (tabledReq dt q x).op = q.op ∧ (tabledReq dt q x).h = q.h ∧
    (tabledReq dt q x).data = q.data ∧ tchkBad (tabledReq dt q x) = tchkBad q := by
  obtain ⟨-, hop, -, hh, hdata⟩ := fareOn_keeps ho dt
  have hchecked : checkedData (tabledReq dt q x) = checkedData q := by simp only [checkedData, tabledReq, hop, hh, hdata]
  refine ⟨hop, hh, hdata, ?_⟩
  have hh' : (tabledReq dt q x).h = q.h := hh
  simp only [tchkBad, hchecked, hh']

end

section
variable {dt : Dev} {n : Nat} {q : Req} {x : Extent} (ho : q.origin = .landing n) (hon : Onward dt n q x)
include ho hon

/-- A request that goes onward comes to its home with its credit. -/
theorem passed_of_onward : passed dt q (n / 8) (some x) = toHome (credited dt n q x) (tabledReq dt q x) (n / 8) x := by
  obtain ⟨hnotRed, hbank, hcredit, -, -⟩ := hon
  obtain ⟨hland, hop, hhome, hh, hdata⟩ := fareOn_keeps ho dt
  have hup : ((metered dt n q x).sys.westHeld && extBank x == 1) = false := by
    rcases hbank with h | h <;> simp [h]
  have htabled : tabled (fareOn dt q).1 x = tabled q x := by simp only [tabled, hop, hhome]
  have hgranted : (if tabled q x then overCredit (metered dt n q x) (fareOn dt q).1 (extBank x) else none) = none := by
    split
    · next ht => exact hcredit ht
    · rfl
  have hmetered : meterRx (misroute (fareOn dt q).2.2 n (some x.e.berth) q.h.epoch.toNat q.h.offset.toNat) (some x.e.berth)
      (reqSlots q.op q.h * 16) = metered dt n q x := rfl
  simp only [passed, hnotRed, hland, hop, hh, hmetered, hup, htabled, hgranted, Bool.false_eq_true, if_false, credited, tabledReq]

/-- A request that no read-side cache answers and whose data pass their check is in flight at its home, and is attempted there. -/
theorem toHome_of_onward : toHome (credited dt n q x) (tabledReq dt q x) (n / 8) x =
    attempt (homeDev dt n q x) (atHome dt n q x).id true := by
  obtain ⟨hop, hh, hdata, htchk⟩ := tabledReq_keeps ho dt x
  obtain ⟨-, -, -, hgood, huncached⟩ := hon
  have hmiss : (if (q.op == .rd || q.op == .rdComb) && !q.h.acq && cacheable x (n / 8) && !isEngine (tabledReq dt q x) &&
      !memberRead (credited dt n q x) x (tabledReq dt q x)
      then cacheRead (credited dt n q x) (n / 8) q.h.job.toNat q.h.offset.toNat (lenOf q.h) else none) = none := by
    split
    · next hask =>
      simp only [Bool.and_eq_true, Bool.or_eq_true, beq_iff_eq, Bool.not_eq_true'] at hask
      obtain ⟨⟨⟨⟨hread, hacq⟩, hcan⟩, -⟩, -⟩ := hask
      exact Option.not_isSome_iff_eq_none.mp (fun hsome => huncached ⟨hread, hacq, hcan, hsome⟩)
    · rfl
  simp only [toHome, htchk, hgood, hop, hh, hdata, hmiss, Bool.false_eq_true, if_false]
  rfl

end

/-! ## At the home -/

/-- Nothing stands in the way of a request that has just come: it is performed. -/
theorem attempt_of_unhindered {d : Dev} {f : Flying} {x : Extent} (hu : Unhindered d f x) (ht : f.taken = false) (first : Bool) :
    attempt d f.id first = performOp d f x false := by
  have hrecall : (if f.q.op == .wb then wbAnswers d f (lineOf x f.q.h.offset.toNat) else none) = none := by
    split
    · next hwb => exact hu.noRecall (by simpa using hwb)
    · rfl
  have hsums : (f.q.op != .eadd && f.q.op != .flush && !isInternal f.q && !(accumsUnder d f).isEmpty) = false := by
    rcases hu.noSums with h | h | h <;> simp [h]
  have htrans : (x.e.moored && (f.q.op == .wb || f.q.op == .evictClean) &&
      (linesOf x f.q.h.offset.toNat (lenOf f.q.h)).any (fun l => (transOf d f.homeBank l).isSome)) = false := by
    by_contra hwait
    simp only [Bool.not_eq_false, Bool.and_eq_true, Bool.or_eq_true, beq_iff_eq, List.any_eq_true] at hwait
    obtain ⟨⟨hmoored, hop⟩, l, hl, hsome⟩ := hwait
    simp [hu.noTrans hmoored hop l hl] at hsome
  have hlines : (if needsLines d f x then askLines d f.homeBank f.id (askOf d f x) (linesOf x f.q.h.offset.toNat (lenOf f.q.h))
      else .go) = .go := by
    rcases hu.noLines with h | h <;> simp [h]
  simp only [attempt, hu.mine, hu.found, ht, hu.notRefused, hrecall, hu.first, hu.notSwept, hsums, htrans, hlines, performNow,
    hu.noSnap, hu.noRecon, Bool.false_eq_true, if_false]

end Sys2Proof.Machine
end

section
/-! Memory requests: refused at the Toll, held at a switch, or performed at their home. -/

namespace Sys2Proof.Machine

open Sys2Proof

/-- A memory command whose request reaches the Toll does what follows the Toll. -/
theorem exec_of_landed {c : Instr} {n : Nat} {q : Req} {s : State} (hc : requestOf c = some (n, q)) (hl : Landed s.dev n q) :
    exec c s = .next (goingOn s (enterNow (arrive s.dev n q.op q.h) q (n / 8))) := by
  obtain ⟨hexec, hq⟩ := exec_of_requestOf hc s
  rw [hexec, landRequest_of_landed hl hq]

/-- Settles O22: each memory command brings its request to the Toll, and one that passes comes to its home with nothing before it. -/
theorem requestsStopAtTheTollOrAreServedAtHome : Obligations.RequestsStopAtTheTollOrAreServedAtHome := by
  constructor
  · intro c s n q hc hl r
    refine ⟨fun code hr => ?_, fun x hr hm => ?_⟩
    · rw [exec_of_landed hc hl, enterNow_of_refuse hl.origin hr]
    · rw [exec_of_landed hc hl, enterNow_of_held hl.origin hr hm]
  · intro n h l s q x dt c _ hc hl htoll hon hu
    rw [exec_of_landed hc hl, enterNow_of_pass hl.origin htoll, passed_of_onward hl.origin hon, toHome_of_onward hl.origin hon,
      attempt_of_unhindered hu rfl]

end Sys2Proof.Machine
end

section
/-! SUPPORT. A store to a doorbell that has passed the Toll (02 R67; 17 R540). -/

namespace Sys2Proof.Machine

open Sys2Proof

/-! ## Which bank runs is no matter of the meters -/

theorem farePass_sys (d : Dev) (op : Op) (h : Hdr) : (farePass d op h).2.sys = d.sys := by
  unfold farePass
  dsimp only
  split
  · rfl
  · rw [apply_ite Prod.snd, apply_ite Dev.sys]
    simp only [raiseFe_sys, count_sys, ite_self]

theorem misroute_sys (d : Dev) (n : Nat) (b : Option Nat) (epoch off : Nat) : (misroute d n b epoch off).sys = d.sys := by
  unfold misroute
  split
  · rfl
  · split
    · rfl
    · split
      · split
        · rfl
        · simp
      · rfl

theorem meterRx_sys (d : Dev) (b : Option Nat) (bytes : Nat) : (meterRx d b bytes).sys = d.sys := by
  cases b <;> rfl

/-! ## The value that reaches its ring -/

/-- A doorbell value that its ring takes: it fits 32 bits, the ring is enabled, and it lies between the producer index and the size,
counted from the consumer index. -/
def DoorbellOk (g : Ring) (v : Nat) : Prop :=
  v < 2 ^ 32 ∧ g.enable = true ∧ (g.producer + 2 ^ 32 - g.consumer) % 2 ^ 32 ≤ (v + 2 ^ 32 - g.consumer) % 2 ^ 32 ∧
    (v + 2 ^ 32 - g.consumer) % 2 ^ 32 ≤ 2 ^ g.log2Size

section
variable {d : Dev} {b r v : Nat}

theorem ringDoorbell_of_ok (h : DoorbellOk (ringOf d b r) v) :
    ringDoorbell d b r v = setRing d b r { ringOf d b r with producer := v } := by
  obtain ⟨hv, hen, hlow, hhigh⟩ := h
  simp only [ringDoorbell]
  exact if_pos (by simp only [Bool.and_eq_true, decide_eq_true_eq]; exact ⟨⟨⟨hv, hen⟩, hlow⟩, hhigh⟩)

theorem ringDoorbell_of_bad (h : ¬ DoorbellOk (ringOf d b r) v) : ringDoorbell d b r v = doorbellBad d b r := by
  simp only [ringDoorbell]
  refine if_neg (fun hok => h ?_)
  simp only [Bool.and_eq_true, decide_eq_true_eq] at hok
  obtain ⟨⟨⟨hv, hen⟩, hlow⟩, hhigh⟩ := hok
  exact ⟨hv, hen, hlow, hhigh⟩

end

/-! ## From the Toll to the ring -/

/-- A store to a doorbell of a bank that runs, not red and with the right check, reaches its ring, and is answered OK. -/
theorem passed_doorbell {dt : Dev} {n b r : Nat} {q : Req} (ho : q.origin = .landing n) (hop : q.op = .wr)
    (hat : doorbellAt q.h.offset.toNat = some (b, r)) (hnotRed : (farePass dt .wr q.h).1 ≠ .red) (htchk : tchkBad q = false)
    (hup : dt.sys.westHeld = false ∨ b < 128) :
    let m := meterRx (misroute (farePass dt .wr q.h).2 n (some b) q.h.epoch.toNat q.h.offset.toNat) (some b) (reqSlots .wr q.h * 16)
    passed dt q (n / 8) none = answerReq (ringDoorbell (cross m (n / 8) (bankOfBerth b) .doorbell q.h.tc.toNat) b r (leAt q.data 0 8))
      { q with yellow := (farePass dt .wr q.h).1 == .yellow } (bankOfBerth b) none (if n / 8 = bankOfBerth b then 17 else 9) cOK [] := by
  obtain ⟨hland, hop', -, hh, hdata⟩ := fareOn_keeps ho dt
  have hq : (fareOn dt q).1 = { q with yellow := (farePass dt .wr q.h).1 == .yellow } := by rw [fareOn_landing ho, hop]
  have hcolour : (fareOn dt q).2.1 = false := by rw [fareOn_landing ho, hop]; simpa using hnotRed
  have hleft : (fareOn dt q).2.2 = (farePass dt .wr q.h).2 := by rw [fareOn_landing ho, hop]
  have hbank : (dt.sys.westHeld && bankOfBerth b == 1) = false := by
    rcases hup with h | h
    · simp [h]
    · simp [bankOfBerth, h]
  have hgood : tchkBad (fareOn dt q).1 = false := by rw [hq]; exact htchk
  have hstore : (Op.wr == Op.acquire) = false ∧ isRead .wr = false := ⟨rfl, rfl⟩
  have hback (e : Dev) : crossBack e (fareOn dt q).1 (n / 8) (bankOfBerth b) =
      (e, if n / 8 == bankOfBerth b then ownInput (fareOn dt q).1 else 9) := by
    rw [hq]
    simp only [crossBack, ho]
  intro m
  simp only [passed, hcolour, hleft, hland, hop', hop, hh, hdata, hat, hbank, hgood, hstore, hback, Option.map_some, Bool.false_eq_true,
    if_false]
  by_cases hsame : n / 8 = bankOfBerth b
  · simp [hsame, hq, hop, m]
  · simp [hsame, hq, hop, m]

end Sys2Proof.Machine
end

section
/-! Doorbells. -/

namespace Sys2Proof.Machine

open Sys2Proof

/-- Settles O20: a doorbell store is a request of its Landing that passes the Toll with a ring in place of an extent. -/
theorem doorbellStoreRingsItsRing : Obligations.DoorbellStoreRingsItsRing := by
  intro s n h l b r dt q hl hat htoll hnotRed htchk m t hup g v ok
  have hsys : m.sys = dt.sys := by rw [meterRx_sys, misroute_sys, farePass_sys]
  have hpassed := passed_doorbell (q := q) hl.origin rfl hat hnotRed htchk (by rw [← hsys]; exact hup)
  refine ⟨ringDoorbell t b r v, ?_, fun hok => ringDoorbell_of_ok hok, fun hbad => ringDoorbell_of_bad hbad⟩
  rw [exec_of_landed (c := .doorbellStore n h l) rfl hl, enterNow_of_pass hl.origin htoll, hpassed]

end Sys2Proof.Machine
end

section
/-! SUPPORT. The XOR of the granules of a stripe (03 R82, R92). -/

namespace Sys2Proof.Machine

open Sys2Proof

theorem memBytes_length (d : Dev) (c n : Nat) : (memBytes d c n).length = n := by simp [memBytes]

theorem getD_memBytes {i n : Nat} (d : Dev) (c : Nat) (hi : i < n) : (memBytes d c n).getD i 0 = NMap.get 0 d.tiers.mem (c + i) := by
  simp [memBytes, List.getD_eq_getElem?_getD, hi]

theorem xorBytes_length {a b : List Byte} (h : a.length = b.length) : (xorBytes a b).length = a.length := by
  simp [xorBytes, h]

theorem getD_xorBytes {i : Nat} {a b : List Byte} (ha : i < a.length) (hb : i < b.length) :
    (xorBytes a b).getD i 0 = a.getD i 0 ^^^ b.getD i 0 := by
  simp [xorBytes, List.getD_eq_getElem?_getD, ha, hb]

/-- XOR over a list of positions, from any start. -/
theorem xorFold_spec (d : Dev) (chan stripe o : Nat) : ∀ (ps : List Nat) (acc : List Byte), acc.length = 64 →
    let l := ps.foldl (fun acc p => xorBytes acc (memBytes d (stackCell p chan stripe o) 64)) acc
    l.length = 64 ∧ ∀ i, i < 64 →
      l.getD i 0 = ps.foldl (fun (b : Byte) p => b ^^^ NMap.get 0 d.tiers.mem (stackCell p chan stripe o + i)) (acc.getD i 0)
  | [], acc, h => ⟨h, fun _ _ => rfl⟩
  | p :: ps, acc, h => by
    have hlen : (xorBytes acc (memBytes d (stackCell p chan stripe o) 64)).length = 64 := by
      rw [xorBytes_length (by rw [h, memBytes_length]), h]
    obtain ⟨hl, hget⟩ := xorFold_spec d chan stripe o ps _ hlen
    refine ⟨hl, fun i hi => (hget i hi).trans ?_⟩
    rw [getD_xorBytes (by omega) (by rw [memBytes_length]; exact hi), getD_memBytes _ _ hi, List.foldl_cons]

theorem xorUnits_length (d : Dev) (chan stripe o : Nat) (ps : List Nat) : (xorUnits d chan stripe o ps).length = 64 :=
  (xorFold_spec d chan stripe o ps _ (by simp)).1

/-- Byte by byte, the XOR of the units. -/
theorem getD_xorUnits {i : Nat} (d : Dev) (chan stripe o : Nat) (ps : List Nat) (hi : i < 64) :
    (xorUnits d chan stripe o ps).getD i 0 =
      ps.foldl (fun (b : Byte) p => b ^^^ NMap.get 0 d.tiers.mem (stackCell p chan stripe o + i)) 0 := by
  refine ((xorFold_spec d chan stripe o ps _ (by simp)).2 i hi).trans ?_
  rw [List.getD_replicate (0 : Byte) hi]

/-- A position of the nine may be taken out of their XOR and put at its end. -/
theorem xor_nine_eq (f : Nat → Byte) {pos : Nat} (hpos : pos < 9) :
    (List.range 9).foldl (fun b p => b ^^^ f p) 0 = ((List.range 9).filter (fun p => p != pos)).foldl (fun b p => b ^^^ f p) 0 ^^^ f pos := by
  have hassoc (b : Byte) (p q : Nat) : b ^^^ f p ^^^ f q = b ^^^ f q ^^^ f p := by
    rw [BitVec.xor_assoc, BitVec.xor_comm (f p), ← BitVec.xor_assoc]
  have : (List.range 9).Perm ((List.range 9).filter (fun p => p != pos) ++ [pos]) := by
    revert pos; decide
  rw [this.foldl_eq' (fun x _ y _ z => hassoc z x y), List.foldl_append]
  rfl

/-- Where the other eight units can be read, reconstruction gives their XOR (03 R82, R92). -/
theorem reconstruct_of_storedOk {d : Dev} {pos chan stripe o : Nat} (h : ∀ p, p < 9 → p ≠ pos → storedOk d p chan stripe o = true) :
    reconstruct d pos chan stripe o = some (xorUnits d chan stripe o ((List.range 9).filter (fun p => p != pos))) := by
  have hall : ((List.range 9).filter (fun p => p != pos)).all (fun p => storedOk d p chan stripe o) = true := by
    simpa [or_iff_not_imp_left] using h
  simp only [reconstruct, hall, if_true]

/-- Settles O36: the XOR of the other eight is the unit, since all nine have XOR zero. -/
theorem reconstructionGivesTheUnit : Obligations.ReconstructionGivesTheUnit := by
  intro d pos chan stripe o hpos hok hzero
  rw [reconstruct_of_storedOk hok]
  refine congrArg some (List.ext_getElem (by rw [xorUnits_length, memBytes_length]) fun i h1 h2 => ?_)
  have hi : i < 64 := by rwa [memBytes_length] at h2
  have hz := hzero i hi
  rw [xor_nine_eq _ hpos, ← getD_xorUnits d chan stripe o _ hi] at hz
  rw [← List.getD_eq_getElem _ 0 h1, ← List.getD_eq_getElem _ 0 h2, getD_memBytes _ _ hi]
  exact BitVec.xor_eq_zero_iff.mp hz

end Sys2Proof.Machine
end

section
/-! SUPPORT. What degrades the module, and elements of a list of which one is changed. -/

namespace Sys2Proof.Machine

open Sys2Proof

@[simp] theorem degrade_tiers (d : Dev) (bank : Nat) : (degrade d bank).tiers = d.tiers := by simp [degrade, raiseDegraded]

@[simp] theorem degrade_degraded (d : Dev) (bank : Nat) : (degrade d bank).salv.degraded = true := by simp [degrade, raiseDegraded]

@[simp] theorem restored_tiers (d : Dev) (bank : Nat) : (restored d bank).tiers = d.tiers := by
  unfold restored
  split
  · rfl
  · exact raise_tiers _ _ _

theorem length_modAt {α : Type} (f : α → α) : ∀ (l : List α) (k : Nat), (modAt f l k).length = l.length
  | [], _ => rfl
  | _ :: _, 0 => rfl
  | _ :: l, k + 1 => congrArg (· + 1) (length_modAt f l k)

theorem getD_modAt_same {α : Type} {f : α → α} {l : List α} {k : Nat} (e : α) (h : k < l.length) :
    (modAt f l k).getD k e = f (l.getD k e) := by
  have hk := getElem?_modAt (f := f) (List.getElem?_eq_getElem h)
  rw [List.getD_eq_getElem?_getD, hk, List.getD_eq_getElem _ _ h, Option.getD_some]

theorem getElem?_modAt_other {α : Type} {f : α → α} : ∀ {l : List α} {k i : Nat}, i ≠ k → (modAt f l k)[i]? = l[i]?
  | [], _, _, _ => rfl
  | _ :: _, 0, 0, h => absurd rfl h
  | _ :: _, 0, _ + 1, _ => rfl
  | _ :: _, _ + 1, 0, _ => rfl
  | _ :: l, _ + 1, _ + 1, h => getElem?_modAt_other (l := l) (fun e => h (congrArg (· + 1) e))

theorem getD_modAt_other {α : Type} {f : α → α} {l : List α} {k i : Nat} (e : α) (h : i ≠ k) : (modAt f l k).getD i e = l.getD i e := by
  rw [List.getD_eq_getElem?_getD, getElem?_modAt_other h, List.getD_eq_getElem?_getD]

end Sys2Proof.Machine
end

section
/-! SUPPORT. Rows, vaults and flash blocks that take spares, case by case (03 R93; 13 R419; 14 R434-R436). -/

namespace Sys2Proof.Machine

open Sys2Proof

/-! ## Rows of the stacks -/

section
variable {d : Dev} {s chan row : Nat}

theorem rowReplace_of_outside (h : 10 ≤ s ∨ 32 ≤ chan) : rowReplace d s chan row = d := by
  simp only [rowReplace, Bool.or_eq_true, decide_eq_true_eq, if_pos h]

variable (hs : s < 10) (hc : chan < 32)
include hs hc

theorem rowReplace_of_spent (h : Config.stackSpareRows (s * 32 + chan) < NMap.get 0 (site d s).rowSpares chan) :
    rowReplace d s chan row = channelDown d s chan := by
  simp [rowReplace, h, Nat.not_le.mpr hs, Nat.not_le.mpr hc]

/-- A row with a spare left moves there: it is listed at its site, counted and raised, and the module is degraded. -/
theorem rowReplace_of_spare (h : NMap.get 0 (site d s).rowSpares chan ≤ Config.stackSpareRows (s * 32 + chan)) :
    rowReplace d s chan row = degrade (count (raise (onSite d s (fun t => { t with
      rowEvents := NMap.set 0 t.rowEvents (chan * 2 ^ 32 + row % 2 ^ 32) 0
      rowsReplaced := NSet.add t.rowsReplaced (chan * 2 ^ 32 + row % 2 ^ 32)
      rowsPermanent := NSet.del t.rowsPermanent (chan * 2 ^ 32 + row % 2 ^ 32)
      rowSpares := NMap.set 0 t.rowSpares chan (NMap.get 0 (site d s).rowSpares chan + 1) })) (pgI 0x31 5 s) 2) (pgI 0x31 5 s) 0x810)
      (bankOfSite s) := by
  simp [rowReplace, Nat.not_lt.mpr h, Nat.not_le.mpr hs, Nat.not_le.mpr hc]

end

/-! ## The near store -/

section
variable {d : Dev} {v row : Nat}

theorem nearRowReplace_of_none (h : 64 ≤ v ∨ 64 ≤ NMap.get 0 d.tiers.nearSpares v) : nearRowReplace d v row = d := by
  simp only [nearRowReplace, Bool.or_eq_true, decide_eq_true_eq, if_pos h]

theorem nearRowReplace_of_spare (hv : v < 64) (h : NMap.get 0 d.tiers.nearSpares v < 64) :
    nearRowReplace d v row = degrade (count (raise { d with
      tiers.nearSpares := NMap.set 0 d.tiers.nearSpares v (NMap.get 0 d.tiers.nearSpares v + 1)
      tiers.nearRows := NSet.add d.tiers.nearRows (v * 2 ^ 32 + row % 2 ^ 32) } (pg 0x30 (v / 32)) 1) (pg 0x30 (v / 32)) 0x810) (v / 32) := by
  simp [nearRowReplace, Nat.not_le.mpr hv, Nat.not_le.mpr h]

theorem vaultFail_of_outside (h : 64 ≤ v) : vaultFail d v = d := by simp [vaultFail, h]

/-- A vault that fails leaves service, and its bank's stack parity is marked on every channel. -/
theorem vaultFail_of_up (hv : v < 64) (h : NSet.mem d.tiers.vaultsDown v = false) :
    vaultFail d v = degrade (raiseFe { d with
      tiers.vaultsDown := NSet.add d.tiers.vaultsDown v
      tiers.ovfEast := if v < 32 then BitVec.allOnes 32 else d.tiers.ovfEast
      tiers.ovfWest := if v < 32 then d.tiers.ovfWest else BitVec.allOnes 32 } (pg 0x30 (v / 32)) 2 { unit := true, addr := v % 32 }) (v / 32) := by
  by_cases hlow : v < 32
  · have hbank : v / 32 = 0 := by omega
    simp [vaultFail, feUnit, h, hlow, hbank, Nat.not_le.mpr hv]
  · have hbank : v / 32 = 1 := by omega
    simp [vaultFail, feUnit, h, hlow, hbank, Nat.not_le.mpr hv]

end

/-! ## Flash blocks -/

section
variable {d : Dev} {c : Nat}

theorem blockRetire_of_outside (h : 32 ≤ c) : blockRetire d c = d := by simp [blockRetire, h]

theorem blockRetire_of_spare (hc : c < 32) (h : 0 < (d.tiers.groups.getD (c / 16) {}).sparePct) :
    blockRetire d c = degrade (raise (onGroup (freeVal d).2 (c / 16)
      (fun g => { g with sparePct := (freeVal d).1 % ((d.tiers.groups.getD (c / 16) {}).sparePct + 1) })) (pg 0x32 (c / 16)) 2) (c / 16) := by
  have hpct : ((d.tiers.groups.getD (c / 16) {}).sparePct == 0) = false := by simp only [beq_eq_false_iff_ne]; omega
  simp only [blockRetire, Nat.not_le.mpr hc, hpct, Bool.false_eq_true, if_false]

end

/-- Settles O33: each command does what its case says of rows, vaults and blocks. -/
theorem sparesTakeThePlaceOfWhatFails : Obligations.SparesTakeThePlaceOfWhatFails := by
  intro s st chan row vault c d
  have hrow : exec (.rowReplace st chan row) s = .next (leaving s (rowReplace d st chan row)) := rfl
  have hnear : exec (.nearRowReplace vault row) s = .next (leaving s (nearRowReplace d vault row)) := rfl
  have hvault : exec (.vaultFail vault) s = .next (leaving s (vaultFail d vault)) := rfl
  have hblock : exec (.flashBlockRetire c) s = .next (goingOn s (blockRetire d c)) := rfl
  refine ⟨fun hs hc hr => ⟨fun hspare => ?_, fun hspent => ?_⟩, fun hout => ?_, fun hv hspare => ?_, fun hnone => ?_, fun hv => ⟨?_, ?_⟩,
    fun hv hup => ?_, fun hc hpct hlen => ?_, fun hc => ?_⟩
  · refine ⟨_, hrow, ?_⟩
    rw [rowReplace_of_spare hs hc hspare, Nat.mod_eq_of_lt hr]
    exact ⟨by simp only [degrade_tiers, count_tiers, raise_tiers, onSite_tiers], degrade_degraded _ _,
      by simp only [degrade_tiers, count_tiers, raise_tiers, onSite_tiers]⟩
  · rw [hrow, rowReplace_of_spent hs hc hspent]
  · rw [hrow, rowReplace_of_outside hout]
  · refine ⟨_, hnear, ?_⟩
    rw [nearRowReplace_of_spare hv hspare]
    simp only [degrade_tiers, count_tiers, raise_tiers, degrade_degraded, and_self]
  · rw [hnear, nearRowReplace_of_none (.inr hnone)]
  · rw [hnear, nearRowReplace_of_none (.inl hv)]
  · rw [hvault, vaultFail_of_outside hv]
  · rw [hvault, vaultFail_of_up hv hup]
  · refine ⟨_, hblock, ?_⟩
    have hgroup : c / 16 < d.tiers.groups.length := by omega
    rw [blockRetire_of_spare hc hpct]
    refine ⟨degrade_degraded _ _, ?_, ?_⟩
    · rw [degrade_tiers, raise_tiers]
      refine (congrArg FlashGroup.sparePct (getD_modAt_same _ hgroup)).trans_le ?_
      exact Nat.lt_succ_iff.mp (Nat.mod_lt _ (Nat.succ_pos _))
    · rw [degrade_tiers, raise_tiers]
      rfl
  · rw [hblock, blockRetire_of_outside hc]

end Sys2Proof.Machine
end

section
/-! SUPPORT. Channels and sites of the stacks that leave service, and the end of a rebuild onto the spare (03 R93-R95; 14 R438). -/

namespace Sys2Proof.Machine

open Sys2Proof

/-! ## Channel masks -/

theorem bit_toNat (m : BitVec 32) (c : Nat) : bit m.toNat c = m.getLsbD c := bit_eq_testBit _ _

theorem getLsbD_channel {k : Nat} (c : Nat) (hk : k < 32) : (BitVec.ofNat 32 (2 ^ c)).getLsbD k = decide (k = c) := by
  rw [BitVec.getLsbD_ofNat, Nat.testBit_two_pow]
  simp [hk, eq_comm]

theorem getLsbD_maskOn {k : Nat} (m : BitVec 32) (c : Nat) (hk : k < 32) : (maskOn m c).getLsbD k = (m.getLsbD k || decide (k = c)) := by
  rw [maskOn, BitVec.getLsbD_or, getLsbD_channel c hk]

theorem getLsbD_maskOff {k : Nat} (m : BitVec 32) (c : Nat) (hk : k < 32) :
    (maskOff m c).getLsbD k = (m.getLsbD k && !decide (k = c)) := by
  rw [maskOff, BitVec.getLsbD_and, BitVec.getLsbD_not, getLsbD_channel c hk]
  simp [hk]

/-! ## Sites -/

theorem site_of_sites {d e : Dev} (h : e.tiers.sites = d.tiers.sites) (k : Nat) : site e k = site d k := by simp only [site, h]

theorem site_onSite_same {d : Dev} {n : Nat} (f : Site → Site) (h : n < d.tiers.sites.length) : site (onSite d n f) n = f (site d n) :=
  getD_modAt_same _ h

theorem site_onSite_other {d : Dev} {n k : Nat} (f : Site → Site) (h : k ≠ n) : site (onSite d n f) k = site d k :=
  getD_modAt_other _ h

/-! ## Channels -/

/-- The device once a channel of a site has been marked down, and its event recorded. -/
def markedDown (d : Dev) (n chan : Nat) : Dev :=
  degrade (raiseFe (onSite d n (fun u => { u with down := maskOn u.down chan })) (pgI 0x31 5 n) 3 (feUnit chan)) (bankOfSite n)

section
variable {d : Dev} {n chan : Nat}

theorem channelDown_of_outside (h : 10 ≤ n ∨ 32 ≤ chan ∨ (site d n).down.getLsbD chan = true) : channelDown d n chan = d := by
  have hout : (10 ≤ n ∨ 32 ≤ chan) ∨ bit (site d n).down.toNat chan = true := by rwa [bit_toNat, or_assoc]
  simp only [channelDown, Bool.or_eq_true, decide_eq_true_eq, if_pos hout]

/-- A channel of a member leaves service: the site fails with the last of its channels. -/
theorem channelDown_of_up (hlen : d.tiers.sites.length = 10) (hn : n < 9) (hc : chan < 32) (h : (site d n).down.getLsbD chan = false) :
    channelDown d n chan =
      if (site d n).role = .member ∧ (maskOn (site d n).down chan ||| (site d n).loan) = BitVec.allOnes 32
      then siteFail (markedDown d n chan) n else markedDown d n chan := by
  have hin : (decide (10 ≤ n) || decide (32 ≤ chan) || bit (site d n).down.toNat chan) = false := by
    rw [bit_toNat, h]
    simp; omega
  have hspare : (n == spareSite) = false := by simp [spareSite]; omega
  have hsite : site (markedDown d n chan) n = { site d n with down := maskOn (site d n).down chan } := by
    rw [← site_onSite_same (d := d) (n := n) (fun u => { u with down := maskOn u.down chan }) (by omega)]
    exact site_of_sites (by simp only [markedDown, degrade_tiers, raiseFe_tiers]) n
  unfold markedDown at hsite ⊢
  simp only [channelDown, hin, hspare, Bool.false_eq_true, if_false, hsite, Bool.and_eq_true, beq_iff_eq]

end

/-! ## Whole sites -/

/-- The device once a site has been marked failed, and its event recorded. -/
def markedFailed (d : Dev) (n : Nat) : Dev :=
  degrade (raiseFe (onSite d n (fun u => { u with failed := true, down := ~~~u.loan })) (pgI 0x31 5 n) 4 (feUnit 0)) (bankOfSite n)

section
variable {d : Dev} {n : Nat}

theorem siteFail_of_outside (h : 10 ≤ n ∨ (site d n).failed = true ∨ (site d n).role = .retired) : siteFail d n = d := by
  have hout : (10 ≤ n ∨ (site d n).failed = true) ∨ (site d n).role = .retired := by rwa [or_assoc]
  simp only [siteFail, Bool.or_eq_true, decide_eq_true_eq, beq_iff_eq, if_pos hout]

theorem markedFailed_rebuild (d : Dev) (n : Nat) : (markedFailed d n).tiers.rebuild = d.tiers.rebuild := by
  simp only [markedFailed, degrade_tiers, raiseFe_tiers, onSite_tiers]

theorem site_markedFailed_spare (d : Dev) (hn : n < 9) : site (markedFailed d n) spareSite = site d spareSite := by
  rw [← site_onSite_other (d := d) (n := n) (fun u => { u with failed := true, down := ~~~u.loan }) (by simp [spareSite]; omega)]
  exact site_of_sites (by simp only [markedFailed, degrade_tiers, raiseFe_tiers]) _

variable (hn : n < 9) (hf : (site d n).failed = false) (hr : (site d n).role ≠ .retired)
include hn hf hr

theorem siteFail_guard : (decide (10 ≤ n) || (site d n).failed || (site d n).role == .retired) = false := by
  simp [hf, hr]
  omega

theorem siteFail_of_rebuilding (h : d.tiers.rebuild.isSome = true) : siteFail d n = endRebuild (markedFailed d n) := by
  rw [← markedFailed_rebuild d n] at h
  have hspare : (n == spareSite) = false := by simp [spareSite]; omega
  simp only [siteFail, siteFail_guard hn hf hr, hspare, Bool.false_eq_true, if_false]
  split
  · rfl
  · next hnone =>
    rw [markedFailed, hnone] at h
    exact absurd h (by simp)

/-- With no rebuild under way, the hot spare is brought out of idle for a member's position. -/
theorem siteFail_of_idle (h : d.tiers.rebuild = none) :
    siteFail d n = if (site d n).role = .member ∧ (site d spareSite).role = .spare ∧ (site d spareSite).failed = false
      then { markedFailed d n with tiers.rebuild := some { position := (site d n).position, ready := false } }
      else markedFailed d n := by
  have hspare : (n == spareSite) = false := by simp [spareSite]; omega
  have hkept := site_markedFailed_spare d hn
  rw [← markedFailed_rebuild d n] at h
  simp only [siteFail, siteFail_guard hn hf hr, hspare, Bool.false_eq_true, if_false]
  split
  · next hsome => exact absurd (hsome.symm.trans h) (by simp)
  · unfold markedFailed at hkept ⊢
    simp only [hkept, Bool.and_eq_true, beq_iff_eq, Bool.not_eq_true', and_assoc]

end

/-! ## The spare -/

theorem spareReady_of_begun {d : Dev} {r : StackRebuild} (h : d.tiers.rebuild = some r) (hr : r.ready = false)
    (hw : d.sys.westHeld = false) : spareReady d =
      onSite { d with tiers.rebuild := some { r with ready := true } } spareSite (fun u => { u with role := .target, position := r.position }) := by
  simp [spareReady, h, hr, withheldSite, hw]

theorem spareReady_of_none {d : Dev} (h : d.tiers.rebuild = none) : spareReady d = d := by simp [spareReady, h]

/-- A member whose channels listed are lent by the spare. -/
def lendTo (whole : List Nat) (t : Site) : Site :=
  whole.foldl (fun t c => { t with loan := maskOn t.loan c, down := maskOff t.down c }) t

/-- The spare that lends the channels listed. -/
def lendFrom (whole : List Nat) (t : Site) : Site := whole.foldl (fun t c => { t with loan := maskOn t.loan c }) t

theorem lendTo_bits {c : Nat} (hc : c < 32) : ∀ (whole : List Nat) (t : Site),
    (lendTo whole t).loan.getLsbD c = (t.loan.getLsbD c || decide (c ∈ whole)) ∧
    (lendTo whole t).down.getLsbD c = (t.down.getLsbD c && !decide (c ∈ whole))
  | [], t => by simp [lendTo]
  | a :: l, t => by
    obtain ⟨hl, hd⟩ := lendTo_bits hc l { t with loan := maskOn t.loan a, down := maskOff t.down a }
    refine ⟨hl.trans ?_, hd.trans ?_⟩
    · simp [getLsbD_maskOn _ _ hc, Bool.or_assoc]
    · simp [getLsbD_maskOff _ _ hc, Bool.and_assoc]

theorem lendFrom_bits {c : Nat} (hc : c < 32) : ∀ (whole : List Nat) (t : Site),
    (lendFrom whole t).loan.getLsbD c = (t.loan.getLsbD c || decide (c ∈ whole))
  | [], t => by simp [lendFrom]
  | a :: l, t => (lendFrom_bits hc l { t with loan := maskOn t.loan a }).trans (by simp [getLsbD_maskOn _ _ hc, Bool.or_assoc])

theorem lendFrom_loan_only : ∀ (whole : List Nat) (t : Site), ∃ m, lendFrom whole t = { t with loan := m }
  | [], t => ⟨t.loan, rfl⟩
  | a :: l, t => lendFrom_loan_only l { t with loan := maskOn t.loan a }

/-- The channels that a rebuild has done whole. -/
def wholeChannels (d : Dev) (r : StackRebuild) : List Nat := (List.range 32).filter (fun c => belowCursor d r.position c (stripesPerChan - 1))

theorem mem_wholeChannels (d : Dev) (r : StackRebuild) {c : Nat} (hc : c < 32) :
    decide (c ∈ wholeChannels d r) = belowCursor d r.position c 12582911 := by
  simp [wholeChannels, hc, stripesPerChan]

section
variable {d : Dev} {r : StackRebuild} (h : d.tiers.rebuild = some r) (hf : (site d spareSite).failed = false)
include h

theorem endRebuild_rebuild : (endRebuild d).tiers.rebuild = none := by simp only [endRebuild, h]

theorem endRebuild_mem : (endRebuild d).tiers.mem = d.tiers.mem := by simp only [endRebuild, h]

include hf

/-- What the end of a rebuild leaves of each site. -/
theorem site_endRebuild {k : Nat} (hk : k < d.tiers.sites.length) : site (endRebuild d) k =
    if k = spareSite then
      (if (lendFrom (wholeChannels d r) (site d k)).role = .target then { lendFrom (wholeChannels d r) (site d k) with role := .spare }
        else lendFrom (wholeChannels d r) (site d k))
    else if (site d k).role = .member ∧ (site d k).position = r.position then lendTo (wholeChannels d r) (site d k) else site d k := by
  have hsite : d.tiers.sites[k] = site d k := (List.getD_eq_getElem _ _ hk).symm
  have hspare : k = spareSite → (site d k).failed = false := fun e => e ▸ hf
  conv_lhs => rw [site]
  simp only [endRebuild, h]
  rw [List.getD_eq_getElem _ _ (by simpa using hk), List.getElem_map, List.getElem_zipIdx, hsite]
  by_cases he : k = spareSite
  · simp [he, hf, lendFrom, wholeChannels]
  · simp [he, hf, lendTo, wholeChannels]

/-- The spare lends what it has rebuilt, and is a spare again. -/
theorem site_endRebuild_target (hlen : d.tiers.sites.length = 10) (hrole : (site d spareSite).role = .target) :
    site (endRebuild d) spareSite = { site d spareSite with role := .spare, loan := (lendFrom (wholeChannels d r) (site d spareSite)).loan } := by
  obtain ⟨m, hm⟩ := lendFrom_loan_only (wholeChannels d r) (site d spareSite)
  rw [site_endRebuild h hf (by rw [hlen]; decide), if_pos rfl, hm, if_pos hrole]

theorem site_endRebuild_member {k : Nat} (hlen : d.tiers.sites.length = 10) (hk : k < 9) (hm : (site d k).role = .member)
    (hp : (site d k).position = r.position) : site (endRebuild d) k = lendTo (wholeChannels d r) (site d k) := by
  rw [site_endRebuild h hf (by omega), if_neg (by simp [spareSite]; omega), if_pos ⟨hm, hp⟩]

theorem site_endRebuild_other {k : Nat} (hlen : d.tiers.sites.length = 10) (hk : k < 9)
    (hnot : (site d k).role ≠ .member ∨ (site d k).position ≠ r.position) : site (endRebuild d) k = site d k := by
  rw [site_endRebuild h hf (by omega), if_neg (by simp [spareSite]; omega), if_neg (by rw [not_and_or]; exact hnot)]

end

/-- Settles O34: channels and sites that leave service, and what the spare then does. -/
theorem stackChannelsAndSitesLeaveService : Obligations.StackChannelsAndSitesLeaveService := by
  intro s n chan hlen d t bank page spare
  have hdown : exec (.stackChannelDown n chan) s = .next (leaving s (channelDown d n chan)) := rfl
  have hfail : exec (.stackSiteFail n) s = .next (leaving s (siteFail d n)) := rfl
  have hready : exec .spareStackReady s = .next (leaving s (spareReady d)) := rfl
  refine ⟨fun hn hc hup => ⟨fun hsome => ?_, fun hm hall => ?_⟩, fun hout => ?_, fun hn hf hr => ⟨fun hre => ?_, fun hno hm hsp hsf => ?_,
    fun hno hnot => ?_⟩, fun hout => ?_, fun r hr hnr hw => ?_, fun hno => ?_, fun r hr hrole hf => ?_⟩
  · rw [hdown, channelDown_of_up hlen hn hc hup, if_neg (by rw [not_and_or]; exact hsome)]
    rfl
  · rw [hdown, channelDown_of_up hlen hn hc hup, if_pos ⟨hm, hall⟩]
    rfl
  · rw [hdown, channelDown_of_outside hout]
  · rw [hfail, siteFail_of_rebuilding hn hf hr hre]
    rfl
  · rw [hfail, siteFail_of_idle hn hf hr hno, if_pos ⟨hm, hsp, hsf⟩]
    rfl
  · rw [hfail, siteFail_of_idle hn hf hr hno, if_neg]
    · rfl
    · rintro ⟨hm, hsp, hsf⟩
      rcases hnot with hnot | hnot | hnot
      · exact hnot hm
      · exact hnot hsp
      · exact Bool.false_ne_true (hsf.symm.trans hnot)
  · rw [hfail, siteFail_of_outside hout]
  · rw [hready, spareReady_of_begun hr hnr hw]
    rfl
  · rw [hready, spareReady_of_none hno]
  · intro e done
    have hspare : site e 9 = { spare with role := .spare, loan := (lendFrom (wholeChannels d r) spare).loan } :=
      site_endRebuild_target hr hf hlen hrole
    refine ⟨endRebuild_rebuild hr, by rw [hspare], by rw [hspare], endRebuild_mem hr, fun c hc => ?_, fun k c hk hc hm hp => ?_,
      fun k hk hnot => site_endRebuild_other hr hf hlen hk hnot⟩
    · rw [hspare]
      exact (lendFrom_bits hc _ _).trans (by rw [mem_wholeChannels d r hc])
    · have hbits := lendTo_bits hc (wholeChannels d r) (site d k)
      rw [mem_wholeChannels d r hc, ← site_endRebuild_member hr hf hlen hk hm hp] at hbits
      exact hbits

end Sys2Proof.Machine
end

section
/-! SUPPORT. Byte strings: what stands at each place of a piece, of a string with bytes put in, of blocks of 64 one after the other; and
memory after several stores. -/

namespace Sys2Proof.Machine

open Sys2Proof

theorem length_sub (l : List Byte) (o k : Nat) : (sub l o k).length = k := by
  simp [sub]

theorem getD_sub {i k : Nat} (l : List Byte) (o : Nat) (hi : i < k) : (sub l o k).getD i 0 = l.getD (o + i) 0 := by
  unfold sub
  by_cases h : i < ((l.drop o).take k).length
  · rw [List.getD_append _ _ _ _ h, List.getD_eq_getElem?_getD, List.getElem?_take, if_pos hi, List.getElem?_drop,
      List.getD_eq_getElem?_getD]
  · have hlong : l.length ≤ o + i := by
      simp only [List.length_take, List.length_drop] at h
      omega
    rw [List.getD_append_right _ _ _ _ (Nat.le_of_not_lt h), List.getD_eq_default l _ hlong]
    simp [List.getD_eq_getElem?_getD, List.getElem?_replicate]
    split <;> rfl

theorem length_putAt {l v : List Byte} {o : Nat} (h : o + v.length ≤ l.length) : (putAt l o v).length = l.length := by
  simp [putAt]
  omega

theorem getD_putAt {l v : List Byte} {o : Nat} (h : o ≤ l.length) (i : Nat) :
    (putAt l o v).getD i 0 = if o ≤ i ∧ i < o + v.length then v.getD (i - o) 0 else l.getD i 0 := by
  have htake : (l.take o).length = o := by simp [h]
  rw [putAt, List.append_assoc, List.getD_eq_getElem?_getD]
  by_cases h1 : i < o
  · rw [if_neg (by omega), List.getElem?_append_left (by omega), List.getElem?_take, if_pos h1, List.getD_eq_getElem?_getD]
  · rw [List.getElem?_append_right (by omega), htake]
    by_cases h2 : i - o < v.length
    · rw [if_pos (by omega), List.getElem?_append_left h2, List.getD_eq_getElem?_getD]
    · rw [if_neg (by omega), List.getElem?_append_right (by omega), List.getElem?_drop, List.getD_eq_getElem?_getD]
      congr 2
      omega

theorem getD_flatMap_blocks {f : Nat → List Byte} (hf : ∀ i, (f i).length = 64) {b : Nat} (hb : b < 64) :
    ∀ {k m : Nat} (a : Nat), m < k → ((List.range' a k).flatMap f).getD (64 * m + b) 0 = (f (a + m)).getD b 0
  | 0, _, _, h => absurd h (Nat.not_lt_zero _)
  | k + 1, 0, a, _ => by
    rw [List.range'_succ, List.flatMap_cons, List.getD_append _ _ _ _ (by rw [hf]; omega)]
    simp
  | k + 1, m + 1, a, h => by
    have hle : (f a).length ≤ 64 * (m + 1) + b := by rw [hf]; omega
    rw [List.range'_succ, List.flatMap_cons, List.getD_append_right _ _ _ _ hle, hf,
      show 64 * (m + 1) + b - 64 = 64 * m + b by omega, getD_flatMap_blocks hf hb (a + 1) (by omega)]
    congr 2
    omega

theorem length_flatMap_blocks {f : Nat → List Byte} (hf : ∀ i, (f i).length = 64) (a k : Nat) :
    ((List.range' a k).flatMap f).length = 64 * k := by
  simp [List.length_flatMap, hf, Nat.mul_comm]

/-- Memory once each of several strings has been stored at its cell. -/
def putAll (m : NMap Byte) (L : List (Nat × List Byte)) : NMap Byte := L.foldl (fun m e => putBytes m e.1 e.2) m

theorem putAll_wf : ∀ (L : List (Nat × List Byte)) {m : NMap Byte}, Memory.wf m = true → Memory.wf (putAll m L) = true
  | [], _, h => h
  | e :: L, _, h => putAll_wf L (putBytes_wf e.2 e.1 h)

/-- Where all the strings agree with `v` on their cells, a cell of one of them holds what `v` says, and every other what it held. -/
theorem get_putAll (v : Nat → Byte) : ∀ (L : List (Nat × List Byte)) {m : NMap Byte}, Memory.wf m = true →
    (∀ e ∈ L, ∀ i, i < e.2.length → e.2.getD i 0 = v (e.1 + i)) → ∀ k,
    NMap.get 0 (putAll m L) k = if ∃ e ∈ L, e.1 ≤ k ∧ k < e.1 + e.2.length then v k else NMap.get 0 m k
  | [], m, _, _, k => by simp [putAll]
  | e :: L, m, h, hv, k => by
    obtain ⟨he, hL⟩ := List.forall_mem_cons.mp hv
    refine (get_putAll v L (putBytes_wf e.2 e.1 h) hL k).trans ?_
    rw [get_putBytes _ _ _ h]
    by_cases hin : e.1 ≤ k ∧ k < e.1 + e.2.length
    · have hk : e.2.getD (k - e.1) 0 = v k := by rw [he _ (by omega), Nat.add_sub_cancel' hin.1]
      rw [if_pos hin, hk, ite_self, if_pos ⟨e, List.mem_cons_self, hin⟩]
    · simp only [List.exists_mem_cons_iff, hin, false_or, if_false]

end Sys2Proof.Machine
end

section
/-! SUPPORT. Reading and writing a tile of the near store (03 R79, R80; 04 R122; 14 R436). -/

namespace Sys2Proof.Machine

open Sys2Proof

/-! ## The granules of an access -/

/-- An access within a tile touches consecutive granules. -/
theorem granulesIn_eq (tile : Nat) {o n : Nat} (hn : 0 < n) (h : o + n ≤ 256) :
    granulesIn tile o n = (List.range' (o / 64) ((o + n - 1) / 64 + 1 - o / 64)).map (fun i => tile + 64 * i) := by
  have hfilter : ∀ a b, a ≤ b → b < 4 →
      (List.range 4).filter (fun i => decide (a ≤ i) && decide (i ≤ b)) = List.range' a (b + 1 - a) := by
    have hall : ∀ b < 4, ∀ a ≤ b,
        (List.range 4).filter (fun i => decide (a ≤ i) && decide (i ≤ b)) = List.range' a (b + 1 - a) := by decide
    exact fun a b hab hb => hall b hb a hab
  rw [granulesIn, ← hfilter (o / 64) ((o + n - 1) / 64) (by omega) (by omega)]
  congr 1
  refine List.filter_congr fun i _ => ?_
  rw [Bool.eq_iff_iff]
  simp only [Bool.and_eq_true, decide_eq_true_eq]
  omega

theorem granulesIn_near {tile o n : Nat} (htile : tile + 256 ≤ 2 ^ 40) : ∀ g ∈ granulesIn tile o n, g < 2 ^ 40 := by
  intro g hg
  simp only [granulesIn, List.mem_map, List.mem_filter, List.mem_range] at hg
  obtain ⟨i, ⟨hi, -⟩, rfl⟩ := hg
  omega

theorem touched_near {tile o n : Nat} (htile : tile + 256 ≤ 2 ^ 40) {t : List Byte} : ∀ e ∈ touched tile o n t, e.1 < 2 ^ 40 := by
  intro e he
  obtain ⟨g, hg, rfl⟩ := List.mem_map.mp he
  exact granulesIn_near htile g hg

theorem tierOfCell_near {g : Nat} (h : g < 2 ^ 40) : tierOfCell g = .near := by
  have h1 : ¬ hostBase ≤ g := by simp only [hostBase]; omega
  have h2 : ¬ flashBase ≤ g := by simp only [flashBase]; omega
  have h3 : ¬ 2 ^ 40 ≤ g := Nat.not_le.mpr h
  simp only [tierOfCell, h1, h2, h3, if_false]

/-- The vault of a near-store granule is in service. -/
def vaultUp (d : Dev) (g : Nat) : Prop := NSet.mem d.tiers.vaultsDown (g / 2 ^ 35 * 32 + g % 2 ^ 35 / 2 ^ 30) = false

section
variable {d : Dev} {g : Nat} (hg : g < 2 ^ 40)
include hg

theorem withheldCell_near : withheldCell d g = false := by simp [withheldCell, tierOfCell_near hg]

theorem readGranule_near_of_good (a : Acc) (hp : poisoned d g = false) (hf : faulty d g = false) (hv : vaultUp d g) :
    readGranule d a g = (cOK, memBytes d g 64, d) := by
  unfold vaultUp at hv
  simp only [readGranule, withheldCell_near hg, tierOfCell_near hg, hp, hf, hv, Bool.or_self, Bool.false_eq_true, if_false]

/-- A granule that reads OK holds good data in a vault in service, and reading it changes nothing. -/
theorem readGranule_near_ok {a : Acc} (h : (readGranule d a g).1 = cOK) : readGranule d a g = (cOK, memBytes d g 64, d) ∧ vaultUp d g := by
  unfold readGranule at h ⊢
  rw [withheldCell_near hg, tierOfCell_near hg, if_neg Bool.false_ne_true] at h ⊢
  split at h
  · exact absurd h (show ¬ cPOISON = cOK by decide)
  · next hp =>
    rw [if_neg hp]
    dsimp only at h ⊢
    split at h
    · exact absurd h (show ¬ cUNCORR = cOK by decide)
    · next hgood =>
      rw [if_neg hgood]
      simp only [Bool.or_eq_true, not_or, Bool.not_eq_true] at hgood
      exact ⟨rfl, hgood.1⟩

theorem wholeCheck_near_ok (h : wholeCheck d g = cOK) : vaultUp d g := by
  unfold wholeCheck at h
  rw [tierOfCell_near hg] at h
  dsimp only at h
  split at h
  · exact absurd h (by decide)
  · next hv => exact Bool.eq_false_iff.mpr hv

end

/-! ## Several granules -/

theorem readGranules_near (a : Acc) {d : Dev} : ∀ {gs : List Nat}, (∀ g ∈ gs, g < 2 ^ 40) →
    (∀ g ∈ gs, poisoned d g = false ∧ faulty d g = false ∧ vaultUp d g) →
    readGranules a gs d = (cOK, gs.flatMap (fun g => memBytes d g 64), d)
  | [], _, _ => rfl
  | g :: gs, hg, h => by
    obtain ⟨hg0, hgs⟩ := List.forall_mem_cons.mp hg
    obtain ⟨⟨hp, hf, hv⟩, hrest⟩ := List.forall_mem_cons.mp h
    simp only [readGranules, readGranule_near_of_good hg0 a hp hf hv, readGranules_near a hgs hrest, beq_self_eq_true, if_true,
      List.flatMap_cons]

/-- The old bytes of a granule that a write meets: zero where the write covers it whole. -/
def oldBytes (d : Dev) (tile o n g : Nat) : List Byte := if wholeIn tile g o n then List.replicate 64 0 else memBytes d g 64

theorem oldBytes_length (d : Dev) (tile o n g : Nat) : (oldBytes d tile o n g).length = 64 := by
  unfold oldBytes
  split
  · exact List.length_replicate
  · exact memBytes_length _ _ _

/-- The check of one granule that a write covers: its code and its old bytes. -/
def checkGranule (a : Acc) (tile o n : Nat) (d : Dev) (g : Nat) : Nat × List Byte × Dev :=
  if wholeIn tile g o n then (wholeCheck d g, List.replicate 64 0, d)
  else if tierOfCell g == .stack && wholeCheck d g != cOK then (wholeCheck d g, [], d)
  else if (readGranule d a g).1 == cOK && wholeCheck d g != cOK then (wholeCheck d g, [], (readGranule d a g).2.2)
  else readGranule d a g

theorem checkGranules_cons (a : Acc) (tile o n g : Nat) (gs : List Nat) (d : Dev) :
    let r := checkGranule a tile o n d g
    let t := checkGranules a tile o n gs r.2.2
    checkGranules a tile o n (g :: gs) d = if r.1 == cOK then (t.1, (if t.1 == cOK then r.2.1 ++ t.2.1 else []), t.2.2) else (r.1, [], t.2.2) :=
  rfl

/-- A near-store granule that passes its check stands in a vault in service, and the check changes nothing. -/
theorem checkGranule_near_ok {a : Acc} {tile o n : Nat} {d : Dev} {g : Nat} (hg : g < 2 ^ 40) (h : (checkGranule a tile o n d g).1 = cOK) :
    checkGranule a tile o n d g = (cOK, oldBytes d tile o n g, d) ∧ vaultUp d g := by
  have hnear : (tierOfCell g == .stack) = false := by rw [tierOfCell_near hg]; rfl
  by_cases hw : wholeIn tile g o n = true
  · rw [checkGranule, if_pos hw] at h ⊢
    have hcheck : wholeCheck d g = cOK := h
    exact ⟨by rw [hcheck, oldBytes, if_pos hw], wholeCheck_near_ok hg hcheck⟩
  · rw [checkGranule, if_neg hw, hnear, Bool.false_and, if_neg Bool.false_ne_true] at h ⊢
    by_cases hbad : ((readGranule d a g).1 == cOK && wholeCheck d g != cOK) = true
    · rw [if_pos hbad] at h
      simp only [Bool.and_eq_true, bne_iff_ne] at hbad
      exact absurd h hbad.2
    · rw [if_neg hbad] at h ⊢
      obtain ⟨hread, hv⟩ := readGranule_near_ok hg h
      exact ⟨by rw [hread, oldBytes, if_neg hw], hv⟩

/-- A write that may be performed has found every granule in a vault in service, and changed nothing. -/
theorem checkGranules_near_ok {a : Acc} {tile o n : Nat} {d : Dev} : ∀ {gs : List Nat}, (∀ g ∈ gs, g < 2 ^ 40) →
    (checkGranules a tile o n gs d).1 = cOK →
    checkGranules a tile o n gs d = (cOK, gs.flatMap (oldBytes d tile o n), d) ∧ ∀ g ∈ gs, vaultUp d g
  | [], _, _ => ⟨rfl, nofun⟩
  | g :: gs, hg, h => by
    obtain ⟨hg0, hgs⟩ := List.forall_mem_cons.mp hg
    rw [checkGranules_cons] at h ⊢
    by_cases hfirst : (checkGranule a tile o n d g).1 = cOK
    · obtain ⟨hr, hv⟩ := checkGranule_near_ok hg0 hfirst
      simp only [hr, beq_self_eq_true, if_true] at h ⊢
      obtain ⟨ht, hvs⟩ := checkGranules_near_ok hgs h
      simp only [ht, beq_self_eq_true, if_true, List.flatMap_cons, true_and]
      exact List.forall_mem_cons.mpr ⟨hv, hvs⟩
    · rw [if_neg (by simpa using hfirst)] at h
      exact absurd h hfirst

/-- Storing granules of the near store changes memory, and what is poisoned or at fault. -/
theorem storeGranules_near : ∀ {L : List (Nat × List Byte)} (d : Dev), (∀ e ∈ L, e.1 < 2 ^ 40) →
    ∃ p f, storeGranules L d = { d with tiers.mem := putAll d.tiers.mem L, tiers.poison := p, tiers.faults := f }
  | [], d, _ => ⟨d.tiers.poison, d.tiers.faults, rfl⟩
  | (g, l) :: L, d, h => by
    obtain ⟨hg, hL⟩ := List.forall_mem_cons.mp h
    obtain ⟨p, f, hrest⟩ := storeGranules_near (cleanGranule (setMem d g l) g) hL
    refine ⟨p, f, ?_⟩
    rw [storeGranules, tierOfCell_near hg]
    exact hrest

/-! ## What a write leaves in memory -/

/-- A tile with bytes `l` put in at `o`, the rest of the granules touched as they are stored. -/
def mergedTile (d : Dev) (tile o : Nat) (l : List Byte) : List Byte :=
  putAt (List.replicate 256 0) (o / 64 * 64)
    (putAt ((granulesIn tile o l.length).flatMap (oldBytes d tile o l.length)) (o - o / 64 * 64) l)

section
variable {d : Dev} {tile o : Nat} {l : List Byte} (hn : 0 < l.length) (hfit : o + l.length ≤ 256)
include hn hfit

/-- Within the granules touched, the bytes put in and, beside them, what memory holds. -/
theorem getD_mergedTile {j : Nat} (hlo : o / 64 * 64 ≤ j) (hhi : j < 64 * ((o + l.length - 1) / 64 + 1)) :
    (mergedTile d tile o l).getD j 0 = if o ≤ j ∧ j < o + l.length then l.getD (j - o) 0 else NMap.get 0 d.tiers.mem (tile + j) := by
  have hblock (i : Nat) := oldBytes_length d tile o l.length (tile + 64 * i)
  have hold : ((granulesIn tile o l.length).flatMap (oldBytes d tile o l.length)).length = 64 * ((o + l.length - 1) / 64 + 1 - o / 64) := by
    rw [granulesIn_eq tile hn hfit, List.flatMap_map, length_flatMap_blocks hblock]
  have hplain := length_putAt (v := l) (o := o - o / 64 * 64) (by rw [hold]; omega)
  rw [hold] at hplain
  rw [mergedTile, getD_putAt (by rw [List.length_replicate]; omega), hplain, if_pos (by omega), getD_putAt (by rw [hold]; omega)]
  by_cases hin : o ≤ j ∧ j < o + l.length
  · rw [if_pos hin, if_pos (by omega)]
    congr 1
    omega
  · have hj : j - o / 64 * 64 = 64 * ((j - o / 64 * 64) / 64) + (j - o / 64 * 64) % 64 := (Nat.div_add_mod _ 64).symm
    rw [if_neg hin, if_neg (by omega), granulesIn_eq tile hn hfit, List.flatMap_map, hj,
      getD_flatMap_blocks hblock (Nat.mod_lt _ (by omega)) _ (by omega)]
    have hpart : wholeIn tile (tile + 64 * (o / 64 + (j - o / 64 * 64) / 64)) o l.length = false := by
      simp only [wholeIn, Bool.and_eq_false_iff, decide_eq_false_iff_not]
      omega
    rw [oldBytes, hpart, if_neg Bool.false_ne_true, getD_memBytes _ _ (Nat.mod_lt _ (by omega))]
    congr 1
    omega

theorem mem_touched {e : Nat × List Byte} {t : List Byte} (he : e ∈ touched tile o l.length t) :
    ∃ i, o / 64 ≤ i ∧ i < (o + l.length - 1) / 64 + 1 ∧ e = (tile + 64 * i, sub t (64 * i) 64) := by
  rw [touched, granulesIn_eq tile hn hfit] at he
  simp only [List.map_map, List.mem_map, List.mem_range'_1, Function.comp_apply, Nat.add_sub_cancel_left] at he
  obtain ⟨i, hi, rfl⟩ := he
  exact ⟨i, hi.1, by omega, rfl⟩

/-- The bytes put in stand at their cells, and every other cell holds what it held. -/
theorem get_putAll_mergedTile (hwf : Memory.wf d.tiers.mem = true) (k : Nat) :
    NMap.get 0 (putAll d.tiers.mem (touched tile o l.length (mergedTile d tile o l))) k =
      if tile + o ≤ k ∧ k < tile + o + l.length then l.getD (k - (tile + o)) 0 else NMap.get 0 d.tiers.mem k := by
  rw [get_putAll (fun k => if tile + o ≤ k ∧ k < tile + o + l.length then l.getD (k - (tile + o)) 0 else NMap.get 0 d.tiers.mem k) _ hwf]
  · split
    · rfl
    · next hout =>
      rw [if_neg]
      intro hk
      refine hout ⟨(tile + 64 * ((k - tile) / 64), sub (mergedTile d tile o l) (64 * ((k - tile) / 64)) 64), ?_, ?_⟩
      · rw [touched, granulesIn_eq tile hn hfit]
        simp only [List.map_map, List.mem_map, List.mem_range'_1, Function.comp_apply, Nat.add_sub_cancel_left]
        exact ⟨(k - tile) / 64, by omega, rfl⟩
      · rw [length_sub]
        simp only
        omega
  · intro e he i hi
    obtain ⟨m, hlo, hhi, rfl⟩ := mem_touched hn hfit he
    rw [length_sub] at hi
    simp only
    rw [getD_sub _ _ hi, getD_mergedTile hn hfit (by omega) (by omega), Nat.add_assoc tile]
    have hiff : (tile + o ≤ tile + (64 * m + i) ∧ tile + (64 * m + i) < tile + o + l.length) ↔ (o ≤ 64 * m + i ∧ 64 * m + i < o + l.length) := by
      omega
    simp only [hiff, Nat.add_sub_add_left]

end

/-! ## Writes and reads of an extent -/

section
variable {d : Dev} {x : Extent} {a : Acc} {off : Nat}

theorem zeroTile_of_nonzero (hz : x.e.zero = false) : zeroTile x off = false := by simp [zeroTile, hz]

theorem keysOf_of_plain (he : x.e.encrypt = false) : keysOf d x = none := by simp [keysOf, he]

variable (he : x.e.encrypt = false) (hz : x.e.zero = false)
include he hz

/-- A write that is answered OK stores the merged granules, all of them in vaults in service. -/
theorem writePlain_near_ok {l : List Byte} (hx : x.e.tier = .near)
    (htile : extCell d x (off / 256 * 256) + 256 ≤ 2 ^ 40) (hok : (writePlain d x a off l).1 = cOK) :
    let tile := extCell d x (off / 256 * 256)
    (∃ p f, (writePlain d x a off l).2 = markMove { d with
      tiers.mem := putAll d.tiers.mem (touched tile (off % 256) l.length (mergedTile d tile (off % 256) l))
      tiers.poison := p, tiers.faults := f } x.e.base (tileIn x off)) ∧
    ∀ g ∈ granulesIn tile (off % 256) l.length, vaultUp d g := by
  intro tile
  have hzero : zeroTile x off = false := zeroTile_of_nonzero hz
  have hkeys : keysOf d x = none := keysOf_of_plain he
  by_cases hc : (checkGranules a tile (off % 256) l.length (granulesIn tile (off % 256) l.length) d).1 = cOK
  · obtain ⟨hr, hv⟩ := checkGranules_near_ok (granulesIn_near htile) hc
    obtain ⟨p, f, hs⟩ := storeGranules_near d (touched_near htile (t := mergedTile d tile (off % 256) l))
    refine ⟨⟨p, f, ?_⟩, hv⟩
    rw [← hs]
    simp only [writePlain, hzero, hkeys, hx, hz, Bool.false_eq_true, if_false, tile] at hr ⊢
    rw [hr]
    simp only [bne_self_eq_false, Option.isSome_none, Bool.false_eq_true, if_false, List.append_nil]
    rfl
  · refine absurd ?_ hc
    simp only [writePlain, hzero, Bool.false_eq_true, if_false, tile] at hok hc ⊢
    rw [if_pos (by simpa using hc)] at hok
    exact hok

theorem readPlain_near_of_good {n : Nat} (hgs : ∀ g ∈ granulesIn (extCell d x (off / 256 * 256)) (off % 256) n, g < 2 ^ 40)
    (hgood : ∀ g ∈ granulesIn (extCell d x (off / 256 * 256)) (off % 256) n, poisoned d g = false ∧ faulty d g = false ∧ vaultUp d g) :
    (readPlain d x a off n).1 = cOK ∧ (readPlain d x a off n).2.1 =
      sub ((granulesIn (extCell d x (off / 256 * 256)) (off % 256) n).flatMap (fun g => memBytes d g 64)) (off % 256 - off % 256 / 64 * 64) n := by
  have hzero : zeroTile x off = false := zeroTile_of_nonzero hz
  have hkeys : keysOf d x = none := keysOf_of_plain he
  simp only [readPlain, hzero, hkeys, readGranules_near a hgs hgood, Bool.false_eq_true, if_false, beq_self_eq_true, if_true, true_and]

end

/-- The granules of an access, one after the other, hold the bytes accessed. -/
theorem sub_granules {d : Dev} {tile o : Nat} {l : List Byte} (hn : 0 < l.length) (hfit : o + l.length ≤ 256)
    (h : ∀ i, i < l.length → NMap.get 0 d.tiers.mem (tile + o + i) = l.getD i 0) :
    sub ((granulesIn tile o l.length).flatMap (fun g => memBytes d g 64)) (o - o / 64 * 64) l.length = l := by
  refine List.ext_getElem (length_sub _ _ _) fun i h1 h2 => ?_
  rw [← List.getD_eq_getElem _ 0 h1, ← List.getD_eq_getElem _ 0 h2, getD_sub _ _ h2, ← h i h2, granulesIn_eq tile hn hfit, List.flatMap_map]
  have hb : (o - o / 64 * 64 + i) % 64 < 64 := Nat.mod_lt _ (by omega)
  have hi : o - o / 64 * 64 + i = 64 * ((o - o / 64 * 64 + i) / 64) + (o - o / 64 * 64 + i) % 64 := (Nat.div_add_mod _ 64).symm
  rw [hi, getD_flatMap_blocks (fun i => memBytes_length d (tile + 64 * i) 64) hb _ (by omega), getD_memBytes _ _ hb]
  congr 1
  omega

/-- Settles O24: the granules written hold the bytes put in and, beside them, what they held; read again, they give the bytes. -/
theorem nearStoreReadsBackWhatWasWritten : Obligations.NearStoreReadsBackWhatWasWritten := by
  intro d x a b off l hx he hz hn hfit tile hwf halign htile hok t c
  obtain ⟨⟨p, f, ht⟩, hv⟩ := writePlain_near_ok he hz hx htile hok
  have hmem : t.tiers.mem = putAll d.tiers.mem (touched tile (off % 256) l.length (mergedTile d tile (off % 256) l)) :=
    congrArg (fun d => d.tiers.mem) ht
  have hcell (k : Nat) := get_putAll_mergedTile (d := d) (tile := tile) hn hfit hwf k
  rw [← hmem] at hcell
  have hwritten : ∀ i, i < l.length → NMap.get 0 t.tiers.mem (c + i) = l.getD i 0 := by
    intro i hi
    rw [hcell, if_pos (by omega), Nat.add_sub_cancel_left]
  refine ⟨hwritten, fun k hk => ?_, ?_, fun hgood => ?_⟩
  · rw [hcell, if_neg (by omega)]
  · rw [hmem]
    exact putAll_wf _ hwf
  · have htile_t : extCell t x (off / 256 * 256) = tile := by
      simp only [tile, extCell, hx, cellOf, t, ht]
      rfl
    have hup : ∀ g ∈ granulesIn tile (off % 256) l.length, vaultUp t g := by
      intro g hg
      have hsame : t.tiers.vaultsDown = d.tiers.vaultsDown := congrArg (fun d => d.tiers.vaultsDown) ht
      rw [vaultUp, hsame]
      exact hv g hg
    have hread := readPlain_near_of_good (d := t) (x := x) (a := b) (off := off) he hz (n := l.length)
      (by rw [htile_t]; exact granulesIn_near htile) (by rw [htile_t]; exact fun g hg => ⟨(hgood g hg).1, (hgood g hg).2, hup g hg⟩)
    rw [htile_t, sub_granules hn hfit hwritten] at hread
    exact hread

end Sys2Proof.Machine
end

section
/-! SUPPORT. Loads and stores at their home, case by case (03 R87, R97, R100, R112; 01 R35). -/

namespace Sys2Proof.Machine

open Sys2Proof

section
variable {d : Dev} {f : Flying} {x : Extent}

/-! ## Loads -/

theorem performOp_rd (hop : f.q.op = .rd) : performOp d f x false = readTier d f x 0 := by simp only [performOp, hop]

/-- The near store, the stacks, a tile not yet written of a ZERO extent and a staged flash tile answer at once. -/
theorem readTier_now (h : x.e.tier = .near ∨ x.e.tier = .stack ∨ zeroTile x f.q.h.offset.toNat = true ∨
    (x.e.tier = .flash ∧ d.tiers.staged.any (fun t => t.addr == extCell d x (f.q.h.offset.toNat / 256 * 256)) = true)) :
    readTier d f x 0 = readNow d f x x 0 := by
  rcases h with ht | ht | hz | ⟨ht, hs⟩
  · simp only [readTier, ht, ite_self]
  · simp only [readTier, ht, ite_self]
  · simp only [readTier, hz, if_true]
  · simp only [readTier, ht, hs, if_true, ite_self]

theorem readTier_unstaged (ht : x.e.tier = .flash) (hz : zeroTile x f.q.h.offset.toNat = false)
    (hs : d.tiers.staged.any (fun t => t.addr == extCell d x (f.q.h.offset.toNat / 256 * 256)) = false) :
    readTier d f x 0 = toTier d f x := by simp only [readTier, hz, ht, hs, Bool.false_eq_true, if_false]

/-- A load of no member is answered with what is read, and fills the read-side cache unless an engine has asked. -/
theorem readNow_rd (hop : f.q.op = .rd) (hacq : f.q.h.acq = false) (hm : memberRead d x f.q = false) :
    let r := readPlain d x (accOf f.q x) f.q.h.offset.toNat (lenOf f.q.h)
    readNow d f x x 0 = finishFlying (if r.1 = cOK ∧ isEngine f.q = false
      then fillCache r.2.2 x f.entry f.q.h.job.toNat f.q.h.offset.toNat (lenOf f.q.h) else r.2.2) f r.1 r.2.1 := by
  intro r
  simp [readNow, hm, hacq, hop, r]

/-- A member of the extent's pair or convoy is answered with the bytes as they are stored. -/
theorem readNow_member (hacq : f.q.h.acq = false) (hm : memberRead d x f.q = true) :
    let r := readPlain d (stored x) (accOf f.q x) f.q.h.offset.toNat (lenOf f.q.h)
    readNow d f x x 0 = finishFlying r.2.2 f r.1 r.2.1 := by
  intro r
  simp [readNow, hm, hacq, r]

/-! ## The wait table -/

theorem toTable_of_room {w : Wait} (h : (d.flying.filter (inTable f.homeBank)).length < 16384) : toTable d f x w = setWait d f.id w := by
  simp only [toTable, h, if_true]

theorem flyingOf_setWait {id : Nat} (w : Wait) (h : flyingOf d id = some f) : flyingOf (setWait d id w) id = some { f with wait := w } :=
  find_modFirst (f := fun f : Flying => { f with wait := w }) (fun hf => hf) h

/-- A store that finds the staging area full waits for room, which is a stall. -/
theorem toStage_of_room (hin : inTable f.homeBank f = false) (h : (d.flying.filter (inTable f.homeBank)).length < 16384)
    (hf : flyingOf d f.id = some f) : toStage d f x = stall (setWait d f.id (.stage d.sys.ltc false)) x.e.berth 4 0 := by
  simp [toStage, hin, toTable_of_room h, flyingOf_setWait _ hf]

/-! ## Stores -/

section
variable (hop : f.q.op = .wr)
include hop

theorem performOp_wr_full (ht : x.e.tier = .flash) (h : stageRoom d f.homeBank (extCell d x (f.q.h.offset.toNat / 256 * 256)) = false) :
    performOp d f x false = toStage d f x := by simp [performOp, hop, ht, h]

theorem performOp_wr_now (hp : isProtection d x = false)
    (ht : x.e.tier = .flash → stageRoom d f.homeBank (extCell d x (f.q.h.offset.toNat / 256 * 256)) = true) (hh : needsHost d f x = false) :
    performOp d f x false = storeNow d f x false := by
  have hroom : (x.e.tier == .flash && !stageRoom d f.homeBank (extCell d x (f.q.h.offset.toNat / 256 * 256))) = false := by
    by_cases hflash : x.e.tier = .flash
    · rw [ht hflash, Bool.not_true, Bool.and_false]
    · simp [hflash]
  simp only [performOp, hop, hroom, hp, hh, Bool.and_false, Bool.false_eq_true, if_false]

variable (hown : isOwn f.q = false) (hts : targetsOf d x = []) (hmiss : missingTile x f.q.h.offset.toNat = false)
include hown hts hmiss

/-- A store with no member to write to is performed; it waits for its acknowledgement, or is answered with its failure. -/
theorem storeNow_unprotected :
    let w := writePlain d x (accOf f.q x) f.q.h.offset.toNat (sub f.q.data 0 (lenOf f.q.h))
    storeNow d f x false = if w.1 = cOK then setWait w.2 f.id (.ack cOK []) else finishFlying w.2 f w.1 [] := by
  intro w
  by_cases hw : w.1 = cOK
  · have hok : (writePlain d x (accOf f.q x) f.q.h.offset.toNat (sub f.q.data 0 (lenOf f.q.h))).1 = cOK := hw
    simp [storeNow, commit, effWrite, hok, hts, settleReq, hop, hown, cacheAfter, fillMark, hmiss, w]
  · have hbad : ¬ (writePlain d x (accOf f.q x) f.q.h.offset.toNat (sub f.q.data 0 (lenOf f.q.h))).1 = cOK := hw
    simp [storeNow, commit, effWrite, hbad, settleReq, w]

end

end

/-- Settles O23: loads and stores at their home, by tier. -/
theorem loadsAndStoresAtTheirHome : Obligations.LoadsAndStoresAtTheirHome := by
  intro d f x q off n cell
  refine ⟨fun hop hacq hm ht => ?_, fun hop hacq hm ht => ?_, fun hop ht hz hs hroom => ?_, fun hop ht hfull hin hroom hf => ?_,
    fun hop hown hp hts hmiss ht hh => ?_⟩
  · intro r fills
    rw [performOp_rd hop, readTier_now ht]
    exact readNow_rd hop hacq hm
  · intro r
    rw [performOp_rd hop, readTier_now (ht.imp_right .inl)]
    exact readNow_member hacq hm
  · rw [performOp_rd hop, readTier_unstaged ht hz hs]
    exact toTable_of_room hroom
  · rw [performOp_wr_full hop ht hfull]
    exact toStage_of_room hin hroom hf
  · intro w
    rw [performOp_wr_now hop hp ht hh, storeNow_unprotected hop hown hts hmiss]
    exact ⟨fun hok => if_pos hok, fun hbad => if_neg hbad⟩

end Sys2Proof.Machine
end

section
/-! SUPPORT. The items of the Tow's descriptors, case by case (03 R102-R105, R110). -/

namespace Sys2Proof.Machine

open Sys2Proof

/-! ## Descriptors of an engine -/

theorem descOf_of_engineDesc {d : Dev} {r : DescRef} {engine op : Nat} {x : Desc} (h : engineDesc d r engine op = some x) :
    descOf d r = some x := by
  unfold engineDesc at h
  split at h
  · next y hy =>
    split at h
    · rw [hy, h]
    · exact absurd h (by simp)
  · exact absurd h (by simp)

theorem ref_of_descOf {d : Dev} {r : DescRef} {x : Desc} (h : descOf d r = some x) : x.r = r := by
  simpa using List.find?_some h

theorem descOf_runDesc {d : Dev} {r : DescRef} {x : Desc} (h : descOf d r = some x) :
    descOf (runDesc d r) r = some { x with phase := .running } :=
  find_modFirst (f := fun x : Desc => { x with phase := .running }) (fun hx => hx) h

/-- The last item of a descriptor that is found done is passed, and no further one is taken. -/
theorem runItems_last {r : DescRef} {f : Dev → Desc → Nat → ItemIs × Dev} {d : Dev} {x : Desc} (hx : descOf d r = some x)
    (hlast : x.count = x.nextItem + 1) (hdone : (f d x x.nextItem).1 = .done) :
    runItems r f 1 d = onDesc (f d x x.nextItem).2 r passItem := by
  have hleft : ¬ x.count ≤ x.nextItem := by omega
  simp only [runItems, hx, hleft, if_false, hdone]

/-! ## Items of the Tow -/

section
variable {d t : Dev} {x : Desc} {item : Nat} {l : List Byte} {write : Bool} {k : Dev → TowItem → Extent → Dev × Nat}
variable (hread : descRead d x item d.xmap.node (dfld x 0x18 0 48 + 16 * item) 16 = (.ok l, t))
include hread

theorem onTowItem_of_refused {code : Nat} (h : towExtent t x (towItem l) write = (code, none)) :
    onTowItem write k d x item = (.done, noteItem t x.r item code) := by
  simp only [onTowItem, hread, h]
  rfl

variable {code : Nat} {e : Extent} (h : towExtent t x (towItem l) write = (code, some e))
include h

theorem onTowItem_of_held (hw : t.sys.westHeld = true) (hb : extBank e = 1) :
    onTowItem write k d x item = (.done, noteItem t x.r item cDEGRADED) := by
  simp only [onTowItem, hread, h, hw, hb]
  rfl

theorem onTowItem_of_ok {u : Dev} (hb : t.sys.westHeld = false ∨ extBank e = 0) (hk : k t (towItem l) e = (u, cOK)) :
    onTowItem write k d x item = (.done, u) := by
  have hup : (t.sys.westHeld && extBank e == 1) = false := by
    rcases hb with hb | hb
    · rw [hb, Bool.false_and]
    · rw [hb]; exact Bool.and_false _
  simp only [onTowItem, hread, h, hup, hk, Bool.false_eq_true, if_false, beq_self_eq_true, if_true]

end

/-! ## What the commands do with an extent -/

section
variable {x : Desc} {item : Nat} {d : Dev} {t : TowItem} {e : Extent}

theorem moveItem_of_elsewhere (hs : snapUses d e.e.base = false) (ht : tierOf t.destTier ≠ e.e.tier)
    (hc : destCode d e (tierOf t.destTier) t.destBase = cOK) (hq : queuedMoves d (extBank e) < 4096) :
    moveItem x item d t e = ({ d with tiers.moves := d.tiers.moves ++ [{
      r := x.r, item := item, bank := extBank e, base := e.e.base, job := x.job, destTier := tierOf t.destTier, destBase := t.destBase,
      pin := bit (dnum x 0x24 4) 0, waitPins := bit (dnum x 0x24 4) 1, phase := .queued }] }, cOK) := by
  have hne : (tierOf t.destTier == e.e.tier) = false := by simpa using ht
  simp only [moveItem, hs, hne, hc, Nat.not_le.mpr hq, Bool.false_and, Bool.false_eq_true, if_false, bne_self_eq_false]

theorem moveItem_of_there (hs : snapUses d e.e.base = false) (ht : tierOf t.destTier = e.e.tier) (hh : moveHead d e.e.base = none) :
    moveItem x item d t e = (movePin d (bit (dnum x 0x24 4) 0) (extBank e) x.job e.e.base, cOK) := by
  simp [moveItem, hs, ht, hh]

theorem addPin_of_room {bank job base : Nat} (h0 : 0 < pinCount d job base) (hmax : pinCount d job base < 65535) :
    addPin d bank job base = (setPin d bank job base (pinCount d job base + 1), cOK) := by
  have hne : (pinCount d job base == 0) = false := by simp; omega
  simp only [addPin, Nat.not_le.mpr hmax, hne, Bool.false_and, Bool.false_eq_true, if_false]

theorem persistItem_of_staged (h : stagedTiles d e = true) :
    persistItem x item d t e = ({ d with tiers.persists := d.tiers.persists ++ [{ r := x.r, item := item, base := e.e.base }] }, cOK) := by
  simp only [persistItem, h, if_true]

theorem persistItem_of_unstaged (h : stagedTiles d e = false) : persistItem x item d t e = (d, cOK) := by simp [persistItem, h]

end

/-- What the four commands of the Tow do with an item's extent. -/
def towWork (op : Nat) : Desc → Nat → Dev → TowItem → Extent → Dev × Nat :=
  if op = 1 then moveItem
  else if op = 2 then fun x _ d _ e => addPin d (extBank e) x.job e.e.base
  else if op = 3 then unpinItem
  else persistItem

/-- The Tow's command of an opcode. -/
def towCommand (op : Nat) (r : DescRef) : Instr := if op = 1 then .move r else if op = 2 then .pin r else if op = 3 then .unpin r else .persist r

theorem exec_towCommand {op : Nat} (h1 : 1 ≤ op) (h4 : op ≤ 4) (r : DescRef) (s : State) :
    exec (towCommand op r) s = .next (goingOn s (runTow s.dev r op (op == 4) (towWork op))) := by
  rcases (show op = 1 ∨ op = 2 ∨ op = 3 ∨ op = 4 by omega) with rfl | rfl | rfl | rfl
  · rfl
  · rfl
  · rfl
  · rfl

/-- A Tow descriptor's last item, done with what `u` is left, ends the descriptor's items. -/
theorem runTow_last {d u : Dev} {r : DescRef} {op : Nat} {write : Bool} {k : Desc → Nat → Dev → TowItem → Extent → Dev × Nat} {x : Desc}
    (hx : engineDesc d r 0x50 op = some x) (hlast : x.count = x.nextItem + 1)
    (hdone : onTowItem write (k { x with phase := .running } x.nextItem) (runDesc d r) { x with phase := .running } x.nextItem = (.done, u)) :
    runTow d r op write k = towFinish (onDesc u r passItem) := by
  have hone : x.count - x.nextItem = 1 := by omega
  have hrun := descOf_runDesc (descOf_of_engineDesc hx)
  simp only [runTow, hx, hone]
  rw [runItems_last hrun hlast (by rw [hdone]), hdone]

/-- Settles O38: the descriptor's last item, by the command and by what becomes of its extent. -/
theorem towDescriptorsDoTheirItems : Obligations.TowDescriptorsDoTheirItems := by
  intro s r op x l t hx hlast y i hread it ends c h1 h4
  have hr : y.r = r := ref_of_descOf (x := x) (descOf_of_engineDesc hx)
  have hread' : descRead (runDesc s.dev r) y i (runDesc s.dev r).xmap.node (dfld y 0x18 0 48 + 16 * i) 16 = (.ok l, t) := hread
  have hexec : exec c s = .next (goingOn s (runTow s.dev r op (op == 4) (towWork op))) := exec_towCommand h1 h4 r s
  have done {u : Dev} (h : onTowItem (op == 4) (towWork op y i) (runDesc s.dev r) y i = (.done, u)) : exec c s = .next (goingOn s (ends u)) := by
    rw [hexec, runTow_last hx hlast h]
  refine ⟨fun code he => ?_, fun code e he hw hb => ?_, fun code e he hb => ⟨?_, ?_, ?_, ?_, ?_, ?_⟩⟩
  · have hitem := done (onTowItem_of_refused hread' he)
    rwa [hr] at hitem
  · have hitem := done (onTowItem_of_held hread' he hw hb)
    rwa [hr] at hitem
  · rintro rfl hs ht hc hq
    have hitem := done (onTowItem_of_ok hread' he hb (moveItem_of_elsewhere hs ht hc hq))
    rwa [hr] at hitem
  · rintro rfl hs ht hh
    exact done (onTowItem_of_ok hread' he hb (moveItem_of_there hs ht hh))
  · rintro rfl h0 hmax
    exact done (onTowItem_of_ok hread' he hb (addPin_of_room h0 hmax))
  · rintro rfl
    exact done (onTowItem_of_ok hread' he hb rfl)
  · rintro rfl hs
    have hitem := done (onTowItem_of_ok hread' he hb (persistItem_of_staged (t := it) hs))
    rwa [hr] at hitem
  · rintro rfl hs
    exact done (onTowItem_of_ok hread' he hb (persistItem_of_unstaged (t := it) hs))

end Sys2Proof.Machine
end

section
/-! SUPPORT. Sets of numbers without an element. -/

namespace Sys2Proof.NSet

theorem del_of_not_mem : ∀ {m : NSet} {k : Nat}, mem m k = false → del m k = m
  | [], _, _ => rfl
  | j :: m, k, h => by
    unfold mem at h
    unfold del
    by_cases hje : j = k
    · simp [hje] at h
    · by_cases hkj : k < j
      · rw [if_neg (by omega), if_neg hje]
      · rw [if_neg hje, if_neg hkj] at h
        rw [if_pos (by omega), del_of_not_mem h]

theorem mem_del_from : ∀ {m : NSet} {lo : Nat} (k i : Nat), wfFrom lo m = true → mem (del m k) i = (!decide (i = k) && mem m i)
  | [], _, k, i, _ => by simp [del, mem]
  | j :: m, lo, k, i, hw => by
    simp only [wfFrom, Bool.and_eq_true, decide_eq_true_eq] at hw
    unfold del
    by_cases hjk : j < k
    · rw [if_pos hjk]
      unfold mem
      rw [mem_del_from k i hw.2]
      by_cases hij : j = i
      · have hik : i ≠ k := by omega
        simp [hij, hik]
      · by_cases hlt : i < j
        · simp [hij, hlt]
        · simp [hij, hlt]
    · rw [if_neg hjk]
      by_cases hje : j = k
      · rw [if_pos hje]
        subst hje
        by_cases hij : i = j
        · simp [hij, mem_below hw.2 (Nat.lt_succ_self j)]
        · by_cases hlt : i < j
          · simp [mem, Ne.symm hij, hlt, mem_below hw.2 (by omega : i < j + 1)]
          · simp [mem, Ne.symm hij, hlt, hij]
      · rw [if_neg hje]
        by_cases hik : i = k
        · have hlt : i < j := by omega
          have hne : j ≠ i := by omega
          subst hik
          simp [mem, hne, hlt]
        · simp [hik]

/-- Membership after a removal. -/
theorem mem_del {m : NSet} (h : wf m = true) (k i : Nat) : mem (del m k) i = (!decide (i = k) && mem m i) := mem_del_from k i h

end Sys2Proof.NSet
end

section
/-! SUPPORT. Forming the units of a stripe: what is formed, and what is left as it was (03 R88; 14 R438). -/

namespace Sys2Proof.Machine

open Sys2Proof

/-! ## What forming units changes -/

/-- `e` differs from `d` in stored bytes, poison, faults, queued deltas and registers alone. -/
def OnlyUnits (d e : Dev) : Prop :=
  ∃ r m p f q, e = { d with regs := r, tiers.mem := m, tiers.poison := p, tiers.faults := f, tiers.deltas := q }

namespace OnlyUnits

theorem refl (d : Dev) : OnlyUnits d d := ⟨d.regs, d.tiers.mem, d.tiers.poison, d.tiers.faults, d.tiers.deltas, rfl⟩

theorem trans {d e u : Dev} : OnlyUnits d e → OnlyUnits e u → OnlyUnits d u := by
  rintro ⟨_, _, _, _, _, rfl⟩ ⟨r, m, p, f, q, rfl⟩
  exact ⟨r, m, p, f, q, rfl⟩

theorem foldl {α : Type} {f : Dev → α → Dev} (hf : ∀ d a, OnlyUnits d (f d a)) : ∀ (l : List α) (d : Dev), OnlyUnits d (l.foldl f d)
  | [], d => refl d
  | a :: l, d => (hf d a).trans (foldl hf l (f d a))

theorem sites {d e : Dev} : OnlyUnits d e → e.tiers.sites = d.tiers.sites := by
  rintro ⟨_, _, _, _, _, rfl⟩
  rfl

theorem dirtyEast {d e : Dev} : OnlyUnits d e → e.tiers.dirtyEast = d.tiers.dirtyEast := by
  rintro ⟨_, _, _, _, _, rfl⟩
  rfl

theorem dirtyWest {d e : Dev} : OnlyUnits d e → e.tiers.dirtyWest = d.tiers.dirtyWest := by
  rintro ⟨_, _, _, _, _, rfl⟩
  rfl

end OnlyUnits

theorem applyDelta_regs_mem (d : Dev) (x : Nat × Nat × Nat × List Byte) : ∃ r m, applyDelta d x = { d with regs := r, tiers.mem := m } ∧
    (Memory.wf d.tiers.mem = true → Memory.wf m = true) := by
  obtain ⟨chan, stripe, o, l⟩ := x
  unfold applyDelta
  dsimp only
  split
  · next st _ =>
    obtain ⟨r, hr⟩ := count_regs_only (setMem d (stackCell (parityPos chan stripe) chan stripe o)
      (xorBytes (memBytes d (stackCell (parityPos chan stripe) chan stripe o) l.length) l)) (pgI 0x31 5 st) 0x818 1
    exact ⟨r, _, hr, setMem_wf _ _⟩
  · exact ⟨d.regs, _, rfl, setMem_wf _ _⟩

theorem foldl_applyDelta (l : List (Nat × Nat × Nat × List Byte)) : ∀ d : Dev,
    ∃ r m, l.foldl applyDelta d = { d with regs := r, tiers.mem := m } ∧ (Memory.wf d.tiers.mem = true → Memory.wf m = true) := by
  induction l with
  | nil => exact fun d => ⟨d.regs, d.tiers.mem, rfl, id⟩
  | cons x l ih =>
    intro d
    obtain ⟨r1, m1, h1, hwf1⟩ := applyDelta_regs_mem d x
    obtain ⟨r, m, h, hwf⟩ := ih (applyDelta d x)
    refine ⟨r, m, by rw [List.foldl_cons, h, h1], fun hd => hwf ?_⟩
    rw [h1]
    exact hwf1 hd

/-- The deltas queued for a stripe change memory, the queue and what is counted. -/
theorem applyStripe_parts (d : Dev) (chan stripe : Nat) : ∃ r m q,
    applyStripe d chan stripe = { d with regs := r, tiers.mem := m, tiers.deltas := q } ∧ (Memory.wf d.tiers.mem = true → Memory.wf m = true) := by
  obtain ⟨r, m, h, hwf⟩ := foldl_applyDelta (d.tiers.deltas.filter (fun x => x.1 == chan && x.2.1 == stripe)) d
  refine ⟨r, m, d.tiers.deltas.filter (fun x => !(x.1 == chan && x.2.1 == stripe)), ?_, hwf⟩
  simp only [applyStripe, h]

theorem rebuildGranule_onlyUnits (pos chan stripe : Nat) (d : Dev) (o : Nat) : OnlyUnits d (rebuildGranule pos chan stripe d o) := by
  unfold rebuildGranule
  dsimp only
  split
  · exact .refl d
  · split
    · exact ⟨_, _, _, _, _, rfl⟩
    · exact ⟨_, _, _, _, _, rfl⟩

theorem rebuildUnit_onlyUnits (pos chan : Nat) (d : Dev) (stripe : Nat) : OnlyUnits d (rebuildUnit pos chan d stripe) := by
  obtain ⟨r, m, q, h, -⟩ := applyStripe_parts d chan stripe
  refine OnlyUnits.trans (e := applyStripe d chan stripe) ?_ (OnlyUnits.foldl (rebuildGranule_onlyUnits pos chan stripe) _ _)
  exact ⟨r, m, d.tiers.poison, d.tiers.faults, q, h⟩

/-! ## Cells of a stripe -/

theorem stackCell_add (p chan stripe o i : Nat) : stackCell p chan stripe o + i = stackCell p chan stripe (o + i) := by
  unfold stackCell
  omega

/-! ## One granule -/

/-- Memory and the faults stand in their canonical forms. -/
structure Sound (d : Dev) : Prop where
  mem : Memory.wf d.tiers.mem = true
  faults : NSet.wf d.tiers.faults = true

/-- `e` differs from `d` in the bytes and faults of granules of the list alone, and keeps the canonical forms. -/
structure OnlyGranules (gs : List Nat) (d e : Dev) : Prop where
  parts : ∃ m f, e = { d with tiers.mem := m, tiers.faults := f }
  sound : Sound e
  mem : ∀ c, (∀ g ∈ gs, ¬ (g ≤ c ∧ c < g + 64)) → NMap.get 0 e.tiers.mem c = NMap.get 0 d.tiers.mem c
  faults : ∀ h, h ∉ gs → faulty e h = faulty d h

namespace OnlyGranules

theorem refl {d : Dev} (h : Sound d) : OnlyGranules [] d d := ⟨⟨_, _, rfl⟩, h, fun _ _ => rfl, fun _ _ => rfl⟩

theorem trans {gs hs : List Nat} {d e u : Dev} (h1 : OnlyGranules gs d e) (h2 : OnlyGranules hs e u) : OnlyGranules (gs ++ hs) d u := by
  obtain ⟨m, f, he⟩ := h1.parts
  obtain ⟨m2, f2, hu⟩ := h2.parts
  refine ⟨⟨m2, f2, by rw [hu, he]⟩, h2.sound, fun c hc => ?_, fun h hh => ?_⟩
  · rw [h2.mem c (fun g hg => hc g (List.mem_append_right _ hg)), h1.mem c (fun g hg => hc g (List.mem_append_left _ hg))]
  · rw [List.mem_append, not_or] at hh
    rw [h2.faults h hh.2, h1.faults h hh.1]

section
variable {gs : List Nat} {d e : Dev} (h : OnlyGranules gs d e)
include h

theorem poisoned_eq (g : Nat) : poisoned e g = poisoned d g := by
  obtain ⟨m, f, he⟩ := h.parts
  rw [he]
  rfl

theorem storedOk_eq {p chan stripe o : Nat} (hg : stackCell p chan stripe o ∉ gs) : storedOk e p chan stripe o = storedOk d p chan stripe o := by
  have hunit : unitState e p chan stripe = unitState d p chan stripe := by
    obtain ⟨m, f, he⟩ := h.parts
    rw [he]
    rfl
  simp only [storedOk, h.poisoned_eq, h.faults _ hg, hunit]

end

end OnlyGranules

section
variable {pos chan stripe o : Nat} {d : Dev}

theorem rebuildGranule_of_poisoned (hp : poisoned d (stackCell pos chan stripe o) = true) : rebuildGranule pos chan stripe d o = d := by
  simp only [rebuildGranule, hp, if_true]

variable (hp : poisoned d (stackCell pos chan stripe o) = false)
include hp

/-- A granule of which the other eight can be read is formed; it is then neither at fault nor poisoned. -/
theorem rebuildGranule_of_readable (hok : ∀ p ∈ (List.range 9).filter (fun p => p != pos), storedOk d p chan stripe o = true) :
    rebuildGranule pos chan stripe d o = { d with
      tiers.mem := putBytes d.tiers.mem (stackCell pos chan stripe o) (xorUnits d chan stripe o ((List.range 9).filter (fun p => p != pos)))
      tiers.faults := NSet.del d.tiers.faults (stackCell pos chan stripe o) } := by
  have hdel : NSet.del d.tiers.poison (stackCell pos chan stripe o) = d.tiers.poison := NSet.del_of_not_mem hp
  simp only [rebuildGranule, hp, List.all_eq_true.mpr hok, cleanGranule, setMem_tiers, hdel, Bool.false_eq_true, if_false, if_true]
  rfl

theorem rebuildGranule_of_unreadable (hbad : ∃ p ∈ (List.range 9).filter (fun p => p != pos), storedOk d p chan stripe o = false) :
    rebuildGranule pos chan stripe d o = { d with tiers.faults := NSet.add d.tiers.faults (stackCell pos chan stripe o) } := by
  obtain ⟨p, hmem, hno⟩ := hbad
  have hall : ((List.range 9).filter (fun p => p != pos)).all (fun p => storedOk d p chan stripe o) = false :=
    List.all_eq_false.mpr ⟨p, hmem, by rw [hno]; exact Bool.false_ne_true⟩
  simp only [rebuildGranule, hp, hall, Bool.false_eq_true, if_false]

end

theorem rebuildGranule_only (pos chan stripe : Nat) {d : Dev} (h : Sound d) (o : Nat) :
    OnlyGranules [stackCell pos chan stripe o] d (rebuildGranule pos chan stripe d o) := by
  cases hp : poisoned d (stackCell pos chan stripe o) with
  | true =>
    rw [rebuildGranule_of_poisoned hp]
    exact ⟨⟨_, _, rfl⟩, h, fun _ _ => rfl, fun _ _ => rfl⟩
  | false =>
    by_cases hok : ∀ p ∈ (List.range 9).filter (fun p => p != pos), storedOk d p chan stripe o = true
    · rw [rebuildGranule_of_readable hp hok]
      refine ⟨⟨_, _, rfl⟩, ⟨putBytes_wf _ _ h.mem, NSet.del_wf h.faults⟩, fun c hc => ?_, fun g hg => ?_⟩
      · have hout := hc _ List.mem_cons_self
        rw [get_putBytes _ _ _ h.mem, xorUnits_length, if_neg hout]
      · have hne : ¬ g = stackCell pos chan stripe o := by simpa using hg
        simp only [faulty, NSet.mem_del h.faults, hne, decide_false, Bool.not_false, Bool.true_and]
    · have hbad : ∃ p ∈ (List.range 9).filter (fun p => p != pos), storedOk d p chan stripe o = false := by
        simpa only [not_forall, Bool.not_eq_true, exists_prop] using hok
      rw [rebuildGranule_of_unreadable hp hbad]
      refine ⟨⟨_, _, rfl⟩, ⟨h.mem, NSet.add_wf h.faults⟩, fun _ _ => rfl, fun g hg => ?_⟩
      have hne : ¬ g = stackCell pos chan stripe o := by simpa using hg
      simp only [faulty, NSet.mem_add h.faults, hne, decide_false, Bool.false_or]

theorem rebuildGranules_only (pos chan stripe : Nat) : ∀ (l : List Nat) {d : Dev}, Sound d →
    OnlyGranules (l.map (stackCell pos chan stripe)) d (l.foldl (rebuildGranule pos chan stripe) d)
  | [], _, h => .refl h
  | o :: l, _, h =>
    have hfirst := rebuildGranule_only pos chan stripe h o
    hfirst.trans (rebuildGranules_only pos chan stripe l hfirst.sound)

/-! ## A whole unit -/

/-- The first bytes of the granules of a unit. -/
def granuleOffs4 : List Nat := [0, 64, 128, 192]

/-- A byte of a granule lies in no granule of another offset, and in none of another unit of its stripe. -/
theorem not_in_granule {p pos chan stripe o k i : Nat} (ho : o ∈ granuleOffs4) (hk : k ∈ granuleOffs4) (hi : i < 64) (hne : p ≠ pos ∨ k ≠ o) :
    ¬ (stackCell pos chan stripe k ≤ stackCell p chan stripe o + i ∧ stackCell p chan stripe o + i < stackCell pos chan stripe k + 64) := by
  simp only [granuleOffs4, List.mem_cons, List.not_mem_nil, or_false] at ho hk
  simp only [stackCell]
  omega

section
variable {pos chan stripe o : Nat} {d : Dev}

theorem sound_applyStripe (hm : Memory.wf d.tiers.mem = true) (hf : NSet.wf d.tiers.faults = true) : Sound (applyStripe d chan stripe) := by
  obtain ⟨r, m, q, h, hwf⟩ := applyStripe_parts d chan stripe
  rw [h]
  exact ⟨hwf hm, hf⟩

variable (hs : Sound (applyStripe d chan stripe))
include hs

theorem rebuildUnit_only : OnlyGranules (granuleOffs4.map (stackCell pos chan stripe)) (applyStripe d chan stripe) (rebuildUnit pos chan d stripe) :=
  rebuildGranules_only pos chan stripe _ hs

/-- Of a unit one granule may be followed: others are formed before and after it. -/
theorem rebuildUnit_split (ho : o ∈ granuleOffs4) : ∃ (l1 l2 : List Nat) (s : Dev), (∀ k ∈ l1 ++ l2, k ≠ o ∧ k ∈ granuleOffs4) ∧ Sound s ∧
    OnlyGranules (l1.map (stackCell pos chan stripe)) (applyStripe d chan stripe) s ∧
    OnlyGranules (l2.map (stackCell pos chan stripe)) (rebuildGranule pos chan stripe s o) (rebuildUnit pos chan d stripe) := by
  obtain ⟨l1, l2, hl⟩ := List.append_of_mem ho
  have hnodup : (l1 ++ o :: l2).Nodup := hl ▸ (by decide : granuleOffs4.Nodup)
  have h1 := rebuildGranules_only pos chan stripe l1 hs
  have h2 := rebuildGranules_only pos chan stripe l2 (rebuildGranule_only pos chan stripe h1.sound o).sound
  refine ⟨l1, l2, _, fun k hk => ⟨?_, ?_⟩, h1.sound, h1, ?_⟩
  · rintro rfl
    exact (List.nodup_cons.mp (List.nodup_middle.mp hnodup)).1 hk
  · rw [hl]
    rcases List.mem_append.mp hk with hk | hk
    · exact List.mem_append_left _ hk
    · exact List.mem_append_right _ (List.mem_cons_of_mem _ hk)
  · have hfold : rebuildUnit pos chan d stripe = (l1 ++ o :: l2).foldl (rebuildGranule pos chan stripe) (applyStripe d chan stripe) := by
      rw [← hl]
      rfl
    rw [hfold, List.foldl_append, List.foldl_cons]
    exact h2

end

/-- What the granules listed, none of them at `o`, leave of the granules at `o` of the stripe. -/
theorem OnlyGranules.beside {pos chan stripe o : Nat} {d e : Dev} {l : List Nat} (h : OnlyGranules (l.map (stackCell pos chan stripe)) d e)
    (ho : o ∈ granuleOffs4) (hl : ∀ k ∈ l, k ≠ o ∧ k ∈ granuleOffs4) (p : Nat) :
    stackCell p chan stripe o ∉ l.map (stackCell pos chan stripe) ∧
    ∀ i, i < 64 → NMap.get 0 e.tiers.mem (stackCell p chan stripe o + i) = NMap.get 0 d.tiers.mem (stackCell p chan stripe o + i) := by
  have hout : ∀ k ∈ l, ∀ i, i < 64 → ¬ (stackCell pos chan stripe k ≤ stackCell p chan stripe o + i ∧
      stackCell p chan stripe o + i < stackCell pos chan stripe k + 64) :=
    fun k hk i hi => not_in_granule ho (hl k hk).2 hi (.inr (hl k hk).1)
  refine ⟨fun hmem => ?_, fun i hi => h.mem _ fun g hg => ?_⟩
  · obtain ⟨k, hk, heq⟩ := List.mem_map.mp hmem
    exact hout k hk 0 (by omega) (by rw [heq]; omega)
  · obtain ⟨k, hk, rfl⟩ := List.mem_map.mp hg
    exact hout k hk i hi

section
variable {pos chan stripe o : Nat} {d : Dev} (hs : Sound (applyStripe d chan stripe)) (ho : o ∈ granuleOffs4)
variable (hp : poisoned (applyStripe d chan stripe) (stackCell pos chan stripe o) = false)
include hs ho hp

/-- A granule of a unit of which the other eight can be read is formed as their XOR, and is not at fault. -/
theorem rebuildUnit_of_readable {i : Nat} (hi : i < 64)
    (hok : ∀ p ∈ (List.range 9).filter (fun p => p != pos), storedOk (applyStripe d chan stripe) p chan stripe o = true) :
    faulty (rebuildUnit pos chan d stripe) (stackCell pos chan stripe o) = false ∧
    NMap.get 0 (rebuildUnit pos chan d stripe).tiers.mem (stackCell pos chan stripe o + i) =
      ((List.range 9).filter (fun p => p != pos)).foldl
        (fun (b : Byte) p => b ^^^ NMap.get 0 (applyStripe d chan stripe).tiers.mem (stackCell p chan stripe o + i)) 0 := by
  obtain ⟨l1, l2, s, hl, hsound, h1, h2⟩ := rebuildUnit_split hs ho (pos := pos)
  have before := h1.beside ho (fun k hk => hl k (List.mem_append_left _ hk))
  have after := h2.beside ho (fun k hk => hl k (List.mem_append_right _ hk))
  have hread := rebuildGranule_of_readable (d := s) ((h1.poisoned_eq _).trans hp)
    (fun p hm => (h1.storedOk_eq (before p).1).trans (hok p hm))
  rw [h2.faults _ (after pos).1, (after pos).2 i hi, hread]
  refine ⟨by simp only [faulty, NSet.mem_del hsound.faults, decide_true, Bool.not_true, Bool.false_and], ?_⟩
  rw [get_putBytes _ _ _ hsound.mem, xorUnits_length, if_pos (by omega), Nat.add_sub_cancel_left, getD_xorUnits _ _ _ _ _ hi]
  exact List.foldl_ext _ _ _ fun b p _ => congrArg (b ^^^ ·) ((before p).2 i hi)

theorem rebuildUnit_of_unreadable {i : Nat} (hi : i < 64)
    (hbad : ∃ p ∈ (List.range 9).filter (fun p => p != pos), storedOk (applyStripe d chan stripe) p chan stripe o = false) :
    faulty (rebuildUnit pos chan d stripe) (stackCell pos chan stripe o) = true ∧
    NMap.get 0 (rebuildUnit pos chan d stripe).tiers.mem (stackCell pos chan stripe o + i) =
      NMap.get 0 (applyStripe d chan stripe).tiers.mem (stackCell pos chan stripe o + i) := by
  obtain ⟨l1, l2, s, hl, hsound, h1, h2⟩ := rebuildUnit_split hs ho (pos := pos)
  have before := h1.beside ho (fun k hk => hl k (List.mem_append_left _ hk))
  have after := h2.beside ho (fun k hk => hl k (List.mem_append_right _ hk))
  obtain ⟨p, hm, hno⟩ := hbad
  have hfault := rebuildGranule_of_unreadable (d := s) ((h1.poisoned_eq _).trans hp) ⟨p, hm, (h1.storedOk_eq (before p).1).trans hno⟩
  rw [h2.faults _ (after pos).1, (after pos).2 i hi, hfault]
  exact ⟨by simp only [faulty, NSet.mem_add hsound.faults, decide_true, Bool.true_or], (before pos).2 i hi⟩

end

/-- Forming a unit leaves every cell beside it. -/
theorem rebuildUnit_mem_other {pos chan stripe c : Nat} {d : Dev} (hs : Sound (applyStripe d chan stripe))
    (hc : ∀ j, j < 256 → c ≠ stackCell pos chan stripe j) :
    NMap.get 0 (rebuildUnit pos chan d stripe).tiers.mem c = NMap.get 0 (applyStripe d chan stripe).tiers.mem c := by
  refine (rebuildUnit_only hs).mem c fun g hg hin => ?_
  obtain ⟨k, hk, rfl⟩ := List.mem_map.mp hg
  have hlt : k + (c - stackCell pos chan stripe k) < 256 := by
    simp only [granuleOffs4, List.mem_cons, List.not_mem_nil, or_false] at hk
    omega
  refine hc _ hlt ?_
  rw [← stackCell_add, Nat.add_sub_cancel' hin.1]

end Sys2Proof.Machine
end

section
/-! SUPPORT. Rebuilds of channels and of a position, and the recomputation of logged parity (03 R90, R91, R94, R95; 14 R438). -/

namespace Sys2Proof.Machine

open Sys2Proof

/-! ## Forming units beside the logs -/

/-- The two devices differ in the dirty logs and the registers alone. -/
def SameButLogs (d e : Dev) : Prop := ∃ r a b, e = { d with regs := r, tiers.dirtyEast := a, tiers.dirtyWest := b }

namespace SameButLogs

variable {d e : Dev}

theorem refl (d : Dev) : SameButLogs d d := ⟨d.regs, d.tiers.dirtyEast, d.tiers.dirtyWest, rfl⟩

theorem mem_eq (h : SameButLogs d e) : e.tiers.mem = d.tiers.mem := by
  obtain ⟨r, a, b, rfl⟩ := h
  rfl

theorem foldl {α : Type} {f g : Dev → α → Dev} (hf : ∀ {d e}, SameButLogs d e → ∀ a, SameButLogs (f d a) (g e a)) :
    ∀ (l : List α) {d e : Dev}, SameButLogs d e → SameButLogs (l.foldl f d) (l.foldl g e)
  | [], _, _, h => h
  | a :: l, _, _, h => foldl hf l (hf h a)

theorem count_right (h : SameButLogs d e) (page off k : Nat) : SameButLogs d (count e page off k) := by
  obtain ⟨r, a, b, rfl⟩ := h
  obtain ⟨m, hm⟩ := count_regs_only { d with regs := r, tiers.dirtyEast := a, tiers.dirtyWest := b } page off k
  exact ⟨m, a, b, hm⟩

theorem count (h : SameButLogs d e) (page off k : Nat) : SameButLogs (count d page off k) (count e page off k) := by
  obtain ⟨m, hm⟩ := count_regs_only d page off k
  obtain ⟨r, a, b, he⟩ := h.count_right page off k
  exact ⟨r, a, b, by rw [he, hm]⟩

theorem applyDelta (h : SameButLogs d e) (x : Nat × Nat × Nat × List Byte) : SameButLogs (applyDelta d x) (applyDelta e x) := by
  obtain ⟨r, a, b, rfl⟩ := h
  obtain ⟨chan, stripe, o, l⟩ := x
  have hunit : unitState { d with regs := r, tiers.dirtyEast := a, tiers.dirtyWest := b } (parityPos chan stripe) chan stripe =
      unitState d (parityPos chan stripe) chan stripe := rfl
  unfold Machine.applyDelta
  dsimp only
  rw [hunit]
  have hstored : SameButLogs
      (setMem d (stackCell (parityPos chan stripe) chan stripe o) (xorBytes (memBytes d (stackCell (parityPos chan stripe) chan stripe o) l.length) l))
      (setMem { d with regs := r, tiers.dirtyEast := a, tiers.dirtyWest := b } (stackCell (parityPos chan stripe) chan stripe o)
        (xorBytes (memBytes d (stackCell (parityPos chan stripe) chan stripe o) l.length) l)) := ⟨r, a, b, rfl⟩
  split
  · exact hstored.count _ _ _
  · exact hstored

theorem applyStripe (h : SameButLogs d e) (chan stripe : Nat) : SameButLogs (applyStripe d chan stripe) (applyStripe e chan stripe) := by
  have hq : e.tiers.deltas = d.tiers.deltas := by
    obtain ⟨r, a, b, rfl⟩ := h
    rfl
  obtain ⟨r, a, b, hfold⟩ := foldl (fun h x => h.applyDelta x) (d.tiers.deltas.filter (fun x => x.1 == chan && x.2.1 == stripe)) h
  refine ⟨r, a, b, ?_⟩
  simp only [Machine.applyStripe, hq, hfold]

theorem rebuildGranule (h : SameButLogs d e) (pos chan stripe o : Nat) :
    SameButLogs (rebuildGranule pos chan stripe d o) (rebuildGranule pos chan stripe e o) := by
  obtain ⟨r, a, b, rfl⟩ := h
  have hp : poisoned { d with regs := r, tiers.dirtyEast := a, tiers.dirtyWest := b } = poisoned d := rfl
  have hok (p : Nat) : storedOk { d with regs := r, tiers.dirtyEast := a, tiers.dirtyWest := b } p chan stripe o = storedOk d p chan stripe o := rfl
  unfold Machine.rebuildGranule
  simp only [hp, hok]
  split
  · exact ⟨r, a, b, rfl⟩
  · split
    · exact ⟨r, a, b, rfl⟩
    · exact ⟨r, a, b, rfl⟩

theorem rebuildUnit (h : SameButLogs d e) (pos chan stripe : Nat) : SameButLogs (rebuildUnit pos chan d stripe) (rebuildUnit pos chan e stripe) :=
  foldl (fun h o => h.rebuildGranule pos chan stripe o) _ (h.applyStripe chan stripe)

end SameButLogs

/-- The units of a position that a channel's rebuild forms from a stripe on. -/
def formChannel (pos : Nat) (d : Dev) (chan first : Nat) : Dev :=
  ((usedStripes d chan).filter (fun k => decide (first ≤ k))).foldl (rebuildUnit pos chan) d

theorem formChannel_onlyUnits (pos : Nat) (d : Dev) (chan first : Nat) : OnlyUnits d (formChannel pos d chan first) :=
  OnlyUnits.foldl (rebuildUnit_onlyUnits pos chan) _ d

theorem formChannel_whole (pos : Nat) (d : Dev) (chan : Nat) : formChannel pos d chan 0 = (usedStripes d chan).foldl (rebuildUnit pos chan) d := by
  simp [formChannel]

theorem SameButLogs.formChannel {d e : Dev} (h : SameButLogs d e) (pos chan first : Nat) :
    SameButLogs (formChannel pos d chan first) (formChannel pos e chan first) := by
  have hused : usedStripes e chan = usedStripes d chan := by simp only [usedStripes, h.mem_eq]
  unfold Machine.formChannel
  rw [hused]
  exact foldl (fun h k => h.rebuildUnit pos chan k) _ h

/-- A channel's rebuild forms its units; beside, it counts, and clears the logs of what has been formed. -/
theorem rebuildChannel_same (pos : Nat) (d : Dev) (chan first : Nat) : SameButLogs (formChannel pos d chan first) (rebuildChannel pos d chan first) :=
  SameButLogs.count_right (e := dropLogged (formChannel pos d chan first) pos chan) ⟨_, _, _, rfl⟩ _ _ _

theorem SameButLogs.sites_eq {d e : Dev} (h : SameButLogs d e) : e.tiers.sites = d.tiers.sites := by
  obtain ⟨r, a, b, rfl⟩ := h
  rfl

theorem rebuildChannel_sites (pos : Nat) (d : Dev) (chan first : Nat) : (rebuildChannel pos d chan first).tiers.sites = d.tiers.sites :=
  (rebuildChannel_same pos d chan first).sites_eq.trans (formChannel_onlyUnits pos d chan first).sites

theorem foldl_rebuildChannel_sites (pos : Nat) (first : Nat → Nat) (l : List Nat) :
    ∀ d : Dev, (l.foldl (fun d c => rebuildChannel pos d c (first c)) d).tiers.sites = d.tiers.sites := by
  induction l with
  | nil => exact fun _ => rfl
  | cons c l ih => exact fun d => by rw [List.foldl_cons, ih, rebuildChannel_sites]

theorem foldl_rebuildChannel_mem (pos : Nat) (first : Nat → Nat) (l : List Nat) (d : Dev) :
    (l.foldl (fun d c => rebuildChannel pos d c (first c)) d).tiers.mem = (l.foldl (fun d c => formChannel pos d c (first c)) d).tiers.mem := by
  refine SameButLogs.mem_eq (SameButLogs.foldl (fun {d e} h c => ?_) l (.refl d))
  obtain ⟨r, a, b, hfirst⟩ := h.formChannel pos c (first c)
  obtain ⟨r2, a2, b2, hsame⟩ := rebuildChannel_same pos e c (first c)
  exact ⟨r2, a2, b2, by rw [hsame, hfirst]⟩

/-! ## The rebuild of a channel -/

/-- Salvage rebuilds channel `chan` of site `n` on the spare. -/
structure Rebuilds (d : Dev) (n chan : Nat) : Prop where
  isSite : n < 9
  isChan : chan < 32
  member : (site d n).role = .member
  standing : (site d n).failed = false
  down : (site d n).down.getLsbD chan = true
  spare : (site d 9).role = .spare
  spareStands : (site d 9).failed = false
  free : (site d 9).loan.getLsbD chan = false
  up : (site d 9).down.getLsbD chan = false
  west : d.sys.westHeld = false

theorem withheldSite_of_westHeld {d : Dev} (h : d.sys.westHeld = false) (n : Nat) : withheldSite d n = false := by simp [withheldSite, h]

theorem channelRebuilds_of_rebuilds {d : Dev} {n chan : Nat} (h : Rebuilds d n chan) : channelRebuilds d n chan = true := by
  have hn := h.isSite
  have hne : n ≠ 9 := by omega
  have hlt : n < 10 := by omega
  simp [channelRebuilds, bit_toNat, withheldSite_of_westHeld h.west, spareSite, h.isChan, h.member, h.standing, h.down, h.spare, h.spareStands,
    h.free, h.up, hne, hlt, -BitVec.getLsbD_eq_getElem]

theorem channelRebuilds_of_failed {d : Dev} {n : Nat} (chan : Nat) (h : (site d n).failed = true ∨ (site d n).role ≠ .member) :
    channelRebuilds d n chan = false := by
  rcases h with h | h
  · simp [channelRebuilds, h]
  · simp [channelRebuilds, h]

theorem channelRebuilt_of_not {d : Dev} {n chan : Nat} (h : channelRebuilds d n chan = false) : channelRebuilt d n chan = d := by
  simp [channelRebuilt, h]

/-- The sites and the stored bytes once a channel has been rebuilt. -/
theorem channelRebuilt_tiers {d : Dev} {n chan : Nat} (h : Rebuilds d n chan) : (channelRebuilt d n chan).tiers =
    (onSite (onSite (rebuildChannel (site d n).position d chan) n (fun t => { t with down := maskOff t.down chan, loan := maskOn t.loan chan }))
      9 (fun t => { t with loan := maskOn t.loan chan })).tiers := by
  simp only [channelRebuilt, channelRebuilds_of_rebuilds h, Bool.not_true, Bool.false_eq_true, if_false]
  exact restored_tiers _ _

theorem onSite_mem (d : Dev) (n : Nat) (f : Site → Site) : (onSite d n f).tiers.mem = d.tiers.mem := rfl

theorem channelRebuilt_mem {d : Dev} {n chan : Nat} (h : Rebuilds d n chan) :
    (channelRebuilt d n chan).tiers.mem = ((usedStripes d chan).foldl (rebuildUnit (site d n).position chan) d).tiers.mem := by
  rw [channelRebuilt_tiers h, ← formChannel_whole]
  rw [onSite_mem, onSite_mem]
  exact (rebuildChannel_same _ d chan 0).mem_eq

section
variable {d : Dev} {n chan : Nat} (h : Rebuilds d n chan) (hl : d.tiers.sites.length = 10)
include h hl

theorem site_channelRebuilt_same : site (channelRebuilt d n chan) n =
    { site d n with down := maskOff (site d n).down chan, loan := maskOn (site d n).loan chan } := by
  have hn := h.isSite
  have hsites := rebuildChannel_sites (site d n).position d chan 0
  rw [site_of_sites (congrArg (·.sites) (channelRebuilt_tiers h)), site_onSite_other _ (by omega), site_onSite_same _ (by rw [hsites]; omega),
    site_of_sites hsites]

theorem site_channelRebuilt_spare : site (channelRebuilt d n chan) 9 = { site d 9 with loan := maskOn (site d 9).loan chan } := by
  have hn := h.isSite
  have hsites := rebuildChannel_sites (site d n).position d chan 0
  rw [site_of_sites (congrArg (·.sites) (channelRebuilt_tiers h)), site_onSite_same _ ?_, site_onSite_other _ (by omega), site_of_sites hsites]
  rw [onSite_tiers]
  simp only [length_modAt, hsites]
  omega

end

theorem site_channelRebuilt_other {d : Dev} {n chan k : Nat} (h : Rebuilds d n chan) (hn : k ≠ n) (hk : k ≠ 9) : site (channelRebuilt d n chan) k = site d k := by
  rw [site_of_sites (congrArg (·.sites) (channelRebuilt_tiers h)), site_onSite_other _ hk, site_onSite_other _ hn,
    site_of_sites (rebuildChannel_sites _ d chan 0)]

/-! ## The rebuild of a position -/

theorem rebuildsChan_eq (d : Dev) (c : Nat) : rebuildsChan d c = (!(site d 9).loan.getLsbD c && !(site d 9).down.getLsbD c) := by
  simp only [rebuildsChan, bit_toNat, spareSite]

/-- The first stripe of a channel that the rebuild's cursor has not reached. -/
def firstLeft (cursor c : Nat) : Nat := min 12582912 (cursor - c * 12582912)

/-- A site that serves a position as its member leaves it. -/
def retired (pos : Nat) (t : Site) : Site :=
  if t.role == .member && t.position == pos then { t with role := .retired, position := 15 } else t

/-- The device once the channels that the rebuild had not reached have been formed. -/
def formedRest (d : Dev) (r : StackRebuild) : Dev :=
  ((List.range 32).filter (rebuildsChan d)).foldl (fun d c => rebuildChannel r.position d c (firstLeft r.cursor c)) d

/-- The device in which the spare serves the position. -/
def taken (d : Dev) (pos : Nat) : Dev :=
  onSite { d with tiers.sites := d.tiers.sites.map (retired pos), tiers.rebuild := none } 9 (fun t => { t with role := .member })

section
variable {d : Dev} {r : StackRebuild} (hr : d.tiers.rebuild = some r) (hready : r.ready = true) (hwest : d.sys.westHeld = false)
include hr hready hwest

theorem stackRebuilt_tiers : (stackRebuilt d).tiers = (taken (formedRest d r) r.position).tiers := by
  simp only [stackRebuilt, hr, hready, withheldSite_of_westHeld hwest, Bool.not_true, Bool.or_self, Bool.false_eq_true, if_false]
  exact restored_tiers _ _

theorem stackRebuilt_mem : (stackRebuilt d).tiers.mem = (((List.range 32).filter (rebuildsChan d)).foldl
    (fun d c => formChannel r.position d c (firstLeft r.cursor c)) d).tiers.mem := by
  rw [stackRebuilt_tiers hr hready hwest]
  exact foldl_rebuildChannel_mem _ _ _ _

end

theorem site_taken_spare {d : Dev} (pos : Nat) (hl : d.tiers.sites.length = 10) : (site (taken d pos) 9).role = .member := by
  rw [taken, site_onSite_same _ (by simp [hl])]

theorem site_taken_retired {d : Dev} {pos k : Nat} (hk : k < d.tiers.sites.length) (h9 : k ≠ 9) (hm : (site d k).role = .member)
    (hp : (site d k).position = pos) : (site (taken d pos) k).role = .retired := by
  rw [taken, site_onSite_other _ h9]
  simp only [site, List.getD_eq_getElem?_getD, List.getElem?_map, List.getElem?_eq_getElem hk, Option.map_some, Option.getD_some] at hm hp ⊢
  simp [retired, hm, hp]

theorem stackRebuilt_of_none {d : Dev} (h : d.tiers.rebuild = none) : stackRebuilt d = d := by simp only [stackRebuilt, h]

/-! ## Logged parity -/

/-- The parity of the logged stripes of a bank of which it can be formed. -/
def formedParity (d : Dev) (bank : Nat) : Dev :=
  ((loggedStripes d bank).filter (parityUp d)).foldl (fun d c => rebuildUnit (parityPos c.1 c.2) c.1 d c.2) d

theorem formedParity_onlyUnits (d : Dev) (bank : Nat) : OnlyUnits d (formedParity d bank) := by
  unfold formedParity
  refine OnlyUnits.foldl (fun d c => ?_) _ d
  exact rebuildUnit_onlyUnits (parityPos c.1 c.2) c.1 d c.2

/-- The stripes marked for recomputation of which the parity cannot be formed. -/
def stillLogged (d : Dev) (bank : Nat) : List (Nat × Nat) := (loggedStripes d bank).filter (fun c => !parityUp d c)

theorem stillLogged_of_parityUp {d : Dev} {bank : Nat} (h : ∀ c ∈ loggedStripes d bank, parityUp d c = true) : stillLogged d bank = [] := by
  rw [stillLogged, List.filter_eq_nil_iff]
  exact fun c hc => by simp [h c hc]

/-- The channels of a bank's stripes that have overflowed its log. -/
def overflowed (d : Dev) (bank : Nat) : Nat := (if bank == 0 then d.tiers.ovfEast else d.tiers.ovfWest).toNat

/-- The log that a recomputation leaves, and the overflow bits. -/
def logLeft (d : Dev) (bank : Nat) : NSet :=
  ((stillLogged d bank).filter (fun c => !bit (overflowed d bank) c.1)).foldl (fun s c => NSet.add s (c.1 * 2 ^ 24 + c.2)) []

def overflowLeft (d : Dev) (bank : Nat) : BitVec 32 :=
  ((stillLogged d bank).filter (fun c => bit (overflowed d bank) c.1)).foldl (fun m c => maskOn m c.1) 0

theorem logLeft_of_parityUp {d : Dev} {bank : Nat} (h : ∀ c ∈ loggedStripes d bank, parityUp d c = true) :
    logLeft d bank = [] ∧ overflowLeft d bank = 0 := by
  simp [logLeft, overflowLeft, stillLogged_of_parityUp h]

theorem recomputeDone_east (d : Dev) : (recomputeDone d 0).tiers =
    { (formedParity d 0).tiers with dirtyEast := logLeft d 0, ovfEast := overflowLeft d 0 } := by
  rw [recomputeDone, restored_tiers]
  rfl

theorem recomputeDone_west (d : Dev) : (recomputeDone d 1).tiers =
    { (formedParity d 1).tiers with dirtyWest := logLeft d 1, ovfWest := overflowLeft d 1 } := by
  rw [recomputeDone, restored_tiers]
  rfl

/-- Settles O35: what a rebuild forms is memory alone, so that the sites are those it marks; a unit is followed granule by granule. -/
theorem rebuildsBringPositionsBack : Obligations.RebuildsBringPositionsBack := by
  unfold Obligations.RebuildsBringPositionsBack
  intro s n chan bank hl hbank d t sp
  refine ⟨fun hn hchan hm hf hdown hsp hspf hloan hup hwest => ?_, fun h => ?_, fun r hr hready hwest hrole hpos => ?_, fun h => ?_, ?_,
    fun pos stripe o i hmem hfault hpos hchan hstripe ho hi => ?_⟩
  · have h : Rebuilds d n chan := ⟨hn, hchan, hm, hf, hdown, hsp, hspf, hloan, hup, hwest⟩
    refine ⟨channelRebuilt d n chan, rfl, ?_, ?_, ?_, ?_, channelRebuilt_mem h, fun k => site_channelRebuilt_other h⟩
    · simp [site_channelRebuilt_same h hl, getLsbD_maskOff _ _ hchan]
    · simp [site_channelRebuilt_same h hl, getLsbD_maskOn _ _ hchan]
    · simp [site_channelRebuilt_spare h hl, getLsbD_maskOn _ _ hchan]
    · rw [site_channelRebuilt_spare h hl]
      exact hsp
  · exact congrArg (fun u => Host.Outcome.next (leaving s u)) (channelRebuilt_of_not (channelRebuilds_of_failed chan h))
  · have htiers := stackRebuilt_tiers hr hready hwest
    have hsites : (formedRest d r).tiers.sites = d.tiers.sites := foldl_rebuildChannel_sites _ _ _ _
    have hlist : (List.range 32).filter (rebuildsChan d) = (List.range 32).filter (fun c => !sp.loan.getLsbD c && !sp.down.getLsbD c) :=
      List.filter_congr fun c _ => rebuildsChan_eq d c
    refine ⟨stackRebuilt d, rfl, by rw [htiers]; rfl, ?_, ?_, fun k hk hmember hat => ?_⟩
    · rw [site_of_sites (congrArg (·.sites) htiers)]
      exact site_taken_spare _ (by rw [hsites, hl])
    · rw [stackRebuilt_mem hr hready hwest, hlist]
      rfl
    · rw [site_of_sites (congrArg (·.sites) htiers)]
      exact site_taken_retired (by rw [hsites, hl]; omega) (by omega) (by rw [site_of_sites hsites, hmember]) (by rw [site_of_sites hsites, hat])
  · exact congrArg (fun u => Host.Outcome.next (leaving s u)) (stackRebuilt_of_none h)
  · have hformed := formedParity_onlyUnits d bank
    refine ⟨recomputeDone d bank, rfl, ?_, ?_, ?_⟩
    · obtain rfl | rfl : bank = 0 ∨ bank = 1 := by omega
      · rw [recomputeDone_east]
        rfl
      · rw [recomputeDone_west]
        rfl
    · rintro rfl
      rw [recomputeDone_east]
      exact ⟨hformed.dirtyWest, logLeft_of_parityUp⟩
    · rintro rfl
      rw [recomputeDone_west]
      exact ⟨hformed.dirtyEast, logLeft_of_parityUp⟩
  · have hs : Sound (applyStripe d chan stripe) := sound_applyStripe hmem hfault
    exact ⟨fun hp hok => rebuildUnit_of_readable hs ho hp hi hok, fun hp hbad => rebuildUnit_of_unreadable hs ho hp hi hbad,
      fun c hc => rebuildUnit_mem_other hs hc⟩

end Sys2Proof.Machine
end

section
/-! SUPPORT. A flash read that waits and is then served by rebuilding (03 R115). -/

namespace Sys2Proof.Machine.FlashStall

open Sys2Proof

/-- An extent on flash of job 1: the first 2 MiB of berth 0. -/
def onFlashExtent : Extent := { e := { ownerWr := true, ownerJob := 1, base := 1, tier := .flash } }

/-- Eight bytes at the extent's start. -/
def readHeader : Hdr :=
  { tc := 4, mark := false, acq := false, rel := false, scope := 0, reqId := 7, src := 1, job := 1, offset := 0x200000, node := 0,
    tide := 0, epoch := 0, len := 7, fmt := 0, trial := 0, tchk := 0, aux := 0, range := 0, rsvd := false }

/-- A read of them that has waited for flash since cycle 0. -/
def waitingRead : Flying :=
  { id := 1, q := { op := .rd, origin := .landing 0, h := readHeader, data := [] }, entry := 0, homeBank := 0, base := 1, wait := .tier 0 false }

/-- A device in service, at cycle 5, with the read; the codeword of the granule it reads fails. -/
def faultyPage : Dev :=
  { Dev.reset with sys.step := 0x12, sys.ltc := 5, toll.extents := [onFlashExtent], flying := [waitingRead], tiers.faults := [flashBase] }

/-- The machine with the device. -/
def beforeAnswer : State := { State.reset with dev := faultyPage }

/-- The cycles counted for berth 0's stalls of cause 1, flash reads served by rebuilding. -/
def rebuildCycles : Host.Outcome State Fault Refusal → Nat
  | .next s => NMap.get 0 s.dev.tiers.stallCyc 1
  | _ => 0

/-- The answer as the statement has it: the cycles waited are not added. -/
def answerWithoutWait : State :=
  goingOn beforeAnswer (readNow (leaveTable faultyPage waitingRead onFlashExtent) waitingRead onFlashExtent onFlashExtent 0)

theorem waits_for_flash : flyingOf faultyPage 1 = some waitingRead ∧ extOf faultyPage waitingRead.base = some onFlashExtent := by decide +kernel

/-- The model adds the five cycles of the wait to the stall. -/
theorem rebuildCycles_tierAnswer : rebuildCycles (exec (.tierAnswer 1) beforeAnswer) = 5 := by decide +kernel

theorem rebuildCycles_answerWithoutWait : rebuildCycles (.next answerWithoutWait) = 0 := by decide +kernel

/-- Refutes O37: of a flash read that has waited and is then served by rebuilding, the cycles waited are added to the stall of cause 1
(03 R115), which the clause about the answer leaves out. -/
theorem not_flashServesFailsAndAnswersWhatWaits : ¬ Obligations.FlashServesFailsAndAnswersWhatWaits := by
  unfold Obligations.FlashServesFailsAndAnswersWhatWaits
  rintro ⟨-, h⟩
  obtain ⟨hflying, hext⟩ := waits_for_flash
  have hanswer : exec (.tierAnswer 1) beforeAnswer = .next answerWithoutWait :=
    (h beforeAnswer 1 waitingRead onFlashExtent 0 false false hflying rfl rfl hext).1 rfl rfl (by decide)
  have hcycles := congrArg rebuildCycles hanswer
  rw [rebuildCycles_tierAnswer, rebuildCycles_answerWithoutWait] at hcycles
  exact absurd hcycles (by decide)

end Sys2Proof.Machine.FlashStall
end

section
/-! SUPPORT. What the tiers' work on stored bytes leaves alone: the extents, the requests in flight and the moves (03 R87-R95, R106). -/

namespace Sys2Proof.Machine

open Sys2Proof

/-- The extents, the requests in flight and the moves of `e` are those of `d`. -/
structure Keeps (d e : Dev) : Prop where
  toll : e.toll = d.toll
  flying : e.flying = d.flying
  moves : e.tiers.moves = d.tiers.moves

namespace Keeps

theorem refl (d : Dev) : Keeps d d := ⟨rfl, rfl, rfl⟩

theorem foldl {α : Type} {a : Dev} {f : Dev → α → Dev} (hf : ∀ {d}, Keeps a d → ∀ k, Keeps a (f d k)) :
    ∀ (l : List α) {d : Dev}, Keeps a d → Keeps a (l.foldl f d)
  | [], _, h => h
  | k :: l, _, h => foldl hf l (hf h k)

section
variable {a : Dev}

theorem ite {c : Prop} [Decidable c] {d e : Dev} (hd : Keeps a d) (he : Keeps a e) : Keeps a (if c then d else e) := by
  split
  · exact hd
  · exact he

end

variable {a d : Dev} (h : Keeps a d)
include h

/-! ## What touches stored bytes, registers and sites alone -/

theorem count (page off k : Nat) : Keeps a (count d page off k) :=
  ⟨by rw [count_toll, h.toll], by rw [count_flying, h.flying], by rw [count_tiers, h.moves]⟩

theorem raise (page b : Nat) : Keeps a (raise d page b) :=
  ⟨by rw [raise_toll, h.toll], by rw [raise_flying, h.flying], by rw [raise_tiers, h.moves]⟩

theorem raiseFe (page b : Nat) (f : Fe) : Keeps a (raiseFe d page b f) :=
  ⟨by rw [raiseFe_toll, h.toll], by rw [raiseFe_flying, h.flying], by rw [raiseFe_tiers, h.moves]⟩

theorem sendCw (w : Bool) (p : CwPair) (cls : Nat) : Keeps a (sendCw d w p cls) :=
  ⟨by rw [sendCw_toll, h.toll], by rw [sendCw_flying, h.flying], by rw [sendCw_tiers, h.moves]⟩

theorem degrade (bank : Nat) : Keeps a (degrade d bank) :=
  raise (d := { d with salv.degraded := true }) ⟨h.toll, h.flying, h.moves⟩ _ _

theorem setMem (c : Nat) (l : List Byte) : Keeps a (setMem d c l) := ⟨h.toll, h.flying, h.moves⟩

theorem addPoison (g : Nat) : Keeps a (addPoison d g) := ⟨h.toll, h.flying, h.moves⟩

theorem cleanGranule (g : Nat) : Keeps a (cleanGranule d g) := ⟨h.toll, h.flying, h.moves⟩

theorem onSite (n : Nat) (f : Site → Site) : Keeps a (onSite d n f) := ⟨h.toll, h.flying, h.moves⟩

theorem emit (o : Out) : Keeps a (emit d o) := ⟨h.toll, h.flying, h.moves⟩

theorem cross (m n : Nat) (p : CwPair) (cls : Nat) : Keeps a (cross d m n p cls) := by
  unfold Machine.cross
  split
  · exact h
  · exact h.sendCw _ _ _

theorem applyStripe (chan stripe : Nat) : Keeps a (applyStripe d chan stripe) := by
  obtain ⟨r, m, q, heq, -⟩ := applyStripe_parts d chan stripe
  rw [heq]
  exact ⟨h.toll, h.flying, h.moves⟩

theorem logStripe (bank chan stripe : Nat) : Keeps a (logStripe d bank chan stripe) := by
  obtain ⟨r, t, e, w, oe, ow, hlog⟩ := logStripe_logs_only d bank chan stripe
  rw [hlog]
  exact ⟨h.toll, h.flying, h.moves⟩

/-! ## Sites, channels and rows that fail -/

theorem endLoans (l : List Nat) : Keeps a (endLoans d l) := ⟨h.toll, h.flying, h.moves⟩

theorem endRebuild : Keeps a (endRebuild d) := by
  unfold Machine.endRebuild
  split
  · exact h
  · exact ⟨h.toll, h.flying, h.moves⟩

theorem rebuild (r : Option StackRebuild) : Keeps a { d with tiers.rebuild := r } := ⟨h.toll, h.flying, h.moves⟩

theorem siteFail (n : Nat) : Keeps a (siteFail d n) := by
  have hmarked := h.onSite n (fun t => { t with failed := true, down := ~~~t.loan })
  have hdown := ((Keeps.ite (c := (n == spareSite) = true) (hmarked.endLoans (List.range 32)) hmarked).raiseFe
    (pgI 0x31 5 n) 4 (feUnit 0)).degrade (bankOfSite n)
  simp only [Machine.siteFail]
  refine ite h ?_
  revert hdown
  generalize Machine.degrade _ _ = e
  intro hdown
  split
  · exact hdown.endRebuild
  · exact ite (hdown.rebuild _) hdown

theorem channelDown (n chan : Nat) : Keeps a (channelDown d n chan) := by
  have hdown := (((Keeps.ite (c := (n == spareSite) = true) (h.endLoans [chan]) h).onSite n (fun t => { t with down := maskOn t.down chan })).raiseFe
    (pgI 0x31 5 n) 3 (feUnit chan)).degrade (bankOfSite n)
  unfold Machine.channelDown
  dsimp only
  exact ite h (ite (hdown.siteFail n) hdown)

theorem rowReplace (n chan row : Nat) : Keeps a (rowReplace d n chan row) := by
  unfold Machine.rowReplace
  dsimp only
  exact ite h (ite (h.channelDown n chan) ((((h.onSite n _).raise (pgI 0x31 5 n) 2).count (pgI 0x31 5 n) 0x810 1).degrade _))

theorem rowEvent (n chan stripe : Nat) : Keeps a (rowEvent d n chan stripe) := by
  unfold Machine.rowEvent
  dsimp only
  exact ite (h.rowReplace n chan _) (h.onSite n _)

theorem noteRecon (pos chan stripe : Nat) : Keeps a (noteRecon d pos chan stripe) := by
  have hnoted := (h.count (pgI 0x31 5 (holderOf d pos chan stripe)) 0x808 1).raise (pgI 0x31 5 (holderOf d pos chan stripe)) 1
  unfold Machine.noteRecon
  dsimp only
  split
  · exact hnoted.rowEvent _ chan stripe
  · exact hnoted

theorem vaultFail (v : Nat) : Keeps a (vaultFail d v) := by
  have hmarked : Keeps a (if v / 32 == 0 then
      { d with tiers.vaultsDown := NSet.add d.tiers.vaultsDown v, tiers.ovfEast := BitVec.allOnes 32 }
    else { d with tiers.vaultsDown := NSet.add d.tiers.vaultsDown v, tiers.ovfWest := BitVec.allOnes 32 }) :=
    ite ⟨h.toll, h.flying, h.moves⟩ ⟨h.toll, h.flying, h.moves⟩
  unfold Machine.vaultFail
  dsimp only
  exact ite h ((hmarked.raiseFe _ _ _).degrade _)

theorem vaultUe (v : Nat) : Keeps a (vaultUe d v) := by
  have hnoted (m : NMap (List Nat)) : Keeps a { d with tiers.vaultUes := m } := ⟨h.toll, h.flying, h.moves⟩
  unfold Machine.vaultUe
  dsimp only
  exact ite h (ite ((hnoted _).vaultFail v) (hnoted _))

theorem nearUe (c : Acc) (bank g : Nat) : Keeps a (nearUe d c bank g) := by
  have hpoisoned := ((h.count (pg 0x30 bank) 0x808 1).raiseFe (pg 0x30 bank) 0 (feAcc d c c.off cUNCORR)).addPoison g
  unfold Machine.nearUe
  dsimp only
  exact ite (hpoisoned.vaultUe _) hpoisoned

/-! ## Granules and tiles -/

theorem readGranule (c : Acc) (g : Nat) : Keeps a (readGranule d c g).2.2 := by
  fun_cases Machine.readGranule d c g
  case case3 => exact h.nearUe _ _ _
  case case7 u _ _ _ e _ _ =>
    have happlied : Keeps a e := h.applyStripe u.chan u.stripe
    exact ((happlied.noteRecon _ _ _).setMem _ _).cleanGranule _
  case case8 u _ _ _ e _ _ =>
    have happlied : Keeps a e := h.applyStripe u.chan u.stripe
    exact (happlied.raiseFe _ _ _).addPoison _
  case case9 u _ e _ _ =>
    have happlied : Keeps a e := h.applyStripe u.chan u.stripe
    exact happlied.noteRecon _ _ _
  case case10 u _ e _ _ =>
    have happlied : Keeps a e := h.applyStripe u.chan u.stripe
    exact (happlied.raiseFe _ _ _).addPoison _
  case case11 => exact h.nearUe _ _ _
  case case14 => exact (ite h (h.count _ _ _)).count _ _ _
  case case15 tile _ _ _ _ _ _ =>
    exact foldl (fun h k => h.addPoison (tile + k)) _ (((ite h (h.count _ _ _)).count _ _ _).raiseFe _ _ _)
  all_goals exact h

theorem orFault (c : Prop) [Decidable c] (g : Nat) : Keeps a (if c then d else { d with tiers.faults := NSet.add d.tiers.faults g }) :=
  ite h ⟨h.toll, h.flying, h.moves⟩

theorem queue (q : List (Nat × Nat × Nat × List Byte)) : Keeps a { d with tiers.deltas := q } := ⟨h.toll, h.flying, h.moves⟩

theorem unstage (l : List StagedTile) : Keeps a { d with tiers.staged := l } := ⟨h.toll, h.flying, h.moves⟩

theorem storeStack (g : Nat) (new : List Byte) : Keeps a (storeStack d g new) := by
  have happlied := Keeps.ite (c := (faulty d g || poisoned d g) = true) (h.applyStripe (stackAt g).chan (stackAt g).stripe) h
  unfold Machine.storeStack
  dsimp only
  revert happlied
  generalize (if (faulty d g || poisoned d g) = true then Machine.applyStripe d _ _ else d) = e
  intro happlied
  split
  · split
    · split
      · have hstored := ((Keeps.ite (c := (faulty d g && !poisoned d g) = true) (happlied.noteRecon (stackAt g).pos (stackAt g).chan (stackAt g).stripe)
          happlied).setMem g new).cleanGranule g
        exact (hstored.queue _).cross _ _ _ _
      · exact (((((happlied.applyStripe _ _).setMem _ _).cleanGranule _).orFault _ _).setMem _ _).cleanGranule _
    · exact ((happlied.setMem _ _).cleanGranule _).logStripe _ _ _
  · exact ((((h.applyStripe _ _).setMem _ _).cleanGranule _).orFault _ _).cleanGranule _

omit h in
theorem readGranules (c : Acc) : ∀ (gs : List Nat) {d : Dev}, Keeps a d → Keeps a (Machine.readGranules c gs d).2.2
  | [], _, h => h
  | g :: gs, d, h => by
    have hrest := readGranules c gs (h.readGranule c g)
    unfold Machine.readGranules
    dsimp only
    split
    · exact hrest
    · exact hrest

omit h in
theorem storeGranules : ∀ (l : List (Nat × List Byte)) {d : Dev}, Keeps a d → Keeps a (Machine.storeGranules l d)
  | [], _, h => h
  | (g, l) :: rest, d, h => by
    refine storeGranules rest ?_
    split
    · exact (h.setMem g l).cleanGranule g
    · exact h.storeStack g l
    · exact ((h.unstage _).setMem g l).cleanGranule g
    · exact (h.setMem g l).cleanGranule g

/-- A tile that reads as zero is not read. -/
theorem readSource (z : Prop) [Decidable z] (l : List Byte) (c : Acc) (gs : List Nat) :
    Keeps a (if z then (cOK, l, d) else Machine.readGranules c gs d).2.2 := by
  split
  · exact h
  · exact readGranules c gs h

theorem moveTile (x y : Extent) (tile : Nat) : Keeps a (moveTile x y d tile).2 := by
  fun_cases Machine.moveTile x y d tile
  case case1 => exact h.readSource _ _ _ _
  case case2 => exact h.readSource _ _ _ _
  case case3 => exact (storeGranules _ (h.readSource _ _ _ _)).emit _
  case case4 => exact storeGranules _ (h.readSource _ _ _ _)

omit h in
theorem moveTiles (x y : Extent) : ∀ (l : List Nat) {d : Dev}, Keeps a d → Keeps a (Machine.moveTiles x y l d).2
  | [], _, h => h
  | tile :: l, d, h => by
    have hfirst := h.moveTile x y tile
    unfold Machine.moveTiles
    dsimp only
    split
    · exact moveTiles x y l hfirst
    · exact hfirst

end Keeps
end Sys2Proof.Machine
end

section
/-! SUPPORT. The phases of a move that is the only one (03 R106-R108, R111). -/

namespace Sys2Proof.Machine

open Sys2Proof

/-! ## One move -/

section
variable {d : Dev} {m : MoveItem} {base : Nat} (hm : d.tiers.moves = [m])
include hm

theorem runningMove_only (hb : m.base = base) (hrun : moveRuns m = true) : runningMove d base = some m := by
  simp [runningMove, hm, hb, hrun]

theorem moveHead_only (hb : m.base = base) : moveHead d base = some m := by simp [moveHead, hm, hb]

theorem onMove_only (f : MoveItem → MoveItem) : onMove d m.r m.item f = { d with tiers.moves := [f m] } := by
  simp [onMove, hm, modFirst]

theorem endMove_only (code : Nat) : endMove d m code = noteItem { d with tiers.moves := [] } m.r m.item code := by
  simp [endMove, hm]

end

/-! ## The end of a hold -/

theorem stallTime_stalls_only (d : Dev) (berth cause cyc : Nat) : ∃ s, stallTime d berth cause cyc = { d with tiers.stallCyc := s } := by
  unfold stallTime
  dsimp only
  split
  · exact ⟨d.tiers.stallCyc, rfl⟩
  · exact ⟨_, rfl⟩

/-- With no request in flight none is held. -/
theorem releaseHeld_of_idle {d : Dev} (h : d.flying = []) (base : Nat) : releaseHeld d base = d := by
  have hkeep : { d with flying := [] } = d := by rw [← h]
  simp [releaseHeld, h, hkeep]

/-- An extent whose hold ends. -/
def unheld (x : Extent) : Extent := { x with moving := false, held := false }

theorem endHold_of_idle {d : Dev} (h : d.flying = []) (x : Extent) :
    ∃ s, endHold d x = { onExt d x.e.base unheld with tiers.stallCyc := s } := by
  unfold endHold
  dsimp only
  generalize total _ = cyc
  obtain ⟨s, hs⟩ := stallTime_stalls_only (onExt d x.e.base unheld) x.e.berth 6 cyc
  have hidle : (stallTime (onExt d x.e.base unheld) x.e.berth 6 cyc).flying = [] := by
    rw [hs]
    exact h
  exact ⟨s, (releaseHeld_of_idle hidle _).trans hs⟩

theorem towFinish_descs_only (d : Dev) : ∃ l, towFinish d = { d with descs := l } := ⟨_, rfl⟩

/-! ## Copying passes -/

/-- The copying pass `k` of a move may now be its last but for one. -/
def CopyPass (m : MoveItem) (k : Nat) : Prop := (m.phase = .copy ∧ k = 1) ∨ ∃ j, m.phase = .recopy j ∧ k = j + 1

theorem CopyPass.runs {m : MoveItem} {k : Nat} (h : CopyPass m k) : moveRuns m = true := by
  obtain ⟨h, -⟩ | ⟨j, h, -⟩ := h
  · simp [moveRuns, h]
  · simp [moveRuns, h]

section
variable {d : Dev} {m : MoveItem} {base : Nat} {x : Extent} (hm : d.tiers.moves = [m]) (hb : m.base = base) (hx : extOf d base = some x)
include hm hb hx

/-- What a pass that is done goes on with. -/
theorem copyDone_passed {k : Nat} (hk : CopyPass m k) (hp : copyPassed x m = true) : copyDone d base =
    if m.marked.length < 4096 ∨ reg d (pg 0x33 m.bank + 0x120) < k then
      { (onExt d base (fun x => { x with held := true })) with tiers.moves := [{ m with phase := .switching }] }
    else { d with tiers.moves := [{ m with phase := .recopy k, marked := [], again := if x.e.tier = .host then m.marked else [] }] } := by
  subst hb
  have hswitch := onMove_only (d := onExt d m.base (fun x => { x with held := true })) hm (fun m => { m with phase := .switching })
  obtain ⟨hphase, rfl⟩ | ⟨j, hphase, rfl⟩ := id hk
  · simp [copyDone, toSwitch, runningMove_only hm rfl hk.runs, hx, hp, hphase, hswitch, onMove_only hm]
  · simp [copyDone, toSwitch, runningMove_only hm rfl hk.runs, hx, hp, hphase, hswitch, onMove_only hm]

theorem copyDone_waiting {k : Nat} (hk : CopyPass m k) (hp : copyPassed x m = false) : copyDone d base = d := by
  simp [copyDone, runningMove_only hm hb hk.runs, hx, hp]

end

/-! ## The switch -/

/-- The extent at the destination of its move. -/
def atDestination (x : Extent) (m : MoveItem) : Extent :=
  { x with e := { x.e with tier := m.destTier, localBase := m.destBase, zero := false }, written := [] }

/-- The copy that the switch makes of every tile. -/
def copied (d : Dev) (x : Extent) (m : MoveItem) : Nat × Dev := moveTiles x (atDestination x m) (List.range (extBytes x / 256)) d

/-- The device whose extent is at its destination: nothing of it is staged or cached. -/
def placed (d : Dev) (x y : Extent) (base : Nat) : Dev :=
  cacheDrop (onExt (dropStaged d x) base (fun z => { y with held := z.held, moving := z.moving })) (fun c => covers x c.offset)

/-- The only move is at its switch, and nothing is in flight on its extent. -/
structure Switching (d : Dev) (base : Nat) (m : MoveItem) (x : Extent) : Prop where
  only : d.tiers.moves = [m]
  base_eq : m.base = base
  ext : extOf d base = some x
  at_ : x.e.base = base
  flying : d.flying = []
  trans : d.quay.trans = []
  dir : d.quay.dir = []
  accums : d.quay.accums = []
  phase : m.phase = .switching
  passed : copyPassed x m = true
  unmarked : x.e.tier = .host → m.marked = []

namespace Switching

variable {d : Dev} {base : Nat} {m : MoveItem} {x : Extent} (h : Switching d base m x)
include h

theorem running : runningMove d base = some m := runningMove_only h.only h.base_eq (by simp [moveRuns, h.phase])

theorem extQuiet : extQuiet d x = true := by simp [Machine.extQuiet, h.trans, h.dir, h.accums]

theorem drained : drainCount d base = 0 := by simp [drainCount, h.flying]

theorem unasked : (x.e.tier == .host && !m.marked.isEmpty) = false := by
  by_cases hx : x.e.tier = .host
  · simp [h.unmarked hx]
  · simp [hx]

theorem guard : (m.phase != .switching || drainCount d base != 0 || !Machine.extQuiet d x || !copyPassed x m ||
    (x.e.tier == .host && !m.marked.isEmpty)) = false := by
  simp [h.phase, h.drained, h.extQuiet, h.passed, h.unasked]

theorem moveSwitch_down (hup : tierUp d x.e.tier m.bank = false) : moveSwitch d base = abandonMove d m cTIER := by
  simp only [moveSwitch, h.running, h.ext, h.guard, hup, Bool.false_eq_true, if_false, Bool.not_false, if_true]

theorem moveSwitch_failed (hup : tierUp d x.e.tier m.bank = true) (hr : (copied d x m).1 ≠ cOK) :
    moveSwitch d base = abandonMove (copied d x m).2 m (copied d x m).1 := by
  have hne : ((copied d x m).1 != cOK) = true := by simpa using hr
  unfold copied atDestination at hne ⊢
  simp only [moveSwitch, h.running, h.ext, h.guard, hup, hne, Bool.false_eq_true, if_false, Bool.not_true, if_true]

theorem moveSwitch_copied (hup : tierUp d x.e.tier m.bank = true) (hr : (copied d x m).1 = cOK) (hpin : m.pin = false) :
    moveSwitch d base = endHold (endMove (placed (copied d x m).2 x (atDestination x m) base) m cOK) (atDestination x m) := by
  have heq : ((copied d x m).1 != cOK) = false := by simpa using hr
  unfold copied atDestination at *
  simp only [moveSwitch, h.running, h.ext, h.guard, hup, heq, hpin, movePin, placed, Bool.false_eq_true, if_false, Bool.not_true]

omit h in
theorem copied_keeps : Keeps d (copied d x m).2 := Keeps.moveTiles _ _ _ (.refl d)

/-- What the switch leaves: the bytes copied, no move, and the extent at its destination. -/
theorem moveSwitch_places (hup : tierUp d x.e.tier m.bank = true) (hr : (copied d x m).1 = cOK) (hpin : m.pin = false) :
    (moveSwitch d base).tiers.moves = [] ∧ (moveSwitch d base).tiers.mem = (copied d x m).2.tiers.mem ∧
    extOf (moveSwitch d base) base = some (unheld (atDestination x m)) := by
  have hkeeps := copied_keeps (d := d) (m := m) (x := x)
  rw [h.moveSwitch_copied hup hr hpin]
  revert hkeeps
  generalize (copied d x m).2 = e
  intro hkeeps
  have hmoves : (placed e x (atDestination x m) base).tiers.moves = [m] := hkeeps.moves.trans h.only
  have hext : extOf e base = some x := (extOf_of_extents (congrArg (·.extents) hkeeps.toll) base).trans h.ext
  have hplaced : extOf (placed e x (atDestination x m) base) base =
      some { atDestination x m with held := x.held, moving := x.moving } :=
    extOf_onExt (d := dropStaged e x) (f := fun z => { atDestination x m with held := z.held, moving := z.moving }) hext rfl
  rw [endMove_only hmoves]
  obtain ⟨s, hs⟩ := endHold_of_idle (d := noteItem { placed e x (atDestination x m) base with tiers.moves := [] } m.r m.item cOK)
    (hkeeps.flying.trans h.flying) (atDestination x m)
  have hbase : (atDestination x m).e.base = base := h.at_
  rw [hs, hbase]
  exact ⟨rfl, rfl, extOf_onExt (d := noteItem { placed e x (atDestination x m) base with tiers.moves := [] } m.r m.item cOK) (f := unheld) hplaced rfl⟩

end Switching

/-! ## Abandoned moves -/

/-- A port no longer expects the host's answers to the reads of a move of the extent. -/
def unread (base : Nat) (p : Port) : Port :=
  { p with hostReads := p.hostReads.filter (fun r => match r.use with
    | .move b _ => b != base
    | _ => true) }

/-- The device in which the only move has ended with a code. -/
def ended (d : Dev) (m : MoveItem) (base code : Nat) : Dev :=
  noteItem { d with ports := d.ports.map (unread base), tiers.moves := [] } m.r m.item code

/-- The record of an abandoned move. -/
def abandonFe (d : Dev) (m : MoveItem) (x : Extent) (code : Nat) : Fe :=
  { unit := false, addr := d.xmap.node * 2 ^ 48 + extBase x, job := m.job, code := code }

section
variable {d : Dev} {m : MoveItem} {base : Nat} {x : Extent} (hm : d.tiers.moves = [m]) (hb : m.base = base) (hx : extOf d base = some x)
include hm hb hx

theorem abandonMove_only (code : Nat) :
    abandonMove d m code = endHold (raiseFe (ended d m base code) (pg 0x33 m.bank) 3 (abandonFe d m x code)) x := by
  subst hb
  have hports {f : Port → Port} (hf : ∀ p, f p = unread m.base p) : d.ports.map f = d.ports.map (unread m.base) :=
    List.map_congr_left fun p _ => hf p
  have hext : extOf (ended d m m.base code) m.base = some x := hx
  have hend : endMove { d with ports := d.ports.map (unread m.base) } m code = ended d m m.base code :=
    endMove_only (d := { d with ports := d.ports.map (unread m.base) }) hm code
  unfold abandonMove
  dsimp only
  rw [hports ?_, hend, hext]
  · rfl
  · intro p
    unfold unread
    congr 1
    refine List.filter_congr fun r _ => ?_
    cases r.use
    all_goals rfl

theorem abandonMove_places (hf : d.flying = []) (hat : x.e.base = base) (code : Nat) :
    (abandonMove d m code).tiers.moves = [] ∧ (abandonMove d m code).tiers.mem = d.tiers.mem ∧
    extOf (abandonMove d m code) base = some (unheld x) := by
  rw [abandonMove_only hm hb hx]
  obtain ⟨r, t, hraised⟩ := raiseFe_regs_tx (ended d m base code) (pg 0x33 m.bank) 3 (abandonFe d m x code)
  obtain ⟨s, hs⟩ := endHold_of_idle (d := raiseFe (ended d m base code) (pg 0x33 m.bank) 3 (abandonFe d m x code)) (x := x)
    (by rw [hraised]; exact hf)
  rw [hs, hraised, hat]
  exact ⟨rfl, rfl, extOf_onExt (d := { ended d m base code with regs := r, tx := t }) (f := unheld) hx rfl⟩

end

/-- The code an abandoned move's item takes. -/
def abandonCode : MoveFailure → Nat
  | .sourceUnreadable => cUNCORR
  | .sourceTierFailed => cTIER
  | .destinationFailed => cTIER

theorem exec_moveAbandon {s : State} {base : Nat} {m : MoveItem} (h : runningMove s.dev base = some m) (why : MoveFailure) :
    exec (.moveAbandon base why) s = .next (goingOn s (towFinish (abandonMove s.dev m (abandonCode why)))) := by
  refine congrArg (fun u => Host.Outcome.next (goingOn s u)) ?_
  simp only [h]
  cases why
  all_goals rfl

/-! ## Evictions that wait for pins -/

section
variable {d : Dev} {m : MoveItem} {base since : Nat} (hm : d.tiers.moves = [m]) (hb : m.base = base) (hphase : m.phase = .pinWait since)
include hm hb hphase

theorem pinWaitExpiry_pinned (hp : pinned d base = true) : pinWaitExpiry d base =
    noteItem { d with sys.ltc := max d.sys.ltc (since + reg d (pg 0x33 m.bank + 0x118)), tiers.moves := [] } m.r m.item cBUSY := by
  simp only [pinWaitExpiry, moveHead_only hm hb, hphase, hp, if_true]
  exact endMove_only (d := advanceTo d (since + reg d (pg 0x33 m.bank + 0x118))) hm cBUSY

theorem pinWaitExpiry_unpinned (hp : pinned d base = false) : pinWaitExpiry d base = d := by
  simp only [pinWaitExpiry, moveHead_only hm hb, hphase, hp, Bool.false_eq_true, if_false]

end

/-- With nothing in the Tow's queues only descriptors are touched. -/
theorem towOn_of_idle {d : Dev} (hm : d.tiers.moves = []) (hp : d.tiers.persists = []) : ∃ l, towOn d = { d with descs := l } := by
  unfold towOn
  simp only [hm, hp, List.isEmpty_nil, Bool.and_self, if_true]
  split
  · exact towFinish_descs_only d
  · exact ⟨d.descs, rfl⟩

/-- Settles O39: with one move and nothing in flight each command leaves a device that is written out; what the switch's copying touches
keeps the extents, the requests and the moves. -/
theorem movesGoThroughTheirPhases : Obligations.MovesGoThroughTheirPhases := by
  unfold Obligations.MovesGoThroughTheirPhases
  intro s base m x d hm hb hx hat hflying htrans hdir haccums hpersists
  refine ⟨fun k hk => ?_, ?_, fun why hrun => ?_, fun since hphase => ?_⟩
  · have hcopy : CopyPass m k := hk
    have hexec (u : Dev) (h : copyDone d base = u) : exec (.moveCopyDone base) s = .next (goingOn s u) :=
      congrArg (fun u => Host.Outcome.next (goingOn s u)) h
    refine ⟨fun hp hlast => hexec _ ?_, fun hp hmarked hleft => hexec _ ?_, fun hp => hexec _ (copyDone_waiting hm hb hx hcopy hp)⟩
    · rw [copyDone_passed hm hb hx hcopy hp, if_pos hlast]
    · rw [copyDone_passed hm hb hx hcopy hp, if_neg (by omega)]
  · intro y r hphase hp hmarked
    have h : Switching d base m x := ⟨hm, hb, hx, hat, hflying, htrans, hdir, haccums, hphase, hp, hmarked⟩
    have hexec (u : Dev) (hu : moveSwitch d base = u) : exec (.moveSwitch base) s = .next (goingOn s (towFinish u)) :=
      congrArg (fun u => Host.Outcome.next (goingOn s (towFinish u))) hu
    refine ⟨fun hup hok hpin => ?_, fun hup hbad => hexec _ (h.moveSwitch_failed hup hbad), fun hup => hexec _ (h.moveSwitch_down hup)⟩
    obtain ⟨hmoves, hmem, hext⟩ := h.moveSwitch_places hup hok hpin
    exact ⟨towFinish (moveSwitch d base), rfl, hmoves, hmem, hext⟩
  · have hexec := exec_moveAbandon (s := s) (runningMove_only hm hb hrun) why
    obtain ⟨hmoves, hmem, hext⟩ := abandonMove_places hm hb hx hflying hat (abandonCode why)
    refine ⟨?_, towFinish (abandonMove d m (abandonCode why)), hexec, hmoves, hext, hmem⟩
    rw [hexec, abandonMove_only hm hb hx]
    cases why
    all_goals rfl
  · intro late
    refine ⟨fun hp => ?_, fun hp => ?_⟩
    · have hlate := pinWaitExpiry_pinned hm hb hphase hp
      have hexec : exec (.towPinWaitExpiry base) s = .next (goingOn s (towFinish (towOn (noteItem late m.r m.item cBUSY)))) :=
        congrArg (fun u => Host.Outcome.next (goingOn s (towFinish (towOn u)))) hlate
      obtain ⟨l, hl⟩ := towOn_of_idle (d := noteItem late m.r m.item cBUSY) rfl hpersists
      refine ⟨hexec, towFinish (towOn (noteItem late m.r m.item cBUSY)), hexec, ?_⟩
      rw [hl]
      exact ⟨rfl, hx, rfl⟩
    · exact congrArg (fun u => Host.Outcome.next (goingOn s (towFinish (towOn u)))) (pinWaitExpiry_unpinned hm hb hphase hp)

end Sys2Proof.Machine
end

section
/-! SUPPORT. Atomics and PUBLISH at their home (04 R137, R139, R144). -/

namespace Sys2Proof.Machine

open Sys2Proof

/-! ## The value an operation leaves -/

/-- The model's signed number of `w` bytes is that of the bit vector. -/
theorem toSigned_eq_toInt {w n : Nat} (hw : 0 < w) (hn : n < 2 ^ (8 * w)) : toSigned w n = (BitVec.ofNat (8 * w) n).toInt := by
  have hhalf : 2 ^ (8 * w) = 2 * 2 ^ (8 * w - 1) := by rw [← Nat.pow_succ']; congr 1; omega
  have hlow : 2 * n < 2 ^ (8 * w) ↔ n < 2 ^ (8 * w - 1) := by omega
  rw [BitVec.toInt_eq_toNat_cond, BitVec.toNat_ofNat, Nat.mod_eq_of_lt hn]
  simp only [toSigned, hlow]
  push_cast
  rfl

section
variable {w old a b : Nat}

/-- The signed minimum and maximum keep one of the two operands, by their order as bit vectors. -/
theorem atomicNew_signed_min (hw : 0 < w) (hold : old < 2 ^ (8 * w)) (ha : a < 2 ^ (8 * w)) :
    atomicNew 4 w old a b = some (if (BitVec.ofNat (8 * w) a).toInt < (BitVec.ofNat (8 * w) old).toInt then a else old) := by
  rw [← toSigned_eq_toInt hw ha, ← toSigned_eq_toInt hw hold]
  rfl

theorem atomicNew_signed_max (hw : 0 < w) (hold : old < 2 ^ (8 * w)) (ha : a < 2 ^ (8 * w)) :
    atomicNew 5 w old a b = some (if (BitVec.ofNat (8 * w) old).toInt < (BitVec.ofNat (8 * w) a).toInt then a else old) := by
  rw [← toSigned_eq_toInt hw ha, ← toSigned_eq_toInt hw hold]
  rfl

theorem atomicNew_cas : atomicNew 1 w old a b = if old = a then some b else none := by simp [atomicNew]

theorem atomicNew_add : atomicNew 2 w old a b = some (BitVec.ofNat (8 * w) old + BitVec.ofNat (8 * w) a).toNat := by
  simp [atomicNew]

variable (hold : old < 2 ^ (8 * w)) (ha : a < 2 ^ (8 * w))
include hold ha

theorem atomicNew_and : atomicNew 8 w old a b = some (BitVec.ofNat (8 * w) old &&& BitVec.ofNat (8 * w) a).toNat := by
  rw [BitVec.toNat_and, BitVec.toNat_ofNat, BitVec.toNat_ofNat, Nat.mod_eq_of_lt hold, Nat.mod_eq_of_lt ha]
  rfl

theorem atomicNew_or : atomicNew 9 w old a b = some (BitVec.ofNat (8 * w) old ||| BitVec.ofNat (8 * w) a).toNat := by
  rw [BitVec.toNat_or, BitVec.toNat_ofNat, BitVec.toNat_ofNat, Nat.mod_eq_of_lt hold, Nat.mod_eq_of_lt ha]
  rfl

theorem atomicNew_xor : atomicNew 10 w old a b = some (BitVec.ofNat (8 * w) old ^^^ BitVec.ofNat (8 * w) a).toNat := by
  rw [BitVec.toNat_xor, BitVec.toNat_ofNat, BitVec.toNat_ofNat, Nat.mod_eq_of_lt hold, Nat.mod_eq_of_lt ha]
  rfl

end

/-! ## Effects at the tier -/

section
variable {d : Dev} {q : Req} {x : Extent} {r : Nat × List Byte × Dev}

section
variable (hread : readPlain d x (accOf q x) q.h.offset.toNat (lenOf q.h) = r) (hok : r.1 = cOK)
include hread hok

/-- A CAS that does not match writes nothing. -/
theorem effAtomic_of_none
    (hnew : atomicNew q.h.aux.toNat (lenOf q.h) (leNat r.2.1) (leAt q.data 0 (lenOf q.h)) (leAt q.data (lenOf q.h) (lenOf q.h)) = none) :
    effAtomic d q x = { status := cOK, data := r.2.1, dev := r.2.2 } := by
  simp only [effAtomic, hread, hok, hnew, bne_self_eq_false, Bool.false_eq_true, if_false]

/-- The operation's value is written, and the old operand is returned where that can be done. -/
theorem effAtomic_of_some {v : Nat}
    (hnew : atomicNew q.h.aux.toNat (lenOf q.h) (leNat r.2.1) (leAt q.data 0 (lenOf q.h)) (leAt q.data (lenOf q.h) (lenOf q.h)) = some v) :
    let t := writePlain r.2.2 x (accOf q x) q.h.offset.toNat (leBytes (lenOf q.h) v)
    effAtomic d q x = if t.1 = cOK then { status := cOK, data := r.2.1, span := some (q.h.offset.toNat, lenOf q.h), dev := t.2 }
      else { status := t.1, dev := t.2 } := by
  simp only [effAtomic, hread, hok, hnew, bne_self_eq_false, Bool.false_eq_true, if_false, beq_iff_eq]

end

section
variable (hread : readPlain d x (accOf q x) q.h.offset.toNat 8 = r) (hok : r.1 = cOK)
include hread hok

theorem effPublish_of_other (hword : leNat r.2.1 ≠ leAt q.data 0 8) :
    effPublish d q x = { status := cVERSION, data := r.2.1, dev := r.2.2 } := by
  simp only [effPublish, hread, hok, bne_iff_ne, ne_eq, hword, not_true, not_false_iff, if_false, if_true]

theorem effPublish_of_expected (hword : leNat r.2.1 = leAt q.data 0 8) :
    let t := writePlain r.2.2 x (accOf q x) q.h.offset.toNat (sub q.data 8 8)
    effPublish d q x = { status := t.1, span := if t.1 == cOK then some (q.h.offset.toNat, 8) else none, dev := t.2 } := by
  simp only [effPublish, hread, hok, hword, bne_self_eq_false, Bool.false_eq_true, if_false]

end

/-- What fails has written nothing. -/
theorem effAtomic_span_of_failed (h : (effAtomic d q x).status ≠ cOK) : (effAtomic d q x).span = none := by
  by_cases hok : (readPlain d x (accOf q x) q.h.offset.toNat (lenOf q.h)).1 = cOK
  · cases hnew : atomicNew q.h.aux.toNat (lenOf q.h) (leNat (readPlain d x (accOf q x) q.h.offset.toNat (lenOf q.h)).2.1)
      (leAt q.data 0 (lenOf q.h)) (leAt q.data (lenOf q.h) (lenOf q.h)) with
    | none => rw [effAtomic_of_none rfl hok hnew]
    | some v =>
      rw [effAtomic_of_some rfl hok hnew] at h ⊢
      split at h
      · exact absurd rfl h
      · next hbad => rw [if_neg hbad]
  · simp [effAtomic, hok]

theorem effPublish_span_of_failed (h : (effPublish d q x).status ≠ cOK) : (effPublish d q x).span = none := by
  by_cases hok : (readPlain d x (accOf q x) q.h.offset.toNat 8).1 = cOK
  · by_cases hword : leNat (readPlain d x (accOf q x) q.h.offset.toNat 8).2.1 = leAt q.data 0 8
    · rw [effPublish_of_expected rfl hok hword] at h ⊢
      exact if_neg (by simpa using h)
    · rw [effPublish_of_other rfl hok hword]
  · simp [effPublish, hok]

end

/-! ## What follows an effect, where no member takes its write -/

section
variable {d : Dev} {f : Flying} {x : Extent}

theorem settleReq_of_not_store (hop : f.q.op ≠ .wr) (e : Effect) : settleReq f e = finishFlying e.dev f e.status e.data := by
  simp [settleReq, hop]

/-- A DOMAIN atomic that is no home atomic drops its tile from the read-side caches; what else is performed drops nothing. -/
theorem cacheAfter_of_domain (hop : f.q.op = .atomic) (hs : f.q.h.scope = 2) (hh : f.q.home = false) :
    cacheAfter d f = cacheDrop d (fun c => c.offset / 256 == f.q.h.offset.toNat / 256) := by
  simp [cacheAfter, hop, hs, hh]

theorem cacheAfter_of_no_domain (h : f.q.op = .publish ∨ f.q.h.scope ≠ 2 ∨ f.q.home = true) : cacheAfter d f = d := by
  refine if_neg (fun hd => ?_)
  simp only [Bool.and_eq_true, beq_iff_eq, Bool.not_eq_true'] at hd
  obtain ⟨⟨hop, hs⟩, hh⟩ := hd
  rcases h with h | h | h
  · exact absurd (hop.symm.trans h) (by decide)
  · exact h hs
  · exact absurd (hh.symm.trans h) (by decide)

/-- An effect that no member takes part in is answered as it stands; one that is OK first drops what a DOMAIN atomic drops. -/
theorem commit_without_members (hop : f.q.op ≠ .wr) (hts : targetsOf d x = []) {eff : Dev → Effect}
    (hspan : (eff d).status ≠ cOK → (eff d).span = none) :
    commit d f x false eff id = finishFlying (if (eff d).status = cOK then cacheAfter (eff d).dev f else (eff d).dev) f
      (eff d).status (eff d).data := by
  unfold commit
  by_cases hok : (eff d).status = cOK
  · cases hs : (eff d).span <;> simp [hs, hts, hok, settleReq_of_not_store hop]
  · simp [hspan hok, hok, settleReq_of_not_store hop]

/-- An atomic is answered with what its effect leaves. -/
theorem performOp_atomic (hop : f.q.op = .atomic) (hts : targetsOf d x = []) :
    let e := effAtomic d f.q x
    performOp d f x false = finishFlying (if e.status = cOK then cacheAfter e.dev f else e.dev) f e.status e.data := by
  simp only [performOp, hop]
  exact commit_without_members (eff := fun d => effAtomic d f.q x) (by simp [hop]) hts effAtomic_span_of_failed

/-- An atomic that is done has dropped its tile from the read-side caches where its scope is DOMAIN, and nothing else. -/
theorem performOp_atomic_of_ok (hop : f.q.op = .atomic) (hts : targetsOf d x = []) {e : Effect} (he : effAtomic d f.q x = e)
    (hok : e.status = cOK) :
    (f.q.h.scope ≠ 2 ∨ f.q.home = true → performOp d f x false = finishFlying e.dev f cOK e.data) ∧
    (f.q.h.scope = 2 → f.q.home = false → performOp d f x false =
      finishFlying (cacheDrop e.dev (fun c => c.offset / 256 == f.q.h.offset.toNat / 256)) f cOK e.data) := by
  have hdone := performOp_atomic hop hts
  simp only [he, hok, if_true] at hdone
  exact ⟨fun hs => by rw [hdone, cacheAfter_of_no_domain (.inr hs)], fun hs hh => by rw [hdone, cacheAfter_of_domain hop hs hh]⟩

theorem performOp_atomic_of_failed (hop : f.q.op = .atomic) (hts : targetsOf d x = []) {e : Effect} (he : effAtomic d f.q x = e)
    (hbad : e.status ≠ cOK) : performOp d f x false = finishFlying e.dev f e.status e.data := by
  have hdone := performOp_atomic hop hts
  simpa only [he, hbad, if_false] using hdone

/-- A PUBLISH is answered with what its effect leaves. -/
theorem performOp_publish (hop : f.q.op = .publish) (hts : targetsOf d x = []) :
    let e := effPublish d f.q x
    performOp d f x false = finishFlying e.dev f e.status e.data := by
  simp only [performOp, hop]
  rw [commit_without_members (eff := fun d => effPublish d f.q x) (by simp [hop]) hts effPublish_span_of_failed,
    cacheAfter_of_no_domain (.inl hop), ite_self]

end

/-- Settles O25: the table operation by operation, then each outcome of an atomic and of a PUBLISH at its home. -/
theorem atomicsFollowTheirTableAndReturnTheOldOperand : Obligations.AtomicsFollowTheirTableAndReturnTheOldOperand := by
  constructor
  · intro w old a b hw hold ha _ signed
    have hpos : 0 < w := by omega
    refine ⟨rfl, atomicNew_cas, atomicNew_add, ⟨_, atomicNew_signed_min hpos hold ha, ?_⟩, ⟨_, atomicNew_signed_max hpos hold ha, ?_⟩,
      rfl, rfl, atomicNew_and hold ha, atomicNew_or hold ha, atomicNew_xor hold ha⟩
    · split
      · next h => exact ⟨.inr rfl, h.le, le_rfl⟩
      · next h => exact ⟨.inl rfl, le_rfl, not_lt.mp h⟩
    · split
      · next h => exact ⟨.inr rfl, h.le, le_rfl⟩
      · next h => exact ⟨.inl rfl, le_rfl, not_lt.mp h⟩
  intro d f x hts q off w
  constructor
  · intro hop r hok
    refine ⟨fun hnew => ?_, fun v hnew => ?_⟩
    · have hold := performOp_atomic_of_ok hop hts (effAtomic_of_none (r := r) rfl hok hnew) rfl
      exact hold
    · intro t
      have heff := effAtomic_of_some (r := r) rfl hok hnew
      refine ⟨fun ht => ?_, fun ht => ?_⟩
      · have hwritten := performOp_atomic_of_ok hop hts (heff.trans (if_pos ht)) rfl
        exact hwritten
      · have hfailed := performOp_atomic_of_failed hop hts (heff.trans (if_neg ht)) ht
        exact hfailed
  · intro hop r hok
    have hdone := performOp_publish hop hts
    refine ⟨fun hword => ?_, fun hword => ?_⟩
    · rw [effPublish_of_other rfl hok hword] at hdone
      exact hdone
    · rw [effPublish_of_expected rfl hok hword] at hdone
      exact hdone

end Sys2Proof.Machine
end

section
/-! SUPPORT. ACQUIRE, RD_COMB and responses, from the Landing on (04 R126; 11 R352, R355, R358, R359). -/

namespace Sys2Proof.Machine

open Sys2Proof

/-! ## ACQUIRE -/

/-- A standalone ACQUIRE that is not red has no berth and no extent: the read-side entries of its job go, and it is answered. -/
theorem passed_acquire {dt : Dev} {n : Nat} {q : Req} (ho : q.origin = .landing n) (hop : q.op = .acquire)
    (hnotRed : (farePass dt .acquire q.h).1 ≠ .red) :
    passed dt q (n / 8) none = answerReq (acquireDrop (farePass dt .acquire q.h).2 (n / 8) q.h.job.toNat)
      { q with yellow := (farePass dt .acquire q.h).1 == .yellow } (n / 8) none 17 cOK [] := by
  have hq : (fareOn dt q).1 = { q with yellow := (farePass dt .acquire q.h).1 == .yellow } := by rw [fareOn_landing ho, hop]
  have hcolour : (fareOn dt q).2.1 = false := by rw [fareOn_landing ho, hop]; simpa using hnotRed
  have hleft : (fareOn dt q).2.2 = (farePass dt .acquire q.h).2 := by rw [fareOn_landing ho, hop]
  simp only [passed, hq, hcolour, hleft, hop, landOf, ho, beq_self_eq_true, Bool.false_eq_true, if_false, if_true, misroute, meterRx]

/-! ## RD_COMB: from the Landing to the Toll -/

/-- Each of the other constituents is recorded among the last flits of the Landing (04 R134). -/
def recordOthers (n : Nat) (others : List (BitVec 18 × BitVec 16)) (d : Dev) : Dev :=
  others.foldl (fun d o => onLand d n (fun l => { l with
    accepted := l.accepted ++ [{ flit := l.rxFlits, src := o.1.toNat, reqId := o.2.toNat }] })) d

theorem recordOthers_sys (n : Nat) : ∀ (others : List (BitVec 18 × BitVec 16)) (d : Dev), (recordOthers n others d).sys = d.sys
  | [], _ => rfl
  | _ :: others, d => recordOthers_sys n others (onLand d n _)

/-- The constituents of an RD_COMB: source and request ID of each, its header's first. -/
def constituents (h : Hdr) (others : List (BitVec 18 × BitVec 16)) : List (Nat × Nat) :=
  (h.src.toNat, h.reqId.toNat) :: others.map (fun o => (o.1.toNat, o.2.toNat))

/-- The request that an RD_COMB brings, all of its constituents fresh. -/
def combReq (n : Nat) (h : Hdr) (others : List (BitVec 18 × BitVec 16)) : Req :=
  { op := .rdComb, origin := .comb n ((constituents h others).map (fun c => (c.1, c.2, .fresh))), h := h }

section
variable {d : Dev} {n : Nat} {h : Hdr} {others : List (BitVec 18 × BitVec 16)}

/-- An unmarked RD_COMB with none before it in its turn goes to the Toll: it waits for no home credit at its source. -/
theorem fromLanding_comb (hmark : h.mark = false) (hturn : turnTaken d (combReq n h others) = false) :
    fromLanding d n (combReq n h others) = enterNow d (combReq n h others) (n / 8) := by
  have hmark' : (combReq n h others).h.mark = false := hmark
  have hcredit : lacksCredit d (combReq n h others) = none := rfl
  simp only [fromLanding, hmark', Bool.not_false, if_true, enterTurn, hturn, enter, hcredit, Bool.false_eq_true, if_false]

/-- An RD_COMB of 2 to 8 constituents, none of one source, passes the checks of its Landing. -/
theorem combArrive_accepted (hopen : landOpen d n = true) (hquiet : quiet d = false) (hheader : headerBad 0x18 h = false)
    (hgen : (land d n).gen2 = false) (hlow : 2 ≤ h.aux.toNat) (hhigh : h.aux.toNat ≤ 8) (hcount : others.length + 1 = h.aux.toNat)
    (hsrcs : sharesSrc (constituents h others) = false) :
    combArrive d n h others false =
      fromLanding (recordOthers n others (count (arrive d n .rdComb h) (pgI 0x11 8 n) 0x848)) n (combReq n h others) := by
  have hquiet' : quiet (recordOthers n others (count (arrive d n .rdComb h) (pgI 0x11 8 n) 0x848)) = false := by
    rw [quiet, recordOthers_sys, count_sys]
    exact hquiet
  have hlen : (constituents h others).length = h.aux.toNat := by simp [constituents, hcount]
  have hchecks : (headerBad 0x18 h || false || (land d n).gen2 || h.aux.toNat < 2 || 8 < h.aux.toNat ||
      (constituents h others).length != h.aux.toNat || sharesSrc (constituents h others)) = false := by
    simp [hheader, hgen, hsrcs, hlen, hhigh]
    omega
  simp only [combArrive, hopen, Bool.not_true, Bool.false_eq_true, if_false]
  exact (if_neg (Bool.eq_false_iff.mp hquiet')).trans (if_neg (Bool.eq_false_iff.mp hchecks))

end

/-! ## RD_COMB: from the Toll to the home -/

/-- The Toll answers constituents of an RD_COMB, and leaves the request's header. -/
theorem tollOf_comb {q : Req} {n : Nat} {parts : List (Nat × Nat × PartIs)} (ho : q.origin = .comb n parts) (d : Dev) (entry : Nat) :
    (tollOf d q entry).1 = { q with origin := .comb n (combToll d entry q.h parts).1 } := by
  simp only [tollOf, ho]

section
variable {n : Nat} {q : Req} {parts : List (Nat × Nat × PartIs)} (ho : q.origin = .comb n parts)
include ho

/-- The Fare meter answers constituents of an RD_COMB and colours it, and changes nothing else of it. -/
theorem fareOn_comb_keeps (dt : Dev) : landOf (fareOn dt q).1 = some n ∧ (fareOn dt q).1.op = q.op ∧
    (fareOn dt q).1.home = q.home ∧ (fareOn dt q).1.h = q.h := by
  simp [fareOn, ho, landOf]

variable {dt : Dev} {x : Extent} (hon : Onward dt n q x)
include hon

/-- An RD_COMB that goes onward comes to its home with its credit. -/
theorem passed_comb : passed dt q (n / 8) (some x) = toHome (credited dt n q x) (tabledReq dt q x) (n / 8) x := by
  obtain ⟨hnotRed, hbank, hcredit, -, -⟩ := hon
  obtain ⟨hland, hop, hhome, hh⟩ := fareOn_comb_keeps ho dt
  have hup : ((metered dt n q x).sys.westHeld && extBank x == 1) = false := by rcases hbank with h | h <;> simp [h]
  have htabled : tabled (fareOn dt q).1 x = tabled q x := by simp only [tabled, hop, hhome]
  have hgranted : (if tabled q x then overCredit (metered dt n q x) (fareOn dt q).1 (extBank x) else none) = none :=
    ite_eq_right_iff.mpr hcredit
  have hmetered : meterRx (misroute (fareOn dt q).2.2 n (some x.e.berth) q.h.epoch.toNat q.h.offset.toNat) (some x.e.berth)
      (reqSlots q.op q.h * 16) = metered dt n q x := rfl
  simp only [passed, hnotRed, hland, hop, hh, hmetered, hup, htabled, hgranted, Bool.false_eq_true, if_false, credited, tabledReq]

/-- An RD_COMB that no read-side cache answers is in flight at its home, and is attempted there. -/
theorem toHome_comb (hop : q.op = .rdComb) : toHome (credited dt n q x) (tabledReq dt q x) (n / 8) x =
    attempt (homeDev dt n q x) (atHome dt n q x).id true := by
  obtain ⟨-, hop', -, hh⟩ := fareOn_comb_keeps ho dt
  have htabOp : (tabledReq dt q x).op = .rdComb := hop'.trans hop
  have htabH : (tabledReq dt q x).h = q.h := hh
  have hgood : tchkBad (tabledReq dt q x) = false := by simp only [tchkBad, checkedData, htabOp]
  simp only [toHome, hgood, htabOp, htabH, Bool.false_eq_true, if_false]
  split
  · next l hhit =>
    obtain ⟨hask, hhit⟩ := Option.ite_none_right_eq_some.mp hhit
    simp only [Bool.and_eq_true, Bool.not_eq_true'] at hask
    obtain ⟨⟨⟨⟨-, hacq⟩, hcan⟩, -⟩, -⟩ := hask
    exact absurd ⟨.inr hop, hacq, hcan, by rw [hhit]; rfl⟩ hon.uncached
  · simp only [homeDev, hop]
    rfl

end

/-! ## Responses -/

section
variable {d : Dev} {n : Nat} {r : RspHdr} {data : List Byte}

theorem roleOf_freeSlots (d : Dev) (n tc slots ep : Nat) : roleOf (freeSlots d n tc slots) ep = roleOf d ep := rfl

theorem takeCred_descs (d : Dev) (role id cred : Nat) : (takeCred d role id cred).descs = d.descs := by
  unfold takeCred
  split <;> rfl

theorem meterRx_descs (d : Dev) (b : Option Nat) (bytes : Nat) : (meterRx d b bytes).descs = d.descs := by
  cases b <;> rfl

/-- The good data of a read of a ring sequencer are kept for its engine. -/
theorem seqAnswer_read {berth id : Nat} {x : Desc} {o : OutReq}
    (hx : d.descs.find? (fun y => y.r.berth == berth && y.out.any (fun o => o.reqId == id)) = some x)
    (ho : x.out.find? (fun o => o.reqId == id) = some o) (hop : o.op = .rd) {tchk : Nat} (hcrc : crc32c (sub data 0 o.len) = tchk) :
    seqAnswer d berth id cOK tchk false data = descGot d x o cOK (sub data 0 o.len) := by
  have haged : (cOK == cAGED) = false := rfl
  simp only [seqAnswer, hx, ho, hop, hcrc, haged, bne_self_eq_false, Bool.and_false, Bool.false_and, Bool.false_eq_true, if_false]

theorem descGot_read {x : Desc} {o : OutReq} (hop : o.op = .rd) (status : Nat) (l : List Byte) :
    descGot d x o status l = { d with descs := modFirst (fun y => y.r == x.r) (fun y => { y with
      out := y.out.filter (fun q => q.reqId != o.reqId)
      inbox := y.inbox ++ [{ item := o.item, node := o.node, off := o.offset, status := status, data := l }] }) d.descs } := by
  simp only [descGot, hop, beq_self_eq_true, if_true]

variable (hopen : landOpen d n = true)
include hopen

/-- A response whose DST is no end point of the device is counted alone. -/
theorem responseIn_foreign (hrole : roleOf d r.dst.toNat = none) :
    responseIn d n r data = count (freeSlots d n 3 (1 + spanSlots (askedOffset d r % 16) data.length)) (pgI 0x11 8 n) 0x850 := by
  simp only [responseIn, hopen, roleOf_freeSlots, hrole, Bool.not_true, Bool.false_eq_true, if_false]

/-- A response to a berth states its credits and is metered to the berth before its sequencer sees it. -/
theorem responseIn_berth {berth : Nat} (hrole : roleOf d r.dst.toNat = some berth) (hb : berth < 256) :
    let slots := 1 + spanSlots (askedOffset d r % 16) data.length
    responseIn d n r data = seqAnswer
      (meterRx (takeCred (freeSlots d n 3 slots) berth r.reqId.toNat r.cred.toNat) (some berth) (slots * 16))
      berth r.reqId.toNat r.status.toNat r.tchk.toNat (r.op == 0x34) data := by
  simp only [responseIn, hopen, roleOf_freeSlots, hrole, ownAnswer, hb, Bool.not_true, Bool.false_eq_true, if_false, if_true]

end

/-- Settles O28: each of the three goes through its Landing to what follows it there. -/
theorem acquireCombinedReadAndResponse : Obligations.AcquireCombinedReadAndResponse := by
  intro s n h others rsp data
  refine ⟨?_, ?_, ?_⟩
  · intro dt q hl htoll hnotRed t
    have hpassed := passed_acquire (q := q) hl.origin rfl hnotRed
    rw [exec_of_landed (c := .acquire n h) rfl hl, enterNow_of_pass hl.origin htoll, hpassed]
    rfl
  · intro parts d1 d2 q r x hopen hquiet hheader hgen hlow hhigh hcount hsrcs hmark hturn htoll hon hu
    have harrive : combArrive s.dev n h others false = enterNow d2 q (n / 8) :=
      (combArrive_accepted hopen hquiet hheader hgen hlow hhigh hcount hsrcs).trans (fromLanding_comb hmark hturn)
    have ho : r.1.origin = .comb n (combToll d2 (n / 8) h (parts.map (fun c => (c.1, c.2, .fresh)))).1 :=
      congrArg Req.origin (tollOf_comb (q := q) rfl d2 (n / 8))
    have hop : r.1.op = .rdComb := congrArg Req.op (tollOf_comb (q := q) rfl d2 (n / 8))
    have hpass : enterNow d2 q (n / 8) = passed r.2.2 r.1 (n / 8) (some x) := by simp only [enterNow, htoll, r]
    have hserved : combArrive s.dev n h others false = performOp (homeDev r.2.2 n r.1 x) (atHome r.2.2 n r.1 x) x false := by
      rw [harrive, hpass, passed_comb ho hon, toHome_comb ho hon hop, attempt_of_unhindered hu rfl]
    exact congrArg (fun u => Host.Outcome.next (goingOn s u)) hserved
  · intro hopen slots d1
    have hexec (u : Dev) (hu : responseIn s.dev n rsp data = u) : exec (.rspRx n rsp data) s = .next (goingOn s u) :=
      congrArg (fun u => Host.Outcome.next (goingOn s u)) hu
    refine ⟨fun hrole => hexec _ (responseIn_foreign hopen hrole), ?_⟩
    intro berth x o hrole hb hnack hstatus hx ho hop hcrc d2
    have hx2 : d2.descs.find? (fun y => y.r.berth == berth && y.out.any (fun o => o.reqId == rsp.reqId.toNat)) = some x := by
      rw [meterRx_descs, takeCred_descs]
      exact hx
    have hnack' : (rsp.op == 0x34) = false := by simpa using hnack
    refine hexec _ ?_
    rw [responseIn_berth hopen hrole hb, hnack', hstatus, seqAnswer_read hx2 ho hop hcrc, descGot_read hop]

end Sys2Proof.Machine
end

/-! ## Proofs: the Quay's lines, snoops, agents and directory, and the eddy buffers (04 R126; 05 R149-R178; 11 R361; 14 R436, R437) -/

section
/-! SUPPORT. EADD and FLUSH at their home, case by case (05 R167-R169; 04 R126; 14 R436). -/

namespace Sys2Proof.Machine

open Sys2Proof

/-! ## EADD -/

/-- The addends an EADD brings, in the format it names. -/
def addends (f : Flying) : List Nat := elemsOf (eddyWidth (eddyFmtOf f.q.h.fmt.toNat)) (sub f.q.data 0 64)

/-- The accumulator an EADD opens: every element zero, and its addends added in. -/
def openedAccum (d : Dev) (f : Flying) : Accum :=
  { bank := f.homeBank, offset := f.q.h.offset.toNat, fmt := eddyFmtOf f.q.h.fmt.toNat
    elems := (addends f).map (fun v => eddyAdd (eddyFmtOf f.q.h.fmt.toNat) 0 v), lastAdd := d.sys.ltc, order := d.quay.useCount }

/-- An accumulator of the EADD's format, with its addends added. -/
def addedTo (d : Dev) (f : Flying) (a : Accum) : Accum :=
  { a with
    elems := (a.elems.zip (addends f)).map (fun p => eddyAdd (eddyFmtOf f.q.h.fmt.toNat) p.1 p.2), count := a.count + 1
    lastAdd := d.sys.ltc, order := d.quay.useCount }

section
variable {d : Dev} {f : Flying} {x : Extent}

theorem performOp_eadd (hop : f.q.op = .eadd) : performOp d f x false = performEadd d f x := by simp only [performOp, hop]

theorem performEadd_of_poisoned (hz : zeroTile x f.q.h.offset.toNat = false)
    (hp : poisoned d (extCell d x f.q.h.offset.toNat) = true) : performEadd d f x = finishFlying d f cPOISON [] := by
  simp [performEadd, hz, hp]

section
variable (hgood : zeroTile x f.q.h.offset.toNat = true ∨ poisoned d (extCell d x f.q.h.offset.toNat) = false)
include hgood

/-- A granule of a tile that reads zero, or that is stored whole, does not refuse an EADD. -/
theorem eadd_not_refused : (!zeroTile x f.q.h.offset.toNat && poisoned d (extCell d x f.q.h.offset.toNat)) = false := by
  rcases hgood with h | h <;> simp [h]

theorem performEadd_opens (hnone : accumAt d f.homeBank f.q.h.offset.toNat = none) (hroom : (accumsIn d f.homeBank).length < 32768) :
    performEadd d f x = finishFlying (count (count { d with
      quay.accums := d.quay.accums ++ [openedAccum d f], quay.useCount := d.quay.useCount + 1 }
      (pg 0x41 f.homeBank) 0x808) (pg 0x41 f.homeBank) 0x800) f cOK [] := by
  simp only [performEadd, eadd_not_refused hgood, hnone, hroom, Bool.false_eq_true, if_false, if_true]
  rfl

variable {a : Accum} (ha : accumAt d f.homeBank f.q.h.offset.toNat = some a)
include ha

theorem performEadd_adds (hopen : a.writingBack = false) (hfmt : a.fmt = eddyFmtOf f.q.h.fmt.toNat) :
    performEadd d f x = finishFlying (count (accumMod { d with quay.useCount := d.quay.useCount + 1 } f.homeBank f.q.h.offset.toNat
      (addedTo d f)) (pg 0x41 f.homeBank) 0x800) f cOK [] := by
  simp only [performEadd, eadd_not_refused hgood, ha, hopen, hfmt, beq_self_eq_true, Bool.false_eq_true, if_false, if_true]
  rfl

/-- An accumulator that is being written back, or of another format, holds the EADD up until its write-back has ended. -/
theorem performEadd_waits (hbusy : a.writingBack = true ∨ a.fmt ≠ eddyFmtOf f.q.h.fmt.toNat) :
    performEadd d f x = setWait (startWb d f.homeBank f.q.h.offset.toNat [f.id]) f.id .quay := by
  by_cases hw : a.writingBack = true
  · simp only [performEadd, eadd_not_refused hgood, ha, hw, Bool.false_eq_true, if_false, if_true]
  · have hfmt : (a.fmt == eddyFmtOf f.q.h.fmt.toNat) = false := by simpa using hbusy.resolve_left hw
    simp only [performEadd, eadd_not_refused hgood, ha, hw, hfmt, Bool.false_eq_true, if_false]

end

/-! ## FLUSH -/

/-- The accumulators of the range of a FLUSH. -/
def flushRange (d : Dev) (f : Flying) : List Accum :=
  d.quay.accums.filter (fun a => a.bank == f.homeBank && decide (f.q.h.offset.toNat / 256 * 256 ≤ a.offset) &&
    decide (a.offset < f.q.h.offset.toNat / 256 * 256 + (f.q.h.range.toNat + 1) * 256))

/-- A write-back that nothing waits for is only marked. -/
theorem startWb_unawaited (d : Dev) (bank g : Nat) : startWb d bank g [] = accumMod d bank g (fun a => { a with writingBack := true }) := by
  simp only [startWb, List.append_nil]

theorem performOp_flush (hop : f.q.op = .flush) : performOp d f x false = performFlush d f := by simp only [performOp, hop]

theorem performFlush_of_none (h : flushRange d f = []) : performFlush d f = finishFlying d f cOK [] := by
  rw [flushRange] at h
  simp only [performFlush, h, List.isEmpty_nil, if_true]

theorem performFlush_of_some (h : flushRange d f ≠ []) :
    let t := (flushRange d f).foldl (fun d a => accumMod d a.bank a.offset (fun a => { a with writingBack := true })) d
    performFlush d f = setWait { t with quay.flushes := t.quay.flushes ++
      [{ id := f.id, granules := (flushRange d f).foldl (fun s a => NSet.add s a.offset) [] }] } f.id .quay := by
  have hsome : (flushRange d f).isEmpty = false := by simpa using h
  rw [flushRange] at hsome ⊢
  simp only [performFlush, hsome, startWb_unawaited, Bool.false_eq_true, if_false]

/-- A FLUSH that waits for a granule goes on waiting. -/
theorem flushOn_waits {e : FlushWait} (he : d.quay.flushes = [e]) (h : e.granules ≠ []) : flushOn d = d := by
  have hkeep : { d with quay.flushes := [e] } = d := by rw [← he]
  simpa [flushOn, he, h] using hkeep

/-- A FLUSH whose granules have all been written back is acknowledged. -/
theorem flushOn_done {e : FlushWait} (he : d.quay.flushes = [e]) (h : e.granules = []) (hf : flyingOf d e.id = some f) :
    flushOn d = finishFlying { d with quay.flushes := [] } f cOK [] := by
  have hf' : flyingOf { d with quay.flushes := [] } e.id = some f := hf
  simp [flushOn, he, h, hf']

end

end Sys2Proof.Machine
end

section
/-! EADD and FLUSH. -/

namespace Sys2Proof.Machine

open Sys2Proof

/-- Settles O26: each case of an EADD and of a FLUSH at its home, and the acknowledgement of a FLUSH that waited. -/
theorem eddyAdditionsAndFlush : Obligations.EddyAdditionsAndFlush := by
  intro d f x q g fmt adds page
  refine ⟨fun hop hgood => ⟨fun hnone hroom => ?_, fun a ha => ⟨fun hopen hfmt => ?_, fun hbusy => ?_⟩⟩,
    fun hop hz hp => ?_, fun hop hrange => ?_, fun hop => ?_, fun e he => ⟨flushOn_waits he, flushOn_done he⟩⟩
  · exact (performOp_eadd hop).trans (performEadd_opens hgood hnone hroom)
  · exact (performOp_eadd hop).trans (performEadd_adds hgood ha hopen hfmt)
  · exact (performOp_eadd hop).trans (performEadd_waits hgood ha hbusy)
  · exact (performOp_eadd hop).trans (performEadd_of_poisoned hz hp)
  · refine (performOp_flush hop).trans (performFlush_of_none (List.filter_eq_nil_iff.mpr fun a ha hin => ?_))
    simp only [Bool.and_eq_true, beq_iff_eq, decide_eq_true_eq] at hin
    obtain ⟨⟨hbank, hlo⟩, hhi⟩ := hin
    exact hrange a ha hbank ⟨hlo, hhi⟩
  · intro l gs hl
    exact (performOp_flush hop).trans (performFlush_of_some hl)

end Sys2Proof.Machine
end

section
/-! SUPPORT. Caching requests at their home, case by case (05 R153, R156, R158). -/

namespace Sys2Proof.Machine

open Sys2Proof

section
variable {d : Dev} {f : Flying} {x : Extent}

/-! ## Copies granted -/

/-- Requests that ask for a copy. -/
def asksCopy (op : Op) : Prop := op = .rdShared ∨ op = .rdOwn ∨ op = .upgrade

theorem performOp_grants {slot line : Nat} (hop : asksCopy f.q.op) (hm : x.e.moored = true) (hg : grantable d f x = some (slot, line)) :
    performOp d f x false = grantCopy d f x slot line := by
  rcases hop with hop | hop | hop <;> simp only [performOp, hop, hg, hm, if_true]

theorem performOp_grantsNone (hop : asksCopy f.q.op) (hg : grantable d f x = none) : performOp d f x false = noGrant d f x := by
  rcases hop with hop | hop | hop <;> simp only [performOp, hop, hg]

theorem noGrant_upgrade (hop : f.q.op = .upgrade) :
    noGrant d f x = finishFlying (count d (pg 0x40 f.homeBank) 0x828) f cOK [] := by
  simp only [noGrant, hop, beq_self_eq_true, if_true]

section
variable (slot line : Nat)

/-- An UPGRADE of a copy that the directory knows of becomes the owner, and needs no data. -/
theorem grantCopy_upgrade_held {e : DirEntry} (hop : f.q.op = .upgrade) (he : dirFind d f.homeBank line = some e)
    (hexact : e.coarse = false) (hpoints : pointsTo e slot = true) :
    grantCopy d f x slot line = finishFlying (grantOwned d f.homeBank line slot) f cOK [] 2 := by
  simp [grantCopy, hop, he, hexact, hpoints]

section
variable (hacq : f.q.h.acq = false) {r : Nat × List Byte × Dev} (hok : r.1 = cOK)
include hacq hok

theorem grantCopy_rdShared (hop : f.q.op = .rdShared) (hread : readPlain d x (accOf f.q x) f.q.h.offset.toNat (lenOf f.q.h) = r) :
    grantCopy d f x slot line = finishFlying (grantShared r.2.2 f.homeBank line slot) f cOK r.2.1 1 := by
  simp [grantCopy, hop, hacq, hread, hok]

theorem grantCopy_rdOwn (hop : f.q.op = .rdOwn) (hread : readPlain d x (accOf f.q x) f.q.h.offset.toNat (lenOf f.q.h) = r) :
    grantCopy d f x slot line = finishFlying (grantOwned r.2.2 f.homeBank line slot) f cOK r.2.1 2 := by
  simp [grantCopy, hop, hacq, hread, hok]

/-- An UPGRADE of a line with no entry is served as an RD_OWN of the whole line. -/
theorem grantCopy_upgrade_absent (hop : f.q.op = .upgrade) (hnone : dirFind d f.homeBank line = none)
    (hread : readPlain d x (accOf f.q x) (f.q.h.offset.toNat / 64 * 64) 64 = r) :
    grantCopy d f x slot line = finishFlying (grantOwned r.2.2 f.homeBank line slot) f cOK r.2.1 2 := by
  simp [grantCopy, hop, hnone, hacq, hread, hok]

end

end

/-! ## Lines given back -/

theorem effWrite_span_of_failed {q : Req} (h : (effWrite d q x).status ≠ cOK) : (effWrite d q x).span = none :=
  if_neg (fun hok => h (eq_of_beq hok))

theorem cacheAfter_of_not_atomic (hop : f.q.op ≠ .atomic) : cacheAfter d f = d := by simp [cacheAfter, hop]

section
variable (hop : f.q.op = .wb) (htaken : f.taken = false)
include hop htaken

/-- A WB from the owner frees the line's entry and writes its data. -/
theorem performOp_wb_owner (hts : targetsOf d x = []) (hown : ownsLine d f (lineOf x f.q.h.offset.toNat) = true) :
    let w := writePlain (dirDrop d f.homeBank (lineOf x f.q.h.offset.toNat)) x (accOf f.q x) f.q.h.offset.toNat (sub f.q.data 0 (lenOf f.q.h))
    performOp d f x false = finishFlying w.2 f w.1 [] := by
  have hts' : targetsOf (dirDrop d f.homeBank (lineOf x f.q.h.offset.toNat)) x = [] := hts
  have hcommit := commit_without_members (f := f) (by simp [hop]) hts' (eff := fun d => effWrite d f.q x) effWrite_span_of_failed
  rw [cacheAfter_of_not_atomic (by simp [hop]), ite_self] at hcommit
  simp only [performOp, hop, htaken, hown, Bool.or_self, Bool.false_eq_true, if_false, if_true]
  exact hcommit

/-- A WB from another is late: its data are dropped, and counted. -/
theorem performOp_wb_other (hown : ownsLine d f (lineOf x f.q.h.offset.toNat) = false) :
    performOp d f x false = finishFlying (count d (pg 0x40 f.homeBank) 0x840) f cOK [] := by
  simp only [performOp, hop, htaken, hown, Bool.or_self, Bool.false_eq_true, if_false]

end

/-- An EVICT_CLEAN takes its sharer out, and frees the entry of a line that no one shares any longer. -/
theorem performOp_evictClean {slot : Nat} {e : DirEntry} (hop : f.q.op = .evictClean) (hslot : grantSlot d f.q.h = some slot)
    (he : dirFind d f.homeBank (lineOf x f.q.h.offset.toNat) = some e) (hst : e.st = .shared) (hexact : e.coarse = false) :
    performOp d f x false = finishFlying (if NSet.del e.sharers slot = [] then dirDrop d f.homeBank (lineOf x f.q.h.offset.toNat)
      else dirMod d f.homeBank (lineOf x f.q.h.offset.toNat) (fun u => { u with sharers := NSet.del e.sharers slot })) f cOK [] := by
  simp only [performOp, hop, performEvict, hslot, he, hst, hexact, beq_self_eq_true, Bool.not_false, Bool.and_self, if_true,
    List.isEmpty_iff]

end

end Sys2Proof.Machine
end

section
/-! Caching requests. -/

namespace Sys2Proof.Machine

open Sys2Proof

/-- Settles O27: each caching request of a moored line, where it is granted a copy and where it gives one back. -/
theorem cachingRequestsMoveTheLine : Obligations.CachingRequestsMoveTheLine := by
  intro d f x slot line q off bank hm
  refine ⟨fun hg hacq => ⟨fun hop => ?_, fun hop => ?_, fun hop e he hexact hpoints => ?_, fun hop hnone => ?_⟩,
    fun hg hop => ?_, fun hop _ htaken hts hown => performOp_wb_owner hop htaken hts hown,
    fun hop htaken hown => performOp_wb_other hop htaken hown, fun hop e l hslot he hst hexact hl => ?_⟩
  · intro r hok
    exact (performOp_grants (.inl hop) hm hg).trans (grantCopy_rdShared slot line hacq hok hop rfl)
  · intro r hok
    exact (performOp_grants (.inr (.inl hop)) hm hg).trans (grantCopy_rdOwn slot line hacq hok hop rfl)
  · exact (performOp_grants (.inr (.inr hop)) hm hg).trans (grantCopy_upgrade_held slot line hop he hexact hpoints)
  · intro r hok
    exact (performOp_grants (.inr (.inr hop)) hm hg).trans (grantCopy_upgrade_absent slot line hacq hok hop hnone rfl)
  · exact (performOp_grantsNone (.inr (.inr hop)) hg).trans (noGrant_upgrade hop)
  · subst hl
    exact performOp_evictClean hop hslot he hst hexact

end Sys2Proof.Machine
end

section
/-! SUPPORT. The ends of snoops: answers, time-outs, and what they do to the line (05 R157-R161; 11 R361). -/

namespace Sys2Proof.Machine

open Sys2Proof

/-! ## What the end of a snoop does -/

section
variable {d : Dev} {t : Trans} {sn : Snoop}

/-- The end of an INV takes the sharer out of an exact entry, whatever the answer. -/
theorem snoopEnd_inv (hk : sn.kind = .inv) (a : SnoopAnswer) (l : List Byte) : snoopEnd d t sn a l =
    dirMod (endSnoop d t sn) t.bank t.line (fun e => if e.coarse then e else { e with sharers := NSet.del e.sharers sn.agent }) := by
  simp only [snoopEnd, snoopDone, hk, beq_self_eq_true, if_true]

variable (hk : sn.kind ≠ .inv) (l : List Byte)
include hk

theorem snoopEnd_clean : snoopEnd d t sn .clean l = endSnoop d t sn := by simp [snoopEnd, snoopDone, hk]

theorem snoopEnd_notHeld_sweep (ht : t.kind = .sweep) : snoopEnd d t sn .notHeld l = endSnoop d t sn := by
  simp [snoopEnd, snoopDone, hk, ht]

/-- An owner that holds nothing loses the line, unless its set is being swept. -/
theorem snoopEnd_notHeld (ht : t.kind ≠ .sweep) : snoopEnd d t sn .notHeld l = loseLine (endSnoop d t sn) t.bank t.line sn.agent := by
  simp [snoopEnd, snoopDone, hk, ht]

/-- Returned data are written as the device's own, and the transaction waits for that write. -/
theorem snoopEnd_data {x : Extent} {o : Nat} (hx : offsetOfLine d t.line = some (x, o)) : snoopEnd d t sn .data l =
    attemptOwn (ownWrite (awaitWrite (endSnoop d t sn) t d.nextFlying) x o (sub l 0 64) .internal 0) d.nextFlying := by
  have hid : (endSnoop d t sn).nextFlying = d.nextFlying := rfl
  simp [snoopEnd, snoopDone, hk, hx, hid]

end

/-! ## Answers -/

theorem exec_snoopAns (s : State) (n : Nat) (id : BitVec 16) (ep : BitVec 18) (a : SnoopAnswer) (tchk : BitVec 32) (l : List Byte) :
    exec (.snoopAns n id ep a tchk l) s = .next (goingOn s (snoopAnswered s.dev n id.toNat ep.toNat a tchk.toNat l)) := rfl

/-- The device once the slots of a snoop's answer have been freed. -/
def answerTaken (d : Dev) (n : Nat) (a : SnoopAnswer) : Dev := freeSlots d n 2 (1 + (if a = .data then 4 else 0))

section
variable {d : Dev} {n : Nat}

@[simp] theorem snoopOf_freeSlots (d : Dev) (n tc k id : Nat) : snoopOf (freeSlots d n tc k) id = snoopOf d id := rfl

theorem snoopAnswered_closed (h : landOpen d n = false) (id ep : Nat) (a : SnoopAnswer) (tchk : Nat) (l : List Byte) :
    snoopAnswered d n id ep a tchk l = d := by simp [snoopAnswered, h]

variable (hopen : landOpen d n = true) {id ep : Nat} (a : SnoopAnswer) (tchk : Nat) (l : List Byte)
include hopen

/-- An answer to no snoop that waits is discarded; late DATA are counted. -/
theorem snoopAnswered_unknown (h : snoopOf d id = none) : snoopAnswered d n id ep a tchk l =
    if a = .data then count (answerTaken d n a) (pg 0x40 (n / 8)) 0x840 else answerTaken d n a := by
  simp [snoopAnswered, answerTaken, hopen, h]

variable {a} {t : Trans} {sn : Snoop} (h : snoopOf d id = some (t, sn))
include h

/-- An answer of another end point, or of a form that does not answer the snoop, is discarded. -/
theorem snoopAnswered_unfit (hbad : sn.endPoint ≠ ep ∨ answers sn.kind a = false) :
    snoopAnswered d n id ep a tchk l = answerTaken d n a := by
  rcases hbad with hep | hfit
  · simp [snoopAnswered, answerTaken, hopen, h, hep]
  · simp [snoopAnswered, answerTaken, hopen, h, hfit]

variable (hep : sn.endPoint = ep) (hfit : answers sn.kind a = true)
include hep hfit

theorem snoopAnswered_ends (hcrc : a = .data → crc32c (sub l 0 64) = tchk) :
    snoopAnswered d n id ep a tchk l = snoopEnd (answerTaken d n a) t sn a l := by
  by_cases hdata : a = .data
  · simp [snoopAnswered, answerTaken, hopen, h, hep, hfit, hcrc hdata]
  · simp [snoopAnswered, answerTaken, hopen, h, hep, hfit, hdata]

/-- DATA whose check does not match are answered E2E_NACK, and the snoop goes on waiting. -/
theorem snoopAnswered_nacked (hdata : a = .data) (hcrc : crc32c (sub l 0 64) ≠ tchk) : snoopAnswered d n id ep a tchk l =
    sendRsp (count (answerTaken d n a) (pg 0x10 t.bank) 0x820) n (n % 8) none 0 0 false (.rsp 0x34 id ep 0 0 0 0 []) := by
  subst hdata
  simp [snoopAnswered, answerTaken, hopen, h, hep, hfit, hcrc]

end

/-! ## Time-outs -/

theorem exec_quayHomeTimeout (s : State) (id : BitVec 16) :
    exec (.quayHomeTimeout id) s = .next (goingOn s (homeTimeout s.dev id.toNat)) := rfl

/-- The device once the time of a snoop is up and its agent is marked stranded. -/
def stranding (d : Dev) (t : Trans) (sn : Snoop) : Dev :=
  let d1 := advanceTo d (sn.sent + reg d (pg 0x40 t.bank + 0x100))
  { d1 with quay.agents := NMap.set {} d1.quay.agents sn.agent { agentOf d1 sn.agent with stranded := true } }

/-- The device once that has been counted and recorded for the line at an offset, and the snoop has ended as one that found nothing held. -/
def timedOut (d : Dev) (t : Trans) (sn : Snoop) (off : Nat) : Dev :=
  snoopEnd (raiseFe (count (stranding d t sn) (pg 0x40 t.bank) 0x818) (pg 0x40 t.bank) 0
    { unit := false, addr := d.xmap.node * 2 ^ 48 + off, src := (agentOf d sn.agent).endPoint, job := (agentOf d sn.agent).job })
    t sn .notHeld []

section
variable {d : Dev} {id : Nat}

theorem homeTimeout_unknown (h : snoopOf d id = none) : homeTimeout d id = d := by simp [homeTimeout, h]

/-- A recall whose time is up loses its line in a sweep too. -/
theorem homeTimeout_of_snoop {t : Trans} {sn : Snoop} {x : Extent} {o : Nat} (h : snoopOf d id = some (t, sn))
    (hx : offsetOfLine d t.line = some (x, o)) :
    homeTimeout d id =
      if sn.kind ≠ .inv ∧ t.kind = .sweep then loseLine (timedOut d t sn o) t.bank t.line sn.agent else timedOut d t sn o := by
  have hx' : offsetOfLine (stranding d t sn) t.line = some (x, o) := hx
  simp only [stranding] at hx'
  simp only [homeTimeout, h, hx', Bool.and_eq_true, bne_iff_ne, beq_iff_eq]
  rfl

end

end Sys2Proof.Machine
end

section
/-! Snoops. -/

namespace Sys2Proof.Machine

open Sys2Proof

/-- Settles O31: each outcome of an answer and of a time-out, then what the end of a snoop does to its line. -/
theorem snoopsEndAndChangeTheLine : Obligations.SnoopsEndAndChangeTheLine := by
  refine ⟨fun s n id ep a tchk l => ?_, fun d t sn l => ?_⟩
  · intro d d1
    have answered {u : Dev} (hu : snoopAnswered d n id.toNat ep.toNat a tchk.toNat l = u) :
        exec (.snoopAns n id ep a tchk l) s = .next (goingOn s u) :=
      (exec_snoopAns s n id ep a tchk l).trans (congrArg (fun u => Host.Outcome.next (goingOn s u)) hu)
    have expired {u : Dev} (hu : homeTimeout d id.toNat = u) : exec (.quayHomeTimeout id) s = .next (goingOn s u) :=
      (exec_quayHomeTimeout s id).trans (congrArg (fun u => Host.Outcome.next (goingOn s u)) hu)
    refine ⟨fun hclosed => answered (snoopAnswered_closed hclosed _ _ _ _ _),
      fun hopen => ⟨fun hnone => answered (snoopAnswered_unknown hopen a _ _ hnone), fun t sn hsn hep => ⟨fun hfit hcrc => ?_,
        fun hfit hdata hcrc => ?_, fun hfit => ?_⟩, fun t sn hsn hep => ?_⟩,
      fun hnone => expired (homeTimeout_unknown hnone), fun t sn x o hsn hx => ?_⟩
    · exact answered (snoopAnswered_ends hopen _ _ hsn hep hfit hcrc)
    · exact answered (snoopAnswered_nacked hopen _ _ hsn hep hfit hdata hcrc)
    · exact answered (snoopAnswered_unfit hopen _ _ hsn (.inr hfit))
    · exact answered (snoopAnswered_unfit hopen _ _ hsn (.inl hep))
    · exact expired (homeTimeout_of_snoop hsn hx)
  · intro without gone
    exact ⟨fun hk a => snoopEnd_inv hk a l, fun hk => snoopEnd_clean hk l, fun hk ht => snoopEnd_notHeld_sweep hk l ht,
      fun hk ht => snoopEnd_notHeld hk l ht, fun hk x o hx => snoopEnd_data hk l hx⟩

end Sys2Proof.Machine
end

section
/-! SUPPORT. The agent table, errors in a directory way and in the Toll cache, and sweeps (05 R152, R177, R178; 14 R437). -/

namespace Sys2Proof.Machine

open Sys2Proof

/-! ## The agent table -/

/-- A 64-bit write of a slot of a bank's page that holds a 64-bit register writes the whole register. -/
theorem writePage_pg_wide {code o : Nat} (bank : Nat) (h8 : o % 8 = 0) (hlt : o < 0x1000) (hw : wideAt ⟨code, bank, 0⟩ o = true)
    (p : Path) (v : Nat) (held : Option (Nat × Nat)) (d : Dev) (fz : Fuses) :
    writePage p ⟨code, bank, 0⟩ (pg code bank + o) 64 v held d fz = (writeWide d ⟨code, bank, 0⟩ o v, fz) := by
  have hal : pg code bank % 0x1000 = 0 := pageBase_aligned _
  have hslot : slotOfs (pg code bank + o) = o := by unfold slotOfs; omega
  simp only [writePage, hslot, hw, beq_self_eq_true, if_true]

/-- QUAY_AGENT_DATA writes the slot that the bank's register selects, but the last, unless its end point stands in another slot. -/
theorem writeAgent_eq (d : Dev) (bank : Nat) (v : BitVec 64) :
    let slot := reg d (pg 0x40 bank + 0x110) % 4096
    let entry : Agent := { endPoint := v.toNat % 2 ^ 18, job := v.toNat / 2 ^ 18 % 4096, valid := v.getLsbD 30 }
    let dup := d.quay.agents.any (fun a => a.1 != slot && a.2.valid && a.2.endPoint == entry.endPoint)
    writeAgent d bank v.toNat = if slot = 0xFFF then d
      else if v.getLsbD 30 && dup then raise d (pg 0x40 bank) 2
      else { d with quay.agents := NMap.set {} d.quay.agents slot entry } := by
  have hbit : bit v.toNat 30 = v.getLsbD 30 := bit_eq_testBit _ _
  simp only [writeAgent, hbit, fld, Nat.pow_zero, Nat.div_one, beq_iff_eq]
  rfl

theorem exec_quayAgentDataWrite {s : State} {p : Path} {bank : Nat} (hr : Reaches s.dev p (pg 0x40 bank + 0x118) ⟨0x40, bank, 0⟩)
    (v : BitVec 64) : exec (.quayAgentDataWrite p bank v) s = .next (written s p (writeAgent (dropHalves s.dev p) bank v.toNat)) := by
  refine writes_of _ s p _ ⟨0x40, bank, 0⟩ 64 (fun _ => v.toNat) _ rfl hr ?_ ?_
  · have hal : pg 0x40 bank % 0x1000 = 0 := pageBase_aligned _
    exact accessOk_64 (by omega)
  · rw [Nat.mod_eq_of_lt v.isLt, writePage_pg_wide bank rfl (by decide) rfl]
    rfl

/-! ## What the snoops of a sweep change -/

/-- The second device differs from the first in the frames sent, the transactions and the number of the next snoop. -/
def OnlySnoops (d e : Dev) : Prop := ∃ w c t n, e = { d with wharf := w, cw := c, quay.trans := t, quay.nextSnoop := n }

namespace OnlySnoops

theorem refl (d : Dev) : OnlySnoops d d := ⟨d.wharf, d.cw, d.quay.trans, d.quay.nextSnoop, rfl⟩

theorem trans {d e u : Dev} : OnlySnoops d e → OnlySnoops e u → OnlySnoops d u := by
  rintro ⟨_, _, _, _, rfl⟩ ⟨w, c, t, n, rfl⟩
  exact ⟨w, c, t, n, rfl⟩

theorem foldl {α : Type} {f : Dev → α → Dev} (hf : ∀ d a, OnlySnoops d (f d a)) : ∀ (l : List α) (d : Dev), OnlySnoops d (l.foldl f d)
  | [], d => refl d
  | a :: l, d => (hf d a).trans (foldl hf l (f d a))

/-- The directory, its ways and sweeps, and Salvage stay. -/
theorem keeps {d e : Dev} : OnlySnoops d e → e.quay.dir = d.quay.dir ∧ e.quay.sweeps = d.quay.sweeps ∧ e.quay.retired = d.quay.retired ∧
    e.quay.spareEast = d.quay.spareEast ∧ e.quay.spareWest = d.quay.spareWest ∧ e.salv = d.salv := by
  rintro ⟨_, _, _, _, rfl⟩
  exact ⟨rfl, rfl, rfl, rfl, rfl, rfl⟩

theorem dirFind_eq {d e : Dev} (h : OnlySnoops d e) (bank line : Nat) : dirFind e bank line = dirFind d bank line := by
  obtain ⟨hdir, _⟩ := h.keeps
  simp only [dirFind, hdir]

theorem setTrans (d : Dev) (t : List Trans) : OnlySnoops d { d with quay.trans := t } := ⟨d.wharf, d.cw, t, d.quay.nextSnoop, rfl⟩

end OnlySnoops

theorem sendSnoop_onlySnoops (d : Dev) (bank line : Nat) (s : Snoop) (group : Nat) : OnlySnoops d (sendSnoop d bank line s group).1 := by
  unfold sendSnoop
  split
  · exact .refl d
  · split
    · exact .refl d
    · exact ⟨_, _, d.quay.trans, d.quay.nextSnoop, rfl⟩

theorem sendSnoops_onlySnoops (bank line : Nat) (kind : SnoopKind) (group : Nat) :
    ∀ (slots : List Nat) (d : Dev), OnlySnoops d (sendSnoops bank line kind group slots d).1
  | [], d => .refl d
  | a :: l, d => by
    unfold sendSnoops
    split
    · exact sendSnoops_onlySnoops bank line kind group l d
    · have hnumber : OnlySnoops d { d with quay.nextSnoop := d.quay.nextSnoop + 1 } := ⟨d.wharf, d.cw, d.quay.trans, _, rfl⟩
      exact (hnumber.trans (sendSnoop_onlySnoops _ bank line _ group)).trans (sendSnoops_onlySnoops bank line kind group l _)

/-- A line without an entry has none to drop. -/
theorem dirDrop_of_absent {d : Dev} {bank line : Nat} (h : dirFind d bank line = none) : dirDrop d bank line = d := by
  have hall : d.quay.dir.filter (fun e => !(e.bank == bank && e.line == line)) = d.quay.dir :=
    List.filter_eq_self.mpr fun e he => by
      rw [Bool.not_eq_true', Bool.eq_false_iff]
      exact List.find?_eq_none.mp h e he
  simp only [dirDrop, hall]

theorem sweepTrans_onlySnoops (d : Dev) (t : Trans) : OnlySnoops d (sweepTrans d t) :=
  (sendSnoops_onlySnoops t.bank t.line .recall 0 _ d).trans (.setTrans _ _)

/-- A sweep's transaction is opened with the recalls it sends; a line with no entry loses nothing by it. -/
theorem openTrans_sweep_onlySnoops {d : Dev} {bank line : Nat} (h : dirFind d bank line = none) (slots waiters : List Nat) :
    OnlySnoops d (openTrans d bank line .sweep .recall slots waiters) := by
  have hsent := sendSnoops_onlySnoops bank line .recall 0 slots d
  have hdrop := dirDrop_of_absent ((hsent.dirFind_eq bank line).trans h)
  have hopened : openTrans d bank line .sweep .recall slots waiters =
      let r := sendSnoops bank line .recall 0 slots d
      { r.1 with quay.trans := r.1.quay.trans ++ [{ bank := bank, line := line, kind := .sweep, snoops := r.2, waiters := waiters }] } := by
    unfold openTrans
    cases hl : slots.filter (fun a => (agentOf d a).stranded) with
    | nil => simp [hl]
    | cons a l => simp [hl, hdrop]
  rw [hopened]
  exact hsent.trans (.setTrans _ _)

/-! ## Errors in a directory way -/

/-- The way's place is taken by a spare, or the way is retired. -/
def wayReplaced (d : Dev) (bank set way : Nat) : Dev :=
  let spare := if bank == 0 then d.quay.spareEast else d.quay.spareWest
  if spare < 512 then (if bank == 0 then { d with quay.spareEast := spare + 1 } else { d with quay.spareWest := spare + 1 })
  else { d with quay.retired := NSet.add d.quay.retired (bank * 2 ^ 22 + set * 16 + way) }

/-- The directory without the entry of the way, its set listed for the sweep. -/
def wayDropped (d : Dev) (bank set way : Nat) : Dev :=
  { d with
    quay.dir := d.quay.dir.filter (fun e => !(e.bank == bank && setOfLine e.line == set && e.way == way))
    quay.sweeps := if d.quay.sweeps.contains (bank, set) then d.quay.sweeps else d.quay.sweeps ++ [(bank, set)] }

/-- The device that has lost a way of its directory, before its set is swept. -/
def wayLost (d : Dev) (bank set way : Nat) : Dev := raise (degrade (wayDropped (wayReplaced d bank set way) bank set way) bank) (pg 0x40 bank) 4

/-- A line of a set that is swept: one with no entry is recalled from every agent. -/
def sweepLine (bank : Nat) (d : Dev) (line : Nat) : Dev :=
  if (dirFind d bank line).isSome then d
  else match transOf d bank line with
    | some t => sweepTrans d t
    | none => openTrans d bank line .sweep .recall (validAgents d) []

theorem sweepLine_onlySnoops (bank : Nat) (d : Dev) (line : Nat) : OnlySnoops d (sweepLine bank d line) := by
  unfold sweepLine
  split
  · exact .refl d
  · next habsent =>
    split
    · exact sweepTrans_onlySnoops d _
    · exact openTrans_sweep_onlySnoops (by simpa using habsent) _ _

/-- What remains of a directory error is the sweep, which changes the snoops alone. -/
theorem directoryError_onlySnoops (d : Dev) (bank set way : Nat) : OnlySnoops (wayLost d bank set way) (directoryError d bank set way) := by
  have hswept : directoryError d bank set way = if !(wayLost d bank set way).wharf.epValid then wayLost d bank set way
      else (linesOfSet (wayLost d bank set way) bank set).foldl (sweepLine bank) (wayLost d bank set way) := rfl
  rw [hswept]
  split
  · exact .refl _
  · exact .foldl (sweepLine_onlySnoops bank) _ _

theorem exec_directoryEccError {s : State} {bank : Nat} (h : bankLive s.dev bank = true) (set way : Nat) :
    exec (.directoryEccError bank set way) s = .next (goingOn s (directoryError s.dev bank set way)) := by
  change execDirectoryEccError bank set way s = _
  simp only [execDirectoryEccError, runReq_next, h, if_true, goingOn]

section
variable (d : Dev) (bank set way : Nat)

theorem wayLost_quay : (wayLost d bank set way).quay = (wayDropped (wayReplaced d bank set way) bank set way).quay := by
  simp [wayLost, degrade, raiseDegraded]

theorem wayLost_ways : (wayLost d bank set way).quay.retired = (wayReplaced d bank set way).quay.retired ∧
    (wayLost d bank set way).quay.spareEast = (wayReplaced d bank set way).quay.spareEast ∧
    (wayLost d bank set way).quay.spareWest = (wayReplaced d bank set way).quay.spareWest := by
  rw [wayLost_quay]
  exact ⟨rfl, rfl, rfl⟩

theorem wayLost_degraded : (wayLost d bank set way).salv.degraded = true := by simp [wayLost]

theorem wayReplaced_dir : (wayReplaced d bank set way).quay.dir = d.quay.dir := by
  unfold wayReplaced
  dsimp only
  split_ifs <;> rfl

theorem wayLost_dir : (wayLost d bank set way).quay.dir =
    d.quay.dir.filter (fun e => !(e.bank == bank && setOfLine e.line == set && e.way == way)) := by
  rw [wayLost_quay, wayDropped, wayReplaced_dir]

theorem wayLost_swept : (bank, set) ∈ (wayLost d bank set way).quay.sweeps := by
  rw [wayLost_quay, wayDropped]
  by_cases h : (bank, set) ∈ (wayReplaced d bank set way).quay.sweeps <;> simp [h]

/-- While a spare is left, it takes the way's place. -/
theorem wayReplaced_of_spare (h : (if bank = 0 then d.quay.spareEast else d.quay.spareWest) < 512) :
    let t := (wayReplaced d bank set way).quay
    (if bank = 0 then t.spareEast else t.spareWest) = (if bank = 0 then d.quay.spareEast else d.quay.spareWest) + 1 ∧
      t.retired = d.quay.retired := by
  by_cases hb : bank = 0
  · rw [if_pos hb] at h
    simp [wayReplaced, hb, h]
  · rw [if_neg hb] at h
    simp [wayReplaced, hb, h]

/-- With none left, the way is retired. -/
theorem wayReplaced_of_spent (h : 512 ≤ (if bank = 0 then d.quay.spareEast else d.quay.spareWest)) :
    (wayReplaced d bank set way).quay.retired = NSet.add d.quay.retired (bank * 2 ^ 22 + set * 16 + way) := by
  simp only [wayReplaced, beq_iff_eq, Nat.not_lt.mpr h, if_false]

end

/-! ## The end of a sweep -/

theorem exec_directorySweepDone (s : State) (bank set : Nat) :
    exec (.directorySweepDone bank set) s = .next (goingOn s (sweepDone s.dev bank set)) := rfl

/-- A sweep's transaction of a set. -/
def sweepsSet (bank set : Nat) (t : Trans) : Bool := t.kind == .sweep && t.bank == bank && setOfLine t.line == set

section
variable {d : Dev} {bank set : Nat}

theorem sweepDone_of_unswept (h : (bank, set) ∉ d.quay.sweeps) : sweepDone d bank set = d := by simp [sweepDone, h]

/-- A sweep whose recalls have been answered, and whose writes have ended, ends, and what waited for the set comes again. -/
theorem sweepDone_of_answered (h : (bank, set) ∈ d.quay.sweeps)
    (hdone : ∀ t ∈ d.quay.trans, sweepsSet bank set t = true → t.snoops = [] ∧ ∀ w ∈ t.writes, flyingOf d w = none) :
    sweepDone d bank set = wakeSet (retry ((d.quay.trans.filter (sweepsSet bank set)).flatMap (fun t => t.waiters)) { d with
      quay.sweeps := d.quay.sweeps.filter (fun e => e != (bank, set))
      quay.trans := d.quay.trans.filter (fun t => !sweepsSet bank set t) }) bank set := by
  have hidle : d.quay.trans.any (fun t => sweepsSet bank set t && (!t.snoops.isEmpty || t.writes.any (fun w => (flyingOf d w).isSome))) =
      false := by
    refine List.any_eq_false.mpr fun t ht hbusy => ?_
    obtain ⟨hmine, hbusy⟩ := Bool.and_eq_true_iff.mp hbusy
    obtain ⟨hsnoops, hwrites⟩ := hdone t ht hmine
    have hnone : t.writes.any (fun w => (flyingOf d w).isSome) = false := by simpa using hwrites
    simp [hsnoops, hnone] at hbusy
  have hguard : (!d.quay.sweeps.contains (bank, set) || d.quay.trans.any (fun t => sweepsSet bank set t &&
      (!t.snoops.isEmpty || t.writes.any (fun w => (flyingOf d w).isSome)))) = false := by simp [h, hidle]
  exact if_neg (by rw [Bool.not_eq_true]; exact hguard)

end

/-! ## Errors in the Toll cache -/

/-- A spare has taken the place of a way of the Toll cache, while one was left. -/
def tollWayReplaced (d : Dev) (bank : Nat) : Dev :=
  degrade (if bank = 0 then { d with toll.spareEast := min 1024 (d.toll.spareEast + 1) }
    else { d with toll.spareWest := min 1024 (d.toll.spareWest + 1) }) bank

theorem exec_tollCacheEccError {s : State} {bank : Nat} (h : bankLive s.dev bank = true) :
    exec (.tollCacheEccError bank) s = .next (leaving s (tollWayReplaced s.dev bank)) := by
  change execTollCacheEccError bank s = _
  simp only [execTollCacheEccError, State.run, h, leaving, tollWayReplaced, beq_iff_eq, Bool.not_true, Bool.false_eq_true, if_false]

@[simp] theorem degrade_toll (d : Dev) (bank : Nat) : (degrade d bank).toll = d.toll := by simp [degrade, raiseDegraded]

/-- The Toll once a spare has taken the way's place: nothing else of it has changed. -/
theorem tollWayReplaced_toll (d : Dev) (bank : Nat) : (tollWayReplaced d bank).toll =
    if bank = 0 then { d.toll with spareEast := min 1024 (d.toll.spareEast + 1) }
    else { d.toll with spareWest := min 1024 (d.toll.spareWest + 1) } := by
  rw [tollWayReplaced, degrade_toll]
  split <;> rfl

end Sys2Proof.Machine
end

section
/-! Agents, and errors in the arrays of the Quay and the Toll. -/

namespace Sys2Proof.Machine

open Sys2Proof

/-- Settles O32: the write of an agent slot, the loss of a directory way, the end of a sweep and the loss of a Toll cache way. -/
theorem agentsAndArrayErrors : Obligations.AgentsAndArrayErrors := by
  intro s p bank set way v _
  refine ⟨fun hr => ?_, ?_, ?_, fun hlive => ?_⟩
  · exact (exec_quayAgentDataWrite hr v).trans (congrArg (fun u => Host.Outcome.next (written s p u)) (writeAgent_eq (dropHalves s.dev p) bank v))
  · intro d spare hlive
    obtain ⟨hdir, hsweeps, hretired, heast, hwest, hsalv⟩ := (directoryError_onlySnoops d bank set way).keeps
    obtain ⟨hretired', heast', hwest'⟩ := wayLost_ways d bank set way
    refine ⟨_, exec_directoryEccError hlive set way, ?_⟩
    rw [hdir, hsweeps, hretired, heast, hwest, hsalv, hretired', heast', hwest']
    exact ⟨wayLost_dir d bank set way, wayLost_swept d bank set way, wayLost_degraded d bank set way,
      fun hspare => wayReplaced_of_spare d bank set way hspare, fun hspent => wayReplaced_of_spent d bank set way hspent⟩
  · intro d mine
    have ended {u : Dev} (hu : sweepDone d bank set = u) : exec (.directorySweepDone bank set) s = .next (goingOn s u) :=
      (exec_directorySweepDone s bank set).trans (congrArg (fun u => Host.Outcome.next (goingOn s u)) hu)
    exact ⟨fun hnot => ended (sweepDone_of_unswept hnot), fun hin hdone => ended (sweepDone_of_answered hin hdone)⟩
  · refine ⟨_, exec_tollCacheEccError hlive, degrade_degraded _ bank, ?_⟩
    rw [tollWayReplaced_toll]
    refine ⟨?_, fun hb => ?_, fun hb => ?_⟩
    · split <;> rfl
    · simp [hb]
    · simp [hb]

end Sys2Proof.Machine
end

section
/-! A LOAD's image, an EVICT's idle copies, a copy that has been placed, and the end of the wait for room. -/

namespace Sys2Proof.Machine

open Sys2Proof

theorem exec_raftLoad (s : State) (r : DescRef) : exec (.raftLoad r) s = .next (goingOn s (raftLoad s.dev r)) := rfl

theorem exec_raftEvict (s : State) (r : DescRef) : exec (.raftEvict r) s = .next (goingOn s (raftEvict s.dev r)) := rfl

theorem exec_copyPlaced (s : State) (id : Nat) : exec (.copyPlaced id) s = .next (goingOn s (copyPlaced s.dev id)) := rfl

theorem exec_raftLoadWaitExpiry (s : State) (r : DescRef) :
    exec (.raftLoadWaitExpiry r) s = .next (goingOn s (loadWaitExpiry s.dev r)) := rfl

/-! ## LOAD (06 R192-R194) -/

section
variable {d t : Dev} {r : DescRef} {x : Desc} (hx : engineDesc d r 0x10 1 = some x) (htable : x.table = []) (hcount : x.count ≠ 0)
include hx htable hcount

theorem raftLoad_reads {g : Got} (hread : readImage (runDesc d r) x = (g, t)) : raftLoad d r =
    match g with
    | .wait => t
    | .fail c => endLoad (noteAll t r c) x
    | .ok l =>
      if imageCode t x l != cOK then endLoad (noteAll t r (imageCode t x l)) { x with table := l }
      else raftOn (staleOld (onDesc t r (fun x => { x with table := l, since := d.sys.ltc })) (loadWant { x with table := l })) := by
  simp only [raftLoad, hx, htable, hread, beq_iff_eq, hcount, if_false, List.isEmpty_nil, Bool.not_true, Bool.false_eq_true]
  cases g <;> rfl

end

/-! ## EVICT (06 R195) -/

/-- The idle copies of its tag that an EVICT may evict. -/
def evictable (d : Dev) (r : DescRef) (x : Desc) : List Copy :=
  d.raft.copies.filter (fun c => c.job == x.job && c.berth == r.berth && c.tag == dnum x 0x18 8 && idleCopy c)

/-- Where as many copies are idle as it asks for, no item of an EVICT finds a copy that is busy. -/
theorem raftEvict_of_idle {d : Dev} {r : DescRef} {x : Desc} (hx : engineDesc d r 0x10 3 = some x)
    (hidle : x.count ≤ (evictable d r x).length) : raftEvict d r =
    raftOn (finishDesc (evictCopies (runDesc d r) (((evictable d r x).take x.count).map (·.id))) r) := by
  have hfilter : (d.raft.copies.filter (fun c => c.job == x.job && c.berth == r.berth && c.tag == runTag x)).filter idleCopy =
      evictable d r x := by
    rw [List.filter_filter, evictable]
    exact List.filter_congr (fun c _ => Bool.and_comm _ _)
  have hnone (n : Nat) : min x.count n - ((evictable d r x).take x.count).length = 0 := by
    rw [List.length_take, Nat.min_eq_left hidle]
    exact Nat.sub_eq_zero_of_le (Nat.min_le_left _ _)
  simp only [raftEvict, hx, hfilter, hnone, List.range_zero, List.map_nil, List.foldl_nil]

/-! ## Copies placed, and the end of the wait (06 R193, R194, R197; 08 R254) -/

theorem copyPlaced_of_unplaced {d : Dev} {id : Nat} {c : Copy} (hc : copyOf d id = some c) (hp : c.placed = false) :
    copyPlaced d id =
    let d1 := onCopy (count d (pg 0x50 c.bank) 0x820) id (fun c => { c with placed := true, loader := none })
    raftOn (if c.stale then evictCopies d1 [id] else d1) := by
  simp only [copyPlaced, hc, hp, Bool.false_eq_true, if_false]

theorem copyPlaced_of_placed {d : Dev} {id : Nat} {c : Copy} (hc : copyOf d id = some c) (hp : c.placed = true) :
    copyPlaced d id = d := by
  simp only [copyPlaced, hc, hp, if_true]

theorem unlessRefused_of_refused {x : Desc} {l : List Nat} {code : Nat} (h : firstRefusal (x.pre ++ l) = some code) (d : Dev)
    (k : Dev → Dev) : unlessRefused d x l k = refuseDesc d x.r code := by
  simp only [unlessRefused, h]

section
variable {d : Dev} {r : DescRef} {x : Desc} (hx : descOf d r = some x)
include hx

/-- The wait for room of a LOAD, or for a copy of a built-in image, has ended. -/
theorem loadWaitExpiry_of_load (hopen : loadOpen x = true) (hleft : x.nextItem < x.count) : loadWaitExpiry d r =
    raftOn (loadItems r false (x.count - x.nextItem) (advanceTo d (x.since + reg d (pg 0x50 (bankOfBerth r.berth) + 0x100)))) := by
  simp only [loadWaitExpiry, hx, hopen, hleft, decide_true, Bool.and_self, if_true]

theorem loadWaitExpiry_of_builtin {code : Nat} (hengine : x.engine ≠ 0x10) (hneed : x.needCopy = true) (hphase : x.phase = .running)
    (hcode : firstRefusal (x.pre ++ [cBUSY]) = some code) : loadWaitExpiry d r =
    raftOn (refuseDesc (advanceTo d (x.since + reg d (pg 0x50 (bankOfBerth r.berth) + 0x100))) r code) := by
  have hopen : loadOpen x = false := by simp [loadOpen, hengine]
  simp only [loadWaitExpiry, hx, hopen, hneed, hphase, unlessRefused_of_refused hcode, ref_of_descOf hx, beq_self_eq_true, Bool.false_and,
    Bool.false_eq_true, if_false, Bool.and_self, if_true]

end

/-- Settles O40: an image read that waits, fails, is refused or is accepted; an EVICT; a copy placed; the end of the wait. -/
theorem loadsPlaceAndEvictCopies : Obligations.LoadsPlaceAndEvictCopies := by
  intro s r x d
  refine ⟨fun hx htable hcount g t hread => ?_, fun hx => ?_, fun id c hc => ⟨fun hp => ?_, fun hp => ?_⟩, fun hx => ?_⟩
  · rw [exec_raftLoad, raftLoad_reads hx htable hcount hread]
    refine ⟨?_, ?_, ?_⟩
    · rintro rfl
      rfl
    · rintro c rfl
      rfl
    · rintro l rfl
      exact ⟨fun hbad => by simp only [bne_iff_ne.mpr hbad, if_true],
        fun hok => by simp only [hok, bne_self_eq_false, Bool.false_eq_true, if_false]⟩
  · intro idle hidle
    rw [exec_raftEvict, raftEvict_of_idle hx hidle]
    rfl
  · exact (exec_copyPlaced s id).trans (congrArg (fun u => Host.Outcome.next (goingOn s u)) (copyPlaced_of_unplaced hc hp))
  · exact (exec_copyPlaced s id).trans (congrArg (fun u => Host.Outcome.next (goingOn s u)) (copyPlaced_of_placed hc hp))
  · refine ⟨fun hopen hleft => ?_, fun hengine hneed hphase code hcode => ?_⟩
    · rw [exec_raftLoadWaitExpiry, loadWaitExpiry_of_load hx hopen hleft]
      rfl
    · rw [exec_raftLoadWaitExpiry, loadWaitExpiry_of_builtin hx hengine hneed hphase hcode]
      rfl

end Sys2Proof.Machine
end

section
/-! A RUN's tables, its items in hand, and its end. -/

namespace Sys2Proof.Machine

open Sys2Proof

theorem exec_raftRun (s : State) (r : DescRef) : exec (.raftRun r) s = .next (goingOn s (raftRun s.dev r)) := rfl

theorem exec_itemCommit (s : State) (r : DescRef) (item : Nat) :
    exec (.itemCommit r item) s = .next (goingOn s (itemCommit s.dev r item)) := rfl

/-- The end of a RUN, where its units are done. -/
def runEnded (d : Dev) (r : DescRef) : Dev :=
  match runningRun d r with
  | some x => if unitsDone d r then runEnd d x else d
  | none => d

theorem exec_runEnd (s : State) (r : DescRef) : exec (.runEnd r) s = .next (goingOn s (runEnded s.dev r)) := rfl

/-! ## The tables (06 R201-R203) -/

/-- The reads of a RUN's stream table and, after it, of its parameter block. -/
def readStreams (d : Dev) (r : DescRef) (x : Desc) : Got × Dev :=
  descRead (runDesc d r) x tableKey d.xmap.node (dfld x 0x20 0 48) (32 * dfld x 0x20 48 5)

def readParams (d : Dev) (r : DescRef) (x : Desc) : Got × Dev :=
  descRead (readStreams d r x).2 x tableKey d.xmap.node (dfld x 0x38 0 48) (8 * paramWords x)

section
variable {d : Dev} {r : DescRef} {x : Desc} (hx : engineDesc d r 0x10 2 = some x) (hcopies : x.copies = []) (htable : x.table = [])
include hx hcopies htable

theorem raftRun_reads : raftRun d r =
    match joinGot (readStreams d r x).1 (readParams d r x).1, (readStreams d r x).1, (readParams d r x).1 with
    | .fail c, _, _ => unlessRefused (readParams d r x).2 x [c] id
    | .ok _, .ok t, .ok p => runStart (onDesc (readParams d r x).2 r (fun x => { x with table := t, params := p })) r
    | _, _, _ => (readParams d r x).2 := by
  simp only [raftRun, hx, hcopies, htable, List.isEmpty_nil, Bool.not_true, Bool.false_eq_true, if_false]
  rfl

theorem raftRun_of_read {t p : List Byte} (ha : (readStreams d r x).1 = .ok t) (hb : (readParams d r x).1 = .ok p) :
    raftRun d r = runStart (onDesc (readParams d r x).2 r (fun x => { x with table := t, params := p })) r := by
  rw [raftRun_reads hx hcopies htable, ha, hb]
  rfl

/-- The table's code stands before the parameter block's, but a block that still waits. -/
theorem raftRun_of_failed {c code : Nat} (hfail : ((readStreams d r x).1 = .fail c ∧ (readParams d r x).1 ≠ .wait) ∨
    ((readParams d r x).1 = .fail c ∧ ∃ t, (readStreams d r x).1 = .ok t)) (hcode : firstRefusal (x.pre ++ [c]) = some code) :
    raftRun d r = refuseDesc (readParams d r x).2 r code := by
  have hjoin : joinGot (readStreams d r x).1 (readParams d r x).1 = .fail c := by
    obtain ⟨ha, hb⟩ | ⟨hb, t, ha⟩ := hfail
    · rw [ha]
      cases hp : (readParams d r x).1 with
      | wait => exact absurd hp hb
      | fail _ => rfl
      | ok _ => rfl
    · rw [ha, hb]
      rfl
  rw [raftRun_reads hx hcopies htable, hjoin]
  simp only [unlessRefused_of_refused hcode, ref_of_descOf (descOf_of_engineDesc hx)]

theorem raftRun_of_waiting (hwait : (readStreams d r x).1 = .wait ∨ (readParams d r x).1 = .wait) :
    raftRun d r = (readParams d r x).2 := by
  have hjoin : joinGot (readStreams d r x).1 (readParams d r x).1 = .wait := by
    obtain ha | hb := hwait
    · rw [ha]
      rfl
    · rw [hb]
      cases (readStreams d r x).1 <;> rfl
  rw [raftRun_reads hx hcopies htable, hjoin]

end

/-! ## An item in hand (06 R205, R206, R209, R214) -/

/-- The reads of an item's SOURCEs, in the order of their streams. -/
def itemSources (d : Dev) (x : Desc) (item : Nat) (c : Copy) : List (Nat × SrcIs) × Dev :=
  readSources x (streamsOf x) item
    (sortBy (fun p => p.1.stream) ((imageOf c.image).entries.zipIdx.filter (fun p => p.1.op == 2))) d

/-- What the stages of a copy make of an item's sources. -/
def itemResult (d : Dev) (x : Desc) (item : Nat) (c : Copy) : ItemRes :=
  runItem (imageOf c.image).entries (envOf (imageOf c.image) c) ((itemSources d x item c).1.map (fun p => (p.1, p.2.flow)))

/-- An item commits: it is counted, its partials are folded into its copy's running values, and its SINKs' elements are written. -/
def committed (d : Dev) (x : Desc) (item : Nat) (c : Copy) (res : ItemRes) : Dev :=
  let d1 := commitUnit (count (noteFirings d c res true) (pg 0x50 c.bank) 0x800) x item item
  let d2 := onCopy d1 c.id (fun e => { e with running := foldPartials (imageOf c.image).entries e.running res.partials })
  writeSinks x (imageOf c.image) item res.sinks d2

/-- ITEM_COMMIT on a copy, in the order of its tests. -/
theorem commitItem_eq {d : Dev} {x : Desc} {item : Nat} {c : Copy} (hc : copyFor d x item = some c) : commitItem d x item =
    let g := itemSources d x item c
    let res := itemResult d x item c
    let fails (code : Nat) : Dev := failItem (noteFirings g.2 c res false) x.r item code
    if g.1.any (fun p => p.2.waits) then (.waits, g.2)
    else if itemCode g.1 res != 0 then (.done, fails (itemCode g.1 res))
    else if isSpoilt g.2 x.r item then (.done, fails cUNCORR)
    else if !mayCommit g.2 x item then (.waits, g.2)
    else (.done, committed g.2 x item c res) := by
  simp only [commitItem, hc]
  rfl

section
variable {d : Dev} {r : DescRef} {x : Desc} {item : Nat} {c : Copy} (hx : runningRun d r = some x) (hc : copyFor d x item = some c)
include hx hc

theorem itemCommit_of_waiting (hwait : (itemSources d x item c).1.any (fun p => p.2.waits) = true) :
    itemCommit d r item = (itemSources d x item c).2 := by
  simp only [itemCommit, hx, commitItem_eq hc, hwait, if_true]

variable (hread : (itemSources d x item c).1.any (fun p => p.2.waits) = false)
include hread

theorem itemCommit_of_failed (hcode : itemCode (itemSources d x item c).1 (itemResult d x item c) ≠ cOK) : itemCommit d r item =
    letGo (failItem (noteFirings (itemSources d x item c).2 c (itemResult d x item c) false) x.r item
      (itemCode (itemSources d x item c).1 (itemResult d x item c))) r item := by
  have hne : (itemCode (itemSources d x item c).1 (itemResult d x item c) != 0) = true := bne_iff_ne.mpr hcode
  simp only [itemCommit, hx, commitItem_eq hc, hread, hne, Bool.false_eq_true, if_false, if_true]

variable (hcode : itemCode (itemSources d x item c).1 (itemResult d x item c) = cOK)
include hcode

theorem itemCommit_of_spoilt (hspoilt : isSpoilt (itemSources d x item c).2 x.r item = true) : itemCommit d r item =
    letGo (failItem (noteFirings (itemSources d x item c).2 c (itemResult d x item c) false) x.r item cUNCORR) r item := by
  simp only [itemCommit, hx, commitItem_eq hc, hread, hcode, hspoilt, cOK, bne_self_eq_false, Bool.false_eq_true, if_false, if_true]

variable (hspoilt : isSpoilt (itemSources d x item c).2 x.r item = false)
include hspoilt

theorem itemCommit_of_held (hmay : mayCommit (itemSources d x item c).2 x item = false) :
    itemCommit d r item = (itemSources d x item c).2 := by
  simp only [itemCommit, hx, commitItem_eq hc, hread, hcode, hspoilt, hmay, cOK, bne_self_eq_false, Bool.false_eq_true, Bool.not_false,
    if_false, if_true]

theorem itemCommit_of_committed (hmay : mayCommit (itemSources d x item c).2 x item = true) :
    itemCommit d r item = letGo (committed (itemSources d x item c).2 x item c (itemResult d x item c)) r item := by
  simp only [itemCommit, hx, commitItem_eq hc, hread, hcode, hspoilt, hmay, cOK, bne_self_eq_false, Bool.false_eq_true, Bool.not_true,
    if_false]

end

/-- Of an item that commits every firing counts. -/
theorem noteFirings_whole (d : Dev) (c : Copy) (res : ItemRes) : noteFirings d c res true =
    onCopy (count d (pg 0x50 c.bank) 0x830 res.exc) c.id (fun e =>
      { e with gens := res.firings.foldl (fun m f => NMap.set 0 m f.1 (genAfter f.2 (NMap.get 1 m f.1))) c.gens }) := by
  simp only [noteFirings, if_true]

/-! ## What the SINKs write, and the end (06 R206, R207, R212) -/

theorem writeSinks_single {i : Image} {n : Nat} {e : SuEntry} (he : i.entries[n]? = some e) (x : Desc) (item : Nat) (f : Flow) (d : Dev) :
    writeSinks x i item [(n, f)] d =
    writeRun d x item ((streamsOf x).getD e.stream noStream)
      ((dnum x 0x28 4 + item) * ((streamsOf x).getD e.stream noStream).per) (sinkRun ((streamsOf x).getD e.stream noStream) f) := by
  simp only [writeSinks, List.foldl_cons, List.foldl_nil, he]

theorem runEnded_of_done {d : Dev} {r : DescRef} {x : Desc} (hx : runningRun d r = some x) (h : unitsDone d r = true) :
    runEnded d r = runEnd d x := by
  simp only [runEnded, hx, h, if_true]

theorem runEnded_of_left {d : Dev} {r : DescRef} {x : Desc} (hx : runningRun d r = some x) (h : unitsDone d r = false) :
    runEnded d r = d := by
  simp only [runEnded, hx, h, Bool.false_eq_true, if_false]

/-- Settles O41: the reads a RUN starts with, the outcomes of an item in hand in their order, a SINK's elements, and the end. -/
theorem runsCommitTheirItems : Obligations.RunsCommitTheirItems := by
  intro s r x d
  refine ⟨fun hx hcopies htable => ?_, fun item c hx _ hc => ?_, fun i item n f e he => writeSinks_single he x item f d, fun hx hr => ?_⟩
  · intro a b
    refine ⟨fun t p ha hb => ?_, fun c code hfail hcode => ?_, fun hwait => ?_⟩
    · rw [exec_raftRun, raftRun_of_read hx hcopies htable ha hb]
      rfl
    · rw [exec_raftRun, raftRun_of_failed hx hcopies htable hfail hcode]
      rfl
    · rw [exec_raftRun, raftRun_of_waiting hx hcopies htable hwait]
      rfl
  · intro i srcs g res gens d2 spoiltNow
    have commits {u : Dev} (h : itemCommit d r item = u) : exec (.itemCommit r item) s = .next (goingOn s u) :=
      (exec_itemCommit s r item).trans (congrArg (fun u => Host.Outcome.next (goingOn s u)) h)
    refine ⟨fun hwait => commits (itemCommit_of_waiting hx hc hwait), fun hread => ⟨fun hcode => commits (itemCommit_of_failed hx hc hread hcode),
      fun hcode hspoilt => commits (itemCommit_of_spoilt hx hc hread hcode hspoilt),
      fun hcode hspoilt hmay => commits (itemCommit_of_held hx hc hread hcode hspoilt hmay), fun hcode hspoilt hmay => ?_⟩⟩
    have h := itemCommit_of_committed hx hc hread hcode hspoilt hmay
    rw [committed, noteFirings_whole] at h
    exact commits h
  · refine ⟨fun hdone => ?_, fun hleft => ?_⟩
    · rw [exec_runEnd, runEnded_of_done hx hdone, runEnd, hr]
    · rw [exec_runEnd, runEnded_of_left hx hleft]

end Sys2Proof.Machine
end

section
/-! SUPPORT. What the device's own going on (`goOn`) may alter unseen. `sight` is what is followed through it: the anchors, which nothing of
it alters, the stored bytes and what has been sent. -/

namespace Sys2Proof.Machine

open Sys2Proof

/-- The fields that nothing the device goes on with by itself alters. -/
def anchors (d : Dev) : Sys × Nat × XMapCfg × List Entry × Nat :=
  (d.sys, d.xmap.epoch, d.xmap.current, d.toll.extents.map (·.e), d.tiers.sites.length)

/-- The anchors, the stored bytes and what has been sent. -/
def sight (d : Dev) : (Sys × Nat × XMapCfg × List Entry × Nat) × List (Nat × Byte) × List Out := (anchors d, d.tiers.mem, d.tx)

theorem sight_foldl {α : Type} {f : Dev → α → Dev} (hf : ∀ d k, sight (f d k) = sight d) :
    ∀ (l : List α) (d : Dev), sight (l.foldl f d) = sight d
  | [], _ => rfl
  | k :: l, d => (sight_foldl hf l (f d k)).trans (hf d k)

/-- A change of an extent that keeps its entry. -/
theorem map_entry_modFirst {p : Extent → Bool} {f : Extent → Extent} (hf : ∀ x, (f x).e = x.e) :
    ∀ l : List Extent, (modFirst p f l).map (·.e) = l.map (·.e)
  | [] => rfl
  | x :: l => by
    unfold modFirst
    split
    · simp [hf]
    · simp [map_entry_modFirst hf l]

/-- What lies beside the anchors, the stored bytes and what has been sent may be anything. -/
theorem sight_with_rest (d : Dev) (cw : Causeway) (regs : NMap Nat) (flying : List Flying) (nextFlying : Nat) (quay : Quay) (descs : List Desc)
    (wharf : Wharf) (salv : Salvage) :
    sight { d with
      cw := cw, regs := regs, flying := flying, nextFlying := nextFlying, quay := quay, descs := descs, wharf := wharf, salv := salv } =
    sight d := rfl

theorem sight_with_tiers (d : Dev) {t : Tiers} (hsites : t.sites.length = d.tiers.sites.length) (hmem : t.mem = d.tiers.mem) :
    sight { d with tiers := t } = sight d := by
  simp only [sight, anchors, hsites, hmem]

/-! ## Registers, the Causeway, frames -/

@[simp] theorem sight_setReg (d : Dev) (off v : Nat) : sight (setReg d off v) = sight d := rfl

@[simp] theorem sight_count (d : Dev) (page off k : Nat) : sight (count d page off k) = sight d := by
  obtain ⟨m, h⟩ := count_regs_only d page off k
  rw [h]
  rfl

@[simp] theorem sight_recordFe (d : Dev) (page b : Nat) (f : Fe) : sight (recordFe d page b f) = sight d := by
  obtain ⟨m, h⟩ := recordFe_regs_only d page b f
  rw [h]
  rfl

@[simp] theorem sight_sendCw (d : Dev) (w : Bool) (p : CwPair) (cls : Nat) : sight (sendCw d w p cls) = sight d := by
  obtain ⟨c, h⟩ := sendCw_cw_only d w p cls
  rw [h]
  rfl

@[simp] theorem sight_cross (d : Dev) (a b : Nat) (p : CwPair) (cls : Nat) : sight (cross d a b p cls) = sight d := by
  unfold cross
  split
  · rfl
  · exact sight_sendCw d _ p cls

@[simp] theorem sight_sendOn (d : Dev) (ld input cls slots : Nat) (berth : Option Nat) (job : Nat) (yellow report : Bool) (m : Msg)
    (off qsets : Nat) : sight (sendOn d ld input cls slots berth job yellow report m off qsets) = sight d := rfl

@[simp] theorem sight_sendRsp (d : Dev) (n input : Nat) (berth : Option Nat) (job off : Nat) (yellow : Bool) (m : Msg) :
    sight (sendRsp d n input berth job off yellow m) = sight d := by
  unfold sendRsp
  dsimp only
  rw [sight_sendOn]
  split
  · rfl
  · exact sight_count d _ _ _

@[simp] theorem sight_meterRx (d : Dev) (b : Option Nat) (bytes : Nat) : sight (meterRx d b bytes) = sight d := by
  cases b
  all_goals rfl

@[simp] theorem sight_misroute (d : Dev) (n : Nat) (berth : Option Nat) (epoch off : Nat) :
    sight (misroute d n berth epoch off) = sight d := by
  unfold misroute
  split
  · rfl
  · split
    · rfl
    · split
      · split
        · rfl
        · exact sight_count d _ _ _
      · rfl

/-- Statistics of stalls, kept unless a page's counters are frozen. -/
theorem sight_unless_frozen {d e : Dev} (he : sight e = sight d) (page : Nat) (cnt cyc : NMap Nat) :
    sight (if frozen e page = true then e else { e with tiers.stallCnt := cnt, tiers.stallCyc := cyc }) = sight d := by
  split
  · exact he
  · exact (sight_with_tiers e rfl rfl).trans he

@[simp] theorem sight_stall (d : Dev) (berth cause cyc : Nat) : sight (stall d berth cause cyc) = sight d :=
  sight_unless_frozen (sight_count d (pg 0x33 (bankOfBerth berth)) (0x800 + 8 * cause) 1) _ _ _

@[simp] theorem sight_stallRebuilt (before d : Dev) (berth : Nat) (gs : List Nat) : sight (stallRebuilt before d berth gs) = sight d := by
  unfold stallRebuilt
  split
  · exact sight_stall d _ _ _
  · rfl

/-! ## Requests in flight and their answers -/

@[simp] theorem sight_onPort (d : Dev) (n : Nat) (f : Port → Port) : sight (onPort d n f) = sight d := rfl

@[simp] theorem sight_setPiece (d : Dev) (p tlp piece status : Nat) (data : List Byte) : sight (setPiece d p tlp piece status data) = sight d := rfl

@[simp] theorem sight_addFlying (d : Dev) (f : Flying) : sight (addFlying d f) = sight d := rfl

@[simp] theorem sight_setWait (d : Dev) (id : Nat) (w : Wait) : sight (setWait d id w) = sight d := rfl

@[simp] theorem sight_dropFlying (d : Dev) (id : Nat) : sight (dropFlying d id) = sight d := rfl

@[simp] theorem sight_setRing (d : Dev) (berth ring : Nat) (r : Ring) : sight (setRing d berth ring r) = sight d := rfl

@[simp] theorem sight_noteOutcome (d : Dev) (src reqId : Nat) (m : Msg) : sight (noteOutcome d src reqId m) = sight d := rfl

@[simp] theorem sight_noteItem (d : Dev) (r : DescRef) (item status : Nat) : sight (noteItem d r item status) = sight d := rfl

@[simp] theorem sight_gotRead (d : Dev) (r : DescRef) (item : Nat) (q : Req) (status : Nat) (data : List Byte) :
    sight (gotRead d r item q status data) = sight d := rfl

@[simp] theorem sight_answerDuplicates (d : Dev) (src reqId : Nat) (m : Msg) : sight (answerDuplicates d src reqId m) = sight d := by
  unfold answerDuplicates
  dsimp only
  refine sight_foldl (fun d f => ?_) _ d
  split
  · exact sight_sendRsp d _ _ _ _ _ _ _
  · rfl

@[simp] theorem sight_noteEnd (d : Dev) (f : Flying) (status : Nat) : sight (noteEnd d f status) = sight d := by
  unfold noteEnd
  dsimp only
  split
  · rfl
  · split <;> rfl

@[simp] theorem sight_crossBack (d : Dev) (q : Req) (entry bank : Nat) : sight (crossBack d q entry bank).1 = sight d := by
  unfold crossBack
  split
  · rfl
  · rfl
  · exact sight_cross d _ _ _ _

@[simp] theorem sight_nackReq (d : Dev) (q : Req) (entry bank : Nat) : sight (nackReq d q entry bank) = sight d := by
  unfold nackReq
  dsimp only
  split <;> simp

theorem overCredit_sight {d e : Dev} {q : Req} {bank : Nat} (h : overCredit d q bank = some e) : sight e = sight d := by
  unfold overCredit at h
  dsimp only at h
  split at h
  · obtain rfl := Option.some.inj h
    exact sight_count d _ _ _
  · split at h
    · obtain rfl := Option.some.inj h
      exact sight_count d _ _ _
    · cases h

/-! ## Extents, poison, snapshots -/

theorem sight_onExt (d : Dev) (base : Nat) {f : Extent → Extent} (hf : ∀ x, (f x).e = x.e) : sight (onExt d base f) = sight d := by
  have h := map_entry_modFirst (p := fun x => x.e.base == base) hf d.toll.extents
  simp only [sight, anchors, onExt, h]

@[simp] theorem sight_addPoison (d : Dev) (g : Nat) : sight (addPoison d g) = sight d := rfl

@[simp] theorem sight_cleanGranule (d : Dev) (g : Nat) : sight (cleanGranule d g) = sight d := rfl

@[simp] theorem sight_onSnapItem (d : Dev) (slot item : Nat) (f : SnapItem → SnapItem) : sight (onSnapItem d slot item f) = sight d := rfl

@[simp] theorem sight_poisonTile (d : Dev) (x : Extent) (tile : Nat) : sight (poisonTile d x tile) = sight d := by
  unfold poisonTile
  dsimp only
  rw [sight_foldl sight_addPoison]
  split
  · exact sight_onExt d _ (fun _ => rfl)
  · rfl

@[simp] theorem sight_snapLost (d : Dev) (slot item tile status : Nat) : sight (snapLost d slot item tile status) = sight d := by
  unfold snapLost
  split
  · rfl
  · rw [sight_onSnapItem]
    split
    · exact sight_poisonTile d _ tile
    · rfl

@[simp] theorem sight_askAhead (d : Dev) (slot item tile : Nat) : sight (askAhead d slot item tile) = sight d := by
  unfold askAhead
  split
  · rfl
  · split
    · rfl
    · exact sight_count _ _ _ _

@[simp] theorem sight_fillMark (x : Extent) (off : Nat) (d : Dev) : sight (fillMark x off d) = sight d := by
  unfold fillMark
  split
  · exact sight_onExt d _ (fun _ => rfl)
  · rfl

@[simp] theorem sight_tileLost (d : Dev) (x : Extent) (off : Nat) : sight (tileLost d x off) = sight d := by
  unfold tileLost
  dsimp only
  split
  · rw [sight_fillMark, sight_poisonTile, sight_count]
  · exact sight_count d _ _ _

/-! ## The Quay: lines, copies, accumulators -/

@[simp] theorem sight_updateCache (d : Dev) (bank job off : Nat) (l : List Byte) : sight (updateCache d bank job off l) = sight d := rfl

@[simp] theorem sight_cacheFill (d : Dev) (bank job g : Nat) (l : List Byte) : sight (cacheFill d bank job g l) = sight d := rfl

@[simp] theorem sight_cacheAfter (d : Dev) (f : Flying) : sight (cacheAfter d f) = sight d := by
  unfold cacheAfter
  split <;> rfl

@[simp] theorem sight_acquireDrop (d : Dev) (bank job : Nat) : sight (acquireDrop d bank job) = sight d := sight_count _ _ _ _

@[simp] theorem sight_dirDrop (d : Dev) (bank line : Nat) : sight (dirDrop d bank line) = sight d := rfl

@[simp] theorem sight_dirMod (d : Dev) (bank line : Nat) (f : DirEntry → DirEntry) : sight (dirMod d bank line f) = sight d := rfl

@[simp] theorem sight_grantShared (d : Dev) (bank line slot : Nat) : sight (grantShared d bank line slot) = sight d := by
  unfold grantShared
  split
  · rfl
  · split <;> rfl

@[simp] theorem sight_grantOwned (d : Dev) (bank line slot : Nat) : sight (grantOwned d bank line slot) = sight d := by
  unfold grantOwned
  split
  · rfl
  · split <;> rfl

@[simp] theorem sight_sendSnoop (d : Dev) (bank line : Nat) (s : Snoop) (group : Nat) : sight (sendSnoop d bank line s group).1 = sight d := by
  unfold sendSnoop
  split
  · rfl
  · split <;> rfl

theorem sight_sendSnoops (bank line : Nat) (kind : SnoopKind) (group : Nat) :
    ∀ (l : List Nat) (d : Dev), sight (sendSnoops bank line kind group l d).1 = sight d
  | [], _ => rfl
  | a :: l, d => by
    unfold sendSnoops
    dsimp only
    split
    · exact sight_sendSnoops bank line kind group l d
    · exact (sight_sendSnoops bank line kind group l _).trans (sight_sendSnoop _ bank line _ group)

@[simp] theorem sight_joinTrans (d : Dev) (bank line id : Nat) : sight (joinTrans d bank line id) = sight d := rfl

@[simp] theorem sight_joinSet (d : Dev) (bank set id : Nat) : sight (joinSet d bank set id) = sight d := by
  unfold joinSet
  dsimp only
  rw [sight_with_rest, sight_count]

@[simp] theorem sight_closeDir (d : Dev) (t : Trans) : sight (closeDir d t) = sight d := by
  unfold closeDir
  split
  · split
    · split <;> rfl
    · rfl
  all_goals rfl

theorem snapWait_sight {d e : Dev} {f : Flying} {x : Extent} (h : snapWait d f x = some e) : sight e = sight d := by
  unfold snapWait at h
  split at h
  · cases h
  · split at h
    · cases h
    · dsimp only at h
      split at h
      · cases h
      · obtain rfl := Option.some.inj h
        rw [sight_setWait, sight_askAhead]
        split
        · rfl
        · rfl

@[simp] theorem sight_accumMod (d : Dev) (bank g : Nat) (f : Accum → Accum) : sight (accumMod d bank g f) = sight d := rfl

@[simp] theorem sight_accumDrop (d : Dev) (bank g : Nat) : sight (accumDrop d bank g) = sight d := rfl

@[simp] theorem sight_startWb (d : Dev) (bank g : Nat) (ids : List Nat) : sight (startWb d bank g ids) = sight d := rfl

@[simp] theorem sight_startWbs (d : Dev) (x : Extent) : sight (startWbs d x) = sight d := by
  unfold startWbs
  exact sight_foldl (f := fun d a => startWb d a.bank a.offset []) (fun d (a : Accum) => sight_startWb d a.bank a.offset []) _ d

@[simp] theorem sight_forceWb (d : Dev) (f : Flying) (l : List Accum) : sight (forceWb d f l) = sight d := by
  have hmarked : sight (if f.forced then d else
      { count d (pg 0x41 f.homeBank) 0x818 with
        flying := modFirst (fun g => g.id == f.id) (fun g => { g with forced := true }) (count d (pg 0x41 f.homeBank) 0x818).flying }) =
      sight d := by
    split
    · rfl
    · rw [sight_with_rest, sight_count]
  unfold forceWb
  dsimp only
  revert hmarked
  generalize (if f.forced = true then d else _) = e
  intro hmarked
  cases l with
  | nil => exact hmarked
  | cons a rest =>
    exact (sight_foldl (fun d b => sight_startWb d b.bank b.offset []) rest (startWb e a.bank a.offset [f.id])).trans hmarked

@[simp] theorem sight_flushedBy (d : Dev) (g : Nat) : sight (flushedBy d g) = sight d := rfl

/-! ## The Tow and protected extents -/

@[simp] theorem sight_logPeer (d : Dev) (x : Extent) (off node : Nat) : sight (logPeer d x off node) = sight d := by
  unfold logPeer
  dsimp only
  split
  · rfl
  · split
    · exact sight_count _ _ _ _
    · split <;> rfl

theorem sight_sendTargets (x : Extent) (off : Nat) (old new : List Byte) (flying job : Nat) :
    ∀ (l : List Target) (d : Dev), sight (sendTargets x off old new flying job l d).1 = sight d
  | [], _ => rfl
  | t :: ts, d => by
    unfold sendTargets
    dsimp only
    split
    · exact (sight_sendTargets x off old new flying job ts _).trans (sight_count _ _ _ _)
    · exact (sight_sendTargets x off old new flying job ts _).trans (sight_logPeer d x off _)

theorem sight_sendReads (x : Extent) (off job : Nat) : ∀ (l : List Nat) (d : Dev), sight (sendReads x off job l d).1 = sight d
  | [], _ => rfl
  | k :: ks, d => sight_sendReads x off job ks (sendTow d x .rd (memberNode d x k) off 256 [] 0 job).1

@[simp] theorem sight_startRecon (d : Dev) (x : Extent) (off job : Nat) (waiters : List Nat) :
    sight (startRecon d x off job waiters).2 = sight d := by
  unfold startRecon
  dsimp only
  split
  · rfl
  · split
    · rfl
    · exact (sight_count _ _ _ _).trans (sight_sendReads x _ job _ d)

@[simp] theorem sight_onMove (d : Dev) (r : DescRef) (item : Nat) (f : MoveItem → MoveItem) : sight (onMove d r item f) = sight d := rfl

@[simp] theorem sight_endMove (d : Dev) (m : MoveItem) (code : Nat) : sight (endMove d m code) = sight d := rfl

@[simp] theorem sight_movePin (d : Dev) (pin : Bool) (bank job base : Nat) : sight (movePin d pin bank job base) = sight d := by
  unfold movePin addPin
  dsimp only
  split
  · split
    · rfl
    · split <;> rfl
  · rfl

@[simp] theorem sight_forceSums (d : Dev) (x : Extent) : sight (forceSums d x) = sight d := (sight_startWbs _ x).trans (sight_count d _ _ _)

@[simp] theorem sight_endPersists (d : Dev) : sight (endPersists d) = sight d := by
  unfold endPersists
  dsimp only
  refine sight_foldl (fun d p => ?_) _ _
  split <;> rfl

@[simp] theorem sight_towFinish (d : Dev) : sight (towFinish d) = sight d := rfl

@[simp] theorem sight_markMove (d : Dev) (base tileNo : Nat) : sight (markMove d base tileNo) = sight d := rfl

theorem sight_freeBytes : ∀ (n : Nat) (d : Dev), sight (freeBytes n d).2 = sight d
  | 0, _ => rfl
  | n + 1, d => sight_freeBytes n (freeVal d).2

end Sys2Proof.Machine
end

section
/-! SUPPORT. The tiers' work on stored bytes alters none of the anchors (03 R87-R95). -/

namespace Sys2Proof.Machine

open Sys2Proof

theorem anchors_of_sight {d e : Dev} (h : sight e = sight d) : anchors e = anchors d := congrArg Prod.fst h

@[simp] theorem anchors_count (d : Dev) (page off k : Nat) : anchors (count d page off k) = anchors d := anchors_of_sight (sight_count d page off k)

@[simp] theorem anchors_raise (d : Dev) (page b : Nat) : anchors (raise d page b) = anchors d := by
  obtain ⟨m, t, h⟩ := raise_regs_tx d page b
  rw [h]
  rfl

@[simp] theorem anchors_raiseFe (d : Dev) (page b : Nat) (f : Fe) : anchors (raiseFe d page b f) = anchors d := by
  obtain ⟨m, t, h⟩ := raiseFe_regs_tx d page b f
  rw [h]
  rfl

@[simp] theorem anchors_degrade (d : Dev) (bank : Nat) : anchors (degrade d bank) = anchors d := anchors_raise { d with salv.degraded := true } _ _

@[simp] theorem anchors_emit (d : Dev) (o : Out) : anchors (emit d o) = anchors d := rfl

@[simp] theorem anchors_cross (d : Dev) (a b : Nat) (p : CwPair) (cls : Nat) : anchors (cross d a b p cls) = anchors d :=
  anchors_of_sight (sight_cross d a b p cls)

@[simp] theorem anchors_stall (d : Dev) (berth cause cyc : Nat) : anchors (stall d berth cause cyc) = anchors d :=
  anchors_of_sight (sight_stall d berth cause cyc)

theorem anchors_foldl {α : Type} {f : Dev → α → Dev} (hf : ∀ d k, anchors (f d k) = anchors d) :
    ∀ (l : List α) (d : Dev), anchors (l.foldl f d) = anchors d
  | [], _ => rfl
  | k :: l, d => (anchors_foldl hf l (f d k)).trans (hf d k)

theorem anchors_ite {c : Prop} [Decidable c] {d e f : Dev} (he : anchors e = anchors d) (hf : anchors f = anchors d) :
    anchors (if c then e else f) = anchors d := by
  split
  · exact he
  · exact hf

/-- The tiers may be altered but for the number of their sites. -/
theorem anchors_with_tiers (d : Dev) {t : Tiers} (h : t.sites.length = d.tiers.sites.length) : anchors { d with tiers := t } = anchors d := by
  simp only [anchors, h]

@[simp] theorem anchors_setMem (d : Dev) (c : Nat) (l : List Byte) : anchors (setMem d c l) = anchors d := rfl

@[simp] theorem anchors_addPoison (d : Dev) (g : Nat) : anchors (addPoison d g) = anchors d := rfl

@[simp] theorem anchors_cleanGranule (d : Dev) (g : Nat) : anchors (cleanGranule d g) = anchors d := rfl

@[simp] theorem anchors_onSite (d : Dev) (n : Nat) (f : Site → Site) : anchors (onSite d n f) = anchors d :=
  anchors_with_tiers d (length_modAt f _ n)

@[simp] theorem anchors_applyStripe (d : Dev) (chan stripe : Nat) : anchors (applyStripe d chan stripe) = anchors d := by
  obtain ⟨r, m, q, h, -⟩ := applyStripe_parts d chan stripe
  rw [h]
  rfl

@[simp] theorem anchors_logStripe (d : Dev) (bank chan stripe : Nat) : anchors (logStripe d bank chan stripe) = anchors d := by
  obtain ⟨r, t, e, w, oe, ow, h⟩ := logStripe_logs_only d bank chan stripe
  rw [h]
  rfl

/-! ## Sites, channels, rows and vaults that fail -/

@[simp] theorem anchors_endLoans (d : Dev) (l : List Nat) : anchors (endLoans d l) = anchors d := anchors_with_tiers d (List.length_map _)

@[simp] theorem anchors_endRebuild (d : Dev) : anchors (endRebuild d) = anchors d := by
  unfold endRebuild
  split
  · rfl
  · exact anchors_with_tiers d (by simp)

theorem anchors_rebuild (d : Dev) (r : Option StackRebuild) : anchors { d with tiers.rebuild := r } = anchors d := rfl

@[simp] theorem anchors_siteFail (d : Dev) (n : Nat) : anchors (siteFail d n) = anchors d := by
  have hmarked := anchors_onSite d n (fun t => { t with failed := true, down := ~~~t.loan })
  have hfailed := (anchors_degrade _ (bankOfSite n)).trans ((anchors_raiseFe _ (pgI 0x31 5 n) 4 (feUnit 0)).trans
    (anchors_ite (c := (n == spareSite) = true) ((anchors_endLoans _ (List.range 32)).trans hmarked) hmarked))
  simp only [siteFail]
  refine anchors_ite rfl ?_
  revert hfailed
  generalize degrade _ _ = e
  intro hfailed
  split
  · exact (anchors_endRebuild e).trans hfailed
  · exact anchors_ite ((anchors_rebuild e _).trans hfailed) hfailed

@[simp] theorem anchors_channelDown (d : Dev) (n chan : Nat) : anchors (channelDown d n chan) = anchors d := by
  have hdown := (anchors_degrade _ (bankOfSite n)).trans ((anchors_raiseFe _ (pgI 0x31 5 n) 3 (feUnit chan)).trans
    ((anchors_onSite _ n (fun t => { t with down := maskOn t.down chan })).trans
      (anchors_ite (c := (n == spareSite) = true) (anchors_endLoans d [chan]) rfl)))
  exact anchors_ite rfl (anchors_ite ((anchors_siteFail _ n).trans hdown) hdown)

@[simp] theorem anchors_rowReplace (d : Dev) (n chan row : Nat) : anchors (rowReplace d n chan row) = anchors d := by
  unfold rowReplace
  dsimp only
  refine anchors_ite rfl (anchors_ite (anchors_channelDown d n chan) ?_)
  rw [anchors_degrade, anchors_count, anchors_raise, anchors_onSite]

@[simp] theorem anchors_rowEvent (d : Dev) (n chan stripe : Nat) : anchors (rowEvent d n chan stripe) = anchors d :=
  anchors_ite (anchors_rowReplace d n chan _) (anchors_onSite d n _)

@[simp] theorem anchors_noteRecon (d : Dev) (pos chan stripe : Nat) : anchors (noteRecon d pos chan stripe) = anchors d := by
  have hnoted (page : Nat) : anchors (raise (count d page 0x808) page 1) = anchors d := (anchors_raise _ page 1).trans (anchors_count d page 0x808 1)
  unfold noteRecon
  dsimp only
  split
  · exact (anchors_rowEvent _ _ chan stripe).trans (hnoted _)
  · exact hnoted _

@[simp] theorem anchors_vaultFail (d : Dev) (v : Nat) : anchors (vaultFail d v) = anchors d := by
  unfold vaultFail
  dsimp only
  refine anchors_ite rfl ?_
  rw [anchors_degrade, anchors_raiseFe]
  exact anchors_ite rfl rfl

@[simp] theorem anchors_vaultUe (d : Dev) (v : Nat) : anchors (vaultUe d v) = anchors d := by
  unfold vaultUe
  dsimp only
  exact anchors_ite rfl (anchors_ite (anchors_vaultFail _ v) rfl)

@[simp] theorem anchors_nearUe (d : Dev) (a : Acc) (bank g : Nat) : anchors (nearUe d a bank g) = anchors d := by
  have hpoisoned : anchors (addPoison (raiseFe (count d (pg 0x30 bank) 0x808) (pg 0x30 bank) 0 (feAcc d a a.off cUNCORR)) g) = anchors d := by
    rw [anchors_addPoison, anchors_raiseFe, anchors_count]
  exact anchors_ite ((anchors_vaultUe _ _).trans hpoisoned) hpoisoned

/-! ## Granules -/

@[simp] theorem anchors_readGranule (d : Dev) (a : Acc) (g : Nat) : anchors (readGranule d a g).2.2 = anchors d := by
  fun_cases readGranule d a g
  case case3 => exact anchors_nearUe d a _ g
  case case7 u _ _ _ e _ _ =>
    have happlied : anchors e = anchors d := anchors_applyStripe d u.chan u.stripe
    rw [anchors_cleanGranule, anchors_setMem, anchors_noteRecon, happlied]
  case case8 u _ _ _ e _ _ =>
    have happlied : anchors e = anchors d := anchors_applyStripe d u.chan u.stripe
    rw [anchors_addPoison, anchors_raiseFe, happlied]
  case case9 u _ e _ _ =>
    have happlied : anchors e = anchors d := anchors_applyStripe d u.chan u.stripe
    rw [anchors_noteRecon, happlied]
  case case10 u _ e _ _ =>
    have happlied : anchors e = anchors d := anchors_applyStripe d u.chan u.stripe
    rw [anchors_addPoison, anchors_raiseFe, happlied]
  case case11 => exact anchors_nearUe d a _ g
  case case14 page _ _ e _ =>
    have hretried : anchors e = anchors d := anchors_ite rfl (anchors_count d page 0x808 _)
    rw [anchors_count, hretried]
  case case15 tile _ page _ _ e _ =>
    have hretried : anchors e = anchors d := anchors_ite rfl (anchors_count d page 0x808 _)
    exact (anchors_foldl (f := fun d k => addPoison d (tile + k)) (fun _ _ => rfl) _ _).trans
      ((anchors_raiseFe _ _ _ _).trans ((anchors_count _ _ _ _).trans hretried))
  all_goals rfl

@[simp] theorem anchors_readGranules (a : Acc) : ∀ (gs : List Nat) (d : Dev), anchors (readGranules a gs d).2.2 = anchors d
  | [], _ => rfl
  | g :: gs, d => by
    have hrest := (anchors_readGranules a gs (readGranule d a g).2.2).trans (anchors_readGranule d a g)
    unfold readGranules
    dsimp only
    split
    · exact hrest
    · exact hrest

@[simp] theorem anchors_readRest (a : Acc) : ∀ (gs : List Nat) (d : Dev), anchors (readRest a gs d).2 = anchors d
  | [], _ => rfl
  | g :: gs, d => (anchors_readRest a gs (readGranule d a g).2.2).trans (anchors_readGranule d a g)

@[simp] theorem anchors_checkGranule (a : Acc) (tile o n : Nat) (d : Dev) (g : Nat) : anchors (checkGranule a tile o n d g).2.2 = anchors d := by
  fun_cases checkGranule a tile o n d g
  case case3 => exact anchors_readGranule d a g
  case case4 => exact anchors_readGranule d a g
  all_goals rfl

@[simp] theorem anchors_checkGranules (a : Acc) (tile o n : Nat) : ∀ (gs : List Nat) (d : Dev),
    anchors (checkGranules a tile o n gs d).2.2 = anchors d
  | [], _ => rfl
  | g :: gs, d => by
    have hrest := (anchors_checkGranules a tile o n gs (checkGranule a tile o n d g).2.2).trans (anchors_checkGranule a tile o n d g)
    rw [checkGranules_cons]
    split
    · exact hrest
    · exact hrest

@[simp] theorem anchors_orFault (d : Dev) (c : Prop) [Decidable c] (g : Nat) :
    anchors (if c then d else { d with tiers.faults := NSet.add d.tiers.faults g }) = anchors d := anchors_ite rfl rfl

theorem anchors_queue (d : Dev) (q : List (Nat × Nat × Nat × List Byte)) : anchors { d with tiers.deltas := q } = anchors d := rfl

@[simp] theorem anchors_storeStack (d : Dev) (g : Nat) (new : List Byte) : anchors (storeStack d g new) = anchors d := by
  have happlied := anchors_ite (c := (faulty d g || poisoned d g) = true) (anchors_applyStripe d (stackAt g).chan (stackAt g).stripe) rfl
  unfold storeStack
  dsimp only
  revert happlied
  generalize (if (faulty d g || poisoned d g) = true then applyStripe d _ _ else d) = e
  intro happlied
  split
  · split
    · split
      · have hnoted := anchors_ite (c := (faulty d g && !poisoned d g) = true)
          ((anchors_noteRecon e (stackAt g).pos (stackAt g).chan (stackAt g).stripe).trans happlied) happlied
        rw [anchors_cross, anchors_queue, anchors_cleanGranule, anchors_setMem, hnoted]
      · exact (anchors_cleanGranule _ _).trans ((anchors_setMem _ _ _).trans ((anchors_orFault _ _ _).trans ((anchors_cleanGranule _ _).trans
          ((anchors_setMem _ _ _).trans ((anchors_applyStripe _ _ _).trans happlied)))))
    · simp only [anchors_logStripe, anchors_cleanGranule, anchors_setMem, happlied]
  · exact (anchors_cleanGranule _ _).trans ((anchors_orFault _ _ _).trans ((anchors_cleanGranule _ _).trans
      ((anchors_setMem _ _ _).trans (anchors_applyStripe _ _ _))))

@[simp] theorem anchors_storeGranules : ∀ (l : List (Nat × List Byte)) (d : Dev), anchors (storeGranules l d) = anchors d
  | [], _ => rfl
  | (g, l) :: rest, d => by
    unfold storeGranules
    dsimp only
    rw [anchors_storeGranules rest]
    split
    · rfl
    · exact anchors_storeStack d g l
    · rfl
    · rfl

end Sys2Proof.Machine
end

section
/-! SUPPORT. A device that can read and write no stored byte: every extent is in the stack tier, and none of the stack's sites is there.
There what the device goes on with alters stored bytes only by a read of a stripe with queued deltas, and that read raises an event
(03 R87-R95). -/

namespace Sys2Proof.Machine

open Sys2Proof

/-- The event of a descriptor or request of an epoch that is not yet committed, in the East (02 R65). -/
def staleEvent : Out := .console (.event (pg 0x21 0) 2)

/-- Every stack granule is missing with all others of its stripe, no extent has another tier, and no 16-bit epoch is ahead of the map. -/
structure Blind (d : Dev) : Prop where
  sites : d.tiers.sites = []
  stack : ∀ x ∈ d.toll.extents, x.e.tier = .stack
  current : d.xmap.current = {}
  epoch : 131072 ≤ d.xmap.epoch
  live : ∀ pos < 10, deadAt d (pgI 0x31 5 pos) = false

/-- `e` has sent what `a` had and more, none of it the stale event; where it is nothing more, the stored bytes are those of `a`. -/
def Hushed (a e : Dev) : Prop := ∃ l, e.tx = a.tx ++ l ∧ staleEvent ∉ l ∧ (l = [] → e.tiers.mem = a.tiers.mem)

/-- What the device goes on with by itself from `a`, so far: `d`. -/
structure Calm (a d : Dev) : Prop where
  anchored : anchors d = anchors a
  hushed : Blind a → Hushed a d

theorem deadAt_of_sys {d e : Dev} (h : e.sys = d.sys) (page : Nat) : deadAt e page = deadAt d page := by
  simp only [deadAt, pageDead, h]

theorem Blind.of_anchors {d e : Dev} (h : anchors e = anchors d) (hd : Blind d) : Blind e := by
  simp only [anchors, Prod.mk.injEq] at h
  obtain ⟨hsys, hepoch, hcurrent, hexts, hsites⟩ := h
  refine ⟨?_, fun x hx => ?_, hcurrent.trans hd.current, hepoch ▸ hd.epoch, fun pos hpos => (deadAt_of_sys hsys _).trans (hd.live pos hpos)⟩
  · rw [hd.sites] at hsites
    exact List.length_eq_zero_iff.mp hsites
  · have hentry : x.e ∈ d.toll.extents.map (·.e) := hexts ▸ List.mem_map_of_mem hx
    obtain ⟨y, hy, heq⟩ := List.mem_map.mp hentry
    exact heq ▸ hd.stack y hy

namespace Hushed

theorem refl (a : Dev) : Hushed a a := ⟨[], (List.append_nil _).symm, List.not_mem_nil, fun _ => rfl⟩

theorem trans {a d e : Dev} (h : Hushed a d) (h' : Hushed d e) : Hushed a e := by
  obtain ⟨l, htx, hl, hmem⟩ := h
  obtain ⟨l', htx', hl', hmem'⟩ := h'
  refine ⟨l ++ l', by rw [htx', htx, List.append_assoc], by simp [hl, hl'], fun hnil => ?_⟩
  obtain ⟨h1, h2⟩ := List.append_eq_nil_iff.mp hnil
  exact (hmem' h2).trans (hmem h1)

theorem of_sight {d e : Dev} (h : sight e = sight d) : Hushed d e := by
  simp only [sight, Prod.mk.injEq] at h
  obtain ⟨-, hmem, htx⟩ := h
  exact ⟨[], by rw [htx, List.append_nil], List.not_mem_nil, fun _ => hmem⟩

end Hushed

/-! ## Pages -/

theorem pg_ne_stale {code bank loc : Nat} (h : 0x50000 < regionOf code ∨ regionOf code + loc * 0x1000 < 0x50000) :
    pg code bank loc ≠ pg 0x21 0 := by
  have hstale : pg 0x21 0 = 0x50000 := by decide
  rw [hstale, pg, pageBase]
  dsimp only
  omega

namespace Calm

theorem refl (a : Dev) : Calm a a := ⟨rfl, fun _ => .refl a⟩

theorem trans {a d e : Dev} (h : Calm a d) (h' : Calm d e) : Calm a e :=
  ⟨h'.anchored.trans h.anchored, fun ha => (h.hushed ha).trans (h'.hushed (ha.of_anchors h.anchored))⟩

theorem ite {a d e : Dev} {c : Prop} [Decidable c] (hd : Calm a d) (he : Calm a e) : Calm a (if c then d else e) := by
  split
  · exact hd
  · exact he

theorem foldl {α : Type} {a : Dev} {f : Dev → α → Dev} (hf : ∀ {d}, Calm a d → ∀ k, Calm a (f d k)) :
    ∀ (l : List α) {d : Dev}, Calm a d → Calm a (l.foldl f d)
  | [], _, h => h
  | k :: l, _, h => foldl hf l (hf h k)

variable {a d : Dev} (h : Calm a d)
include h

theorem same {e : Dev} (hs : sight e = sight d) : Calm a e := h.trans ⟨anchors_of_sight hs, fun _ => .of_sight hs⟩

theorem blind (ha : Blind a) : Blind d := ha.of_anchors h.anchored

/-! ## What is sent -/

theorem emit {o : Out} (ho : o ≠ staleEvent) : Calm a (emit d o) :=
  h.trans ⟨rfl, fun _ => ⟨[o], rfl, by simpa using ho.symm, fun _ => rfl⟩⟩

theorem raise {page b : Nat} (hp : b ≠ 2 ∨ page ≠ pg 0x21 0) : Calm a (raise d page b) := by
  have ho : Out.console (.event page b) ≠ staleEvent := by
    intro he
    injection he with he
    injection he with hpage hb
    exact hp.elim (fun hne => hne hb) (fun hne => hne hpage)
  unfold Machine.raise
  exact ite h ((h.same (sight_setReg d _ _)).emit ho)

theorem raiseFe {page b : Nat} (hp : b ≠ 2 ∨ page ≠ pg 0x21 0) (f : Fe) : Calm a (raiseFe d page b f) :=
  (h.raise hp).same (sight_recordFe _ page b f)

theorem degrade (bank : Nat) : Calm a (degrade d bank) :=
  raise (d := { d with salv.degraded := true }) (h.same rfl) (.inl (by decide))

theorem count (page off k : Nat) : Calm a (count d page off k) := h.same (sight_count d page off k)

/-! ## The near store -/

theorem vaultFail (v : Nat) : Calm a (vaultFail d v) := by
  have hmarked : Calm a (if v / 32 == 0 then
      { d with tiers.vaultsDown := NSet.add d.tiers.vaultsDown v, tiers.ovfEast := BitVec.allOnes 32 }
    else { d with tiers.vaultsDown := NSet.add d.tiers.vaultsDown v, tiers.ovfWest := BitVec.allOnes 32 }) :=
    ite (h.same rfl) (h.same rfl)
  unfold Machine.vaultFail
  dsimp only
  exact ite h ((hmarked.raiseFe (.inr (pg_ne_stale (by decide))) _).degrade _)

theorem vaultUe (v : Nat) : Calm a (vaultUe d v) := by
  have hnoted (m : NMap (List Nat)) : Calm a { d with tiers.vaultUes := m } := h.same rfl
  unfold Machine.vaultUe
  dsimp only
  exact ite h (ite ((hnoted _).vaultFail v) (hnoted _))

theorem nearUe (c : Acc) (bank g : Nat) : Calm a (nearUe d c bank g) := by
  have hpoisoned := ((h.count (pg 0x30 bank) 0x808 1).raiseFe (page := pg 0x30 bank) (b := 0) (.inl (by decide))
    (feAcc d c c.off cUNCORR)).same (sight_addPoison _ g)
  unfold Machine.nearUe
  dsimp only
  exact ite (hpoisoned.vaultUe _) hpoisoned

end Calm

/-! ## The stack without its sites -/

namespace Blind

variable {d : Dev} (h : Blind d)
include h

theorem siteOf (pos : Nat) : siteOf d pos = none := by
  have hsite (s : Nat) : site d s = { role := .retired, position := 15 } := by simp [site, h.sites]
  simp [Machine.siteOf, hsite, findBelow]

theorem unitState (pos chan stripe : Nat) : unitState d pos chan stripe = .missing := by
  simp [Machine.unitState, h.siteOf]

theorem holderOf (pos chan stripe : Nat) : holderOf d pos chan stripe = pos := by
  simp [Machine.holderOf, h.siteOf]

theorem storedOk (pos chan stripe o : Nat) : storedOk d pos chan stripe o = false := by
  simp [Machine.storedOk, h.unitState]

theorem reconstruct (pos chan stripe o : Nat) : reconstruct d pos chan stripe o = none := by
  have hothers : ((List.range 9).filter (fun p => p != pos)).all (fun p => Machine.storedOk d p chan stripe o) = false := by
    refine List.all_eq_false.mpr ⟨if pos = 0 then 1 else 0, ?_, by simp [h.storedOk]⟩
    split
    · next hpos => simp [hpos]
    · next hpos => simp [Ne.symm hpos]
  simp [Machine.reconstruct, hothers]

theorem wholeCheck {g : Nat} (hg : tierOfCell g = .stack) : wholeCheck d g = cDEGRADED := by
  simp [Machine.wholeCheck, hg, h.unitState]

theorem withheldCell (g : Nat) : withheldCell d g = false := by
  simp [Machine.withheldCell, h.unitState]

theorem applyStripe (chan stripe : Nat) : Blind (applyStripe d chan stripe) := h.of_anchors (anchors_applyStripe d chan stripe)

end Blind

/-- A granule that is none of the stack's, or one of a unit that the stack has. -/
def Placed (g : Nat) : Prop := tierOfCell g = .stack → (stackAt g).pos < 10

theorem raise_tx_live {d : Dev} {page : Nat} (h : deadAt d page = false) (b : Nat) : (raise d page b).tx = d.tx ++ [.console (.event page b)] := by
  rw [raise, h]
  rfl

/-- An event that is raised is heard, whatever the stored bytes. -/
theorem Hushed.of_event {d e : Dev} (htx : e.tx = d.tx) {page : Nat} (hlive : deadAt e page = false) (f : Fe) (g : Nat) :
    Hushed d (addPoison (raiseFe e page 0 f) g) := by
  obtain ⟨regs, hrecord⟩ := recordFe_regs_only (raise e page 0) page 0 f
  refine ⟨[.console (.event page 0)], ?_, by simp [staleEvent], fun hnil => absurd hnil (List.cons_ne_nil _ _)⟩
  rw [raiseFe, hrecord]
  exact (raise_tx_live hlive 0).trans (by rw [htx])

/-- Reading a stack granule applies the deltas of its stripe, and its failure raises an event. -/
theorem Hushed.failedRead {d : Dev} (hb : Blind d) {pos : Nat} (hpos : pos < 10) (chan stripe g : Nat) (f : Fe) :
    Hushed d (addPoison (raiseFe (Machine.applyStripe d chan stripe) (pgI 0x31 5 pos) 0 f) g) := by
  have htx : (applyStripe d chan stripe).tx = d.tx := by
    obtain ⟨r, m, q, heq, -⟩ := applyStripe_parts d chan stripe
    rw [heq]
  exact .of_event htx ((hb.applyStripe chan stripe).live pos hpos) f g

theorem Hushed.readGranule {d : Dev} (hb : Blind d) (c : Acc) {g : Nat} (hg : Placed g) : Hushed d (readGranule d c g).2.2 := by
  have hcalm := Calm.refl d
  have hup {u : StackAt} {s : Nat} (h : Machine.unitState d u.pos u.chan u.stripe = .up s) : False := by
    rw [hb.unitState] at h
    cases h
  fun_cases Machine.readGranule d c g
  case case3 => exact (hcalm.nearUe c _ g).hushed hb
  case case7 h _ _ _ _ => exact (hup h).elim
  case case8 h _ _ _ _ => exact (hup h).elim
  case case9 u _ e l hl =>
    have hnone : Machine.reconstruct e u.pos u.chan u.stripe u.byte_ = none := (hb.applyStripe u.chan u.stripe).reconstruct _ _ _ _
    rw [hnone] at hl
    cases hl
  case case10 hstack u _ e _ page =>
    have hpage : page = pgI 0x31 5 u.pos := congrArg (pgI 0x31 5) ((hb.applyStripe u.chan u.stripe).holderOf _ _ _)
    rw [hpage]
    exact Hushed.failedRead hb (hg hstack) u.chan u.stripe g _
  case case11 => exact (hcalm.nearUe c _ g).hushed hb
  case case14 page _ _ e _ =>
    have hretried : Calm d e := Calm.ite hcalm (hcalm.count page 0x808 _)
    exact (hretried.count page 0x810 1).hushed hb
  case case15 tile _ page _ _ e _ =>
    have hretried : Calm d e := Calm.ite hcalm (hcalm.count page 0x808 _)
    exact (Calm.foldl (fun h k => h.same (sight_addPoison _ (tile + k))) _
      ((hretried.count page 0x818 1).raiseFe (.inl (by decide)) _)).hushed hb
  all_goals exact .refl d

theorem Calm.readGranule {a d : Dev} (h : Calm a d) (c : Acc) {g : Nat} (hg : Blind a → Placed g) : Calm a (readGranule d c g).2.2 :=
  ⟨(anchors_readGranule d c g).trans h.anchored, fun ha => (h.hushed ha).trans (.readGranule (h.blind ha) c (hg ha))⟩

end Sys2Proof.Machine
end

section
/-! SUPPORT. Reads and writes of an extent where the stack has no sites (03 R87, R89, R99; 04 R127). -/

namespace Sys2Proof.Machine

open Sys2Proof

/-! ## Where the granules of a stack extent lie -/

theorem nineStripes_bounded (bank : Nat) (hbank : bank < 2) : ∀ u ∈ nineStripes bank 0, u.1 < 9 ∧ u.2 < 10 := by
  obtain rfl | rfl : bank = 0 ∨ bank = 1 := by omega
  · decide
  · decide

theorem walkIndex_bounded (berth : Nat) {index : Nat} (hindex : index < 65536) :
    (walkIndex (bankOfBerth berth) 0 index).1 < 12582911 ∧ (walkIndex (bankOfBerth berth) 0 index).2 < 10 := by
  have hbank : bankOfBerth berth < 2 := by
    unfold bankOfBerth
    split <;> omega
  have hunit (i : Nat) :
      ((nineStripes (bankOfBerth berth) 0).getD i (0, 0)).1 < 9 ∧ ((nineStripes (bankOfBerth berth) 0).getD i (0, 0)).2 < 10 := by
    by_cases hi : i < (nineStripes (bankOfBerth berth) 0).length
    · rw [List.getD_eq_getElem _ _ hi]
      exact nineStripes_bounded _ hbank _ (List.getElem_mem hi)
    · rw [List.getD_eq_default _ _ (by omega)]
      exact ⟨by decide, by decide⟩
  have hper : index / (if bankOfBerth berth == 0 then 40 else 32) ≤ 2048 := by
    split <;> omega
  refine ⟨?_, (hunit _).2⟩
  have hfirst := (hunit (index % (if bankOfBerth berth == 0 then 40 else 32))).1
  simp only [walkIndex]
  omega

/-- A granule in a tile of the stack: its cell is one of the stack's, and the stack has its unit. -/
structure StackGranule (g : Nat) : Prop where
  tier : tierOfCell g = .stack
  unit : (stackAt g).pos < 10

theorem stackGranule_of_cell {pos stripe b i : Nat} (hpos : pos < 10) (hstripe : stripe < 12582911) (hb : b < 256) (hi : i < 4) :
    StackGranule (stackCell pos 0 stripe b + 64 * i) := by
  refine ⟨?_, ?_⟩
  · unfold tierOfCell hostBase flashBase stackCell
    rw [if_neg (by omega), if_neg (by omega), if_pos (by omega)]
  · simp only [stackAt, stackCell]
    omega

theorem stackGranule_of_extCell {d : Dev} {x : Extent} (hcurrent : d.xmap.current = {}) (hx : x.e.tier = .stack) (off : Nat) {i : Nat}
    (hi : i < 4) : StackGranule (extCell d x off + 64 * i) := by
  have hchans : stackChans {} x.e.berth = [] := by
    have hnone : NMap.get ({} : Berth) [] x.e.berth = {} := rfl
    rw [stackChans, hnone]
    decide
  have hindex : hash16 (localAddr x off) < 65536 := Nat.mod_lt _ (by decide)
  obtain ⟨hstripe, hpos⟩ := walkIndex_bounded x.e.berth hindex
  have hcell : extCell d x off = stackCell (walkIndex (bankOfBerth x.e.berth) 0 (hash16 (localAddr x off))).2 0
      (walkIndex (bankOfBerth x.e.berth) 0 (hash16 (localAddr x off))).1 (localAddr x off % 256) := by
    simp [extCell, cellOf, hx, hcurrent, stackAddrCell, hchans]
  rw [hcell]
  exact stackGranule_of_cell hpos hstripe (Nat.mod_lt _ (by decide)) hi

theorem mem_granulesIn {tile o n g : Nat} (h : g ∈ granulesIn tile o n) : ∃ i < 4, g = tile + 64 * i := by
  simp only [granulesIn, List.mem_map, List.mem_filter, List.mem_range] at h
  obtain ⟨i, ⟨hi, -⟩, rfl⟩ := h
  exact ⟨i, hi, rfl⟩

theorem Blind.granules {d : Dev} (hb : Blind d) {x : Extent} (hx : x.e.tier = .stack) {off o n g : Nat}
    (hg : g ∈ granulesIn (extCell d x off) o n) : StackGranule g := by
  obtain ⟨i, hi, rfl⟩ := mem_granulesIn hg
  exact stackGranule_of_extCell hb.current hx off hi

/-! ## Reads -/

theorem Calm.readGranules {a : Dev} (c : Acc) : ∀ (gs : List Nat) {d : Dev}, Calm a d → (Blind a → ∀ g ∈ gs, StackGranule g) →
    Calm a (readGranules c gs d).2.2
  | [], _, h, _ => h
  | g :: gs, d, h, hgs => by
    have hrest := readGranules c gs (h.readGranule c (fun ha _ => (hgs ha g (.head _)).unit)) (fun ha g' hg' => hgs ha g' (.tail _ hg'))
    unfold Machine.readGranules
    dsimp only
    split
    · exact hrest
    · exact hrest

theorem Calm.readPlain {a d : Dev} (h : Calm a d) {x : Extent} (hx : Blind a → x.e.tier = .stack) (c : Acc) (off n : Nat) :
    Calm a (readPlain d x c off n).2.2 := by
  have hread := Calm.readGranules c (granulesIn (extCell d x (off / 256 * 256)) (off % 256) n) h (fun ha g hg => (h.blind ha).granules (hx ha) hg)
  unfold Machine.readPlain
  dsimp only
  split
  · exact h
  · split
    · exact hread.same (sight_stallRebuilt _ _ _ _)
    · exact hread

/-! ## Writes -/

theorem Blind.readGranule_fails {d : Dev} (hb : Blind d) (c : Acc) {g : Nat} (hg : StackGranule g) : (readGranule d c g).1 ≠ cOK := by
  have hdegraded : cDEGRADED ≠ cOK := by decide
  have hpoison : cPOISON ≠ cOK := by decide
  have huncorr : cUNCORR ≠ cOK := by decide
  have hup {u : StackAt} {s : Nat} (h : Machine.unitState d u.pos u.chan u.stripe = .up s) : False := by
    rw [hb.unitState] at h
    cases h
  have htier {t : Tier} (h : tierOfCell g = t) : t = .stack := h.symm.trans hg.tier
  fun_cases Machine.readGranule d c g
  case case1 => exact hdegraded
  case case2 => exact hpoison
  case case5 => exact hdegraded
  case case6 h _ => exact (hup h).elim
  case case7 h _ _ _ _ => exact (hup h).elim
  case case9 u _ e l hl =>
    have hnone : Machine.reconstruct e u.pos u.chan u.stripe u.byte_ = none := (hb.applyStripe u.chan u.stripe).reconstruct _ _ _ _
    rw [hnone] at hl
    cases hl
  case case4 => cases htier ‹tierOfCell g = .near›
  case case12 => cases htier ‹tierOfCell g = .flash›
  case case13 => cases htier ‹tierOfCell g = .flash›
  case case14 => cases htier ‹tierOfCell g = .flash›
  case case16 => cases htier ‹tierOfCell g = .host›
  all_goals exact huncorr

/-- The check of a stack granule fails at once. -/
theorem Blind.checkGranule {d : Dev} (hb : Blind d) (c : Acc) (tile o n : Nat) {g : Nat} (hg : StackGranule g) :
    (checkGranule c tile o n d g).1 = cDEGRADED ∧ (checkGranule c tile o n d g).2.2 = d := by
  have hwhole := hb.wholeCheck hg.tier
  unfold Machine.checkGranule
  rw [hwhole, hg.tier]
  split
  · exact ⟨rfl, rfl⟩
  · exact ⟨rfl, rfl⟩

theorem Blind.checkGranules {d : Dev} (hb : Blind d) (c : Acc) (tile o n : Nat) : ∀ gs : List Nat, (∀ g ∈ gs, StackGranule g) →
    (checkGranules c tile o n gs d).2.2 = d ∧ ((checkGranules c tile o n gs d).1 = cOK → gs = [])
  | [], _ => ⟨rfl, fun _ => rfl⟩
  | g :: gs, hgs => by
    obtain ⟨hcode, hdev⟩ := hb.checkGranule c tile o n (hgs g (.head _))
    have hrest := (hb.checkGranules c tile o n gs (fun g' hg' => hgs g' (.tail _ hg'))).1
    have hne : (cDEGRADED == cOK) = false := by decide
    rw [checkGranules_cons]
    simp only [hcode, hdev, hrest, hne, Bool.false_eq_true, if_false]
    exact ⟨trivial, fun h => absurd h (by decide)⟩

theorem Blind.readRest (c : Acc) : ∀ (gs : List Nat) {d : Dev}, Blind d → (∀ g ∈ gs, StackGranule g) →
    (readRest c gs d).1 = [] ∧ Hushed d (readRest c gs d).2
  | [], d, _, _ => ⟨rfl, .refl d⟩
  | g :: gs, d, hb, hgs => by
    have hg := hgs g (.head _)
    have hfails : ((readGranule d c g).1 == cOK) = false := by simpa using hb.readGranule_fails c hg
    obtain ⟨hrest, hheard⟩ := Blind.readRest c gs (hb.of_anchors (anchors_readGranule d c g)) (fun g' hg' => hgs g' (.tail _ hg'))
    refine ⟨?_, (Hushed.readGranule hb c (fun _ => hg.unit)).trans hheard⟩
    simp only [Machine.readRest, hfails, hrest, Bool.false_eq_true, if_false]

/-- What a write notes of its tile once it has been stored. -/
theorem sight_noteWritten (d : Dev) (x : Extent) (off : Nat) :
    sight (markMove (if x.e.zero then onExt d x.e.base (fun x => { x with written := NSet.add x.written (tileIn x off) }) else d)
      x.e.base (tileIn x off)) = sight d := by
  rw [sight_markMove]
  split
  · exact sight_onExt d _ (fun _ => rfl)
  · rfl

theorem sight_stageTile (d : Dev) (bank tile : Nat) (gs : List Nat) (l : List Byte) : sight (stageTile d bank tile gs l) = sight d := by
  unfold stageTile
  dsimp only
  split
  · exact (sight_with_tiers _ rfl rfl).trans (sight_foldl sight_cleanGranule gs d)
  · exact (sight_with_tiers _ rfl rfl).trans (sight_foldl sight_cleanGranule gs _)

@[simp] theorem anchors_writePlain (d : Dev) (x : Extent) (c : Acc) (off : Nat) (l : List Byte) : anchors (writePlain d x c off l).2 = anchors d := by
  have hnoted (e : Dev) := anchors_of_sight (sight_noteWritten e x off)
  unfold writePlain
  dsimp only
  generalize (if zeroTile x off = true then 0 else off % 256) = o
  generalize (if zeroTile x off = true then 256 else l.length) = n
  have hread := anchors_checkGranules c (extCell d x (off / 256 * 256)) o n (granulesIn (extCell d x (off / 256 * 256)) o n) d
  revert hread
  generalize checkGranules c (extCell d x (off / 256 * 256)) o n (granulesIn (extCell d x (off / 256 * 256)) o n) d = r
  intro hread
  split
  · exact hread
  · split
    · refine (hnoted _).trans ((anchors_of_sight (sight_stageTile _ _ _ _ _)).trans (anchors_ite hread ?_))
      exact (anchors_of_sight (sight_stallRebuilt _ _ _ _)).trans ((anchors_readGranules _ _ _).trans hread)
    · split
      · exact (hnoted _).trans ((anchors_emit _ _).trans ((anchors_storeGranules _ _).trans hread))
      · exact (anchors_stall _ _ _ _).trans hread
    · refine (hnoted _).trans ((anchors_storeGranules _ _).trans ?_)
      split
      · exact (anchors_readRest _ _ _).trans hread
      · exact hread

theorem Hushed.writePlain {d : Dev} (hb : Blind d) {x : Extent} (hx : x.e.tier = .stack) (c : Acc) (off : Nat) (l : List Byte) :
    Hushed d (writePlain d x c off l).2 := by
  have hnoted (e : Dev) := Hushed.of_sight (sight_noteWritten e x off)
  have hgs (o n : Nat) : ∀ g ∈ granulesIn (extCell d x (off / 256 * 256)) o n, StackGranule g := fun g hg => hb.granules hx hg
  unfold Machine.writePlain
  dsimp only
  rw [hx]
  generalize (if zeroTile x off = true then 0 else off % 256) = o
  generalize (if zeroTile x off = true then 256 else l.length) = n
  obtain ⟨hdev, hnone⟩ := hb.checkGranules c (extCell d x (off / 256 * 256)) o n _ (hgs o n)
  revert hdev hnone
  generalize checkGranules c (extCell d x (off / 256 * 256)) o n (granulesIn (extCell d x (off / 256 * 256)) o n) d = r
  obtain ⟨code, bytes, e⟩ := r
  intro hdev hnone
  obtain rfl : e = d := hdev
  split
  · exact .refl _
  · next hcode =>
    have hempty := hnone (by simpa using hcode)
    obtain ⟨hrest, hheard⟩ := Blind.readRest c ((granulesIn (extCell e x (off / 256 * 256)) 0 256).filter
      (fun g => !(granulesIn (extCell e x (off / 256 * 256)) o n).contains g)) hb (fun g hg => hgs 0 256 g (List.mem_filter.mp hg).1)
    rw [hempty] at hrest hheard
    refine Hushed.trans ?_ (hnoted _)
    rw [touched, hempty, List.map_nil, List.nil_append]
    split
    · rw [hrest]
      exact hheard
    · exact .refl _

theorem Calm.writePlain {a d : Dev} (h : Calm a d) {x : Extent} (hx : Blind a → x.e.tier = .stack) (c : Acc) (off : Nat) (l : List Byte) :
    Calm a (writePlain d x c off l).2 :=
  ⟨(anchors_writePlain d x c off l).trans h.anchored, fun ha => (h.hushed ha).trans (.writePlain (h.blind ha) (hx ha) c off l)⟩

theorem Calm.poisonAt {a d : Dev} (h : Calm a d) {x : Extent} (hx : Blind a → x.e.tier = .stack) (off : Nat) : Calm a (poisonAt d x off) := by
  unfold Machine.poisonAt
  dsimp only
  exact (ite (h.writePlain hx _ off []) h).same (sight_addPoison _ _)

end Sys2Proof.Machine
end

section
/-! SUPPORT. What the device goes on with by itself is `Calm`: answers, the Toll, effects at the tier, and requests at their home
(02 R48, R50; 04 R123-R144; 05 R155-R175). -/

namespace Sys2Proof.Machine.Calm

open Sys2Proof

theorem snd_ite {α : Type} {a : Dev} {c : Prop} [Decidable c] {r t : α × Dev} (hr : Calm a r.2) (ht : Calm a t.2) :
    Calm a (if c then r else t).2 := by
  split
  · exact hr
  · exact ht

variable {a d : Dev} (h : Calm a d)
include h

theorem stack_of_mem {x : Extent} (hx : x ∈ d.toll.extents) (ha : Blind a) : x.e.tier = .stack := (h.blind ha).stack x hx

theorem stack_of_extOf {base : Nat} {x : Extent} (hx : extOf d base = some x) (ha : Blind a) : x.e.tier = .stack :=
  h.stack_of_mem (List.mem_of_find?_eq_some hx) ha

/-! ## Answers -/

theorem setCredits (c : Prop) [Decidable c] (bank src cred : Nat) : Calm a (if c then Machine.setCredits d bank src cred else d) :=
  ite (h.same rfl) h

theorem notifyDone (berth ring status : Nat) : Calm a (notifyDone d berth ring status) := by
  unfold Machine.notifyDone
  refine ite h ?_
  exact (h.same (sight_setRing d berth ring { ringOf d berth ring with notifyFail := true })).raiseFe (.inl (by decide)) _

/-- Landing `n` answers, and the duplicates of its request take the same answer. -/
theorem respond {e : Dev} (he : sight e = sight d) (src id : Nat) (m m' : Msg) :
    Calm a (answerDuplicates (noteOutcome e src id m) src id m') :=
  h.same ((sight_answerDuplicates _ _ _ _).trans he)

theorem answerReq (q : Req) (bank : Nat) (berth : Option Nat) (input status : Nat) (data : List Byte) (grant : Nat) :
    Calm a (answerReq d q bank berth input status data grant) := by
  have hcred (k : Nat) := h.setCredits (q.table = true) bank q.h.src.toNat k
  unfold Machine.answerReq
  dsimp only
  split
  · exact (hcred _).respond (sight_sendRsp _ _ _ _ _ _ _ _) _ _ _ _
  · exact (hcred _).same (sight_setPiece _ _ _ _ _ _)
  · exact foldl (fun h c => h.respond rfl _ _ _ _) _ ((hcred _).same (sight_sendRsp _ _ _ _ _ _ _ _))
  · exact h
  · refine ite ((hcred _).same (sight_gotRead _ _ _ _ _ _)) (ite ((hcred _).notifyDone _ _ _) ((hcred _).same (sight_noteItem _ _ _ _)))
  · exact h.same rfl
  · exact ite (h.same rfl) (ite h (h.same (sight_snapLost _ _ _ _ _)))

theorem refuseReq (q : Req) (status bank : Nat) : Calm a (refuseReq d q status bank) := h.answerReq _ _ _ _ _ _ _

theorem crossBack (q : Req) (entry bank : Nat) : Calm a (crossBack d q entry bank).1 := h.same (sight_crossBack d q entry bank)

theorem refuseHome (q : Req) (entry bank status : Nat) : Calm a (refuseHome d q entry bank status) :=
  (h.crossBack q entry bank).answerReq _ _ _ _ _ _ _

theorem cross (m n : Nat) (p : CwPair) (cls : Nat) : Calm a (cross d m n p cls) := h.same (sight_cross d m n p cls)

theorem setWait (id : Nat) (w : Wait) : Calm a (setWait d id w) := h.same rfl

theorem stall (berth cause cyc : Nat) : Calm a (stall d berth cause cyc) := h.same (sight_stall d berth cause cyc)

theorem finishFlying (f : Flying) (status : Nat) (data : List Byte) (grant : Nat) : Calm a (finishFlying d f status data grant) := by
  have hcross (framed : Bool) : Calm a (if framed = true then d else Machine.cross d f.homeBank f.entry .answer 3) := ite h (h.cross _ _ _ _)
  exact (((hcross _).same (sight_noteEnd _ f status)).answerReq f.q f.homeBank _ _ status data grant).same (sight_dropFlying _ f.id)

/-! ## The Toll -/

theorem test5 (bank : Nat) (hdr : Hdr) : Calm a (test5 d bank hdr).2 := by
  refine ⟨?_, fun ha => ?_⟩
  · unfold Machine.test5
    split
    · exact h.anchored
    · exact h.anchored
    · exact (anchors_raiseFe _ _ _ _).trans h.anchored
  · have hepoch : 131072 ≤ d.xmap.epoch := (h.blind ha).epoch
    have hsmall : hdr.epoch.toNat < 65536 := hdr.epoch.isLt
    have hknown : epochIs d hdr.epoch.toNat ≠ .unknown := by
      have hsub : hdr.epoch.toNat + 65536 - d.xmap.epoch = 0 := by omega
      unfold epochIs
      split
      · exact fun he => by cases he
      · simp [hsub]
    unfold Machine.test5
    split
    · exact h.hushed ha
    · exact h.hushed ha
    · next hunknown => exact absurd hunknown hknown

theorem jobTests (bank : Nat) (op : Op) (hdr : Hdr) (j : Job) : Calm a (tollTests.jobTests d bank op hdr j).2 := by
  have htest := h.test5 bank hdr
  unfold tollTests.jobTests
  dsimp only
  refine snd_ite h (snd_ite (snd_ite htest htest) ?_)
  split
  · exact h
  · split
    · exact snd_ite (snd_ite h htest) h
    · exact h
    · exact snd_ite htest htest

theorem tollTests (bank : Nat) (op : Op) (hdr : Hdr) (engine : Bool) : Calm a (tollTests d bank op hdr engine).2 := by
  have hnoted : Calm a (if (hdr.node.toNat != d.xmap.node) = true then
      Machine.raiseFe (Machine.count d (pg 0x20 bank) 0x800) (pg 0x20 bank) 2 (feReq d hdr cDENIED) else d) :=
    ite ((h.count _ _ _).raiseFe (.inr (pg_ne_stale (by decide))) _) h
  unfold Machine.tollTests
  dsimp only
  revert hnoted
  generalize (if (hdr.node.toNat != d.xmap.node) = true then Machine.raiseFe _ _ _ _ else d) = e
  intro he
  have htest := he.test5 bank hdr
  have hjob (j : Job) (c : Prop) [Decidable c] :
      Calm a (if c then (TollSays.refuse cDENIED, e) else Machine.tollTests.jobTests e bank op hdr j).2 := snd_ite he (he.jobTests _ _ _ _)
  refine snd_ite he ?_
  split
  · split
    · exact snd_ite (snd_ite he (snd_ite htest htest)) (hjob _ _)
    · exact hjob _ _
  · exact hjob _ _

theorem tollCheck (bank : Nat) (op : Op) (hdr : Hdr) (engine : Bool) : Calm a (tollCheck d bank op hdr engine).2 :=
  snd_ite h (snd_ite h (h.tollTests bank op hdr engine))

theorem doorbellToll (bank : Nat) (op : Op) (hdr : Hdr) (engine : Bool) : Calm a (doorbellToll d bank op hdr engine).2 := by
  have htest := h.test5 bank hdr
  exact snd_ite h (snd_ite h (snd_ite ((h.count _ _ _).raiseFe (.inr (pg_ne_stale (by decide))) _)
    (snd_ite h (snd_ite h (snd_ite h (snd_ite htest htest))))))

theorem tollFor (entry : Nat) (op : Op) (hdr : Hdr) (engine : Bool) : Calm a (tollFor d entry op hdr engine).2 := by
  unfold Machine.tollFor
  split
  · exact h.doorbellToll _ _ _ _
  · exact h.tollCheck _ _ _ _

omit h in
theorem combToll (entry : Nat) (hdr : Hdr) : ∀ (l : List (Nat × Nat × PartIs)) {d : Dev}, Calm a d → Calm a (combToll d entry hdr l).2.2
  | [], _, h => h
  | c :: l, d, h => by
    unfold Machine.combToll
    dsimp only
    split
    · exact combToll entry hdr l h
    · split
      · exact combToll entry hdr l (h.tollFor _ _ _ _)
      · exact combToll entry hdr l (h.tollFor _ _ _ _)

theorem tollOf (q : Req) (entry : Nat) : Calm a (tollOf d q entry).2.2 := by
  unfold Machine.tollOf
  split
  · exact combToll entry _ _ h
  · exact h.tollFor _ _ _ _
  · exact h.tollFor _ _ _ _
  · exact h.tollFor _ _ _ _

/-! ## Fares -/

theorem farePass (op : Op) (hdr : Hdr) : Calm a (farePass d op hdr).2 := by
  have hfare (f : NMap FareJob) : Calm a { d with sched.fare := f } := h.same rfl
  exact snd_ite h (snd_ite (((hfare _).count (pg 0x71 0) 0x800 1).raiseFe (page := pg 0x71 0) (b := 0) (.inl (by decide)) _) (hfare _))

omit h in
theorem fareComb (hdr : Hdr) : ∀ (l : List (Nat × Nat × PartIs)) {d : Dev}, Calm a d → Calm a (fareComb d hdr l).2.2
  | [], _, h => h
  | c :: l, d, h => by
    unfold Machine.fareComb
    dsimp only
    split
    · exact fareComb hdr l h
    · split
      · exact fareComb hdr l (h.farePass _ _)
      · exact fareComb hdr l (h.farePass _ _)

theorem fareOn (q : Req) : Calm a (fareOn d q).2.2 := by
  unfold Machine.fareOn
  split
  · exact h.farePass _ _
  · exact h.farePass _ _
  · exact fareComb _ _ h
  all_goals exact h

end Sys2Proof.Machine.Calm
end

section
/-! SUPPORT. Requests at their home, and what they set going, are `Calm` (04 R134-R144; 05 R155-R175). -/

namespace Sys2Proof.Machine.Calm

open Sys2Proof

variable {a d : Dev} (h : Calm a d)
include h

/-! ## Lines and sums -/

theorem poisonLine (bank line agent : Nat) : Calm a (poisonLine d bank line agent) := by
  unfold Machine.poisonLine
  split
  · exact h
  · next x off hx =>
    have hmem : x ∈ d.toll.extents := by
      unfold offsetOfLine at hx
      split at hx
      · next y hy =>
        obtain ⟨rfl, -⟩ := Prod.mk.inj (Option.some.inj hx)
        exact List.mem_of_find?_eq_some hy
      · cases hx
    exact ((h.poisonAt (h.stack_of_mem hmem) off).count (pg 0x40 bank) 0x820 1).raiseFe (.inl (by decide)) _

theorem countTwice (c : Prop) [Decidable c] (p o k p' o' k' : Nat) :
    Calm a (if c then Machine.count (Machine.count d p o k) p' o' k' else d) := ite ((h.count p o k).count p' o' k') h

theorem openTrans (bank line : Nat) (tk : TransKind) (kind : SnoopKind) (slots waiters : List Nat) :
    Calm a (openTrans d bank line tk kind slots waiters) := by
  have hgroup (g : Nat) : Calm a (if g == 0 then d else { d with wharf.nextGroup := g + 1 }) := ite h (h.same rfl)
  unfold Machine.openTrans
  dsimp only
  generalize (if (kind == .inv && decide (1 < slots.length)) = true then d.wharf.nextGroup else 0) = g
  have hsent := (hgroup g).same (sight_sendSnoops bank line kind g slots _)
  revert hsent
  generalize sendSnoops bank line kind g slots _ = r
  intro hsent
  refine same (countTwice ?_ _ _ _ _ _ _ _) (sight_with_rest _ _ _ _ _ _ _ _ _)
  refine ite (hsent.same (sight_dirMod _ _ _ _)) ?_
  split
  · exact hsent
  · exact same (ite hsent (hsent.poisonLine _ _ _)) (sight_dirDrop _ _ _)

theorem recallOwned (x : Extent) : Calm a (recallOwned d x) := by
  unfold Machine.recallOwned
  dsimp only
  exact ite (foldl (fun h e => h.openTrans _ _ _ _ _ _) _ h) h

theorem loseSums (bank : Nat) {x : Extent} (hx : Blind a → x.e.tier = .stack) (g code : Nat) : Calm a (loseSums d bank x g code) :=
  ((h.poisonAt hx g).count (pg 0x41 bank) 0x820 1).raiseFe (.inl (by decide)) _

theorem mayOpen (bank line : Nat) (tk : TransKind) (kind : SnoopKind) (slots : List Nat) (id : Nat) {e : Dev}
    (he : mayOpen d bank line tk kind slots id = .wait e) : Calm a e := by
  unfold Machine.mayOpen at he
  split at he
  · injection he with he
    exact he ▸ h.openTrans _ _ _ _ _ _
  · cases he

theorem goElseOpen (c : Prop) [Decidable c] (bank line : Nat) (tk : TransKind) (kind : SnoopKind) (slots : List Nat) (id : Nat) {e : Dev}
    (he : (if c then LineSays.go else Machine.mayOpen d bank line tk kind slots id) = .wait e) : Calm a e := by
  split at he
  · cases he
  · exact h.mayOpen _ _ _ _ _ _ he

theorem joinSet (bank set id : Nat) : Calm a (joinSet d bank set id) := h.same (sight_joinSet d bank set id)

theorem needWay (bank line id : Nat) {e : Dev} (he : needWay d bank line id = .wait e) : Calm a e := by
  unfold Machine.needWay at he
  dsimp only at he
  split at he
  · cases he
  · split at he
    · injection he with he
      exact he ▸ h.joinSet _ _ _
    · split at he
      · exact h.mayOpen _ _ _ _ _ _ he
      · exact h.mayOpen _ _ _ _ _ _ he

theorem askLine (bank line id : Nat) (ask : LineAsk) {e : Dev} (he : askLine d bank line id ask = .wait e) : Calm a e := by
  have hjoin : Calm a (joinTrans d bank line id) := h.same rfl
  unfold Machine.askLine at he
  split at he
  · injection he with he
    exact he ▸ h.joinSet _ _ _
  · split at he
    · injection he with he
      exact he ▸ hjoin
    · split at he
      · split at he
        · cases he
        · cases he
        all_goals exact h.needWay _ _ _ he
      · split at he
        · cases he
        · cases he
        · exact h.mayOpen _ _ _ _ _ _ he
        · exact h.goElseOpen _ _ _ _ _ _ _ he
        · exact h.goElseOpen _ _ _ _ _ _ _ he
        · exact h.mayOpen _ _ _ _ _ _ he
        · exact h.mayOpen _ _ _ _ _ _ he
        · exact h.mayOpen _ _ _ _ _ _ he
        · exact h.mayOpen _ _ _ _ _ _ he
        · exact h.goElseOpen _ _ _ _ _ _ _ he

theorem askLines (bank id : Nat) (ask : LineAsk) : ∀ (l : List Nat) {e : Dev}, askLines d bank id ask l = .wait e → Calm a e
  | [], _, he => by cases he
  | l :: ls, e, he => by
    unfold Machine.askLines at he
    split at he
    · exact askLines bank id ask ls he
    · exact h.askLine _ _ _ _ he

end Sys2Proof.Machine.Calm
end

section
/-! SUPPORT. The operations at their home are `Calm` (04 R134-R144; 05 R155-R175; 14 R443-R459). -/

namespace Sys2Proof.Machine.Calm

open Sys2Proof

/-- An effect on an extent, wherever it is performed. -/
def Effects (a : Dev) (eff : Dev → Effect) : Prop := ∀ {d : Dev}, Calm a d → Calm a (eff d).dev

variable {a d : Dev} (h : Calm a d)
include h

/-! ## Effects at the tier -/

section
variable {x : Extent} (hx : Blind a → x.e.tier = .stack)
include hx

omit h in
theorem effAtomic (q : Req) : Effects a (fun d => effAtomic d q x) := by
  intro d h
  have hread := h.readPlain hx (accOf q x) q.h.offset.toNat (lenOf q.h)
  dsimp only
  unfold Machine.effAtomic
  dsimp only
  split
  · exact hread
  · split
    · exact hread
    · split
      · exact hread.writePlain hx _ _ _
      · exact hread.writePlain hx _ _ _

omit h in
theorem effPublish (q : Req) : Effects a (fun d => effPublish d q x) := by
  intro d h
  have hread := h.readPlain hx (accOf q x) q.h.offset.toNat 8
  dsimp only
  unfold Machine.effPublish
  dsimp only
  split
  · exact hread
  · split
    · exact hread
    · exact hread.writePlain hx _ _ _

omit h in
theorem effWrite (q : Req) : Effects a (fun d => effWrite d q x) := fun h => h.writePlain hx _ _ _

omit h in
theorem effProtect (q : Req) : Effects a (fun d => effProtect d q x) := by
  intro d h
  have hcounted := h.count (pg 0x34 (extBank x)) 0x830 1
  dsimp only
  unfold Machine.effProtect
  dsimp only
  split
  · exact hcounted
  · split
    · exact hcounted
    · exact writePlain (x := stored x) hcounted hx _ _ _

end

/-! ## What follows an effect -/

theorem fillCache (x : Extent) (bank job off n : Nat) : Calm a (fillCache d x bank job off n) := by
  unfold Machine.fillCache
  exact ite h (foldl (fun h g => ite (h.same (sight_cacheFill _ _ _ _ _)) h) _ h)

omit h in
theorem settleReq (f : Flying) {e : Effect} (he : Calm a e.dev) (grant : Nat) : Calm a (settleReq f e grant) :=
  ite (he.setWait _ _) (he.finishFlying _ _ _ _)

theorem commit (f : Flying) (x : Extent) (ready : Bool) {eff : Dev → Effect} (heff : Effects a eff) {after : Dev → Dev}
    (hafter : ∀ d, sight (after d) = sight d) : Calm a (commit d f x ready eff after) := by
  have hdone {d : Dev} (h : Calm a d) : Calm a (after (cacheAfter (eff d).dev f)) :=
    (heff h).same ((hafter _).trans (sight_cacheAfter _ f))
  unfold Machine.commit
  dsimp only
  split
  · refine settleReq f ?_ 0
    split
    · exact hdone h
    · exact heff h
  · refine ite (settleReq f (hdone h) 0) (ite (h.finishFlying _ _ _ _) (ite (h.finishFlying _ _ _ _) ?_))
    have hsent (off : Nat) (old new : List Byte) (ts : List Target) := h.same (sight_sendTargets x off old new f.id f.q.h.job.toNat ts d)
    exact ite (settleReq f (hdone (hsent _ _ _ _)) 0) ((hsent _ _ _ _).setWait _ _)

theorem acquireDrop (bank job : Nat) : Calm a (acquireDrop d bank job) := h.same (sight_acquireDrop d bank job)

theorem readNow (f : Flying) (x : Extent) {y : Extent} (hy : Blind a → y.e.tier = .stack) (grant : Nat) :
    Calm a (readNow d f x y grant) := by
  have hread (member : Bool) (c : Acc) (off n : Nat) : Calm a (Machine.readPlain d (if member = true then stored y else y) c off n).2.2 := by
    refine h.readPlain (fun ha => ?_) c off n
    split
    · exact hy ha
    · exact hy ha
  unfold Machine.readNow
  dsimp only
  exact (ite ((hread _ _ _ _).acquireDrop _ _) (ite ((hread _ _ _ _).fillCache x _ _ _ _) (hread _ _ _ _))).finishFlying _ _ _ _

/-! ## Waiting for a tier -/

theorem toTable (f : Flying) (x : Extent) (w : Wait) : Calm a (toTable d f x w) :=
  ite (h.setWait _ _) (((h.stall _ _ _).raise (.inr (pg_ne_stale (by decide)))).finishFlying _ _ _ _)

theorem toTier (f : Flying) (x : Extent) : Calm a (toTier d f x) := h.toTable _ _ _

theorem toStage (f : Flying) (x : Extent) : Calm a (toStage d f x) :=
  ite h (ite ((h.toTable _ _ _).stall _ _ _) (h.toTable _ _ _))

theorem readHost (p id : Nat) (use : HostUse) (cell len : Nat) : Calm a (readHost d p id use cell len) := by
  have hkept (r : HostRead) : Calm a (onPort d p (fun pt => { pt with hostReads := pt.hostReads ++ [r] })) := h.same rfl
  exact ite ((hkept _).emit (by intro he; cases he)) (hkept _)

theorem askHost (f : Flying) (x : Extent) : Calm a (askHost d f x) :=
  ite ((h.stall _ _ _).finishFlying _ _ _ _) (ite (h.toTier _ _) ((h.toTier _ _).readHost _ _ _ _ _))

theorem readTier (f : Flying) {x : Extent} (hx : Blind a → x.e.tier = .stack) (grant : Nat) : Calm a (readTier d f x grant) := by
  have hnow := h.readNow f x hx grant
  unfold Machine.readTier
  dsimp only
  refine ite hnow ?_
  split
  · exact ite hnow (h.toTier _ _)
  · exact h.askHost _ _
  · exact hnow

/-! ## Sums and copies -/

theorem startWb (bank g : Nat) (ids : List Nat) : Calm a (startWb d bank g ids) := h.same (sight_startWb d bank g ids)

theorem performEadd (f : Flying) (x : Extent) : Calm a (performEadd d f x) := by
  unfold Machine.performEadd
  dsimp only
  refine ite (h.finishFlying _ _ _ _) ?_
  split
  · refine ite ((h.startWb _ _ _).setWait _ _) (ite ?_ ((h.startWb _ _ _).setWait _ _))
    exact finishFlying (count (h.same ((sight_with_rest _ _ _ _ _ _ _ _ _).trans (sight_accumMod _ _ _ _))) _ _ _) _ _ _ _
  · refine ite ?_ ?_
    · exact finishFlying (count (count (h.same (sight_with_rest _ _ _ _ _ _ _ _ _)) _ _ _) _ _ _) _ _ _ _
    · split
      · exact ((h.startWb _ _ _).count _ _ _).setWait _ _
      · exact ((h.count _ _ _).same (sight_with_rest _ _ _ _ _ _ _ _ _)).setWait _ _

theorem performFlush (f : Flying) : Calm a (performFlush d f) := by
  unfold Machine.performFlush
  dsimp only
  refine ite (h.finishFlying _ _ _ _) ?_
  exact ((foldl (fun h c => h.startWb _ _ _) _ h).same (sight_with_rest _ _ _ _ _ _ _ _ _)).setWait _ _

theorem noGrant (f : Flying) {x : Extent} (hx : Blind a → x.e.tier = .stack) : Calm a (noGrant d f x) :=
  ite ((h.count _ _ _).finishFlying _ _ _ _) ((h.count _ _ _).readTier f hx 0)

theorem grantCopy (f : Flying) {x : Extent} (hx : Blind a → x.e.tier = .stack) (slot line : Nat) : Calm a (grantCopy d f x slot line) := by
  have hput {d : Dev} (h : Calm a d) (own : Bool) :
      Calm a (if own = true then grantOwned d f.homeBank line slot else grantShared d f.homeBank line slot) :=
    ite (h.same (sight_grantOwned d _ _ _)) (h.same (sight_grantShared d _ _ _))
  have hread := h.readPlain hx
  unfold Machine.grantCopy
  dsimp only
  refine ite ((hput h _).finishFlying _ _ _ _) (ite ?_ ((hread _ _ _).finishFlying _ _ _ _))
  exact (ite ((hput (hread _ _ _) _).acquireDrop _ _) (hput (hread _ _ _) _)).finishFlying _ _ _ _

theorem performEvict (f : Flying) (x : Extent) : Calm a (performEvict d f x) := by
  unfold Machine.performEvict
  dsimp only
  refine finishFlying ?_ _ _ _ _
  split
  · exact ite (ite (h.same rfl) (h.same rfl)) h
  · exact h

/-! ## Operations -/

theorem reconWait {f : Flying} {x : Extent} {e : Dev} (he : reconWait d f x = some e) : Calm a e := by
  have hrecon (off job : Nat) (l : List Nat) := h.same (sight_startRecon d x off job l)
  unfold Machine.reconWait at he
  dsimp only at he
  split at he
  · split at he
    · obtain rfl := Option.some.inj he
      exact h.finishFlying _ _ _ _
    · split at he
      · obtain rfl := Option.some.inj he
        exact (hrecon _ _ _).setWait _ _
      · obtain rfl := Option.some.inj he
        exact ((hrecon _ _ _).same (sight_tileLost _ _ _)).finishFlying _ _ _ _
  · cases he

theorem storeNow (f : Flying) {x : Extent} (hx : Blind a → x.e.tier = .stack) (ready : Bool) : Calm a (storeNow d f x ready) :=
  h.commit f x ready (effWrite hx f.q) (sight_fillMark x _)

theorem performOp (f : Flying) {x : Extent} (hx : Blind a → x.e.tier = .stack) (ready : Bool) : Calm a (performOp d f x ready) := by
  unfold Machine.performOp
  dsimp only
  split
  · exact h.readTier f hx 0
  · exact h.readTier f hx 0
  · refine ite (h.toStage _ _) (ite (h.commit f x true (effProtect hx f.q) (fun d => ?_)) (ite (h.askHost _ _) (h.storeNow f hx ready)))
    split
    · rfl
    · exact sight_fillMark x _ d
  · refine ite (h.commit f x ready (effWrite hx f.q) (fun _ => rfl)) (ite ?_ ((h.count _ _ _).finishFlying _ _ _ _))
    exact (h.same (sight_dirDrop d _ _)).commit f x ready (effWrite hx f.q) (fun _ => rfl)
  · exact h.performEvict _ _
  · exact h.commit f x ready (effAtomic hx f.q) (fun _ => rfl)
  · exact h.commit f x ready (effPublish hx f.q) (fun _ => rfl)
  · exact h.performEadd _ _
  · exact h.performFlush _
  · exact h.finishFlying _ _ _ _
  · exact h.finishFlying _ _ _ _
  · exact h.finishFlying _ _ _ _
  all_goals
    split
    · exact ite (h.grantCopy f hx _ _) (h.noGrant f hx)
    · exact h.noGrant f hx

end Sys2Proof.Machine.Calm
end

section
/-! SUPPORT. What goes on by itself until nothing more happens is `Calm`: closed transactions, requests that enter, the ports, the walks
and the Tow's queues (02 R53; 03 R100-R112; 04 R123-R142; 05 R155-R175; 13 R404-R417). -/

namespace Sys2Proof.Machine.Calm

open Sys2Proof

variable {a d : Dev} (h : Calm a d)

/-- What a step leads to, where it is one, is calm. -/
def Leads (a : Dev) (o : Option Dev) : Prop := ∀ e, o = some e → Calm a e

theorem Leads.none : Leads a none := fun _ he => by cases he

include h in
theorem Leads.some : Leads a (some d) := fun _ he => Option.some.inj he ▸ h

theorem Leads.ite {c : Prop} [Decidable c] {o o' : Option Dev} (ho : Leads a o) (ho' : Leads a o') : Leads a (if c then o else o') := by
  split
  · exact ho
  · exact ho'

/-! ## Attempts -/

/-- Whatever is refused leaves a calm device. -/
def Refuses (a : Dev) (o : Option (Nat × Dev)) : Prop := ∀ c e, o = some (c, e) → Calm a e

theorem Refuses.none : Refuses a none := fun _ _ he => by cases he

theorem Refuses.ite {c : Prop} [Decidable c] {code : Nat} (h : Calm a d) {o : Option (Nat × Dev)} (ho : Refuses a o) :
    Refuses a (if c then some (code, d) else o) := by
  split
  · intro _ _ he
    obtain ⟨-, rfl⟩ := Prod.mk.inj (Option.some.inj he)
    exact h
  · exact ho

include h

theorem quay (q : Quay) : Calm a { d with quay := q } := h.same rfl

theorem homeRefuses (f : Flying) (x : Extent) : Refuses a (homeRefuses d f x) :=
  .ite h (.ite (h.count _ _ _) (.ite h (.ite h (.ite h (.ite h (.ite h (.ite h (.ite h (.ite h .none)))))))))

theorem performNow (f : Flying) {x : Extent} (hx : Blind a → x.e.tier = .stack) : Calm a (performNow d f x) := by
  unfold Machine.performNow
  split
  · next he => exact h.same (snapWait_sight he)
  · split
    · next he => exact h.reconWait he
    · exact h.performOp f hx false

theorem attemptOwn (id : Nat) : Calm a (attemptOwn d id) := by
  unfold Machine.attemptOwn
  split
  · exact h
  · next f _ =>
    split
    · exact h.finishFlying _ _ _ _
    · next x hx =>
      split
      · next he => exact (h.homeRefuses f x _ _ he).finishFlying _ _ _ _
      · split
        · exact h.setWait _ _
        · exact h.performNow f (h.stack_of_extOf hx)

theorem takeAnswerWb (f : Flying) (t : Trans) (s : Snoop) : Calm a (takeAnswerWb d f t s) := by
  unfold Machine.takeAnswerWb
  exact attemptOwn (h.same (sight_with_rest _ _ _ _ _ _ _ _ _)) _

theorem attempt (id : Nat) (first ready : Bool) : Calm a (attempt d id first ready) := by
  unfold Machine.attempt
  split
  · exact h
  · next f _ =>
    split
    · exact h.finishFlying _ _ _ _
    · next x hx =>
      have hstack := h.stack_of_extOf hx
      refine ite (h.performOp f hstack true) (ite (h.attemptOwn id) ?_)
      split
      · next he => exact (h.homeRefuses f x _ _ he).finishFlying _ _ _ _
      · dsimp only
        split
        · exact h.takeAnswerWb _ _ _
        · split
          · exact h.setWait _ _
          · split
            · exact (h.joinSet _ _ _).setWait _ _
            · refine ite (h.same (sight_forceWb _ _ _)) (ite ((h.same (sight_joinTrans _ _ _ _)).setWait _ _) ?_)
              split
              · next he =>
                refine setWait ?_ _ _
                split at he
                · exact h.askLines _ _ _ _ he
                · cases he
              · exact h.finishFlying _ _ _ _
              · exact h.performNow f hstack

theorem retry (ids : List Nat) : Calm a (retry ids d) := foldl (fun h id => h.attempt id false false) ids h

theorem wakeSet (bank set : Nat) : Calm a (wakeSet d bank set) := retry (h.quay _) _

theorem closeTrans (t : Trans) : Calm a (closeTrans d t) :=
  (retry ((h.quay _).same (sight_closeDir _ t)) t.waiters).wakeSet _ _

theorem flushOn : Calm a (flushOn d) := by
  unfold Machine.flushOn
  dsimp only
  refine foldl (fun h e => ?_) _ (h.same rfl)
  split
  · exact h.finishFlying _ _ _ _
  · exact h

theorem wakeAccum (bank : Nat) : Calm a (wakeAccum d bank) := by
  unfold Machine.wakeAccum
  split
  · exact attempt (h.quay _) _ _ _
  · exact h

theorem closeAccum (x : Accum) : Calm a (closeAccum d x) :=
  same (wakeAccum (retry (h.same (sight_accumDrop _ _ _)) _) _) (sight_flushedBy _ _)

theorem wroteSums (x : Accum) (status : Nat) : Calm a (wroteSums d x status) := by
  unfold Machine.wroteSums
  dsimp only
  refine closeAccum (ite (h.count _ _ _) ?_) x
  split
  · next y hy => exact h.loseSums _ (h.stack_of_mem (List.mem_of_find?_eq_some hy)) _ _
  · exact h

omit h in
theorem drain : ∀ (k : Nat) {d : Dev}, Calm a d → Calm a (drain k d)
  | 0, _, h => h
  | k + 1, d, h => by
    unfold Machine.drain
    split
    · exact drain k (h.closeTrans _)
    · split
      · exact drain k (h.wroteSums _ _)
      · split
        · exact drain k (h.attempt _ _ _)
        · exact h

theorem drainAll : Calm a (drainAll d) := (drain _ h).flushOn

/-! ## Requests that enter -/

theorem ringDoorbell (b r v : Nat) : Calm a (ringDoorbell d b r v) := by
  unfold Machine.ringDoorbell
  dsimp only
  refine ite (h.same rfl) ?_
  exact (h.same (sight_setRing d b r { ringOf d b r with dbBad := true })).raiseFe (.inl (by decide)) _

theorem answerTchk (q : Req) (entry bank : Nat) : Calm a (answerTchk d q entry bank) :=
  ite ((h.count _ _ _).same (sight_nackReq _ q entry bank)) (((h.count _ _ _).raiseFe (.inl (by decide)) _).refuseHome _ _ _ _)

theorem addFlying (f : Flying) : Calm a (addFlying d f) := h.same (sight_addFlying d f)

theorem toHome (q : Req) (entry : Nat) (x : Extent) : Calm a (toHome d q entry x) := by
  unfold Machine.toHome
  dsimp only
  refine ite ((h.cross _ _ _ _).answerTchk _ _ _) ?_
  split
  · exact h.answerReq _ _ _ _ _ _ _
  · exact (((ite (h.same (sight_updateCache _ _ _ _ _)) h).cross _ _ _ _).addFlying _).attempt _ _ _

theorem overCredit (q : Req) (bank : Nat) : Leads a (overCredit d q bank) := fun _ he => h.same (overCredit_sight he)

theorem answered (q : Req) (entry bank k : Nat) (b : Bool) (data : List Byte) :
    Calm a (Machine.answerReq (Machine.crossBack d q entry bank).1 q bank none (if b = true then k else (Machine.crossBack d q entry bank).2)
      cOK data) := (h.crossBack _ _ _).answerReq _ _ _ _ _ _ _

/-- A request of Landing `o` is metered. -/
theorem meter (o b : Option Nat) (epoch off k : Nat) : Calm a (match o with
    | some n => meterRx (misroute d n b epoch off) b k
    | none => d) := by
  split
  · exact h.same ((sight_meterRx _ _ _).trans (sight_misroute _ _ _ _ _))
  · exact h

theorem passed (q : Req) (entry : Nat) (x : Option Extent) : Calm a (passed d q entry x) := by
  have hfare := h.fareOn q
  unfold Machine.passed
  dsimp only
  generalize Machine.fareOn d q = c at hfare ⊢
  refine ite (hfare.refuseReq _ _ _) ?_
  split
  · refine ite (answerReq (acquireDrop (hfare.meter _ _ _ _ _) _ _) _ _ _ _ _ _ _) ?_
    split
    · exact refuseReq (hfare.meter _ _ _ _ _) _ _ _
    · refine ite (refuseReq (hfare.meter _ _ _ _ _) _ _ _) (ite (answered (ite (acquireDrop (cross (hfare.meter _ _ _ _ _) _ _ _ _) _ _)
        (cross (hfare.meter _ _ _ _ _) _ _ _ _)) _ _ _ _ _ _) (ite (answerTchk (cross (hfare.meter _ _ _ _ _) _ _ _ _) _ _ _)
        (answered (ringDoorbell (cross (hfare.meter _ _ _ _ _) _ _ _ _) _ _ _) _ _ _ _ _ _)))
  · refine ite (refuseReq (hfare.meter _ _ _ _ _) _ _ _) ?_
    split
    · next hover =>
      refine refuseHome (cross ((?_ : Leads a _) _ hover) _ _ _ _) _ _ _ _
      exact .ite (overCredit (hfare.meter _ _ _ _ _) _ _) .none
    · exact toHome (ite (same (hfare.meter _ _ _ _ _) (sight_with_rest _ _ _ _ _ _ _ _ _)) (hfare.meter _ _ _ _ _)) _ _ _

theorem enterNow (q : Req) (entry : Nat) : Calm a (enterNow d q entry) := by
  have htoll := h.tollOf q entry
  unfold Machine.enterNow
  dsimp only
  generalize Machine.tollOf d q entry = r at htoll ⊢
  split
  · exact htoll.refuseReq _ _ _
  · exact htoll.passed _ _ _
  · exact addFlying (ite (htoll.stall _ _ _) htoll) _

theorem enter (q : Req) (entry : Nat) : Calm a (enter d q entry) := by
  unfold Machine.enter
  split
  · exact h.addFlying _
  · exact h.enterNow _ _

theorem dropFlying (id : Nat) : Calm a (dropFlying d id) := h.same rfl

omit h in
theorem sendCredited : ∀ (k : Nat) {d : Dev}, Calm a d → Calm a (sendCredited k d)
  | 0, _, h => h
  | k + 1, d, h => by
    unfold Machine.sendCredited
    dsimp only
    split
    · exact h
    · exact sendCredited k ((h.dropFlying _).enterNow _ _).drainAll

theorem enterTurn (q : Req) (entry : Nat) : Calm a (enterTurn d q entry) := ite (h.addFlying _) (h.enter _ _)

omit h in
theorem takeTurns : ∀ (k : Nat) {d : Dev}, Calm a d → Calm a (takeTurns k d)
  | 0, _, h => h
  | k + 1, d, h => by
    unfold Machine.takeTurns
    split
    · exact h
    · exact takeTurns k ((h.dropFlying _).enter _ _).drainAll

theorem combNext (q : Req) (bank : Nat) : Calm a (combNext d q bank) := by
  unfold Machine.combNext
  split
  · exact h.addFlying _
  · exact h.enterTurn _ _

theorem combOn : Calm a (combOn d) := foldl (fun h _ => h.combNext _ _) _ (h.same rfl)

/-! ## The ports -/

theorem issuePiece (p : Nat) (t : Tlp) (i : Nat) : Calm a (issuePiece d p t i) := by
  unfold Machine.issuePiece
  split
  · exact h
  · exact enter (h.same (sight_onPort d p _)) _ _

theorem logPiece (p : Nat) (t : Tlp) (e : Piece) (c : Nat) : Calm a (logPiece d p t e c) :=
  (h.count _ _ _).raiseFe (.inr (pg_ne_stale (by decide))) _

theorem reportUr (p fn : Nat) : Calm a (reportUr d p fn) := ite (h.emit (by intro he; cases he)) h

theorem complete (p fn cls n : Nat) (data : List Byte) (at_ : Nat) : Calm a (complete d p fn cls n data at_) := by
  have hsent (l : List (List Byte)) (bad : Bool) {d : Dev} (h : Calm a d) :
      Calm a (l.foldl (fun d l => Machine.emit d (.cpl p fn 0 bad l)) d) := foldl (fun h l => h.emit (by intro he; cases he)) l h
  unfold Machine.complete
  dsimp only
  refine ite (hsent _ _ h) (ite (hsent _ _ (h.same (sight_freeBytes n d))) (ite ?_ ?_))
  · exact (h.count _ _ _).emit (by intro he; cases he)
  · exact (h.count _ _ _).emit (by intro he; cases he)

theorem completeCxl (p kind c : Nat) (data : List Byte) : Calm a (completeCxl d p kind c data) :=
  ite (h.emit (by intro he; cases he)) (ite (h.emit (by intro he; cases he)) ((h.count _ _ _).emit (by intro he; cases he)))

theorem finishTlp (p : Nat) (t : Tlp) : Calm a (finishTlp d p t) := by
  have hgone := h.same (sight_onPort d p (fun pt => { pt with tlps := pt.tlps.filter (fun u => u.id != t.id) }))
  unfold Machine.finishTlp
  dsimp only
  refine ite (foldl (fun h e => ite h (ite ((h.logPiece _ _ _ _).reportUr _ _) (h.logPiece _ _ _ _))) _ hgone)
    (ite hgone (ite ?_ (hgone.complete _ _ _ _ _ _)))
  exact completeCxl (ite (foldl (fun h e => ite h (h.logPiece _ _ _ _)) _ hgone) hgone) _ _ _ _

theorem portStep (p : Nat) : Leads a (portStep d p) := by
  unfold Machine.portStep
  split
  · exact .some (h.finishTlp _ _)
  · split
    · exact .some (h.issuePiece _ _ _)
    · exact .none

omit h in
theorem pump : ∀ (k : Nat) {d : Dev}, Calm a d → Calm a (pump k d)
  | 0, _, h => h
  | k + 1, d, h => by
    unfold Machine.pump
    split
    · next he => exact pump k (h.portStep _ _ he).drainAll
    · split
      · next he => exact pump k (h.portStep _ _ he).drainAll
      · exact h

omit h in
theorem sendKept (p : Nat) : ∀ (k : Nat) {d : Dev}, Calm a d → Calm a (sendKept p k d)
  | 0, _, h => h
  | k + 1, d, h => by
    unfold Machine.sendKept
    split
    · exact h
    · exact sendKept p k ((h.same (sight_onPort d p _)).emit (by intro he; cases he))

theorem hostOn : Calm a (hostOn d) := sendKept 1 _ (sendKept 0 _ h)

/-! ## Walks, held extents, the Tow -/

theorem walkOn : Calm a (walkOn d) := by
  unfold Machine.walkOn
  split
  · exact h
  · refine foldl (fun {d} h l => ?_) _ (h.same rfl)
    unfold walkLine
    split
    · exact h
    · exact ite (h.openTrans _ _ _ _ _ _) h

theorem walkEnd : Calm a (walkEnd d) := by
  unfold Machine.walkEnd
  split
  · exact h
  · exact ite (h.same rfl) h

theorem quietHeld : Calm a (quietHeld d) := foldl (fun h x => (h.same (sight_startWbs _ x)).recallOwned x) _ h

theorem moveDown (m : MoveItem) (x : Extent) : Calm a (moveDown d m x) :=
  same (h.raiseFe (page := pg 0x33 m.bank) (b := 3) (.inl (by decide)) _) (sight_endMove _ m cTIER)

theorem moveStart (m : MoveItem) : Leads a (moveStart d m) := by
  have hended (code : Nat) : Leads a (some (endMove d m code)) := .some (h.same rfl)
  have hmoved (f : MoveItem → MoveItem) : Leads a (some (onMove d m.r m.item f)) := .some (h.same rfl)
  unfold Machine.moveStart
  split
  · exact hended _
  · next x _ =>
    refine .ite (hended _) (.ite (hended _) (.ite (.some (h.same ((sight_movePin _ _ _ _ _).trans (sight_endMove d m cOK)))) (.ite (hended _)
      (.ite ?_ (.ite ?_ (.ite (.some (h.moveDown m x)) (.some (recallOwned ?_ x))))))))
    · split
      · exact .ite (hmoved _) (hended _)
      · exact .none
    · split
      · exact hmoved _
      · exact .none
    · exact h.same ((sight_forceSums _ x).trans ((sight_onMove _ _ _ _).trans (sight_onExt d m.base (fun _ => rfl))))

theorem nextMove : ∀ l : List MoveItem, Leads a (nextMove d l)
  | [] => .none
  | m :: ms => by
    refine .ite ?_ (nextMove ms)
    split
    · next hm => exact .some (h.moveStart m _ hm)
    · exact nextMove ms

omit h in
theorem startMoves : ∀ (k : Nat) {d : Dev}, Calm a d → Calm a (startMoves k d)
  | 0, _, h => h
  | k + 1, d, h => by
    unfold Machine.startMoves
    split
    · next he => exact startMoves k (h.nextMove _ _ he)
    · exact h

omit h in
theorem askTiles : ∀ (k : Nat) {d : Dev} (m : MoveItem) (x : Extent), Calm a d → Calm a (askTiles k d m x)
  | 0, _, _, _, h => h
  | k + 1, d, m, x, h => by
    unfold Machine.askTiles
    split
    · exact h
    · refine ite h (ite (askTiles k _ x (h.same rfl)) (askTiles k _ x ?_))
      exact ((h.readHost _ _ _ _ _).same (sight_with_rest _ _ _ _ _ _ _ _ _)).same (sight_onMove _ _ _ _)

theorem hostCopies : Calm a (hostCopies d) := by
  refine foldl (fun {d} h m => ?_) _ h
  split
  · exact ite (askTiles 32 _ _ (h.same rfl)) h
  · exact h

theorem towOn : Calm a (towOn d) := by
  unfold Machine.towOn
  refine ite (ite (h.same (sight_towFinish d)) h) ?_
  exact ((startMoves _ h).hostCopies.same (sight_endPersists _)).same (sight_towFinish _)

theorem goOn : Calm a (goOn d) := by
  have hturns (k : Nat) := takeTurns k h.drainAll.combOn.drainAll
  have hwalked (i j k : Nat) := (walkOn (sendCredited k (pump j (hturns i)))).quietHeld.drainAll
  unfold Machine.goOn
  exact (hwalked _ _ _).walkEnd.towOn.hostOn

end Sys2Proof.Machine.Calm
end

section
/-! A context parity failure (06 R213-R215) may alter stored bytes: the RUN whose copy it retires still reads the sources of an item that
was spoilt, and a read of a stripe applies the deltas queued for it. -/

namespace Sys2Proof.Machine

open Sys2Proof

namespace Calm

variable {a d : Dev} (h : Calm a d)
include h

theorem sendMsix (n fn vec : Nat) : Calm a (sendMsix d n fn vec) :=
  ite (h.same (sight_onPort _ _ _)) (h.emit (by intro he; cases he))

theorem settle (b : Dev) : Calm a (settle b d) :=
  ite (((h.sendMsix 0 0 0).sendMsix 1 0 0).emit (by intro he; cases he)) h

end Calm

/-- Where the last that was sent is the stale event, what went on by itself has altered no stored byte. -/
theorem mem_goingOn_of_stale_last {b t e : Dev} (he : settle b (goOn t) = e) (hblind : Blind e) (hlast : e.tx.getLast? = some staleEvent) :
    e.tiers.mem = t.tiers.mem := by
  have hcalm : Calm t e := he ▸ (Calm.refl t).goOn.settle b
  obtain ⟨l, htx, hl, hmem⟩ := hcalm.hushed (hblind.of_anchors hcalm.anchored.symm)
  refine hmem (List.eq_nil_iff_forall_not_mem.mpr fun o ho => hl ?_)
  have hne : l ≠ [] := List.ne_nil_of_mem ho
  rw [htx, List.getLast?_append_of_ne_nil _ hne] at hlast
  exact List.mem_of_getLast? hlast

theorem exec_suFault (s : State) (su : Nat) (check : SuCheck) : exec (.suFault su check) s =
    .next (goingOn s (if bankLive s.dev (su / 512) then suFault s.dev su check else s.dev)) := rfl

theorem exec_suFault_of_live {s : State} {su : Nat} (h : bankLive s.dev (su / 512) = true) (check : SuCheck) :
    exec (.suFault su check) s = .next (goingOn s (suFault s.dev su check)) := by
  rw [exec_suFault, if_pos h]

theorem settle_eq_of_goingOn_eq {s : State} {d t : Dev} (h : exec (.suFault 0 .contextParity) s = .next (goingOn s t))
    (hd : exec (.suFault 0 .contextParity) s = .next (goingOn s d)) : settle s.dev (goOn t) = settle s.dev (goOn d) :=
  congrArg (·.dev) (Host.Outcome.next.inj (h.symm.trans hd))

namespace SpoiltRun

/-- A RUN of ring 0 and one of ring 1, in berth 0 of job 1. -/
def spoiltRef : DescRef := ⟨0, 0, 0⟩
def staleRef : DescRef := ⟨0, 1, 0⟩

/-- The table of one stream: 64 bits of elements at node 0, byte 0x203000. -/
def table : List Byte := leBytes 8 0x203000 ++ leBytes 4 1 ++ leBytes 4 1 ++ leBytes 8 1 ++ leBytes 8 0

/-- An image of one SU, a SOURCE of stream 0. -/
def image : List Byte :=
  leBytes 4 0x52414654 ++ leBytes 2 1 ++ leBytes 2 1 ++ leBytes 8 5 ++ leBytes 4 9 ++ leBytes 4 0 ++ leBytes 4 128 ++ leBytes 4 0 ++
    List.replicate 32 0 ++ leBytes 4 0x20000 ++ leBytes 4 (0x101 + 2 * 2 ^ 25) ++ List.replicate 8 0 ++ leBytes 4 4096 ++
    List.replicate 44 0

/-- A RUN of one item whose stream table has been read. -/
def run (r : DescRef) : Desc :=
  { r := r, id := 0, engine := 0x10, opcode := 2, job := 1, sv := false, notify := false, order := false, count := 1, svRef := 0,
    tide := 0, epoch := 0, raw := [0, 0, 0, 0, 0x203000 + 2 ^ 48, 0, 0, 0].flatMap (leBytes 8), table := table, phase := .running }

/-- The RUN whose item is spoilt, with its copy; the other names an epoch that is not yet committed. -/
def spoiltItem : Desc := { run spoiltRef with copies := [0], nextItem := 1, redo := [0], marks := [(0, spoilt)] }
def staleRun : Desc := { run staleRef with pre := [cSTALE], epoch := 131073 }

/-- The copy, on the SU that fails, not yet on. -/
def copy : Copy :=
  { id := 0, bank := 0, berth := 0, job := 1, tag := 5, check := 0, row := 0, col := 0, w := 1, h := 1, ctx := 0, image := image, placed := true,
    holder := some spoiltRef }

/-- A device in service with one extent, in a stack none of whose sites is there, and a delta queued for the stripe the item's source is in. -/
def beforeFault : Dev :=
  { Dev.reset with
    sys.step := 0x12
    xmap.nodeValid := true
    xmap.epoch := 131072
    xmap.old := [{ epoch := 0, since := 0 }]
    toll.extents := [{ e := { ownerWr := true, ownerJob := 1, base := 1, tier := .stack } }]
    toll.jobs := [(1, { valid := true, ranges := [(0, 0x3FFFF)] })]
    wharf.epValid := true
    descs := [spoiltItem, staleRun]
    raft.copies := [copy]
    tiers.sites := []
    tiers.deltas := [(0, 11, 0, [1])] }

/-- The machine with the device. -/
def start : State := { State.reset with dev := beforeFault }

/-- The device once the context of SU 0 has failed its parity check. -/
def afterFault : Dev := settle start.dev (goOn (suFault start.dev 0 .contextParity))

theorem afterFault_eq : settle start.dev (goOn (suFault start.dev 0 .contextParity)) = afterFault := rfl

theorem fault_applies : bankLive start.dev (0 / 512) = true ∧ runningIn start.dev 0 = none ∧ suDown start.dev 0 = false := by decide +kernel

/-- The read of the spoilt item's source has applied the delta, and after it the other RUN has been refused. -/
theorem afterFault_alters : afterFault.tx.getLast? = some staleEvent ∧ afterFault.tiers.mem ≠ start.dev.tiers.mem := by decide +kernel

theorem blind_afterFault : Blind afterFault where
  sites := by decide +kernel
  stack := by decide +kernel
  current := by decide +kernel
  epoch := by decide +kernel
  live := by decide +kernel

end SpoiltRun

/-- Refutes O42: the RUN whose copy a context parity failure retires may have a spoilt item left, the sources of which are read once more,
and the read of a stripe applies the deltas queued for it; the clause says that no stored byte changes. Nothing that the device goes on
with can have altered it in the clause's place, for it would have been heard after the other RUN's refusal. -/
theorem not_suFaultsAndRemaps : ¬ Obligations.SuFaultsAndRemaps := by
  unfold Obligations.SuFaultsAndRemaps
  intro h
  obtain ⟨hlive, hidle, hup⟩ := SpoiltRun.fault_applies
  obtain ⟨hfaults, -⟩ := h SpoiltRun.start 0 0 0 .pcie0 (by decide) (by decide)
  obtain ⟨-, hparity, -⟩ := hfaults hlive hidle
  obtain ⟨t, hexec, -, -, hmem⟩ := hparity hup
  obtain ⟨hlast, halters⟩ := SpoiltRun.afterFault_alters
  have hdev := settle_eq_of_goingOn_eq hexec (exec_suFault_of_live hlive _)
  rw [SpoiltRun.afterFault_eq] at hdev
  exact halters ((mem_goingOn_of_stale_last hdev SpoiltRun.blind_afterFault hlast).trans hmem)

end Sys2Proof.Machine
end

/-! ## Proofs: training state and snapshots (08 R254-R279; 06 R206, R209) -/

section
/-! SUPPORT. Descriptors on copies of built-in images: refused, waiting, or at the last item in hand (08 R254; 06 R206, R209). -/

namespace Sys2Proof.Machine

open Sys2Proof

/-! ## Units in hand -/

theorem hands_empty_of_unitsDone {d : Dev} {r : DescRef} (h : unitsDone d r = true) :
    ∃ x, descOf d r = some x ∧ ∀ c ∈ activeCopies d x, c.hand = [] := by
  unfold unitsDone at h
  split at h
  · next x hx =>
    simp only [Bool.and_eq_true, List.all_eq_true, List.isEmpty_iff] at h
    exact ⟨x, hx, h.2⟩
  · cases h

/-- With no unit left none is in hand, so that no work is done. -/
theorem runUnits_of_unitsDone {d : Dev} {r : DescRef} (h : unitsDone d r = true) (f : Dev → Desc → Nat → ItemIs × Dev) (k : Nat)
    (stuck : List Nat) : runUnits r f k stuck d = d := by
  obtain ⟨x, hx, hidle⟩ := hands_empty_of_unitsDone h
  have hnone : inHand d x = [] := by
    rw [inHand, List.filterMap_eq_nil_iff]
    intro c hc
    rw [hidle c (List.mem_of_mem_filter hc), List.head?_nil]
  cases k with
  | zero => rfl
  | succ k => simp only [runUnits, hx, hnone, List.find?_nil]

section
variable {d : Dev} {r : DescRef} {x : Desc} {k : Copy} {i : Nat} (hx : descOf d r = some x) (hcopies : activeCopies d x = [k])
  (hhand : k.hand = [i])
include hx hcopies hhand

/-- The one copy has a unit in hand, and takes none. -/
theorem handOut_of_busy : handOut d r = d := by
  have hnone : (runningCopies d x).filter (fun c => c.hand.isEmpty) = [] := by
    rw [runningCopies, hcopies, List.filter_filter]
    simp [hhand]
  simp only [handOut, hx, hnone, List.foldl_nil]

/-- The one unit in hand is done, and with it every unit. -/
theorem runUnits_of_last (hon : k.on = true) {f : Dev → Desc → Nat → ItemIs × Dev} {u : Dev} (hdone : f d x i = (.done, u))
    (hlast : unitsDone (letGo u r i) r = true) (n : Nat) : runUnits r f (n + 1) [] d = letGo u r i := by
  have hfirst : (inHand d x).find? (fun j => !List.contains [] j) = some i := by simp [inHand, runningCopies, hcopies, hon, hhand]
  simp only [runUnits, hx, hfirst, hdone]
  exact runUnits_of_unitsDone hlast f n []

/-- The descriptor's last unit is done on the one copy it has left, and its end follows. -/
theorem onCopies_of_last (hon : k.on = true) {f : Dev → Desc → Nat → ItemIs × Dev} {u : Dev} (hdone : f d x i = (.done, u))
    (hlast : unitsDone (letGo u r i) r = true) {done : Dev → DescRef → Bool} (hall : done (letGo u r i) r = true) {z : Desc}
    (hz : descOf (letGo u r i) r = some z) (b : BuiltIn) (rest : Dev → Desc → Nat → ItemIs × Dev) (fin : Desc → Dev → Dev) :
    onCopies d x b f rest done fin = fin z (letGo u r i) := by
  have hrun := runUnits_of_last hx hcopies hhand hon hdone hlast (unitsLeft x + 1)
  simp only [onCopies, ref_of_descOf hx, hcopies, hx, handOut_of_busy hx hcopies hhand, List.map_cons, List.map_nil, hhand, total,
    List.length_singleton, List.isEmpty_cons, Bool.false_eq_true, if_false, hrun, hz, ref_of_descOf hz, hall, if_true]

end

/-! ## Descriptors on copies of built-in images -/

section
variable {d : Dev} {r : DescRef} {x : Desc} (hx : descOf d r = some x) (b : BuiltIn) (l : List Nat)
  (f : Dev → Desc → Nat → ItemIs × Dev) (done : Dev → DescRef → Bool) (fin : Desc → Dev → Dev)
include hx

section
variable (hnew : x.copies = [])
include hnew

theorem runOnCopies_of_refused {code : Nat}
    (h : firstRefusal (x.pre ++ (l ++ codeIf (berthTooSmall (runDesc d r) x b) cLENGTH)) = some code) :
    runOnCopies (runDesc d r) x b l f done fin = refuseDesc (runDesc d r) r code := by
  simp only [runOnCopies, hnew, List.isEmpty_nil, if_true, withCopies, unlessRefused_of_refused h, ref_of_descOf hx]

variable (h : firstRefusal (x.pre ++ (l ++ codeIf (berthTooSmall (runDesc d r) x b) cLENGTH)) = none)
include h

theorem runOnCopies_of_empty (hcount : x.count = 0) : runOnCopies (runDesc d r) x b l f done fin = finishDesc (runDesc d r) r := by
  simp [runOnCopies, hnew, withCopies, unlessRefused, h, hcount, ref_of_descOf hx, descOf_runDesc hx]

theorem runOnCopies_of_behind (hcount : x.count ≠ 0) (hbehind : behindOthers (runDesc d r) x = true) :
    runOnCopies (runDesc d r) x b l f done fin = awaitCopy (runDesc d r) { x with phase := .running } := by
  simp [runOnCopies, hnew, withCopies, unlessRefused, h, hcount, hbehind, ref_of_descOf hx, descOf_runDesc hx]

end

/-- A descriptor that has copies works on them. -/
theorem runOnCopies_of_copies (hcount : x.count ≠ 0) (hheld : x.copies ≠ []) : runOnCopies (runDesc d r) x b l f done fin =
    onCopies (runDesc d r) { x with phase := .running } b f (spoiltOr f) done (fun z d => endCopies (fin z d) z.r) := by
  simp only [runOnCopies, List.isEmpty_iff, hheld, if_false, ref_of_descOf hx, descOf_runDesc hx, beq_iff_eq, hcount]

end

end Sys2Proof.Machine
end

section
/-! OPT_STEP, NORM and MERGE: one command each, one image each, and one last item each (08 R254-R271). -/

namespace Sys2Proof.Machine

open Sys2Proof

/-! ## The three operations -/

/-- A field in the lowest bits of a number of bytes is one of its lowest byte. -/
theorem fld_leAt_low (l : List Byte) (o k : Nat) {w : Nat} (hw : w ≤ 8) : fld (leAt l o (k + 1)) 0 w = (l.getD o 0).toNat % 2 ^ w := by
  obtain ⟨b, m, hm⟩ := List.exists_cons_of_length_pos (show 0 < (sub l o (k + 1)).length by simp [length_sub])
  have hb : l.getD o 0 = b := by simpa [hm] using (getD_sub (i := 0) (k := k + 1) l o (by omega)).symm
  have h256 : 256 = 2 ^ w * 2 ^ (8 - w) := by rw [← Nat.pow_add, Nat.add_sub_cancel' hw]
  rw [leAt, hm, hb, leNat, fld, Nat.pow_zero, Nat.div_one, h256, Nat.mul_assoc, Nat.add_mul_mod_self_left]

/-- RECIPE, the lowest bits of FLAGS. -/
theorem recipe_eq (x : Desc) : dfld x 0x24 0 4 = fld (dnum x 0x24 4) 0 4 := by
  rw [dfld, dnum, fld_leAt_low _ _ _ (by decide), fld_leAt_low _ _ _ (by decide)]

/-- The command of an operation. -/
def trainCommand (op : Nat) (r : DescRef) : Instr := if op = 1 then .optStep r else if op = 2 then .norm r else .tsMerge r

/-- The built-in image that an operation runs on. -/
def trainImage (op : Nat) (x : Desc) : BuiltIn :=
  let f := dnum x 0x24 4
  if op = 1 then { tag := if fld f 0 4 = 0 then 0x8000000000002001 else 0x8000000000002002
                   w := if fld f 0 4 = 0 then 4 else 2, h := 1, limit := dfld x 0x38 0 8 }
  else if op = 2 then { tag := 0x8000000000002003, w := 1, h := 1, limit := dfld x 0x38 0 8 }
  else { tag := 0x8000000000002004, w := 1, h := 1, limit := dfld x 0x20 8 8 }

/-- What the tables of an operation refuse it with. -/
def trainFound (op : Nat) (d : Dev) (x : Desc) : List Nat :=
  if op = 1 then optRefusals x else if op = 2 then normRefusals x else mergeRefusals d x

/-- An item of an operation, when every item is done, and what the end issues. -/
def trainItem (op : Nat) : Dev → Desc → Nat → ItemIs × Dev := if op = 1 then optItem else if op = 2 then normItem else mergeItem

def trainDone (op : Nat) : Dev → DescRef → Bool := if op = 1 then optDone else unitsDone

def trainEnd (op : Nat) : Desc → Dev → Dev := if op = 2 then normEnd else fun _ d => d

/-- An operation whose tables have been read, as it goes on from there. -/
def trainRun (op : Nat) (d : Dev) (x : Desc) : Dev :=
  runOnCopies d x (trainImage op x) (trainFound op d x) (trainItem op) (trainDone op) (trainEnd op)

/-- With no gradient due to be zeroed, none is. -/
theorem optZeros_of_none_due {d : Dev} {r : DescRef} {x : Desc} (hx : descOf d r = some x) (h : ∀ m ∈ x.marks, m.2 ≠ zeroDue) :
    optZeros d r = d := by
  have hnone : x.marks.filter (fun m => m.2 == zeroDue) = [] := by simpa [List.filter_eq_nil_iff] using h
  simp only [optZeros, hx, hnone, List.map_nil, List.foldl_nil]

section
variable {d : Dev} {r : DescRef} {x : Desc} (htable : x.table ≠ [])
include htable

theorem withTables_of_read (words : Nat) (k : Dev → Desc → Dev) : withTables d x words k = k d x := by
  simp [withTables, haveTables, htable]

theorem optStep_of_read (hx : engineDesc d r 0x20 1 = some x) (hmarks : ∀ m ∈ x.marks, m.2 ≠ zeroDue) :
    optStep d r = trainRun 1 (runDesc d r) x := by
  have hzeros := optZeros_of_none_due (descOf_runDesc (descOf_of_engineDesc hx)) hmarks
  simp only [optStep, hx, withTables_of_read htable, hzeros, recipe_eq, beq_iff_eq]
  rfl

theorem normDesc_of_read (hx : engineDesc d r 0x20 2 = some x) : normDesc d r = trainRun 2 (runDesc d r) x := by
  simp only [normDesc, hx, withTables_of_read htable]
  rfl

theorem mergeDesc_of_read (hx : engineDesc d r 0x20 3 = some x) : mergeDesc d r = trainRun 3 (runDesc d r) x := by
  have hread : (!x.table.isEmpty) = true := by simpa using htable
  simp only [mergeDesc, hx, hread, if_true]
  rfl

end

theorem exec_trainCommand {s : State} {r : DescRef} {op : Nat} {x : Desc} (h1 : 1 ≤ op) (h3 : op ≤ 3)
    (hx : engineDesc s.dev r 0x20 op = some x) (htable : x.table ≠ []) (hmarks : ∀ m ∈ x.marks, m.2 ≠ zeroDue) :
    exec (trainCommand op r) s = .next (goingOn s (trainRun op (runDesc s.dev r) x)) := by
  obtain rfl | rfl | rfl : op = 1 ∨ op = 2 ∨ op = 3 := by omega
  · exact congrArg (fun t => Host.Outcome.next (goingOn s t)) (optStep_of_read htable hx hmarks)
  · exact congrArg (fun t => Host.Outcome.next (goingOn s t)) (normDesc_of_read htable hx)
  · exact congrArg (fun t => Host.Outcome.next (goingOn s t)) (mergeDesc_of_read htable hx)

/-! ## An item of an OPT_STEP (08 R264-R266) -/

/-- The reads of an item's element runs, in their order. -/
def optReadsOf (d : Dev) (x : Desc) (i : Nat) (e : TsEntry) (first n : Nat) : List SrcIs × Dev :=
  let f := dnum x 0x24 4
  let node := d.xmap.node
  readRuns x i first n ([runAt node e.p (fld f 4 4) false, runAt node e.m (fld f 8 4) false] ++
    (if fld f 0 4 = 0 then [runAt node e.v (fld f 8 4) false] else []) ++ [runAt node e.g (fld f 12 4) (bit f 20)]) d

/-- What an item whose runs `g` have been read comes to: the first code that applies to it, or its commit. -/
def optOutcome (g : List SrcIs × Dev) (x : Desc) (r : DescRef) (i : Nat) (e : TsEntry) (first n : Nat) : Dev :=
  let failed (code : Nat) : Dev := noteItem (count g.2 (pg 0x50 (bankOfBerth r.berth)) 0x808) r i code
  if readsCode g.1 ≠ cOK then failed (readsCode g.1) else if isSpoilt g.2 r i then failed cUNCORR
  else optCommit g.2 x i e first n g.1

/-- An item with nothing left to wait for is done. -/
theorem optItem_of_read {d : Dev} {x : Desc} {i first n : Nat} {e : TsEntry} (hkeeps : bit (dnum x 0x24 4) 24 = false)
    (hat : itemAt (fld (dnum x 0x24 4) 27 4) (tsEntries x) i = some (e, first, n))
    (hread : (optReadsOf d x i e first n).1.any (·.waits) = false)
    (hready : (readsCode (optReadsOf d x i e first n).1 ≠ cOK ∨ isSpoilt (optReadsOf d x i e first n).2 x.r i = true) ∨
      mayCommit (optReadsOf d x i e first n).2 x i = true) :
    optItem d x i = (.done, optOutcome (optReadsOf d x i e first n) x x.r i e first n) := by
  have hruns : optItem d x i =
      let g := optReadsOf d x i e first n
      if g.1.any (·.waits) then (.waits, g.2)
      else if readsCode g.1 != cOK then tsFails g.2 x.r i (readsCode g.1)
      else if isSpoilt g.2 x.r i then tsFails g.2 x.r i cUNCORR
      else if !mayCommit g.2 x i then (.waits, g.2)
      else (.done, optCommit g.2 x i e first n g.1) := by
    simp only [optItem, hat, hkeeps, Bool.false_eq_true, if_false, beq_iff_eq, optReadsOf]
    rfl
  rw [hruns]
  generalize optReadsOf d x i e first n = g at hread hready
  simp only [hread, Bool.false_eq_true, if_false, optOutcome, bne_iff_ne]
  by_cases hcode : readsCode g.1 ≠ cOK
  · simp only [hcode, if_true, tsFails, itemFails, ne_eq, not_false_eq_true]
  · by_cases hspoilt : isSpoilt g.2 x.r i = true
    · simp only [hcode, hspoilt, if_true, if_false, tsFails, itemFails]
    · have hmay : mayCommit g.2 x i = true := hready.resolve_left (fun h => h.elim hcode hspoilt)
      simp only [hcode, hspoilt, hmay, if_false, Bool.not_true, Bool.false_eq_true]

theorem unitsDone_of_optDone {d : Dev} {r : DescRef} (h : optDone d r = true) : unitsDone d r = true := ((Bool.and_eq_true _ _).mp h).1

/-- Settles O43: the codes that refuse a descriptor without copies, its wait behind others, and the last item of each operation. -/
theorem trainingDescriptorsCommitTheirItems : Obligations.TrainingDescriptorsCommitTheirItems := by
  intro s r op x h1 h3 hx htable hmarks d y c f b found codes
  have hdesc := descOf_of_engineDesc hx
  have hr : y.r = r := ref_of_descOf (x := x) hdesc
  have leaves {t : Dev} (h : trainRun op d x = t) : exec c s = .next (goingOn s t) := by
    rw [← h]
    exact exec_trainCommand h1 h3 hx htable hmarks
  refine ⟨fun hnew code h => ?_, fun hnew h hcount => ?_, fun hnew h hcount hbehind => ?_, ?_⟩
  · exact leaves (runOnCopies_of_refused hdesc _ _ _ _ _ hnew h)
  · exact leaves (runOnCopies_of_empty hdesc _ _ _ _ _ hnew h hcount)
  · exact leaves (runOnCopies_of_behind hdesc _ _ _ _ _ hnew h hcount hbehind)
  intro k i hcount _ _ _ hcopies hon hhand hheld
  have ends {u : Dev} {z : Desc} (hitem : trainItem op d y i = (.done, u)) (hunits : unitsDone (letGo u r i) r = true)
      (hdone : trainDone op (letGo u r i) r = true) (hz : descOf (letGo u r i) r = some z) :
      exec c s = .next (goingOn s (endCopies (trainEnd op z (letGo u r i)) r)) := by
    have hlast := onCopies_of_last (descOf_runDesc hdesc) hcopies hhand hon hitem hunits hdone hz (trainImage op x)
      (spoiltOr (trainItem op)) (fun z d => endCopies (trainEnd op z d) z.r)
    rw [ref_of_descOf hz] at hlast
    exact leaves ((runOnCopies_of_copies hdesc _ _ _ _ _ hcount hheld).trans hlast)
  refine ⟨?_, ?_, ?_⟩
  · rintro rfl hkeeps e first n hat node g bad hread hready failed t hdone
    have hitem := optItem_of_read (x := y) hkeeps hat hread (hr.symm ▸ hready)
    rw [hr] at hitem
    have hunits := unitsDone_of_optDone hdone
    obtain ⟨z, hz, -⟩ := hands_empty_of_unitsDone hunits
    exact ends hitem hunits hdone hz
  · rintro rfl u hitem hunits z hz
    exact ends hitem hunits hunits hz
  · rintro rfl u hitem hunits
    obtain ⟨z, hz, -⟩ := hands_empty_of_unitsDone hunits
    exact ends hitem hunits hunits hz

end Sys2Proof.Machine
end

section
/-! SUPPORT. Snapshot slots: opening, sealing and dropping, case by case (08 R273-R275, R277-R279). -/

namespace Sys2Proof.Machine

open Sys2Proof

/-! ## Slots and tables -/

theorem slotOfDesc_of_descOf {d : Dev} {r : DescRef} {x : Desc} (hx : descOf d r = some x) :
    slotOfDesc x = bankOfBerth r.berth * 16 + dfld x 0x24 0 4 := by
  rw [slotOfDesc, ref_of_descOf hx]

/-- A changed slot. -/
theorem snapSlot_onSnap {d : Dev} {n : Nat} (h : n < d.tiers.snaps.length) (f : SnapSlot → SnapSlot) :
    snapSlot (onSnap d n f) n = f (snapSlot d n) := by
  rw [snapSlot, onSnap_tiers_snaps, getD_modAt_same _ h, snapSlot]

/-- Past the slots there are, none is in use. -/
theorem lt_of_snapSlot_used {d : Dev} {n : Nat} (h : (snapSlot d n).st ≠ .free) : n < d.tiers.snaps.length := by
  by_contra hle
  rw [snapSlot, List.getD_eq_default _ _ (Nat.le_of_not_lt hle)] at h
  exact h rfl

theorem unlessRefused_of_passed {x : Desc} {l : List Nat} (h : firstRefusal (x.pre ++ l) = none) (d : Dev) (k : Dev → Dev) :
    unlessRefused d x l k = k d := by
  simp only [unlessRefused, h]

section
variable {d t : Dev} {x : Desc} {off n : Nat} {l : List Nat} (hl : cDENIED ∉ l) (k : Dev → List Byte → Dev)
include hl

theorem withBlock_of_waiting (h : descRead d x tableKey d.xmap.node off n = (.wait, t)) : withBlock d x off n l k = t := by
  simp [withBlock, hl, h]

theorem withBlock_of_failed {c : Nat} (h : descRead d x tableKey d.xmap.node off n = (.fail c, t)) :
    withBlock d x off n l k = unlessRefused t x (l ++ [c]) id := by
  simp [withBlock, hl, h]

theorem withBlock_of_read {b : List Byte} (h : descRead d x tableKey d.xmap.node off n = (.ok b, t)) : withBlock d x off n l k = k t b := by
  simp [withBlock, hl, h]

end

/-! ## OPEN (08 R273-R275) -/

theorem exec_snapOpen (s : State) (r : DescRef) : exec (.snapOpen r) s = .next (goingOn s (snapOpen s.dev r)) := rfl

/-- The code that a slot which is not free refuses an OPEN with. -/
def busyCodes (d : Dev) (x : Desc) : List Nat := codeIf ((snapSlot d (slotOfDesc x)).st != .free) cBUSY

theorem cDENIED_not_mem_busyCodes (d : Dev) (x : Desc) : cDENIED ∉ busyCodes d x := by
  unfold busyCodes codeIf
  split <;> decide

/-- The items that a list spells, and the bytes that their bitmap takes. -/
def snapArgs (x : Desc) (l : List Byte) : List SnapArg := (List.range x.count).map (fun i => snapArg (sub l (32 * i) 32))

def bitmapNeed (d : Dev) (args : List SnapArg) : Nat :=
  total (args.map (fun a => match extOf d a.src with | some e => extBytes e / 2048 | none => 0))

/-- An OPEN whose list has been read. -/
def openListed (busy : List Nat) (x : Desc) (d : Dev) (l : List Byte) : Dev :=
  unlessRefused d x (codeIf (decide (dnum x 0x30 4 < bitmapNeed d (snapArgs x l))) cLENGTH ++ busy) (fun d => openSlot d x (snapArgs x l))

section
variable {d : Dev} {r : DescRef} {x : Desc} (hx : engineDesc d r 0x20 0x10 = some x)
  (hnew : (snapSlot d (slotOfDesc x)).opener ≠ some r)
include hx hnew

theorem snapOpen_of_empty (hcount : x.count = 0) :
    snapOpen d r = unlessRefused (runDesc d r) x (busyCodes d x) (fun d => finishDesc d r) := by
  simp only [snapOpen, hx, beq_iff_eq, hnew, if_false, hcount, if_true, busyCodes]

theorem snapOpen_of_items (hcount : x.count ≠ 0) : snapOpen d r =
    withBlock (runDesc d r) x (dfld x 0x18 0 48) (32 * x.count) (busyCodes d x) (openListed (busyCodes d x) x) := by
  simp only [snapOpen, hx, beq_iff_eq, hnew, if_false, hcount]
  rfl

end

/-- The item of a slot that an item of the list gives. -/
def snapItemOf (d : Dev) (a : SnapArg) : SnapItem :=
  { src := a.src, bounce := a.bounce, dest := a.dest, tiles := match extOf d a.src with | some e => extBytes e / 256 | none => 0 }

/-- A slot that an OPEN takes. -/
def openedSlot (d : Dev) (x : Desc) (args : List SnapArg) : SnapSlot :=
  { st := .holding, job := x.job, berth := x.r.berth, bitmap := dfld x 0x28 0 48, since := d.sys.ltc, items := args.map (snapItemOf d)
    opener := some x.r }

/-- Where every item passes, none is noted as failed. -/
theorem noteItems_of_ok (r : DescRef) : ∀ (l : List (Nat × Nat)) (d : Dev), (∀ p ∈ l, p.1 = cOK) →
    l.foldl (fun d p => if p.1 == cOK then d else noteItem d r p.2 p.1) d = d
  | [], _, _ => rfl
  | p :: l, d, h => by
    obtain ⟨hp, hl⟩ := List.forall_mem_cons.mp h
    simp only [List.foldl_cons, hp, beq_self_eq_true, if_true]
    exact noteItems_of_ok r l d hl

/-- Where every item passes, the slot opens with all of them. -/
theorem openSlot_of_ok {d : Dev} {x : Desc} {args : List SnapArg} (hsome : args ≠ [])
    (hok : ∀ a ∈ args, snapCode d x (args.flatMap snapBases) a = cOK) : openSlot d x args =
    (args.map (·.src)).foldl holdSource
      (zeroBitmap (onSnap (accrue d x.r.berth) (slotOfDesc x) (fun _ => openedSlot d x args)) x (dnum x 0x30 4)) := by
  unfold openSlot
  extract_lets all codes d1 good
  have hcodes : ∀ c ∈ codes, c = cOK := by simpa only [codes, List.forall_mem_map] using hok
  have hlen : args.length ≤ codes.length := by rw [List.length_map]
  have hnoted : d1 = d := noteItems_of_ok x.r codes.zipIdx d (fun p hp => hcodes _ (List.fst_mem_of_mem_zipIdx hp))
  have hgood : good = args := by
    simp only [good]
    rw [List.filter_eq_self.mpr (fun p hp => beq_iff_eq.mpr (hcodes _ (List.of_mem_zip hp).2)), List.map_fst_zip hlen]
  clear_value d1 good
  subst hnoted hgood
  simp only [List.isEmpty_iff, hsome, if_false]
  rfl

/-! ## SEAL (08 R277, R279) -/

theorem exec_snapSeal (s : State) (r : DescRef) : exec (.snapSeal r) s = .next (goingOn s (snapSeal s.dev r)) := rfl

/-- The codes that a SEAL is refused with; a slot that is being dropped is free for it. -/
def sealCodes (d : Dev) (x : Desc) : List Nat :=
  let sl := snapSlot d (slotOfDesc x)
  let free := decide (sl.st = .free) || sl.dropper.isSome
  x.pre ++ codeIf free cUNSUP ++ codeIf (!free && sl.job != x.job) cDENIED ++ codeIf (!free && decide (sl.items.length < x.count)) cLENGTH

section
variable {d : Dev} {r : DescRef} {x : Desc} (hx : engineDesc d r 0x20 0x11 = some x)
include hx

theorem snapSeal_of_sealer (h : (snapSlot d (slotOfDesc x)).sealer = some r) : snapSeal d r = sealOn (runDesc d r) (slotOfDesc x) := by
  simp only [snapSeal, hx, h, beq_self_eq_true, if_true]

variable (hnew : (snapSlot d (slotOfDesc x)).sealer ≠ some r)
include hnew

theorem snapSeal_of_refused {code : Nat} (h : firstRefusal (sealCodes d x) = some code) : snapSeal d r = refuseDesc (runDesc d r) r code := by
  simp only [sealCodes, ← beq_eq_decide] at h
  simp only [snapSeal, hx, beq_iff_eq, hnew, if_false, h]

theorem snapSeal_of_accepted (h : firstRefusal (sealCodes d x) = none) : snapSeal d r =
    if x.count = 0 then finishDesc (runDesc d r) r
    else sealOn (onSnap (runDesc d r) (slotOfDesc x) (fun u => { u with sealer := some r })) (slotOfDesc x) := by
  simp only [sealCodes, ← beq_eq_decide] at h
  simp only [snapSeal, hx, beq_iff_eq, hnew, if_false, h]

end

/-- A slot whose items are all done, and the SEAL that waited for it: its items' codes are noted, and slot and SEAL end. -/
theorem sealOn_of_done {d : Dev} {n : Nat} {q : DescRef} {z : Desc} (hfree : (snapSlot d n).st ≠ .free)
    (hhold : (snapSlot d n).st ≠ .holding) (hdrop : (snapSlot d n).dropper = none) (hall : (snapSlot d n).items.all (·.done) = true)
    (hseal : (snapSlot d n).sealer = some q) (hz : descOf d q = some z) : sealOn d n =
    finishDesc (onSnap (accrue ((((snapSlot d n).items.take z.count).zipIdx).foldl
      (fun d p => if p.1.status = 0 then d else noteItem d q p.2 p.1.status) (onSnap d n (fun u => { u with st := .done })))
      (snapSlot d n).berth) n (fun _ => {})) q := by
  have hz' : descOf (onSnap d n (fun u => { u with st := .done })) q = some z := hz
  have hdue : ((snapSlot d n).st == .free || (snapSlot d n).st == .holding || (snapSlot d n).dropper.isSome ||
      !(snapSlot d n).items.all (·.done)) = false := by simp [hfree, hhold, hdrop, hall]
  simp only [sealOn, hdue, Bool.false_eq_true, if_false, hseal, Option.bind_some, hz', ref_of_descOf hz, beq_iff_eq]

/-! ## DROP (08 R278) -/

theorem exec_snapDrop (s : State) (r : DescRef) : exec (.snapDrop r) s = .next (goingOn s (snapDrop s.dev r)) := rfl

/-- A slot whose items have all stopped with a code, and for which nothing waits. -/
def stoppedSlot (code : Nat) (u : SnapSlot) : SnapSlot :=
  { stopItems (fun _ => true) code u with opener := none, sealer := none, st := if u.st == .holding then .draining else u.st }

section
variable {d : Dev} {r : DescRef} {x : Desc} (hx : engineDesc d r 0x20 0x12 = some x)
include hx

theorem snapDrop_of_dropper (h : (snapSlot d (slotOfDesc x)).dropper = some r) : snapDrop d r = dropOn (runDesc d r) (slotOfDesc x) := by
  simp only [snapDrop, hx, h, beq_self_eq_true, if_true]

variable (hcount : x.count = 1)
include hcount

theorem snapDrop_of_denied (hnew : (snapSlot d (slotOfDesc x)).dropper ≠ some r) (h : (snapSlot d (slotOfDesc x)).st = .free ∨ (snapSlot d (slotOfDesc x)).dropper.isSome = true ∨
    (snapSlot d (slotOfDesc x)).job ≠ x.job) : snapDrop d r = finishDesc (noteItem (runDesc d r) r 0 cDENIED) r := by
  have hdenied : ((snapSlot d (slotOfDesc x)).st == .free || (snapSlot d (slotOfDesc x)).dropper.isSome ||
      (snapSlot d (slotOfDesc x)).job != x.job) = true := by simpa [or_assoc] using h
  simp [snapDrop, hx, hnew, hcount, hdenied]

theorem snapDrop_of_own (hfree : (snapSlot d (slotOfDesc x)).st ≠ .free) (hdrop : (snapSlot d (slotOfDesc x)).dropper = none)
    (hjob : (snapSlot d (slotOfDesc x)).job = x.job) : snapDrop d r =
    dropOn (onSnap (haltSlot (runDesc d r) (slotOfDesc x) cABORTED) (slotOfDesc x) (fun u => { u with dropper := some r })) (slotOfDesc x) := by
  simp [snapDrop, hx, hcount, hfree, hdrop, hjob]

end

/-- The end, with a code on each item, of a descriptor that waits for a slot. -/
def endedWith (d : Dev) (z : Desc) (code : Nat) : Dev :=
  finishDesc ((List.range z.count).foldl (fun d i => noteItem d z.r i code) d) z.r

/-- The end of what may wait for a slot. -/
def waiterEnded (code : Nat) (d : Dev) (r : Option DescRef) : Dev :=
  match r.bind (descOf d) with
  | some z => endedWith d z code
  | none => d

theorem waiterEnded_of_some {d : Dev} {q : DescRef} {z : Desc} (h : descOf d q = some z) (code : Nat) :
    waiterEnded code d (some q) = endedWith d z code := by
  simp only [waiterEnded, Option.bind_some, h]

/-- A slot that stops: its items, then its holds, then what waits for it. -/
theorem haltSlot_eq (d : Dev) (n code : Nat) : haltSlot d n code =
    let d1 := onSnap d n (stoppedSlot code)
    let d2 := if (snapSlot d n).st == .holding then ((snapSlot d n).items.map (·.src)).foldl unhold d1 else d1
    endSnapWaits (waiterEnded code (waiterEnded code d2 (snapSlot d n).opener) (snapSlot d n).sealer) := rfl

/-- A slot past its point stops, and the SEAL that waits for it ends. -/
theorem haltSlot_of_sealed {d : Dev} {n code : Nat} {q : DescRef} {z : Desc} (hhold : (snapSlot d n).st ≠ .holding)
    (hopen : (snapSlot d n).opener = none) (hseal : (snapSlot d n).sealer = some q) (hz : descOf (onSnap d n (stoppedSlot code)) q = some z) :
    haltSlot d n code = endSnapWaits (endedWith (onSnap d n (stoppedSlot code)) z code) := by
  have hnone : waiterEnded code (onSnap d n (stoppedSlot code)) none = onSnap d n (stoppedSlot code) := rfl
  simp only [haltSlot_eq, beq_iff_eq, hhold, if_false, hopen, hseal, hnone, waiterEnded_of_some hz]

/-- An extent whose requests a snapshot holds no longer. -/
def released (x : Extent) : Extent := { x with held := false }

/-- With no request in flight none goes on as the hold of a source ends. -/
theorem unhold_of_idle {d : Dev} (h : d.flying = []) (base : Nat) : unhold d base = onExt d base released :=
  releaseHeld_of_idle (d := onExt d base released) h base

/-- The ends of holds change extents alone. -/
theorem foldl_unhold_extents_only : ∀ (l : List Nat) {d : Dev}, d.flying = [] → ∃ e, l.foldl unhold d = { d with toll.extents := e }
  | [], d, _ => ⟨d.toll.extents, rfl⟩
  | base :: l, d, h => by
    obtain ⟨e, he⟩ := foldl_unhold_extents_only l (d := onExt d base released) h
    exact ⟨e, by rw [List.foldl_cons, unhold_of_idle h, he, onExt]⟩

/-- A slot for which neither an OPEN nor a SEAL waits stops with nothing in flight: its holds end. -/
theorem haltSlot_of_idle {d : Dev} {n : Nat} (code : Nat) (h : d.flying = []) (hopen : (snapSlot d n).opener = none)
    (hseal : (snapSlot d n).sealer = none) : ∃ e, haltSlot d n code = { onSnap d n (stoppedSlot code) with toll.extents := e } := by
  obtain ⟨e, he⟩ := foldl_unhold_extents_only ((snapSlot d n).items.map (·.src)) (d := onSnap d n (stoppedSlot code)) h
  have hnone (u : Dev) : waiterEnded code u none = u := rfl
  simp only [haltSlot_eq, hopen, hseal, hnone]
  split
  · exact ⟨e, (congrArg endSnapWaits he).trans (endSnapWaits_of_idle h)⟩
  · exact ⟨d.toll.extents, endSnapWaits_of_idle h⟩

/-- A dropped slot with nothing in flight is freed, and its DROP completes. -/
theorem dropOn_of_idle {d : Dev} {n : Nat} {r : DescRef} (h : d.flying = []) (hdrop : (snapSlot d n).dropper = some r) :
    dropOn d n = finishDesc (onSnap (accrue d (snapSlot d n).berth) n (fun _ => {})) r := by
  simp only [dropOn, hdrop, snapFlying, h, List.filter_nil, List.isEmpty_nil, if_true]

/-- With nothing in flight a slot for which neither an OPEN nor a SEAL waits stops and is freed at once, and memory stays. -/
theorem dropOn_haltSlot_of_idle {d : Dev} {n : Nat} (code : Nat) (r : DescRef) (hf : d.flying = []) (hn : n < d.tiers.snaps.length)
    (hopen : (snapSlot d n).opener = none) (hseal : (snapSlot d n).sealer = none) :
    ∃ t, dropOn (onSnap (haltSlot d n code) n (fun u => { u with dropper := some r })) n = finishDesc t r ∧ snapSlot t n = {} ∧
      t.tiers.mem = d.tiers.mem := by
  obtain ⟨e, he⟩ := haltSlot_of_idle code hf hopen hseal
  have hlen (f : SnapSlot → SnapSlot) : n < (onSnap d n f).tiers.snaps.length := by rwa [onSnap_tiers_snaps, length_modAt]
  have hdrop := snapSlot_onSnap (d := { onSnap d n (stoppedSlot code) with toll.extents := e }) (hlen _)
    (fun u => { u with dropper := some r })
  rw [he]
  refine ⟨_, dropOn_of_idle hf (congrArg SnapSlot.dropper hdrop), snapSlot_onSnap ?_ _, rfl⟩
  exact (length_modAt _ _ _).symm ▸ hlen (stoppedSlot code)

end Sys2Proof.Machine
end

section
/-! SUPPORT. The course of a snapshot: its point, the copying of its tiles, and the end of its items, case by case (08 R275-R277). -/

namespace Sys2Proof.Machine

open Sys2Proof

/-! ## The consistency point (08 R275) -/

theorem exec_snapPoint (s : State) (bank slot : Nat) :
    exec (.snapPoint bank slot) s = .next (goingOn s (snapPoint s.dev (bank * 16 + slot))) := rfl

theorem snapPoint_of_not_due {d : Dev} {n : Nat} (h : (snapSlot d n).st ≠ .holding ∨ (snapSlot d n).dropper.isSome = true ∨
    ((snapSlot d n).items.map (·.src)).all (sourceQuiet d) = false ∨ bitmapZero d (snapSlot d n) = false) : snapPoint d n = d := by
  have hstay : ((snapSlot d n).st != .holding || (snapSlot d n).dropper.isSome ||
      !((snapSlot d n).items.map (·.src)).all (sourceQuiet d) || !bitmapZero d (snapSlot d n)) = true := by
    simp only [Bool.or_eq_true, bne_iff_ne, Bool.not_eq_true', or_assoc]
    exact h
  simp only [snapPoint, hstay, if_true]

/-- A slot at its point: it copies, and its sources are held no longer. -/
def atPoint (d : Dev) (n : Nat) : Dev :=
  ((snapSlot d n).items.map (·.src)).foldl unhold
    (onSnap (count d (pg 0x33 (n / 16)) 0x858 (d.sys.ltc - (snapSlot d n).since)) n (fun s => { s with st := .copying, opener := none }))

/-- An OPEN that waits, if any, completes. -/
def openEnded (d : Dev) (r : Option DescRef) : Dev :=
  match r with
  | some r => finishDesc d r
  | none => d

theorem snapPoint_of_due {d : Dev} {n : Nat} (hhold : (snapSlot d n).st = .holding) (hdrop : (snapSlot d n).dropper = none)
    (hquiet : ((snapSlot d n).items.map (·.src)).all (sourceQuiet d) = true) (hzero : bitmapZero d (snapSlot d n) = true) :
    snapPoint d n = openEnded (atPoint d n) (snapSlot d n).opener := by
  have hdue : ((snapSlot d n).st != .holding || (snapSlot d n).dropper.isSome ||
      !((snapSlot d n).items.map (·.src)).all (sourceQuiet d) || !bitmapZero d (snapSlot d n)) = false := by
    rw [hhold, hdrop, hquiet, hzero]
    rfl
  simp only [snapPoint, hdue, Bool.false_eq_true, if_false]
  rfl

/-- What is found once the first element with a property has been changed was there, or is the changed one. -/
theorem find_modFirst_cases {α : Type} {p q : α → Bool} {f : α → α} (hf : ∀ a, q a = true → q (f a) = true) {y : α} :
    ∀ {l : List α}, (modFirst p f l).find? q = some y → l.find? q = some y ∨ ∃ a, y = f a
  | [], h => by simp [modFirst] at h
  | b :: l, h => by
    unfold modFirst at h
    rw [List.find?_cons]
    split at h
    · cases hb : q b with
      | true =>
        rw [List.find?_cons, hf b hb] at h
        exact .inr ⟨b, (Option.some.inj h).symm⟩
      | false =>
        rw [List.find?_cons] at h
        split at h
        · exact .inr ⟨b, (Option.some.inj h).symm⟩
        · exact .inl h
    · rw [List.find?_cons] at h
      cases hb : q b with
      | true => exact .inl (by simpa only [hb] using h)
      | false => exact find_modFirst_cases hf (by simpa only [hb] using h)

/-- The extent at a BASE is not held. -/
def NotHeld (d : Dev) (base : Nat) : Prop := ∀ x, extOf d base = some x → x.held = false

theorem NotHeld.unhold {d : Dev} (h : d.flying = []) {b base : Nat} (hd : b = base ∨ NotHeld d base) : NotHeld (unhold d b) base := by
  intro y hy
  rw [unhold_of_idle h] at hy
  have hcases := find_modFirst_cases (p := fun x : Extent => x.e.base == b) (q := fun x : Extent => x.e.base == base) (f := released)
    (fun _ hx => hx) hy
  obtain hold | ⟨a, rfl⟩ := hcases
  · obtain rfl | hd := hd
    · have hnew := extOf_onExt (f := released) hold rfl
      exact congrArg Extent.held (Option.some.inj (hy.symm.trans hnew))
    · exact hd y hold
  · rfl

/-- The holds of all of a list of sources end. -/
theorem notHeld_foldl_unhold {base : Nat} : ∀ (l : List Nat) {d : Dev}, d.flying = [] → base ∈ l ∨ NotHeld d base →
    NotHeld (l.foldl unhold d) base
  | [], _, _, h => h.resolve_left (List.not_mem_nil)
  | b :: l, d, hf, h => by
    have hidle : (Machine.unhold d b).flying = [] := by rw [unhold_of_idle hf]; exact hf
    refine notHeld_foldl_unhold l hidle ?_
    rcases h with h | h
    · obtain rfl | h := List.mem_cons.mp h
      · exact .inr (NotHeld.unhold hf (.inl rfl))
      · exact .inl h
    · exact .inr (NotHeld.unhold hf (.inr h))

theorem snapSlot_foldl_unhold (l : List Nat) {d : Dev} (hf : d.flying = []) (n : Nat) : snapSlot (l.foldl unhold d) n = snapSlot d n := by
  obtain ⟨e, he⟩ := foldl_unhold_extents_only l hf
  rw [he]
  rfl

section
variable {d : Dev} {n : Nat} (hf : d.flying = [])
include hf

theorem snapSlot_atPoint (hn : n < d.tiers.snaps.length) :
    snapSlot (atPoint d n) n = { snapSlot d n with st := .copying, opener := none } := by
  rw [atPoint, snapSlot_foldl_unhold _ (by rw [onSnap_flying, count_flying, hf]), snapSlot_onSnap (by rwa [count_tiers]), snapSlot,
    count_tiers, ← snapSlot]

theorem notHeld_atPoint {i : SnapItem} (hi : i ∈ (snapSlot d n).items) : NotHeld (atPoint d n) i.src :=
  notHeld_foldl_unhold _ (by rw [onSnap_flying, count_flying, hf]) (.inl (List.mem_map_of_mem hi))

end

/-! ## Copying (08 R276) -/

theorem exec_snapTileCopied (s : State) (bank slot item tile : Nat) :
    exec (.snapTileCopied bank slot item tile) s = .next (goingOn s (snapTileCopied s.dev (bank * 16 + slot) item tile)) := rfl

section
variable {d : Dev} {n item tile : Nat} {i : SnapItem} (hi : (snapSlot d n).items[item]? = some i)
include hi

theorem snapTileCopied_of_turn (hst : (snapSlot d n).st = .copying) (hfail : i.failed = false) (htile : tile < i.tiles)
    (hclear : NSet.mem i.copied tile = false) (hnext : copyNext (snapSlot d n) item tile = true) :
    snapTileCopied d n item tile = endSnapWaits (noteDraining (snapCopy d n item tile) n) := by
  have hturn : ((snapSlot d n).st != .copying || i.failed || decide (i.tiles ≤ tile) || NSet.mem i.copied tile ||
      !copyNext (snapSlot d n) item tile) = false := by
    rw [hst, hfail, decide_eq_false (Nat.not_le.mpr htile), hclear, hnext]
    rfl
  simp only [snapTileCopied, hi, hturn, Bool.false_eq_true, if_false]

theorem snapTileCopied_of_no_turn (h : (snapSlot d n).st ≠ .copying ∨ i.failed = true ∨ i.tiles ≤ tile ∨ NSet.mem i.copied tile = true ∨
    copyNext (snapSlot d n) item tile = false) : snapTileCopied d n item tile = d := by
  have hstay : ((snapSlot d n).st != .copying || i.failed || decide (i.tiles ≤ tile) || NSet.mem i.copied tile ||
      !copyNext (snapSlot d n) item tile) = true := by simpa [or_assoc] using h
  simp only [snapTileCopied, hi, hstay, if_true]

variable {src dst : Extent} (hsrc : extOf d i.src = some src) (hdst : extOf d i.bounce = some dst) (hbounce : i.bounce ≠ 0)
  (hfull : (snapSlot d n).full = none)
include hsrc hdst hbounce hfull

/-- A tile that goes over a bounce extent is read first. -/
theorem snapCopy_of_unread (hgot : snapGot (snapRead d src n item tile (snapSlot d n).job .source) n item tile = none) :
    snapCopy d n item tile = snapRead d src n item tile (snapSlot d n).job .source := by
  simp only [snapCopy, hi, hsrc, beq_eq_false_iff_ne.mpr hbounce, Bool.false_eq_true, if_false, hdst, Bool.false_and, copyRoom, hfull, hgot]

/-- Once it has been read it is counted, written on, and shown in the bitmap. -/
theorem snapCopy_of_read {g : SnapGot} (hgot : snapGot (snapRead d src n item tile (snapSlot d n).job .source) n item tile = some g) :
    snapCopy d n item tile =
      let d2 := onSnap (snapRead d src n item tile (snapSlot d n).job .source) n
        (fun u => { u with ahead := u.ahead.filter (fun a => a != (item, tile)) })
      let d3 := count (onSnapItem d2 n item (fun i => { i with copied := NSet.add i.copied tile })) (pg 0x33 (n / 16)) 0x850
      setBitmap (snapOnward d3 dst g n (snapSlot d n).job .image) n item tile := by
  simp only [snapCopy, hi, hsrc, beq_eq_false_iff_ne.mpr hbounce, Bool.false_eq_true, if_false, hdst, Bool.false_and, copyRoom, hfull, hgot]

end

/-- What has been read of a tile is held no longer. -/
def unformed (d : Dev) (n : Nat) (g : SnapGot) : Dev :=
  onSnap d n (fun u => { u with formed := u.formed.filter (fun h => !(h.item == g.item && h.tile == g.tile)) })

section
variable {g : SnapGot} (d : Dev) (x : Extent) (n job : Nat)

theorem snapOnward_of_ok (part : SnapPart) (h : g.status = cOK) : snapOnward d x g n job part =
    snapWrite (unformed d n g) x (extBase x + g.tile * 256) g.data n g.item g.tile job part := by
  simp only [snapOnward, h, beq_self_eq_true, if_true, unformed]

variable (h : g.status ≠ cOK)
include h

theorem snapOnward_of_lost_image : snapOnward d x g n job .image =
    snapLost (poisonTile (unformed d n g) x g.tile) n g.item g.tile g.status := by
  simp only [snapOnward, beq_eq_false_iff_ne.mpr h, bne, beq_self_eq_true, Bool.false_eq_true, Bool.not_false, Bool.and_self, if_false,
    if_true, unformed]

theorem snapOnward_of_lost_final : snapOnward d x g n job .final = snapLost (unformed d n g) n g.item g.tile g.status := by
  have hpart : (SnapPart.final == SnapPart.image) = false := by decide
  simp only [snapOnward, beq_eq_false_iff_ne.mpr h, hpart, Bool.false_and, Bool.false_eq_true, if_false, unformed]

end

/-! ## The end of an item (08 R277) -/

theorem exec_snapItemDone (s : State) (bank slot item : Nat) :
    exec (.snapItemDone bank slot item) s = .next (goingOn s (snapItemDone s.dev (bank * 16 + slot) item)) := rfl

theorem foldl_toFlash_snaps : ∀ (l : List StagedTile) (d : Dev), (l.foldl toFlash d).tiers.snaps = d.tiers.snaps
  | [], _ => rfl
  | t :: l, d => foldl_toFlash_snaps l (toFlash d t)

theorem flushStage_snaps (d : Dev) (x : Extent) : (flushStage d x).tiers.snaps = d.tiers.snaps := foldl_toFlash_snaps _ d

/-- With no SEAL waiting for it a slot keeps its items. -/
theorem sealOn_items {d : Dev} {n : Nat} (hn : n < d.tiers.snaps.length) (h : (snapSlot d n).sealer = none) :
    (snapSlot (sealOn d n) n).items = (snapSlot d n).items := by
  simp only [sealOn, h, Option.bind_none]
  split
  · rfl
  · rw [snapSlot_onSnap hn]

section
variable {d : Dev} {n item : Nat} {i : SnapItem} (hi : (snapSlot d n).items[item]? = some i) (hdrop : (snapSlot d n).dropper = none)
include hi hdrop

theorem snapItemDone_of_done (hdone : i.done = true) : snapItemDone d n item = sealOn d n := by
  simp only [snapItemDone, hi, hdrop, hdone, Option.isSome_none, Bool.false_eq_true, if_false, if_true]

/-- An item copied straight to flash ends. -/
theorem snapItemDone_of_copied {x : Extent} (hopen : i.done = false) (hst : (snapSlot d n).st = .copying ∨ (snapSlot d n).st = .draining)
    (hcopied : i.tiles ≤ i.copied.length) (hdirect : i.bounce = 0) (hx : extOf d i.dest = some x) :
    snapItemDone d n item = endItem d n item x := by
  have hdue : ((snapSlot d n).st == .holding || (snapSlot d n).st == .free || !itemCopied i) = false := by
    have hall : itemCopied i = true := by simp [itemCopied, hcopied]
    rcases hst with hst | hst <;> simp [hst, hall]
  have hout : itemDrained i = true := by simp [itemDrained, hdirect]
  simp only [snapItemDone, hi, hdrop, hopen, hdue, hdirect, beq_self_eq_true, hx, hout, if_true, List.foldl_nil, Option.isSome_none,
    Bool.false_eq_true, if_false]

end

/-- The end of an item with no access in flight: it is done, and has its code where it had none. -/
theorem endItem_item {d : Dev} {n item : Nat} {i : SnapItem} (hf : d.flying = []) (hn : n < d.tiers.snaps.length)
    (hi : (snapSlot d n).items[item]? = some i) (hseal : (snapSlot d n).sealer = none) (x : Extent) :
    (snapSlot (endItem d n item x) n).items[item]? =
      some { i with done := true, status := if i.status == 0 then (if flashBroken d x then cTIER else cOK) else i.status } := by
  have hslot : snapSlot (flushStage d x) n = snapSlot d n := by simp only [snapSlot, flushStage_snaps]
  have hn' : n < (flushStage d x).tiers.snaps.length := by rwa [flushStage_snaps]
  have hmod (f : SnapItem → SnapItem) :
      snapSlot (onSnapItem (flushStage d x) n item f) n = { snapSlot d n with items := modAt f (snapSlot d n).items item } := by
    rw [onSnapItem, snapSlot_onSnap hn', hslot]
  have hlen (f : SnapItem → SnapItem) : n < (onSnapItem (flushStage d x) n item f).tiers.snaps.length := by
    rwa [onSnapItem, onSnap_tiers_snaps, length_modAt]
  simp only [endItem, snapFlying, hf, List.filter_nil, List.any_nil, Bool.false_eq_true, if_false]
  rw [sealOn_items (hlen _) (by rw [hmod]; exact hseal), hmod]
  exact getElem?_modAt hi

end Sys2Proof.Machine
end

section
/-! Snapshots: their descriptors, then their course. -/

namespace Sys2Proof.Machine

open Sys2Proof

/-- Settles O44: each outcome of an OPEN, a SEAL and a DROP, then each command of a slot's course. -/
theorem snapshotsOpenTakeTheirCourseAndEnd : Obligations.SnapshotsOpenTakeTheirCourseAndEnd := by
  refine ⟨?_, ?_⟩
  · intro s r x hlen hberth d d1 n sl busy
    have numbered {op : Nat} (hx : engineDesc d r 0x20 op = some x) : slotOfDesc x = n := slotOfDesc_of_descOf (descOf_of_engineDesc hx)
    refine ⟨fun hx hnew => ?_, fun hx => ?_, fun hx hcount => ?_, fun q z hfree hhold hdrop hall hseal hz => ?_⟩
    · have hr : x.r = r := ref_of_descOf (descOf_of_engineDesc hx)
      have hbusy : busyCodes d x = busy := by rw [busyCodes, numbered hx]; rfl
      have hdeny : cDENIED ∉ busy := hbusy ▸ cDENIED_not_mem_busyCodes d x
      have leaves {t : Dev} (h : snapOpen d r = t) : exec (.snapOpen r) s = .next (goingOn s t) := by rw [exec_snapOpen, h]
      have hnew' : (snapSlot d (slotOfDesc x)).opener ≠ some r := by rw [numbered hx]; exact hnew
      have hempty := snapOpen_of_empty hx hnew'
      have hitems := snapOpen_of_items hx hnew'
      rw [hbusy] at hempty hitems
      refine ⟨fun hcount code h => ?_, fun hcount h => ?_, fun hcount t hread => ?_, fun hcount c t code hread h => ?_,
        fun hcount l t hread => ?_⟩
      · rw [leaves (hempty hcount), unlessRefused_of_refused h, hr]
      · rw [leaves (hempty hcount), unlessRefused_of_passed h]
      · exact leaves ((hitems hcount).trans (withBlock_of_waiting hdeny _ hread))
      · rw [leaves ((hitems hcount).trans (withBlock_of_failed hdeny _ hread)), unlessRefused_of_refused h, hr]
      · intro args need codes
        have hlisted := leaves ((hitems hcount).trans (withBlock_of_read hdeny _ hread))
        have hpassed (h : firstRefusal codes = none) : exec (.snapOpen r) s = .next (goingOn s (openSlot t x args)) :=
          hlisted.trans (congrArg (fun u => Host.Outcome.next (goingOn s u)) (unlessRefused_of_passed h t _))
        refine ⟨fun code h => ?_, hpassed, fun h hok => ?_⟩
        · refine hlisted.trans (congrArg (fun u => Host.Outcome.next (goingOn s u)) ?_)
          rw [← hr]
          exact unlessRefused_of_refused h t _
        · have hsome : args ≠ [] := by simpa [args] using hcount
          rw [hpassed h, openSlot_of_ok hsome hok, numbered hx, hr]
          simp only [openedSlot, hr]
          rfl
    · intro free codes
      have leaves {t : Dev} (h : snapSeal d r = t) : exec (.snapSeal r) s = .next (goingOn s t) := by rw [exec_snapSeal, h]
      have hcodes : sealCodes d x = codes := by rw [sealCodes, numbered hx]; rfl
      refine ⟨fun hnew code h => ?_, fun hnew h => ?_, fun hseal => ?_⟩
      · exact leaves (snapSeal_of_refused hx (numbered hx ▸ hnew) (hcodes ▸ h))
      · rw [leaves (snapSeal_of_accepted hx (numbered hx ▸ hnew) (hcodes ▸ h)), numbered hx]
      · rw [leaves (snapSeal_of_sealer hx (numbered hx ▸ hseal)), numbered hx]
    · intro halted freed
      have leaves {t : Dev} (h : snapDrop d r = t) : exec (.snapDrop r) s = .next (goingOn s t) := by rw [exec_snapDrop, h]
      have hown (hfree : sl.st ≠ .free) (hdrop : sl.dropper = none) (hjob : sl.job = x.job) :
          snapDrop d r = dropOn (onSnap (haltSlot d1 n cABORTED) n (fun u => { u with dropper := some r })) n := by
        have h := snapDrop_of_own hx hcount (numbered hx ▸ hfree) (numbered hx ▸ hdrop) (numbered hx ▸ hjob)
        rwa [numbered hx] at h
      refine ⟨fun hnew h => ?_, fun hdrop => ?_, fun hdrop hfree hjob hopen hseal hf => ?_, fun q z hdrop hfree hhold hjob hopen hseal hz => ?_⟩
      · exact leaves (snapDrop_of_denied hx hcount (numbered hx ▸ hnew) (numbered hx ▸ h))
      · rw [leaves (snapDrop_of_dropper hx (numbered hx ▸ hdrop)), numbered hx]
      · have hn : n < d1.tiers.snaps.length := lt_of_snapSlot_used hfree
        obtain ⟨t, ht, hfreed, hmem⟩ := dropOn_haltSlot_of_idle cABORTED r (d := d1) hf hn hopen hseal
        exact ⟨t, leaves ((hown hfree hdrop hjob).trans ht), hfreed, hmem⟩
      · rw [leaves (hown hfree hdrop hjob), haltSlot_of_sealed (d := d1) (code := cABORTED) hhold hopen hseal hz, endedWith, ref_of_descOf hz]
        rfl
    · exact sealOn_of_done hfree hhold hdrop hall hseal hz
  · intro s bank slot item tile hbank hslot hlen hf d n sl
    have hn : n < d.tiers.snaps.length := Nat.lt_of_lt_of_eq (by omega) hlen.symm
    have hpage : n / 16 = bank := by omega
    refine ⟨fun h => ?_, fun hhold hdrop hquiet hzero => ?_, fun i hi hst hfail htile hclear hnext => ?_,
      fun i src dst hi hsrc hdst hbounce hfull => ⟨fun hgot => ?_, fun g hgot => ?_⟩,
      fun x g part => ⟨fun h => ?_, fun h hpart => ?_, fun h hpart => ?_⟩, fun i hi h => ?_,
      fun i x hi hopen hfail hdirect hcopied hst hx hseal hdrop => ?_, fun i hi hdone hdrop => ?_⟩
    · rw [exec_snapPoint, snapPoint_of_not_due h]
    · refine ⟨atPoint d n, ?_, snapSlot_atPoint hf hn, fun i hi => notHeld_atPoint hf hi⟩
      rw [exec_snapPoint, snapPoint_of_due hhold hdrop hquiet hzero]
      rfl
    · rw [exec_snapTileCopied, snapTileCopied_of_turn hi hst hfail htile hclear hnext]
    · exact snapCopy_of_unread hi hsrc hdst hbounce hfull hgot
    · have h := snapCopy_of_read hi hsrc hdst hbounce hfull hgot
      rwa [hpage] at h
    · exact snapOnward_of_ok d x n sl.job part h
    · subst hpart
      exact snapOnward_of_lost_image d x n sl.job h
    · subst hpart
      exact snapOnward_of_lost_final d x n sl.job h
    · rw [exec_snapTileCopied, snapTileCopied_of_no_turn hi h]
    · refine ⟨endItem d n item x, ?_, _, endItem_item hf hn hi hseal x, rfl, fun h0 => ?_⟩
      · rw [exec_snapItemDone, snapItemDone_of_copied hi hdrop hopen hst hcopied hdirect hx]
      · exact if_pos (beq_iff_eq.mpr h0)
    · rw [exec_snapItemDone, snapItemDone_of_done hi hdrop hdone]

end Sys2Proof.Machine
end

/-! ## Proofs: the Purser (09 R285-R307) -/

section
/-! SUPPORT. Sparse maps that need not be canonical. -/

namespace Sys2Proof.NMap

/-- A key that has been written with another value than the unlisted one reads it, in any map. -/
theorem get_set_of_ne {α : Type} [DecidableEq α] {d : α} (m : NMap α) (k : Nat) {v : α} (hv : v ≠ d) : get d (set d m k v) k = v := by
  induction m with
  | nil => simp [set, get, hv]
  | cons e m ih =>
    obtain ⟨j, w⟩ := e
    rcases Nat.lt_trichotomy j k with hlt | rfl | hgt
    · have hne : ¬ j = k := by omega
      have hge : ¬ k < j := by omega
      simpa [set, get, hlt, hne, hge] using ih
    · simp [set, get, hv]
    · have hge : ¬ j < k := by omega
      have hne : ¬ j = k := by omega
      simp [set, get, hge, hne, hv]

end Sys2Proof.NMap
end

section
/-! SUPPORT. Table slots: what a slot refuses, DEFINE, FREE and SWITCH, and the end of a version or of a slot, case by case (09 R285, R288,
R301-R303). -/

namespace Sys2Proof.Machine

open Sys2Proof

theorem exec_purserDefine (s : State) (r : DescRef) : exec (.purserDefine r) s = .next (goingOn s (defineTable s.dev r)) := rfl

theorem exec_purserVersionDrained (s : State) (bank slot : Nat) :
    exec (.purserVersionDrained bank slot) s = .next (goingOn s (tableDrained s.dev (bank * 1024 + slot))) := rfl

/-! ## What a slot refuses (09 R285, R288) -/

theorem mem_codeIf {b : Bool} {c code : Nat} : code ∈ codeIf b c ↔ b = true ∧ code = c := by
  cases b <;> simp [codeIf]

section
variable {d : Dev} {x : Desc}

theorem slotRefusals_of_free (h : (tableSlot d (purserSlot x)).st = .free) :
    slotRefusals d x = if x.opcode = 1 then [] else [cUNSUP] := by
  by_cases hop : x.opcode = 1 <;> simp [slotRefusals, h, codeIf, hop]

/-- Only a GATHER may name the slot of another job, that of a table which its job may read. -/
theorem slotRefusals_of_held (h : (tableSlot d (purserSlot x)).st ≠ .free) (hop : x.opcode ≠ 0x10) :
    slotRefusals d x = codeIf (!(tableSlot d (purserSlot x)).job == x.job) cDENIED ++
      codeIf (x.opcode == 1 || (tableSlot d (purserSlot x)).st == .freeing) cUNSUP := by
  have hgather : (x.opcode == 0x10) = false := beq_false_of_ne hop
  have hused : ((tableSlot d (purserSlot x)).st == .free) = false := beq_false_of_ne h
  simp only [slotRefusals, hgather, hused, Bool.false_and, Bool.or_false, Bool.false_eq_true, if_false]

variable (h : (tableSlot d (purserSlot x)).st ≠ .free) (hop : x.opcode ≠ 0x10)
include h hop

theorem cDENIED_mem_slotRefusals : cDENIED ∈ slotRefusals d x ↔ (tableSlot d (purserSlot x)).job ≠ x.job := by
  have hne : cDENIED ≠ cUNSUP := by decide
  simp [slotRefusals_of_held h hop, mem_codeIf, hne]

theorem cUNSUP_mem_slotRefusals : cUNSUP ∈ slotRefusals d x ↔ x.opcode = 1 ∨ (tableSlot d (purserSlot x)).st = .freeing := by
  have hne : cUNSUP ≠ cDENIED := by decide
  simp [slotRefusals_of_held h hop, mem_codeIf, hne]

end

/-! ## DEFINE, FREE and SWITCH (09 R285-R288, R302) -/

/-- A slot that is another job's refuses a descriptor before its block is read. -/
theorem withBlock_of_denied {d : Dev} {x : Desc} {l : List Nat} (h : cDENIED ∈ l) (off n : Nat) (k : Dev → List Byte → Dev) :
    withBlock d x off n l k = unlessRefused d x l id := by
  simp [withBlock, h]

theorem perform_eq (x : Desc) (k : Dev → Dev) (d : Dev) : perform x k d = if x.count = 0 then finishDesc d x.r else k d := by
  simp only [perform, beq_iff_eq]

section
variable {d : Dev} {r : DescRef} {x : Desc} (hx : engineDesc d r 0x30 1 = some x)
include hx

theorem defineTable_of_denied (hdeny : cDENIED ∈ slotRefusals d x) {code : Nat} (h : firstRefusal (x.pre ++ slotRefusals d x) = some code) :
    defineTable d r = refuseDesc (runDesc d r) r code := by
  simp only [defineTable, hx, withBlock_of_denied hdeny, unlessRefused_of_refused h, ref_of_descOf (descOf_of_engineDesc hx)]

theorem defineTable_of_read (hdeny : cDENIED ∉ slotRefusals d x) {l : List Byte} {t : Dev}
    (hread : descRead (runDesc d r) x tableKey d.xmap.node (dfld x 0x18 0 48) 64 = (.ok l, t)) :
    defineTable d r = unlessRefused t x (slotRefusals d x ++ codeIf (tableOfBytes l).bad cUNSUP) (perform x (fun d =>
      finishDesc (setTable d (purserSlot x) { st := .defined, job := x.job, record := l, version := 1 }) r)) := by
  simp only [defineTable, hx]
  exact withBlock_of_read (d := runDesc d r) hdeny _ hread

end

/-- FREE. -/
def freeTable (d : Dev) (r : DescRef) : Dev :=
  match engineDesc d r 0x30 2 with
  | none => d
  | some x =>
    if (tableSlot d (purserSlot x)).freer == some r then runDesc d r
    else unlessRefused (runDesc d r) x (slotRefusals d x) (perform x (fun t =>
      setTable t (purserSlot x) { tableSlot d (purserSlot x) with st := .freeing, freer := some r }))

theorem exec_purserFree (s : State) (r : DescRef) : exec (.purserFree r) s = .next (goingOn s (freeTable s.dev r)) := rfl

theorem freeTable_of_new {d : Dev} {r : DescRef} {x : Desc} (hx : engineDesc d r 0x30 2 = some x)
    (hnew : (tableSlot d (purserSlot x)).freer ≠ some r) :
    freeTable d r = unlessRefused (runDesc d r) x (slotRefusals d x) (perform x (fun t =>
      setTable t (purserSlot x) { tableSlot d (purserSlot x) with st := .freeing, freer := some r })) := by
  simp only [freeTable, hx, beq_iff_eq, hnew, if_false]

/-- SWITCH. -/
def switchDesc (d : Dev) (r : DescRef) : Dev :=
  match engineDesc d r 0x30 3 with
  | none => d
  | some x =>
    if (tableSlot d (purserSlot x)).switcher == some r then runDesc d r
    else withBlock (runDesc d r) x (dfld x 0x18 0 48) 64
      (slotRefusals d x ++ codeIf ((tableSlot d (purserSlot x)).oldVersion != 0) cBUSY) (fun t l => switchTable t x l)

theorem exec_purserSwitch (s : State) (r : DescRef) : exec (.purserSwitch r) s = .next (goingOn s (switchDesc s.dev r)) := rfl

theorem switchDesc_of_read {d t : Dev} {r : DescRef} {x : Desc} {l : List Byte} (hx : engineDesc d r 0x30 3 = some x)
    (hnew : (tableSlot d (purserSlot x)).switcher ≠ some r) (hdeny : cDENIED ∉ slotRefusals d x)
    (hread : descRead (runDesc d r) x tableKey d.xmap.node (dfld x 0x18 0 48) 64 = (.ok l, t)) : switchDesc d r = switchTable t x l := by
  have hne : cDENIED ≠ cBUSY := by decide
  have hall : cDENIED ∉ slotRefusals d x ++ codeIf ((tableSlot d (purserSlot x)).oldVersion != 0) cBUSY := by
    simp [hdeny, mem_codeIf, hne]
  simp only [switchDesc, hx, beq_iff_eq, hnew, if_false]
  exact withBlock_of_read (d := runDesc d r) hall _ hread

/-- What a SWITCH to the record `l` is refused with, past those of its fetch. -/
def switchRefusals (d : Dev) (x : Desc) (l : List Byte) : List Nat :=
  let s := tableSlot d (purserSlot x)
  let t := tableOfBytes l
  let old := tableOfBytes s.record
  slotRefusals d x ++ codeIf (t.bad || t.dim != old.dim || t.fmt != old.fmt || t.map != old.map) cUNSUP ++ codeIf (s.oldVersion != 0) cBUSY

/-- The slot with the record `l` as its new version, the old one still in use by what is bound to it. -/
def switched (d : Dev) (x : Desc) (l : List Byte) : Dev :=
  let n := purserSlot x
  let s := tableSlot d n
  setTable (count d (pg 0x60 (n / 1024)) 0x838) n
    { s with record := l, version := if s.version = 0xFFFFFFFF then 1 else s.version + 1
             oldVersion := s.version, oldRec := s.record, switcher := some x.r }

section
variable {d : Dev} {x : Desc} {l : List Byte}

theorem switchTable_of_refused {code : Nat} (h : firstRefusal (x.pre ++ switchRefusals d x l) = some code) :
    switchTable d x l = refuseDesc d x.r code := by
  unfold switchTable
  exact unlessRefused_of_refused h d _

theorem switchTable_of_passed (h : firstRefusal (x.pre ++ switchRefusals d x l) = none) : switchTable d x l =
    if dnum x 0x24 4 ≠ (tableSlot d (purserSlot x)).version then refuseDesc d x.r cVERSION
    else if x.count = 0 then finishDesc d x.r else switched d x l := by
  unfold switchTable
  refine (unlessRefused_of_passed h d _).trans ?_
  simp only [perform_eq, bne_iff_ne, beq_iff_eq]
  rfl

end

/-! ## The end of a version, and of a slot (09 R288, R303) -/

/-- A written slot that is in use is what has been written. -/
theorem tableSlot_setTable_of_used (d : Dev) (n : Nat) {t : TableSlot} (h : t.st ≠ .free) : tableSlot (setTable d n t) n = t := by
  have hne : t ≠ {} := fun he => h (he ▸ rfl)
  exact NMap.get_set_of_ne d.purser.slots n hne

theorem tableSlot_openEnded (d : Dev) (r : Option DescRef) (n : Nat) : tableSlot (openEnded d r) n = tableSlot d n := by
  cases r <;> rfl

/-- A SWITCH's old version ends, once it is bound no longer. -/
def oldDrained (d : Dev) (n : Nat) : Dev :=
  let u := tableSlot d n
  if u.oldVersion != 0 && !tableBound d n u.oldVersion then
    openEnded (setTable (dropFwd d n u.oldVersion) n { u with oldVersion := 0, oldRec := [], switcher := none }) u.switcher
  else d

/-- A slot that is being freed ends, once it is bound no longer; `r` is the FREE that waits for that. -/
def slotDrained (d : Dev) (n : Nat) (r : Option DescRef) : Dev :=
  if (tableSlot d n).st == .freeing && !tableBound d n 0 then openEnded (setTable (dropFwd d n 0) n {}) r else d

theorem tableDrained_eq (d : Dev) (n : Nat) : tableDrained d n = slotDrained (oldDrained d n) n (tableSlot d n).freer := rfl

section
variable {d : Dev} {n : Nat}

theorem oldDrained_of_kept (h : (tableSlot d n).oldVersion = 0 ∨ tableBound d n (tableSlot d n).oldVersion = true) : oldDrained d n = d := by
  obtain h | h := h <;> simp [oldDrained, h]

theorem oldDrained_of_unbound (h : (tableSlot d n).oldVersion ≠ 0) (hb : tableBound d n (tableSlot d n).oldVersion = false) :
    oldDrained d n = openEnded (setTable (dropFwd d n (tableSlot d n).oldVersion) n
      { tableSlot d n with oldVersion := 0, oldRec := [], switcher := none }) (tableSlot d n).switcher := by
  simp [oldDrained, h, hb]

theorem slotDrained_of_kept (h : (tableSlot d n).st ≠ .freeing ∨ tableBound d n 0 = true) (r : Option DescRef) : slotDrained d n r = d := by
  obtain h | h := h <;> simp [slotDrained, h]

theorem slotDrained_of_unbound (h : (tableSlot d n).st = .freeing) (hb : tableBound d n 0 = false) (r : Option DescRef) :
    slotDrained d n r = openEnded (setTable (dropFwd d n 0) n {}) r := by
  simp [slotDrained, h, hb]

theorem tableDrained_of_kept (hold : (tableSlot d n).oldVersion = 0 ∨ tableBound d n (tableSlot d n).oldVersion = true)
    (hst : (tableSlot d n).st ≠ .freeing ∨ tableBound d n 0 = true) : tableDrained d n = d := by
  rw [tableDrained_eq, oldDrained_of_kept hold, slotDrained_of_kept hst]

theorem tableDrained_of_switched (hst : (tableSlot d n).st = .defined) (hold : (tableSlot d n).oldVersion ≠ 0)
    (hb : tableBound d n (tableSlot d n).oldVersion = false) : tableDrained d n =
      openEnded (setTable (dropFwd d n (tableSlot d n).oldVersion) n
        { tableSlot d n with oldVersion := 0, oldRec := [], switcher := none }) (tableSlot d n).switcher := by
  rw [tableDrained_eq, oldDrained_of_unbound hold hb]
  refine slotDrained_of_kept (.inl ?_) _
  rw [tableSlot_openEnded, tableSlot_setTable_of_used] <;> simp [hst]

theorem tableDrained_of_freed (hst : (tableSlot d n).st = .freeing) (hold : (tableSlot d n).oldVersion = 0)
    (hb : tableBound d n 0 = false) : tableDrained d n = openEnded (setTable (dropFwd d n 0) n {}) (tableSlot d n).freer := by
  rw [tableDrained_eq, oldDrained_of_kept (.inl hold), slotDrained_of_unbound hst hb]

end

/-! ## Resolving indices (09 R289, R305) -/

section
variable {t : Table}

theorem resolveRows_direct (h : t.map = 0) (i : Nat) : resolveRows t i = if i < t.rows then some [(false, i)] else none := by
  simp only [resolveRows, h]

theorem resolveRows_past_limit (h : t.map = 1) {i : Nat} (hlimit : t.limit ≠ 0) (hi : t.limit ≤ i) : resolveRows t i = none := by
  simp [resolveRows, h, hlimit, hi]

/-- A hashed index is a row of its table, since the hash is taken modulo its rows. -/
theorem resolveRows_hashed (h : t.map = 1) (hrows : 0 < t.rows) {i : Nat} (hi : t.limit = 0 ∨ i < t.limit) :
    ∃ k, k < t.rows ∧ resolveRows t i = some [(false, k)] := by
  refine ⟨_, Nat.mod_lt (mix32 ((i / 2 ^ 32) ^^^ mix32 (i % 2 ^ 32 ^^^ t.key))) hrows, ?_⟩
  have hpast : ¬ (t.limit ≠ 0 ∧ t.limit ≤ i) := by omega
  simp only [resolveRows, h, Bool.and_eq_true, bne_iff_ne, decide_eq_true_eq, hpast, if_false]

variable (h : t.map = 2 ∨ t.map = 3)
include h

theorem resolveRows_composed (i : Nat) :
    resolveRows t i = if i < t.rows * t.rows2 then some [(false, i / t.rows2), (true, i % t.rows2)] else none := by
  obtain h | h := h <;> simp only [resolveRows, h]

/-- Quotient and remainder name one index only. -/
theorem resolveRows_composed_inj {i j : Nat} (hi : i < t.rows * t.rows2) (heq : resolveRows t i = resolveRows t j) : i = j := by
  rw [resolveRows_composed h, resolveRows_composed h, if_pos hi] at heq
  split at heq
  · simp only [Option.some.injEq, List.cons.injEq, Prod.mk.injEq, true_and, and_true] at heq
    obtain ⟨hquot, hrem⟩ := heq
    rw [← Nat.div_add_mod i t.rows2, hquot, hrem, Nat.div_add_mod]
  · cases heq

end

/-- Settles O45: what the slot refuses, each of the three descriptors of a slot, the two ends, and each way to resolve an index. -/
theorem tableSlotsAndIndices : Obligations.TableSlotsAndIndices := by
  refine ⟨fun s r x l t => ?_, fun t i j hrows hrows2 => ?_⟩
  · intro d d1 n sl codes
    refine ⟨fun hop => ⟨slotRefusals_of_free, fun hst => ⟨cDENIED_mem_slotRefusals hst hop, cUNSUP_mem_slotRefusals hst hop⟩⟩,
      fun hx => ⟨fun hdeny code h => ?_, fun hdeny hread => ?_⟩, fun hx hnew => ?_, fun hx hnew hdeny hread hsame => ?_, fun bank slot => ?_⟩
    · rw [exec_purserDefine, defineTable_of_denied hx hdeny h]
    · intro all
      rw [exec_purserDefine, defineTable_of_read hx hdeny hread]
      have hr := ref_of_descOf (descOf_of_engineDesc hx)
      refine ⟨fun code h => ?_, fun h => ?_⟩
      · rw [unlessRefused_of_refused h, hr]
      · rw [unlessRefused_of_passed h, perform_eq, hr, ← apply_ite (finishDesc · r)]
    · rw [exec_purserFree, freeTable_of_new hx hnew]
      have hr := ref_of_descOf (descOf_of_engineDesc hx)
      refine ⟨fun code h => ?_, fun h => ?_⟩
      · rw [unlessRefused_of_refused h, hr]
      · rw [unlessRefused_of_passed h, perform_eq, hr]
    · intro old new bad all
      have hr := ref_of_descOf (descOf_of_engineDesc hx)
      have hslot : tableSlot t (purserSlot x) = sl := hsame
      have hall : all = x.pre ++ switchRefusals t x l := by rw [switchRefusals, hslot]
      rw [exec_purserSwitch, switchDesc_of_read hx hnew hdeny hread, hall]
      refine ⟨fun code h => ?_, fun h hversion => ?_, fun h hversion => ?_⟩
      · rw [switchTable_of_refused h, hr]
      · rw [switchTable_of_passed h, hslot, if_pos hversion, hr]
      · rw [switchTable_of_passed h, hslot, if_neg (not_not.mpr hversion), switched, hslot, hr]
    · intro m u ended
      have hended (t : Dev) (q : Option DescRef) : ended t q = openEnded t q := rfl
      rw [exec_purserVersionDrained]
      refine ⟨fun hst hold => ⟨fun hb => ?_, fun hb => ?_⟩, fun hst hold => ⟨fun hb => ?_, fun hb => ?_⟩, fun hst hold => ?_⟩
      · rw [tableDrained_of_kept (.inr hb) (.inl (hst ▸ by decide))]
      · rw [tableDrained_of_switched hst hold hb, hended]
      · rw [tableDrained_of_kept (.inl hold) (.inr hb)]
      · rw [tableDrained_of_freed hst hold hb, hended]
      · rw [tableDrained_of_kept (.inl hold) (.inl hst)]
  · refine ⟨fun h => resolveRows_direct h i, fun h => ⟨resolveRows_past_limit h, resolveRows_hashed h hrows⟩,
      fun h => ⟨fun hi => ?_, fun hi => ?_, resolveRows_composed_inj h⟩⟩
    · rw [resolveRows_composed h, if_neg (Nat.not_lt.mpr hi)]
    · refine ⟨i / t.rows2, i % t.rows2, Nat.div_lt_of_lt_mul (Nat.mul_comm _ _ ▸ hi), Nat.mod_lt i hrows2, (Nat.div_add_mod' i _).symm, ?_⟩
      rw [resolveRows_composed h, if_pos hi]

end Sys2Proof.Machine
end

section
/-! SUPPORT. GATHER and UPDATE at the last unit in hand, and MIGRATE, with their table bound (09 R293-R301, R305). -/

namespace Sys2Proof.Machine

open Sys2Proof

theorem exec_gather (s : State) (r : DescRef) : exec (.gather r) s = .next (goingOn s (gatherDesc s.dev r)) := rfl

theorem exec_update (s : State) (r : DescRef) : exec (.update r) s = .next (goingOn s (updateDesc s.dev r)) := rfl

theorem exec_migrate (s : State) (r : DescRef) : exec (.migrate r) s = .next (goingOn s (migrateDesc s.dev r)) := rfl

/-! ## Bound versions (09 R301) -/

theorem boundOf_runDesc (d : Dev) (r q : DescRef) : boundOf (runDesc d r) q = boundOf d q := rfl

theorem activeCopies_runDesc (d : Dev) (r : DescRef) (x : Desc) :
    activeCopies (runDesc d r) { x with phase := .running } = activeCopies d x := rfl

/-- A descriptor that had bound nothing has bound the current version of its slot. -/
theorem boundOf_bindTable {d : Dev} {x : Desc} (h : boundOf d x.r = none) : boundOf (bindTable d x) x.r =
    some (purserSlot x, (tableSlot d (purserSlot x)).version, tableOfBytes (tableSlot d (purserSlot x)).record) := by
  have hnone : d.purser.bound.find? (fun b => b.r == x.r) = none := by
    unfold boundOf at h
    split at h
    · assumption
    · cases h
  have hslot : purserSlot x / 1024 * 1024 + purserSlot x % 1024 = purserSlot x := Nat.div_add_mod' _ _
  have hkeep : tableSlot (bindTable d x) (purserSlot x) = tableSlot d (purserSlot x) := rfl
  have hfind : (bindTable d x).purser.bound.find? (fun b => b.r == x.r) =
      some ⟨x.r, purserSlot x / 1024, purserSlot x % 1024, (tableSlot d (purserSlot x)).version⟩ := by
    simp [bindTable, List.find?_append, hnone]
  simp only [boundOf, hfind, hslot, hkeep, beq_self_eq_true, if_true]

/-! ## GATHER and UPDATE on their copies (09 R293-R297) -/

theorem withArgs_of_copies {x : Desc} (h : x.copies ≠ []) (d : Dev) (b : BuiltIn) (k : Dev → Dev) : withArgs d x b k = k d := by
  have hheld : (!x.copies.isEmpty) = true := by simpa using h
  simp only [withArgs, hheld, if_true]

theorem updateRows_of_active {d : Dev} {x : Desc} (hx : descOf d x.r = some x) (h : activeCopies d x ≠ []) (b : BuiltIn) :
    updateRows d x b = purserFinish (workLocks d x.r) x.r := by
  have hsome : (activeCopies d x).isEmpty = false := by simpa using h
  simp only [updateRows, hsome, hx, Bool.false_eq_true, if_false]

section
variable {d : Dev} {r : DescRef} {x : Desc} {n version : Nat} {t : Table} (hbound : boundOf d r = some (n, version, t))
  (hheld : x.copies ≠ [])
include hbound hheld

section
variable {k : Copy} {i : Nat} (hcopies : activeCopies d x = [k]) (hon : k.on = true) (hhand : k.hand = [i]) {u : Dev}
  (hlast : unitsDone (letGo u r i) r = true)
include hcopies hon hhand hlast

theorem gatherDesc_of_last (hx : engineDesc d r 0x30 0x10 = some x)
    (hdone : gatherBag (argsOf x.table) n version t (runDesc d r) { x with phase := .running } i = (.done, u)) :
    gatherDesc d r = endCopies (letGo u r i) r := by
  have hrun := descOf_runDesc (descOf_of_engineDesc hx)
  obtain ⟨z, hz, -⟩ := hands_empty_of_unitsDone hlast
  simp only [gatherDesc, hx, withArgs_of_copies hheld, hrun, boundOf_runDesc, hbound]
  rw [onCopies_of_last hrun hcopies hhand hon hdone hlast hlast hz, ref_of_descOf hz]

theorem updateDesc_of_last (hx : engineDesc d r 0x30 0x11 = some x) (hmarks : NMap.get 0 x.marks mergedKey ≠ 1)
    (hdone : updateItem (argsOf x.table) n version t (runDesc d r) { x with phase := .running } i = (.done, u)) {z : Desc}
    (hz : descOf (letGo u r i) r = some z) : updateDesc d r = purserFinish (mergeRows (letGo u r i) z n) r := by
  have hrun := descOf_runDesc (descOf_of_engineDesc hx)
  simp only [updateDesc, hx, withArgs_of_copies hheld, hrun, boundOf_runDesc, hbound, beq_iff_eq, hmarks, if_false]
  rw [onCopies_of_last hrun hcopies hhand hon hdone hlast hlast hz, ref_of_descOf hz]

end

/-- Once its items are merged an UPDATE goes on with the locks it holds. -/
theorem updateDesc_of_merged (hx : engineDesc d r 0x30 0x11 = some x) (hmarks : NMap.get 0 x.marks mergedKey = 1)
    (hcopies : activeCopies d x ≠ []) : updateDesc d r = purserFinish (workLocks (runDesc d r) r) r := by
  have hrun := descOf_runDesc (descOf_of_engineDesc hx)
  obtain rfl := ref_of_descOf (descOf_of_engineDesc hx)
  simp only [updateDesc, hx, withArgs_of_copies hheld, hrun, boundOf_runDesc, hbound, hmarks, beq_self_eq_true, if_true]
  exact updateRows_of_active (x := { x with phase := .running }) hrun hcopies _

end

/-! ## MIGRATE (09 R305) -/

/-- A MIGRATE whose slot is bound goes on with the locks that it holds, then with its items from the next one. -/
def migrateOn (d : Dev) (r : DescRef) (x : Desc) (b : Nat × Nat × Table) : Dev :=
  purserFinish (runItems r (migrateItem b.1 b.2.1 b.2.2) (x.count - x.nextItem) (workLocks d r)) r

section
variable {d : Dev} {r : DescRef} {x : Desc} (hx : engineDesc d r 0x30 0x20 = some x)
include hx

theorem migrateDesc_of_bound {b : Nat × Nat × Table} (hbound : boundOf d r = some b) : migrateDesc d r = migrateOn (runDesc d r) r x b := by
  simp only [migrateDesc, hx, hbound, boundOf_runDesc, Option.isSome_some, if_true, migrateOn]

variable (hbound : boundOf d r = none)
include hbound

theorem migrateDesc_of_refused {code : Nat} (h : firstRefusal (x.pre ++ slotRefusals d x) = some code) :
    migrateDesc d r = refuseDesc (runDesc d r) r code := by
  simp only [migrateDesc, hx, hbound, Option.isSome_none, Bool.false_eq_true, if_false, unlessRefused_of_refused h,
    ref_of_descOf (descOf_of_engineDesc hx)]

variable (h : firstRefusal (x.pre ++ slotRefusals d x) = none)
include h

theorem migrateDesc_of_conflict (hversion : dnum x 0x24 4 ≠ (tableSlot d (purserSlot x)).version) :
    migrateDesc d r = refuseDesc (runDesc d r) r cVERSION := by
  simp only [migrateDesc, hx, hbound, Option.isSome_none, Bool.false_eq_true, if_false, unlessRefused_of_passed h, bne_iff_ne, ne_eq,
    hversion, not_false_eq_true, if_true]

theorem migrateDesc_of_current (hversion : dnum x 0x24 4 = (tableSlot d (purserSlot x)).version) : migrateDesc d r =
    migrateOn (bindTable (runDesc d r) x) r x
      (purserSlot x, (tableSlot d (purserSlot x)).version, tableOfBytes (tableSlot d (purserSlot x)).record) := by
  obtain rfl := ref_of_descOf (descOf_of_engineDesc hx)
  have hnow : boundOf (bindTable (runDesc d x.r) x) x.r = _ := boundOf_bindTable ((boundOf_runDesc d x.r x.r).trans hbound)
  simp only [migrateDesc, hx, hbound, Option.isSome_none, Bool.false_eq_true, if_false, unlessRefused_of_passed h, hversion, bne_self_eq_false,
    hnow]
  rfl

end

end Sys2Proof.Machine
end

section
/-! GATHER, UPDATE and MIGRATE, and the row locks: a grant, the end of a row's update, and the flip of its forwarding entry (09 R299, R307). -/

namespace Sys2Proof.Machine

open Sys2Proof

theorem exec_rowLockGrant (s : State) (bank : Nat) : exec (.rowLockGrant bank) s = .next (goingOn s (lockGrant s.dev bank)) := rfl

theorem exec_rowUpdateDone (s : State) (bank id : Nat) : exec (.rowUpdateDone bank id) s = .next (goingOn s (rowDone s.dev bank id)) := rfl

theorem exec_migrateFlip (s : State) (bank id : Nat) : exec (.migrateFlip bank id) s = .next (goingOn s (migrateFlip s.dev bank id)) := rfl

/-! ## The grant (09 R299 step 1) -/

/-- A waiter of a bank may take its lock. -/
def mayLock (d : Dev) (bank : Nat) (w : LockWait) : Bool := w.key.bank == bank && lockFree d w.key

theorem lockGrant_of_none {d : Dev} {bank : Nat} (h : d.purser.waits.find? (mayLock d bank) = none) : lockGrant d bank = d := by
  unfold mayLock at h
  simp only [lockGrant, h]

theorem lockGrant_of_first {d : Dev} {bank : Nat} {w : LockWait} (h : d.purser.waits.find? (mayLock d bank) = some w) : lockGrant d bank =
    takeLock (count { d with purser.waits := delFirst (fun v => v.key == w.key) d.purser.waits } (pg 0x60 bank) 0x840
      (d.sys.ltc - w.use.since)) w.key w.use := by
  unfold mayLock at h
  simp only [lockGrant, h]

/-! ## What holds a lock has acted (09 R299 step 4, R307) -/

/-- A row that moves home has no entry, one that moves elsewhere a new one. -/
theorem setFwd_eq (d : Dev) (k : RowKey) (dest : Nat) : setFwd d k dest =
    { d with purser.fwd := d.purser.fwd.filter (fun f => f.key != k) ++ (if dest = 0 then [] else [{ key := k, loc := dest }]) } := by
  by_cases h : dest = 0 <;> simp [setFwd, h]

section
variable {d : Dev} {bank id : Nat} {l : RowLock} (hl : lockOf d id = some l)
include hl

section
variable (h : l.holder.acted = false ∨ itemBusy d l.holder.r (lockKey id) = true)
include h

theorem rowDone_of_open : rowDone d bank id = d := by
  obtain h | h := h <;> simp [rowDone, hl, h]

theorem migrateFlip_of_open : migrateFlip d bank id = d := by
  obtain h | h := h <;> simp [migrateFlip, hl, h]

end

variable (hbank : l.key.bank = bank) (hacted : l.holder.acted = true) (hbusy : itemBusy d l.holder.r (lockKey id) = false)
  (hok : itemStatus d l.holder.r (lockKey id) = cOK)
include hbank hacted hbusy hok

theorem rowDone_of_acknowledged (hupdate : l.holder.migrate = false) (hstatus : l.holder.status = cOK) :
    rowDone d bank id = freeLock (count d (pg 0x60 bank) 0x818) l cOK := by
  simp [rowDone, hl, hbank, hupdate, hacted, hbusy, hstatus, hok, cOK]

theorem migrateFlip_of_acknowledged (hmigrate : l.holder.migrate = true) :
    migrateFlip d bank id = freeLock (count (setFwd d l.key l.holder.dest) (pg 0x60 bank) 0x830) l cOK := by
  simp [migrateFlip, hl, hbank, hmigrate, hacted, hbusy, hok]

end

/-- Settles O46: the last unit of a GATHER and of an UPDATE, what follows an UPDATE's merging, MIGRATE bound and not, and the row locks. -/
theorem gathersUpdatesAndRowLocks : Obligations.GathersUpdatesAndRowLocks := by
  intro s r x n version t d d1 y a working
  refine ⟨fun k b hx hbound hwork u hdone hlast => ?_, fun k i hx hbound hwork hmarks u hdone hlast z hz => ?_,
    fun hx hbound hheld hmarks hcopies => ?_, fun hx hbound => ?_,
    fun hx hbound => ⟨fun code h => ?_, fun h hversion => ?_, fun h hversion => ?_⟩, fun bank h => ?_, fun bank w h => ?_,
    fun bank id l hl hbank => ⟨fun hopen => ?_, fun hacted hbusy hok => ⟨fun hupdate hstatus => ?_, fun hmigrate => ?_⟩⟩⟩
  · obtain ⟨hheld, hcopies, hon, hhand, -, -⟩ := hwork
    rw [exec_gather, gatherDesc_of_last hbound hheld hcopies hon hhand hlast hx hdone]
  · obtain ⟨hheld, hcopies, hon, hhand, -, -⟩ := hwork
    rw [exec_update, updateDesc_of_last hbound hheld hcopies hon hhand hlast hx hmarks hdone hz]
  · rw [exec_update, updateDesc_of_merged hbound hheld hx hmarks hcopies]
  · rw [exec_migrate, migrateDesc_of_bound hx hbound, migrateOn]
  · rw [exec_migrate, migrateDesc_of_refused hx hbound h]
  · rw [exec_migrate, migrateDesc_of_conflict hx hbound h hversion]
  · rw [exec_migrate, migrateDesc_of_current hx hbound h hversion, migrateOn]
  · rw [exec_rowLockGrant, lockGrant_of_none h]
  · rw [exec_rowLockGrant, lockGrant_of_first h]
  · rw [exec_rowUpdateDone, exec_migrateFlip, rowDone_of_open hl hopen, migrateFlip_of_open hl hopen]
    exact ⟨rfl, rfl⟩
  · rw [exec_rowUpdateDone, rowDone_of_acknowledged hl hbank hacted hbusy hok hupdate hstatus]
  · rw [exec_migrateFlip, migrateFlip_of_acknowledged hl hbank hacted hbusy hok hmigrate, setFwd_eq]

end Sys2Proof.Machine
end

/-! ## Proofs: Sounding (10 R313-R331) -/

section
/-! SUPPORT. Index slots: what a slot refuses, DEFINE and FREE, and the end of a version or of a slot, case by case (10 R313, R314, R329). -/

namespace Sys2Proof.Machine

open Sys2Proof

theorem exec_soundDefine (s : State) (r : DescRef) : exec (.soundDefine r) s = .next (goingOn s (defineIndex s.dev r)) := rfl

theorem exec_soundVersionDrained (s : State) (bank slot : Nat) :
    exec (.soundVersionDrained bank slot) s = .next (goingOn s (indexDrained s.dev (bank * 256 + slot))) := rfl

/-! ## What a slot refuses (10 R313, R314) -/

section
variable {d : Dev} {x : Desc}

theorem indexRefusals_of_free (h : (indexSlot d (soundSlot x)).st = .free) :
    indexRefusals d x = if x.opcode = 1 then [] else [cUNSUP] := by
  by_cases hop : x.opcode = 1 <;> simp [indexRefusals, h, codeIf, hop]

variable (h : (indexSlot d (soundSlot x)).st ≠ .free) (hop : x.opcode ≠ 0x10)
include h hop

/-- Only a QUERY may name the slot of another job, that of an index which its job may read. -/
theorem indexRefusals_of_held : indexRefusals d x = codeIf (!(indexSlot d (soundSlot x)).job == x.job) cDENIED ++
    codeIf (x.opcode == 1 || (indexSlot d (soundSlot x)).st == .freeing) cUNSUP := by
  have hquery : (x.opcode == 0x10) = false := beq_false_of_ne hop
  have hused : ((indexSlot d (soundSlot x)).st == .free) = false := beq_false_of_ne h
  simp only [indexRefusals, hquery, hused, Bool.false_and, Bool.or_false, Bool.false_eq_true, if_false]

theorem cDENIED_mem_indexRefusals : cDENIED ∈ indexRefusals d x ↔ (indexSlot d (soundSlot x)).job ≠ x.job := by
  have hne : cDENIED ≠ cUNSUP := by decide
  simp [indexRefusals_of_held h hop, mem_codeIf, hne]

theorem cUNSUP_mem_indexRefusals : cUNSUP ∈ indexRefusals d x ↔ x.opcode = 1 ∨ (indexSlot d (soundSlot x)).st = .freeing := by
  have hne : cUNSUP ≠ cDENIED := by decide
  simp [indexRefusals_of_held h hop, mem_codeIf, hne]

end

/-! ## DEFINE and FREE (10 R314) -/

/-- A slot newly defined with the record `l`: nothing is appended to it yet. -/
def definedIndex (x : Desc) (l : List Byte) : IndexSlot :=
  let q := (indexOf l).mseq
  { st := .defined, job := x.job, record := l, version := 1, mseq := q, vseq := q, lastSeq := q }

theorem defineIndex_of_read {d t : Dev} {r : DescRef} {x : Desc} {l : List Byte} (hx : engineDesc d r 0x40 1 = some x)
    (hdeny : cDENIED ∉ indexRefusals d x) (hread : descRead (runDesc d r) x tableKey d.xmap.node (dfld x 0x18 0 48) 64 = (.ok l, t)) :
    defineIndex d r = unlessRefused t x (indexRefusals d x ++ codeIf (indexOf l).bad cUNSUP) (perform x (fun d =>
      finishDesc (setIndex d (soundSlot x) (definedIndex x l)) r)) := by
  simp only [defineIndex, hx]
  exact withBlock_of_read (d := runDesc d r) hdeny _ hread

/-- FREE. -/
def freeIndex (d : Dev) (r : DescRef) : Dev :=
  match engineDesc d r 0x40 2 with
  | none => d
  | some x =>
    if (indexSlot d (soundSlot x)).freer == some r then runDesc d r
    else unlessRefused (runDesc d r) x (indexRefusals d x) (perform x (fun t =>
      setIndex t (soundSlot x) { indexSlot d (soundSlot x) with st := .freeing, freer := some r }))

theorem exec_soundFree (s : State) (r : DescRef) : exec (.soundFree r) s = .next (goingOn s (freeIndex s.dev r)) := rfl

theorem freeIndex_of_new {d : Dev} {r : DescRef} {x : Desc} (hx : engineDesc d r 0x40 2 = some x)
    (hnew : (indexSlot d (soundSlot x)).freer ≠ some r) :
    freeIndex d r = unlessRefused (runDesc d r) x (indexRefusals d x) (perform x (fun t =>
      setIndex t (soundSlot x) { indexSlot d (soundSlot x) with st := .freeing, freer := some r })) := by
  simp only [freeIndex, hx, beq_iff_eq, hnew, if_false]

/-! ## The end of a version, and of a slot (10 R314, R329) -/

/-- A written slot that is in use is what has been written. -/
theorem indexSlot_setIndex_of_used (d : Dev) (n : Nat) {u : IndexSlot} (h : u.st ≠ .free) : indexSlot (setIndex d n u) n = u := by
  have hne : u ≠ {} := fun he => h (he ▸ rfl)
  exact NMap.get_set_of_ne d.sound.slots n hne

theorem indexSlot_openEnded (d : Dev) (r : Option DescRef) (n : Nat) : indexSlot (openEnded d r) n = indexSlot d n := by
  cases r <;> rfl

/-- The old version, which a MERGE has replaced, ends once it is bound no longer. -/
def mergedDrained (d : Dev) (n : Nat) : Dev :=
  let u := indexSlot d n
  if u.oldVersion != 0 && !indexBound d n u.oldVersion u.merger then
    openEnded (setIndex d n { u with oldVersion := 0, merger := none }) u.merger
  else d

/-- A slot that is being freed ends, once it is bound no longer; `r` is the FREE that waits for that. -/
def freedDrained (d : Dev) (n : Nat) (r : Option DescRef) : Dev :=
  if (indexSlot d n).st == .freeing && !indexBound d n 0 none then openEnded (setIndex d n {}) r else d

theorem indexDrained_eq (d : Dev) (n : Nat) : indexDrained d n = freedDrained (mergedDrained d n) n (indexSlot d n).freer := rfl

section
variable {d : Dev} {n : Nat}

theorem mergedDrained_of_kept
    (h : (indexSlot d n).oldVersion = 0 ∨ indexBound d n (indexSlot d n).oldVersion (indexSlot d n).merger = true) :
    mergedDrained d n = d := by
  obtain h | h := h <;> simp [mergedDrained, h]

theorem mergedDrained_of_unbound (h : (indexSlot d n).oldVersion ≠ 0)
    (hb : indexBound d n (indexSlot d n).oldVersion (indexSlot d n).merger = false) : mergedDrained d n =
      openEnded (setIndex d n { indexSlot d n with oldVersion := 0, merger := none }) (indexSlot d n).merger := by
  simp [mergedDrained, h, hb]

theorem freedDrained_of_kept (h : (indexSlot d n).st ≠ .freeing ∨ indexBound d n 0 none = true) (r : Option DescRef) :
    freedDrained d n r = d := by
  obtain h | h := h <;> simp [freedDrained, h]

theorem freedDrained_of_unbound (h : (indexSlot d n).st = .freeing) (hb : indexBound d n 0 none = false) (r : Option DescRef) :
    freedDrained d n r = openEnded (setIndex d n {}) r := by
  simp [freedDrained, h, hb]

theorem indexDrained_of_kept
    (hold : (indexSlot d n).oldVersion = 0 ∨ indexBound d n (indexSlot d n).oldVersion (indexSlot d n).merger = true)
    (hst : (indexSlot d n).st ≠ .freeing ∨ indexBound d n 0 none = true) : indexDrained d n = d := by
  rw [indexDrained_eq, mergedDrained_of_kept hold, freedDrained_of_kept hst]

theorem indexDrained_of_merged (hst : (indexSlot d n).st = .defined) (hold : (indexSlot d n).oldVersion ≠ 0)
    (hb : indexBound d n (indexSlot d n).oldVersion (indexSlot d n).merger = false) : indexDrained d n =
      openEnded (setIndex d n { indexSlot d n with oldVersion := 0, merger := none }) (indexSlot d n).merger := by
  rw [indexDrained_eq, mergedDrained_of_unbound hold hb]
  refine freedDrained_of_kept (.inl ?_) _
  rw [indexSlot_openEnded, indexSlot_setIndex_of_used] <;> simp [hst]

theorem indexDrained_of_freed (hst : (indexSlot d n).st = .freeing) (hold : (indexSlot d n).oldVersion = 0)
    (hb : indexBound d n 0 none = false) : indexDrained d n = openEnded (setIndex d n {}) (indexSlot d n).freer := by
  rw [indexDrained_eq, mergedDrained_of_kept (.inl hold), freedDrained_of_unbound hst hb]

end

end Sys2Proof.Machine
end

section
/-! Index slots, the last record of an APPEND and the end of a sequence, and a MERGE: bound, and its writes acknowledged (10 R327-R329). -/

namespace Sys2Proof.Machine

open Sys2Proof

theorem exec_append (s : State) (r : DescRef) : exec (.append r) s = .next (goingOn s (appendDesc s.dev r)) := rfl

theorem exec_sideRecordWritten (s : State) (bank slot seq : Nat) :
    exec (.sideRecordWritten bank slot seq) s = .next (goingOn s (recordWritten s.dev (bank * 256 + slot) seq)) := rfl

theorem exec_soundMerge (s : State) (r : DescRef) : exec (.soundMerge r) s = .next (goingOn s (soundMerge s.dev r)) := rfl

theorem exec_soundMergeSwitch (s : State) (bank slot : Nat) :
    exec (.soundMergeSwitch bank slot) s = .next (goingOn s (mergeSwitch s.dev (bank * 256 + slot))) := rfl

/-! ## APPEND (10 R327, R328) -/

/-- The last record of a bound APPEND has its sequence; the APPEND ends where the visible sequence has passed its records. -/
theorem appendDesc_of_last {d v : Dev} {r : DescRef} {x z : Desc} (hx : engineDesc d r 0x40 0x20 = some x)
    (hbound : (qboundOf d r).isSome = true) (hlast : x.count = x.nextItem + 1)
    (hdone : appendItem (soundSlot x) (indexOf (indexSlot d (soundSlot x)).record) (runDesc d r) { x with phase := .running } x.nextItem =
      (.done, v)) (hz : descOf (onDesc v r passItem) r = some z) :
    appendDesc d r = appendDone (onDesc v r passItem) (soundSlot x) z := by
  have hone : x.count - x.nextItem = 1 := by omega
  have hrun := descOf_runDesc (descOf_of_engineDesc hx)
  have hitems := runItems_last hrun hlast (congrArg Prod.fst hdone)
  simp only [hdone] at hitems
  simp only [appendDesc, hx, hbound, if_true, hone, hitems, hz]

/-- A sequence of a slot ends: its record counts as written, or it is void; the visible sequence moves on, and with it the APPENDs end whose
records it has passed. -/
def seqEnded (d : Dev) (n seq : Nat) (ok : Bool) : Dev :=
  let u := indexSlot d n
  let u1 : IndexSlot := { u with open_ := u.open_.filter (fun o => o.1 != seq), written := if ok then NSet.add u.written seq else u.written
                                 voids := if ok then u.voids else NSet.add u.voids seq }
  let d1 := setIndex (if ok then d else raise (count d (pg 0x61 (n / 256)) 0x820) (pg 0x61 (n / 256)) 0) n
    (passSeqs (seqGap u1.vseq u1.lastSeq) u1)
  d1.descs.foldl (fun d x => if soundSlot x == n then appendDone d n x else d) d1

theorem recordWritten_of_answered {d : Dev} {n seq q item : Nat} {r : DescRef}
    (hopen : (indexSlot d n).open_.find? (fun o => o.1 == seq) = some (q, r, item)) (hbusy : itemBusy d r item = false) :
    recordWritten d n seq = seqEnded d n seq (itemStatus d r item == cOK) := by
  simp only [recordWritten, hopen, hbusy, Bool.false_eq_true, if_false, seqEnded]

/-! ## MERGE (10 R329) -/

/-- What a MERGE is refused with, past the codes of its fetch, before its block is read. -/
def soundMergeRefusals (d : Dev) (x : Desc) : List Nat :=
  let u := indexSlot d (soundSlot x)
  indexRefusals d x ++ codeIf (u.merging.isSome || u.oldVersion != 0) cBUSY

/-- The slot of a MERGE is bound, as `u` shows its version and its visible sequence, and takes note of it. -/
def mergeBound (d : Dev) (x : Desc) (u : IndexSlot) (l : List Byte) : Dev :=
  bindIndex (onIndex (onDesc d x.r (fun x => { x with params := l })) (soundSlot x)
    (fun k => { k with merging := some (x.r, fld (leAt l 0 8) 0 48, k.vseq) })) x u.version u.vseq

/-- A bound MERGE reads what it needs. -/
def mergeGoes (d : Dev) (x : Desc) (l : List Byte) : Dev :=
  match qboundOf d x.r with
  | some q => mergeRead d x (soundSlot x) q l
  | none => d

/-- What is noted of a slot depends on the slot alone. -/
theorem onIndex_congr {d : Dev} {n : Nat} {f g : IndexSlot → IndexSlot} (h : f (indexSlot d n) = g (indexSlot d n)) :
    onIndex d n f = onIndex d n g := congrArg (setIndex d n) h

section
variable {d t : Dev} {r : DescRef} {x : Desc} {l : List Byte} (hx : engineDesc d r 0x40 0x21 = some x)
  (hmerger : (indexSlot d (soundSlot x)).merger ≠ some r) (hother : ∀ m ∈ (indexSlot d (soundSlot x)).merging, m.1 ≠ r)
  (hdeny : cDENIED ∉ soundMergeRefusals d x) (hread : descRead (runDesc d r) x tableKey d.xmap.node (dfld x 0x18 0 48) 64 = (.ok l, t))
include hx hmerger hother hdeny hread

/-- A MERGE that no slot has taken note of yet, its block read. -/
theorem soundMerge_of_read : soundMerge d r = unlessRefused t x (soundMergeRefusals d x ++ codeIf (mergeBlockBad l) cUNSUP)
    (perform x (fun u => mergeGoes (mergeBound u x (indexSlot d (soundSlot x)) l) x l)) := by
  have hmine : (indexSlot d (soundSlot x)).merging.any (fun m => m.1 == r) = false := by
    rw [Option.any_eq_false]
    exact fun m hm => beq_false_of_ne (hother m hm)
  obtain rfl := ref_of_descOf (descOf_of_engineDesc hx)
  simp only [soundMerge, hx, hmine, beq_iff_eq, hmerger, Bool.false_and, Bool.or_false, Bool.false_eq_true, if_false]
  exact withBlock_of_read (d := runDesc d x.r) hdeny _ hread

end

section
variable {d : Dev} {n : Nat} {r : DescRef} {dir snap : Nat} {y : Desc} (hmerging : (indexSlot d n).merging = some (r, dir, snap))
  (hy : descOf d r = some y) (hitems : y.count ≤ y.nextItem) (hbusy : descBusy d r = false)
include hmerging hy hitems hbusy

theorem mergeSwitch_of_failed (h : itemStatus d r 0 ≠ cOK) : mergeSwitch d n = mergeFails d n r (itemStatus d r 0) := by
  simp [mergeSwitch, hmerging, hy, Nat.not_lt.mpr hitems, hbusy, h]

/-- The new directory and snapshot stand in the record, and the merged sequences that were void are forgotten. -/
theorem mergeSwitch_of_acknowledged (h : itemStatus d r 0 = cOK) : mergeSwitch d n =
    let u := indexSlot d n
    setIndex (count d (pg 0x61 (n / 256)) 0x828) n
      { u with record := putAt (putAt u.record 0x10 (leBytes 8 dir)) 0x30 (leBytes 8 snap)
               version := if u.version = 0xFFFFFFFF then 1 else u.version + 1, mseq := snap, voids := u.voids.filter (seqAfter snap)
               oldVersion := u.version, merging := none, merger := some r } := by
  simp [mergeSwitch, hmerging, hy, Nat.not_lt.mpr hitems, hbusy, h]

end

/-- Settles O47: what the slot refuses, DEFINE and FREE, the two ends, an APPEND's last record and the end of a sequence, and a MERGE as it
is bound and as it switches. -/
theorem indexSlotsAppendsAndMerges : Obligations.IndexSlotsAppendsAndMerges := by
  intro s r x l t bank slot d d1 n sl codes m u
  refine ⟨fun hop => ⟨indexRefusals_of_free, fun hst => ⟨cDENIED_mem_indexRefusals hst hop, cUNSUP_mem_indexRefusals hst hop⟩⟩,
    fun hx hdeny hread => ?_, fun hx hnew => ?_, ?_, fun hx hbound hlast v hdone z hz => ?_, fun seq item q hopen hbusy => ?_,
    fun hx hmerger hother hdeny hread => ?_, fun dir snap y hmerging hy hitems hbusy => ⟨fun h => ?_, fun h => ?_⟩⟩
  · intro all q
    rw [exec_soundDefine, defineIndex_of_read hx hdeny hread]
    have hr := ref_of_descOf (descOf_of_engineDesc hx)
    refine ⟨fun code h => ?_, fun h => ?_⟩
    · rw [unlessRefused_of_refused h, hr]
    · rw [unlessRefused_of_passed h, perform_eq, hr, ← apply_ite (finishDesc · r)]
      rfl
  · rw [exec_soundFree, freeIndex_of_new hx hnew]
    have hr := ref_of_descOf (descOf_of_engineDesc hx)
    refine ⟨fun code h => ?_, fun h => ?_⟩
    · rw [unlessRefused_of_refused h, hr]
    · rw [unlessRefused_of_passed h, perform_eq, hr]
  · intro ended
    have hended (t : Dev) (q : Option DescRef) : ended t q = openEnded t q := rfl
    rw [exec_soundVersionDrained]
    refine ⟨fun hst hold => ⟨fun hb => ?_, fun hb => ?_⟩, fun hst hold => ⟨fun hb => ?_, fun hb => ?_⟩, fun hst hold => ?_⟩
    · rw [indexDrained_of_kept (.inr hb) (.inl (hst ▸ by decide))]
    · rw [indexDrained_of_merged hst hold hb, hended]
    · rw [indexDrained_of_kept (.inl hold) (.inr hb)]
    · rw [indexDrained_of_freed hst hold hb, hended]
    · rw [indexDrained_of_kept (.inl hold) (.inl hst)]
  · rw [exec_append, appendDesc_of_last hx hbound hlast hdone hz]
  · intro ok u1 d2
    rw [exec_sideRecordWritten, recordWritten_of_answered hopen hbusy]
    simp only [seqEnded, beq_iff_eq]
    rfl
  · intro bad all
    have hall : all = x.pre ++ (soundMergeRefusals d x ++ codeIf (mergeBlockBad l) cUNSUP) := rfl
    rw [exec_soundMerge, soundMerge_of_read hx hmerger hother hdeny hread, hall]
    have hr := ref_of_descOf (descOf_of_engineDesc hx)
    refine ⟨fun code h => ?_, fun h hcount => ?_, fun h hcount q => ?_⟩
    · rw [unlessRefused_of_refused h, hr]
    · rw [unlessRefused_of_passed h, perform_eq, if_pos hcount, hr]
    · intro v hslot hq
      have hv : mergeBound t x sl l = v := by
        rw [mergeBound, hr]
        refine congrArg (bindIndex · x sl.version sl.vseq) (onIndex_congr ?_)
        exact hslot ▸ rfl
      rw [unlessRefused_of_passed h, perform_eq, if_neg hcount, hv, mergeGoes, hr, hq]
  · rw [exec_soundMergeSwitch, mergeSwitch_of_failed hmerging hy hitems hbusy h]
  · intro rec1 v u1
    rw [exec_soundMergeSwitch, mergeSwitch_of_acknowledged hmerging hy hitems hbusy h]

end Sys2Proof.Machine
end

section
/-! SUPPORT. A PQ_SCAN without ranges that its fetch has found to be refused whole (00 R21; 10 R331). -/

namespace Sys2Proof.Machine

open Sys2Proof

theorem exec_pqScan (s : State) (r : DescRef) : exec (.pqScan r) s = .next (goingOn s (pqScan s.dev r)) := rfl

/-- Without ranges no table is read, and the codes of the fetch decide. -/
theorem pqScan_of_refused {d : Dev} {r : DescRef} {x : Desc} (hx : engineDesc d r 0x60 1 = some x) (htable : x.table = [])
    (hcount : x.count = 0) {code : Nat} (h : firstRefusal x.pre = some code) : pqScan d r = refuseDesc (runDesc d r) r code := by
  have hcode : firstRefusal (x.pre ++ []) = some code := by rwa [List.append_nil]
  simp only [pqScan, hx, htable, hcount, List.isEmpty_nil, Bool.not_true, Bool.false_eq_true, if_false, beq_self_eq_true, if_true,
    unlessRefused_of_refused hcode, ref_of_descOf (descOf_of_engineDesc hx)]

namespace RefusedScan

/-- A device in service, its rings as at reset. -/
def serving : Dev := { Dev.reset with sys.step := 0x12 }

def scanRef : DescRef := ⟨0, 0, 0⟩

/-- ENGINE 0x60 and OPCODE 0x01, and 0 in every other field: COUNT is 0, and so are M and K, which may not be. -/
def bytes : List Byte := leBytes 8 0x01600000 ++ List.replicate 56 0

/-- The descriptor as its fetch leaves it to its engine. -/
def scan : Desc := { descOfBytes scanRef bytes with pre := seqRefusals serving (descOfBytes scanRef bytes) }

/-- The machine in service with the descriptor. -/
def beforeScan : State := { State.reset with dev := { serving with descs := [scan] } }

/-- What the descriptors of a machine are refused with. -/
def refusals (s : State) : List (Option Nat) := s.dev.descs.map (·.refused)

theorem engineDesc_scan : engineDesc beforeScan.dev scanRef 0x60 1 = some scan := by decide +kernel

theorem firstRefusal_scan : firstRefusal scan.pre = some cUNSUP := by decide +kernel

theorem refusals_refuseDesc :
    refusals (goingOn beforeScan (refuseDesc (runDesc beforeScan.dev scanRef) scanRef cUNSUP)) = [some cUNSUP] := by decide +kernel

theorem refusals_finishDesc :
    refusals (goingOn beforeScan (finishDesc (runDesc beforeScan.dev scanRef) scanRef)) = [none] := by decide +kernel

/-- Refutes O48: a PQ_SCAN with a COUNT of 0 and a field out of range is refused whole with UNSUPPORTED (00 R21; 10 R331), a code that its
fetch has noted; the clause about a COUNT of 0 has it complete whatever the fetch has found. -/
theorem not_queriesScansAndCombines : ¬ Obligations.QueriesScansAndCombines := by
  unfold Obligations.QueriesScansAndCombines
  intro h
  obtain ⟨-, -, -, -, -, -, -, -, -, hempty⟩ := h beforeScan scanRef scan
  have hrefused : exec (.pqScan scanRef) beforeScan = .next (goingOn beforeScan (refuseDesc (runDesc beforeScan.dev scanRef) scanRef cUNSUP)) := by
    rw [exec_pqScan, pqScan_of_refused engineDesc_scan rfl rfl firstRefusal_scan]
  have hsame := congrArg refusals (Host.Outcome.next.inj (hrefused.symm.trans (hempty engineDesc_scan rfl)))
  rw [refusals_refuseDesc, refusals_finishDesc] at hsame
  exact absurd hsame (by decide)

end RefusedScan

end Sys2Proof.Machine
end

/-! ## Proofs: Landings and the Wharf (11 R338-R377; 12 R384-R400; 04 R134, R142, R147) -/

section
/-! SUPPORT. Commands before which nothing is due, and management requests on a Landing, case by case (00 R16; 11 R354-R356; 04 R142). -/

namespace Sys2Proof.Machine

open Sys2Proof

/-- Where nothing is due before a command on the control space, it leaves what its own effect leaves. -/
theorem runCtl_of_still {s : State} (h : Still s.dev) (f : Dev → Fuses → Dev × Fuses) :
    s.runCtl f = .next (afterAccess s (f s.dev s.fuses).1 (f s.dev s.fuses).2) := by
  obtain ⟨hturn, hstage⟩ := h
  simp only [State.runCtl, State.runFuses, dueCtl_none hturn hstage, afterAccess]

/-- With nothing in flight no earlier request is under way. -/
theorem turnTaken_of_no_flying {d : Dev} (h : d.flying = []) (q : Req) : turnTaken d q = false := by
  simp [turnTaken, h]

/-- A management request: its slots come free on its Landing. -/
def mgmtFreed (d : Dev) (n : Nat) (op : Op) (h : Hdr) : Dev := freeSlots d n h.tc.toNat (reqSlots op h)

/-- The request that a management command brings. -/
def mgmtReq (n : Nat) (op : Op) (h : Hdr) (data : List Byte) : Req := { op := op, origin := .landing n, h := h, data := data }

section
variable {d : Dev} {n : Nat} {op : Op} {h : Hdr} (hopen : landOpen d n = true) (hquiet : quiet d = false)
  (hheader : headerBad (opCode op) h = false)
include hopen hquiet hheader

/-- One from an admitted end point, with none of its source under way, is performed at once. -/
theorem mgmtArrive_admitted (hadmits : mgmtAdmits d h.src.toNat = true) (hflying : d.flying = []) (fz : Fuses) (data : List Byte) :
    mgmtArrive d fz n op h data = mgmtRun (mgmtFreed d n op h) fz (mgmtReq n op h data) (n / 8) := by
  have hquiet' : quiet (mgmtFreed d n op h) = false := hquiet
  have hadmits' : mgmtAdmits (mgmtFreed d n op h) h.src.toNat = true := hadmits
  have hturn := turnTaken_of_no_flying (d := mgmtFreed d n op h) hflying (mgmtReq n op h data)
  simp only [mgmtFreed, mgmtReq] at hquiet' hadmits' hturn ⊢
  simp only [mgmtArrive, hopen, hheader, hquiet', hadmits', hturn, Bool.not_true, Bool.false_eq_true, if_false]

/-- One from outside the ranges is refused, and drops the halves of the path (log 105). -/
theorem mgmtArrive_foreign (hforeign : mgmtAdmits d h.src.toNat = false) (fz : Fuses) (data : List Byte) :
    mgmtArrive d fz n op h data = (mgmtRefuse (dropHalves (mgmtFreed d n op h) .ef) n (mgmtReq n op h data), fz) := by
  have hquiet' : quiet (mgmtFreed d n op h) = false := hquiet
  have hforeign' : mgmtAdmits (mgmtFreed d n op h) h.src.toNat = false := hforeign
  simp only [mgmtFreed, mgmtReq] at hquiet' hforeign' ⊢
  simp only [mgmtArrive, hopen, hheader, hquiet', hforeign', Bool.not_true, Bool.not_false, Bool.false_eq_true, if_false, if_true]

end

theorem exec_mgmtRd (s : State) (n : Nat) (h : Hdr) :
    exec (.mgmtRd n h) s = s.runCtl (fun d fz => mgmtArrive d fz n .mgmtRd h []) := rfl

theorem exec_mgmtWr (s : State) (n : Nat) (h : Hdr) (data : List Byte) :
    exec (.mgmtWr n h data) s = s.runCtl (fun d fz => mgmtArrive d fz n .mgmtWr h data) := rfl

/-- A management read is an access on the EF path, answered with the register's bytes where it is OK. -/
theorem mgmtRun_read (d : Dev) (fz : Fuses) (n : Nat) (h : Hdr) (data : List Byte) (entry : Nat) :
    let r := ctlRead .ef h.offset.toNat (8 * lenOf h) d fz
    mgmtRun d fz (mgmtReq n .mgmtRd h data) entry =
      (answerReq r.2.2 (mgmtReq n .mgmtRd h data) entry none 17 r.1 (if r.1 = cOK then leBytes (lenOf h) r.2.1 else []), fz) := by
  simp only [mgmtRun, mgmtReq, beq_iff_eq, if_true]

/-- A management write is an access on the EF path, answered with its code. -/
theorem mgmtRun_write (d : Dev) (fz : Fuses) (n : Nat) (h : Hdr) (data : List Byte) (entry : Nat) :
    let r := ctlWrite .ef h.offset.toNat (8 * lenOf h) (leAt data 0 (lenOf h)) d fz
    mgmtRun d fz (mgmtReq n .mgmtWr h data) entry = (answerReq r.2.1 (mgmtReq n .mgmtWr h data) entry none 17 r.1 [], r.2.2) := by
  have hop : (Op.mgmtWr == Op.mgmtRd) = false := rfl
  simp only [mgmtRun, mgmtReq, hop, Bool.false_eq_true, if_false]

/-- Settles O29: a management request on a device at rest is performed at once, or is refused for its source. -/
theorem managementRequestsAccessTheRegisters : Obligations.ManagementRequestsAccessTheRegisters := by
  intro s n h l hrest hopen hquiet width answers
  have hstill := hrest.still
  refine ⟨?_, ?_⟩
  · intro hheader q d
    refine ⟨fun hadmits => ?_, fun hforeign => ?_⟩
    · rw [exec_mgmtRd, runCtl_of_still hstill, mgmtArrive_admitted (op := .mgmtRd) hopen hquiet hheader hadmits hrest.flying, mgmtRun_read]
      rfl
    · rw [exec_mgmtRd, runCtl_of_still hstill, mgmtArrive_foreign (op := .mgmtRd) hopen hquiet hheader hforeign]
      rfl
  · intro hheader q d
    refine ⟨fun hadmits => ?_, fun hforeign => ?_⟩
    · rw [exec_mgmtWr, runCtl_of_still hstill, mgmtArrive_admitted (op := .mgmtWr) hopen hquiet hheader hadmits hrest.flying, mgmtRun_write]
      rfl
    · rw [exec_mgmtWr, runCtl_of_still hstill, mgmtArrive_foreign (op := .mgmtWr) hopen hquiet hheader hforeign]
      rfl

end Sys2Proof.Machine
end

section
/-! SUPPORT. What the operations of Landings, their flits and the frames of the Wharf leave in a Landing and in the Wharf (11 R338-R345, R366,
R369; 12 R387). -/

namespace Sys2Proof.Machine

open Sys2Proof

/-! ## Landings -/

theorem land_of_lands {d e : Dev} (h : e.lands = d.lands) (n : Nat) : land e n = land d n := by simp only [land, h]

@[simp] theorem land_count (d : Dev) (page off k n : Nat) : land (count d page off k) n = land d n := by simp [land]

@[simp] theorem land_raise (d : Dev) (page b n : Nat) : land (raise d page b) n = land d n := by simp [land]

@[simp] theorem land_raiseFe (d : Dev) (page b : Nat) (f : Fe) (n : Nat) : land (raiseFe d page b f) n = land d n := by simp [land]

theorem land_onLand_same {d : Dev} {n : Nat} (h : n < d.lands.length) (f : Landing → Landing) : land (onLand d n f) n = f (land d n) :=
  getD_modAt_same _ h

theorem land_onLand_other {d : Dev} {m n : Nat} (h : m ≠ n) (f : Landing → Landing) : land (onLand d n f) m = land d m :=
  getD_modAt_other _ h

@[simp] theorem length_lands_onLand (d : Dev) (n : Nat) (f : Landing → Landing) : (onLand d n f).lands.length = d.lands.length :=
  length_modAt _ _ _

theorem modAt_beyond {α : Type} (f : α → α) : ∀ {l : List α} {n : Nat}, l.length ≤ n → modAt f l n = l
  | [], _, _ => rfl
  | _ :: _, 0, h => absurd h (Nat.not_succ_le_zero _)
  | a :: _, _ + 1, h => congrArg (a :: ·) (modAt_beyond f (Nat.le_of_succ_le_succ h))

/-- What a change of a Landing keeps, every Landing keeps. -/
theorem land_onLand_keeps {α : Type} (g : Landing → α) {f : Landing → Landing} (hf : ∀ l, g (f l) = g l) (d : Dev) (m n : Nat) :
    g (land (onLand d n f) m) = g (land d m) := by
  by_cases hmn : m = n
  · subst hmn
    by_cases hlt : m < d.lands.length
    · rw [land_onLand_same hlt, hf]
    · have hsame : onLand d m f = { d with lands := d.lands } := by rw [onLand, modAt_beyond f (Nat.le_of_not_lt hlt)]
      rw [hsame]
  · rw [land_onLand_other hmn]

theorem modAt_modAt {α : Type} (f g : α → α) : ∀ (l : List α) (n : Nat), modAt g (modAt f l n) n = modAt (fun a => g (f a)) l n
  | [], _ => rfl
  | _ :: _, 0 => rfl
  | a :: l, n + 1 => congrArg (a :: ·) (modAt_modAt f g l n)

/-! ## Flits that are sent -/

section
variable (d : Dev) (n kind seq start : Nat) (resend : Bool) (slots : List Byte)

/-- A flit takes its turn among the classes and its symbols in the encoder; every other field of a Landing stays. -/
theorem land_putFlit_keeps {α : Type} (g : Landing → α)
    (hg : ∀ (l : Landing) next since word bits, g { l with credNext := next, sinceCtl := since, fecWord := word, fecBits := bits } = g l) (m : Nat) :
    g (land (putFlit d n kind seq start resend slots) m) = g (land d m) :=
  land_onLand_keeps g (fun l => hg l _ _ _ _) d m n

theorem land_sendFlit_keeps {α : Type} (g : Landing → α)
    (hg : ∀ (l : Landing) next since word bits, g { l with credNext := next, sinceCtl := since, fecWord := word, fecBits := bits } = g l) (m : Nat) :
    g (land (sendFlit d n kind seq start resend slots) m) = g (land d m) := by
  unfold sendFlit
  rw [land_putFlit_keeps _ _ _ _ _ _ _ g hg]
  split
  · exact land_putFlit_keeps _ _ _ _ _ _ _ g hg m
  · rfl

/-- Between two control flits a flit goes out alone (11 R341). -/
theorem sendFlit_alone (h : (land d n).sinceCtl < 256) : sendFlit d n kind seq start resend slots = putFlit d n kind seq start resend slots := by
  rw [sendFlit, if_neg (Nat.not_le.mpr h)]

theorem putFlit_wharf : (putFlit d n kind seq start resend slots).wharf = d.wharf := rfl

theorem sendFlit_wharf : (sendFlit d n kind seq start resend slots).wharf = d.wharf := by
  unfold sendFlit
  rw [putFlit_wharf]
  split <;> rfl

end

/-- The flits of a message take sequence numbers and places in the replay buffer. -/
theorem sendFlits_wharf (ld : Nat) (f : Frame) : ∀ (k : Nat) (d : Dev), (sendFlits ld f k d).wharf = d.wharf
  | 0, _ => rfl
  | k + 1, d => by
    unfold sendFlits
    dsimp only
    rw [sendFlits_wharf ld f k, count_wharf, sendFlit_wharf, onLand_wharf]

theorem sendFlits_credit (ld : Nat) (f : Frame) (m : Nat) : ∀ (k : Nat) (d : Dev),
    (land (sendFlits ld f k d) m).credit = (land d m).credit
  | 0, _ => rfl
  | k + 1, d => by
    unfold sendFlits
    dsimp only
    rw [sendFlits_credit ld f m k, land_count, land_sendFlit_keeps _ _ _ _ _ _ _ Landing.credit (fun _ _ _ _ _ => rfl)]
    refine land_onLand_keeps Landing.credit ?_ d m ld
    exact fun _ => rfl

/-! ## Frames of the Wharf -/

@[simp] theorem setSharedUsed_lands (d : Dev) (bank v : Nat) : (setSharedUsed d bank v).lands = d.lands := by
  unfold setSharedUsed
  split <;> rfl

@[simp] theorem freeCells_lands (d : Dev) (f : Frame) : (freeCells d f).lands = d.lands := by
  unfold freeCells
  split
  · rfl
  · exact setSharedUsed_lands _ _ _

@[simp] theorem dropFrame_lands (d : Dev) (f : Frame) : (dropFrame d f).lands = d.lands := freeCells_lands d f

/-- No frame with the number of one that leaves is left. -/
theorem dropFrame_gone (d : Dev) (f : Frame) : ∀ h ∈ (dropFrame d f).wharf.frames, h.id ≠ f.id := by
  intro h hmem
  simpa using (List.mem_filter.mp hmem).2

@[simp] theorem meterTx_lands (d : Dev) (b : Option Nat) (bytes : Nat) : (meterTx d b bytes).lands = d.lands := by
  cases b <;> rfl

@[simp] theorem meterTx_wharf (d : Dev) (b : Option Nat) (bytes : Nat) : (meterTx d b bytes).wharf = d.wharf := by
  cases b <;> rfl

@[simp] theorem idleTags_wharf (d : Dev) (ld : Nat) : (idleTags d ld).wharf = d.wharf := by
  unfold idleTags
  split <;> rfl

/-- With nothing left at a Landing, times and tags go back to 0; every other field stays. -/
theorem land_idleTags_keeps {α : Type} (g : Landing → α)
    (hg : ∀ (l : Landing) vtime last prioLast prioWoke,
      g { l with vtime := vtime, last := last, prioLast := prioLast, prioWoke := prioWoke } = g l) (d : Dev) (ld m : Nat) :
    g (land (idleTags d ld) m) = g (land d m) := by
  unfold idleTags
  split
  · exact land_onLand_keeps g (fun l => hg l _ _ _ _) d m ld
  · rfl

end Sys2Proof.Machine
end

section
/-! SUPPORT. Admission, ageing and sending of frames, case by case (11 R345, R365-R369; 12 R384). -/

namespace Sys2Proof.Machine

open Sys2Proof

/-! ## Admission (11 R365, R366) -/

/-- Guaranteed cells a frame takes: what it needs, as far as the minimum of its output and class has room. -/
def guaranteedCells (d : Dev) (f : Frame) : Nat :=
  min (cellsOf f.slots) (gminOf d f.bank f.output f.cls - NMap.get 0 d.wharf.gused (f.bank * 512 + f.output * 8 + f.cls))

theorem min_eq_guaranteedCells (d : Dev) (f : Frame) : min (cellsOf f.slots)
    (gminOf d f.bank f.output f.cls - NMap.get 0 d.wharf.gused (f.bank * 512 + f.output * 8 + f.cls)) = guaranteedCells d f := rfl

/-- The shared pool takes the rest of a frame under WHARF_ALPHA (11 R366). -/
def SharedFits (d : Dev) (f : Frame) : Prop :=
  let s := cellsOf f.slots - guaranteedCells d f
  let free := sharedSize d f.bank - sharedUsed d f.bank
  s ≤ free ∧ (NMap.get 0 d.wharf.sheld (f.bank * 512 + f.output * 8 + f.cls) + s) * 8 ≤ reg d (pg 0x10 f.bank + 0x110) * (free - s)

section
variable {d : Dev} {f : Frame}

/-- A frame that its guarantee covers is admitted, and so is a green one whose rest the shared pool takes. -/
theorem admission_of_fits (h : cellsOf f.slots = guaranteedCells d f ∨ (f.yellow = false ∧ SharedFits d f)) :
    admission d f = some (guaranteedCells d f, cellsOf f.slots - guaranteedCells d f) := by
  rcases h with hall | ⟨hgreen, hfree, halpha⟩
  · have hnone : cellsOf f.slots - guaranteedCells d f = 0 := by omega
    simp [admission, min_eq_guaranteedCells, hnone]
  · simp only [admission, min_eq_guaranteedCells, hgreen, hfree, halpha, decide_true, Bool.and_self, Bool.or_true, Bool.not_false, Bool.true_or,
      if_true]

/-- A frame whose rest the shared pool does not take waits. -/
theorem admission_of_not_fits (hrest : cellsOf f.slots ≠ guaranteedCells d f) (h : ¬ SharedFits d f) : admission d f = none := by
  have hle : guaranteedCells d f ≤ cellsOf f.slots := Nat.min_le_left _ _
  have hsome : ¬ cellsOf f.slots - guaranteedCells d f = 0 := by omega
  rcases not_and_or.mp h with hfree | halpha
  · simp [admission, min_eq_guaranteedCells, hsome, hfree]
  · simp [admission, min_eq_guaranteedCells, hsome, halpha]

/-- A frame that is taken in stands in the Wharf, admitted with its cells. -/
theorem takeIn_admitted (d : Dev) (f : Frame) (gs : Nat × Nat) : ∃ h ∈ (takeIn d f gs).wharf.frames,
    h.id = f.id ∧ h.admitted = true ∧ h.cellsG = gs.1 ∧ h.cellsS = gs.2 ∧ h.msg = f.msg := by
  unfold takeIn
  dsimp only
  split
  · exact ⟨_, List.mem_append_right _ (List.mem_singleton_self _), rfl, rfl, rfl, rfl, rfl⟩
  · exact ⟨_, List.mem_append_right _ (List.mem_singleton_self _), rfl, rfl, rfl, rfl, rfl⟩

theorem admitHead_none {bank input output cls : Nat} (h : inputHead d bank input output cls = none) :
    admitHead d bank input output cls = d := by
  simp only [admitHead, h]

/-- The head of a queue, not over the age limit and of no multicast frame, is taken in with its cells. -/
theorem admitHead_taken {bank input output cls : Nat} (h : inputHead d bank input output cls = some f) (hgroup : f.group = 0)
    (hage : overAge d f = false) {gs : Nat × Nat} (hgs : admission d f = some gs) : admitHead d bank input output cls = takeIn d f gs := by
  simp only [admitHead, h, hgroup, beq_self_eq_true, if_true, tryAdmit, hage, hgs, Bool.false_eq_true, if_false]

/-- It is counted where it waits. -/
theorem admitHead_waits {bank input output cls : Nat} (h : inputHead d bank input output cls = some f) (hgroup : f.group = 0)
    (hage : overAge d f = false) (hgs : admission d f = none) :
    admitHead d bank input output cls = count d (pg 0x10 f.bank) 0x818 := by
  simp only [admitHead, h, hgroup, beq_self_eq_true, if_true, tryAdmit, hage, hgs, Bool.false_eq_true, if_false]

/-- A frame for a Landing stays in its output buffer. -/
theorem passThrough_landing {output : Nat} (h : output < 8) (d : Dev) (bank : Nat) : passThrough d bank output = d := by
  simp only [passThrough, h, if_true]

theorem exec_frameAdmit {s : State} {bank input output cls : Nat} (hout : output < 8) :
    exec (.frameAdmit bank input output cls) s =
      .next (leaving s (if bankLive s.dev bank = true then admitHead s.dev bank input output cls else s.dev)) := by
  have hrun : exec (.frameAdmit bank input output cls) s = .next (leaving s (if bankLive s.dev bank = true
      then passThrough (admitHead s.dev bank input output cls) bank output else s.dev)) := rfl
  rw [hrun, passThrough_landing hout]

theorem inputHead_output {bank input output cls : Nat} (h : inputHead d bank input output cls = some f) : f.output = output := by
  have hp := List.find?_some h
  simp only [Bool.and_eq_true, beq_iff_eq] at hp
  exact hp.1.2

/-! ## Ageing (11 R369) -/

/-- The device at the time at which a frame of a bank is over the age limit. -/
def agedAt (d : Dev) (bank : Nat) (f : Frame) : Dev := { d with sys.ltc := max d.sys.ltc (f.stamp + reg d (pg 0x10 bank + 0x100) + 1) }

/-- The frame has left the Wharf, counted and recorded. -/
def agedOut (d : Dev) (bank : Nat) (f : Frame) : Dev :=
  raiseFe (count (dropFrame (agedAt d bank f) f) (pg 0x10 bank) 0x800) (pg 0x10 bank) 0 (agedFe (agedAt d bank f) f)

theorem agedOut_gone (d : Dev) (bank : Nat) (f : Frame) : ∀ h ∈ (agedOut d bank f).wharf.frames, h.id ≠ f.id := by
  rw [agedOut, raiseFe_wharf, count_wharf]
  exact dropFrame_gone _ f

/-- A frame over the age limit at the head of its queue, that is no report, leaves, and what follows its discard is done. -/
theorem frameAge_head {bank id : Nat} (h : d.wharf.frames.find? (fun f => f.id == id && f.bank == bank) = some f) (hreport : f.report = false)
    (hhead : isHead d f = true) : frameAge d bank id =
      agedThen (if f.admitted = true ∧ f.output < 8 then idleTags (agedOut d bank f) (bank * 8 + f.output) else agedOut d bank f) f := by
  have hat : advanceTo d (f.stamp + reg d (pg 0x10 bank + 0x100) + 1) = agedAt d bank f := rfl
  simp only [frameAge, h, hreport, hhead, hat, agedOut, Bool.not_true, Bool.or_self, Bool.false_eq_true, if_false, Bool.and_eq_true,
    decide_eq_true_eq]

theorem exec_frameAged (bank id : Nat) (s : State) : exec (.frameAged bank id) s = .next (goingOn s (frameAge s.dev bank id)) := rfl

/-! ## Sending (11 R345; 12 R384) -/

theorem exec_landingFrameSend_up {ld : Nat} {s : State} (hup : (land s.dev ld).st = .up) (hlive : bankLive s.dev (ld / 8) = true) :
    exec (.landingFrameSend ld) s = .next (leaving s (sendNext s.dev ld)) := by
  have hrun : exec (.landingFrameSend ld) s =
    .next (leaving s (if (land s.dev ld).st == .up && bankLive s.dev (ld / 8) then sendNext s.dev ld else s.dev)) := rfl
  rw [hrun, hup, hlive, beq_self_eq_true, Bool.and_self, if_pos rfl]

theorem exec_landingFrameSend_down {ld : Nat} {s : State} (hdown : (land s.dev ld).st ≠ .up) :
    exec (.landingFrameSend ld) s = .next (leaving s s.dev) := by
  have hrun : exec (.landingFrameSend ld) s =
    .next (leaving s (if (land s.dev ld).st == .up && bankLive s.dev (ld / 8) then sendNext s.dev ld else s.dev)) := rfl
  rw [hrun, beq_eq_false_iff_ne.mpr hdown, Bool.false_and, if_neg Bool.false_ne_true]

/-- The device as the scheduler of a Landing finds it: the heads that closed gates hold are counted (12 R393). -/
def gatesCounted (d : Dev) (ld : Nat) : Dev := count d (pg 0x70 (ld / 8)) 0x810 (gateHeld d ld)

/-- Where no frame may start, an idle flit goes out. (`sendNext` is unfolded as a function: applied, the kernel would compute the address of the
page counted on.) -/
theorem sendNext_none {e : Dev} {ld : Nat} (he : gatesCounted d ld = e) (h : chooseFrame e ld = none) :
    sendNext d ld = sendFlit e ld 0 0 0 false [] := by
  refine (congrFun (congrFun (?_ : sendNext = ?_) d) ld).trans ?_
  case refine_2 => delta sendNext; exact rfl
  unfold gatesCounted at he
  rw [he]
  simp only [h]

/-- The device from which a frame of the priority path is sent: its bucket and its credit are taken, and the frame has left the Wharf. -/
def prioTaken (d : Dev) (ld : Nat) (f : Frame) : Dev :=
  let served (l : Landing) : Landing := { l with bucket := bucketNow d ld - f.slots * 64, bucketAt := d.sys.ltc, prioWoke := none }
  dropFrame (onLand (count (onLand d ld served) (pg 0x70 (ld / 8)) 0x808) ld
    (fun l => { l with credit := modAt (fun c => c - f.slots) l.credit f.cls })) f

/-- A frame the priority path serves, with room for its flits in the replay buffer, is sent (12 R384). -/
theorem sendNext_prio {e : Dev} {ld tag : Nat} (he : gatesCounted d ld = e) (h : chooseFrame e ld = some (f, tag, true))
    (hroom : (land e ld).replay.length + flitsOf f.slots ≤ 512) :
    sendNext d ld = idleTags (meterTx (sendFlits ld f (flitsOf f.slots) (prioTaken e ld f)) f.berth (f.slots * 16)) ld := by
  refine (congrFun (congrFun (?_ : sendNext = ?_) d) ld).trans ?_
  case refine_2 => delta sendNext; exact rfl
  unfold gatesCounted at he
  rw [he]
  simp only [h, Nat.not_lt.mpr hroom, if_false, if_true, prioTaken]

theorem length_lands_gatesCounted (d : Dev) (ld : Nat) : (gatesCounted d ld).lands.length = d.lands.length := by
  rw [gatesCounted, count_lands]

/-- What a frame of the priority path is sent from has its credit taken. -/
theorem prioTaken_credit {ld : Nat} (hld : ld < d.lands.length) (f : Frame) :
    (land (prioTaken d ld f) ld).credit = modAt (fun c => c - f.slots) (land d ld).credit f.cls := by
  unfold prioTaken
  dsimp only
  rw [land_of_lands (dropFrame_lands _ _), land_onLand_same (by rw [count_lands, length_lands_onLand]; exact hld), land_count,
    land_onLand_same hld]

/-- It has left the Wharf, and its credit is taken (11 R345). -/
theorem sendNext_prio_takes {e : Dev} {ld tag : Nat} (he : gatesCounted d ld = e) (h : chooseFrame e ld = some (f, tag, true))
    (hroom : (land e ld).replay.length + flitsOf f.slots ≤ 512) (hld : ld < e.lands.length) :
    (∀ g ∈ (sendNext d ld).wharf.frames, g.id ≠ f.id) ∧
      (land (sendNext d ld) ld).credit = modAt (fun c => c - f.slots) (land e ld).credit f.cls := by
  rw [sendNext_prio he h hroom]
  constructor
  · rw [idleTags_wharf, meterTx_wharf, sendFlits_wharf]
    exact dropFrame_gone _ f
  · rw [land_idleTags_keeps Landing.credit (fun _ _ _ _ _ => rfl), land_of_lands (meterTx_lands _ _ _), sendFlits_credit, prioTaken_credit hld]

end

end Sys2Proof.Machine
end

section
/-! SUPPORT. The registers of the Wharf, the Fare meter and the meters, and the loss lists of Landings that went down (04 R134, R147; 11 R376,
R377; 12 R391, R396, R400). -/

namespace Sys2Proof.Machine

open Sys2Proof

/-! ## Registers -/

/-- A command that writes a constant to a 32-bit register, and reaches it, leaves what the register does with the value. -/
theorem exec_write32_pg {c : Instr} {s : State} {p : Path} {code bank o v : Nat} {D : Dev} (hc : exec c s = s.write32 p (pg code bank) o v)
    (hr : Reaches s.dev p (pg code bank + o) ⟨code, bank, 0⟩) (h8 : o % 8 = 0) (hlt : o < 0x1000) (he : o ≠ 0x20)
    (hw : wideAt ⟨code, bank, 0⟩ o = false)
    (hD : writeNarrow (dropHalves s.dev p) s.fuses ⟨code, bank, 0⟩ o (v % 2 ^ 32) = (D, s.fuses)) : exec c s = .next (written s p D) := by
  refine writes_of c s p _ ⟨code, bank, 0⟩ 32 (fun _ => v) D hc hr ?_ ?_
  · have hal : pg code bank % 0x1000 = 0 := pageBase_aligned _
    exact accessOk_32 (by omega)
  · rw [writePage_pg bank h8 hlt he hw, Nat.mod_mod, hD]

theorem word_mod (v : BitVec 32) : v.toNat % 2 ^ 32 = v.toNat := Nat.mod_eq_of_lt v.isLt

section
variable {s : State} {p : Path} {bank : Nat} (v : BitVec 32)

theorem exec_wharfGminWrite (hr : Reaches s.dev p (pg 0x10 bank + 0x120) ⟨0x10, bank, 0⟩) :
    exec (.wharfGminWrite p bank v) s = .next (written s p (writeGmin (dropHalves s.dev p) bank v.toNat)) :=
  exec_write32_pg (v := v.toNat) rfl hr rfl (by decide) (by decide) rfl (by rw [word_mod]; rfl)

theorem exec_wharfEpBaseWrite (hr : Reaches s.dev p (pg 0x10 bank + 0x138) ⟨0x10, bank, 0⟩) :
    exec (.wharfEpBaseWrite p bank v) s = .next (written s p (writeEpBase (dropHalves s.dev p) v.toNat)) :=
  exec_write32_pg (v := v.toNat) rfl hr rfl (by decide) (by decide) rfl (by rw [word_mod]; rfl)

theorem exec_fmCfgWrite (hr : Reaches s.dev p (pg 0x71 0 + 0x108) ⟨0x71, 0, 0⟩) :
    exec (.fmCfgWrite p v) s = .next (written s p (writeFmCfg (dropHalves s.dev p) v.toNat)) :=
  exec_write32_pg (v := v.toNat) rfl hr rfl (by decide) (by decide) rfl (by rw [word_mod]; rfl)

omit v in
theorem exec_meterSnap (hr : Reaches s.dev p (pg 0x72 bank + 0x108) ⟨0x72, bank, 0⟩) :
    exec (.meterSnap p bank) s = .next (written s p (takeMeterSnap (dropHalves s.dev p) bank)) :=
  exec_write32_pg (v := 1) rfl hr rfl (by decide) (by decide) rfl (by simp only [writeNarrow, writeBlock]; rfl)

end

/-- A minimum is taken where its pair and its value are listed, and the bank's pools have room for it (11 R376). -/
theorem writeGmin_eq (d : Dev) (bank v : Nat) : writeGmin d bank v =
    (let sel := reg d (pg 0x10 bank + 0x118)
     let d1 : Dev := { d with wharf.gmin := NMap.set 32 d.wharf.gmin (bank * 512 + fld sel 0 6 * 8 + fld sel 6 3) v }
     if 50 ≤ fld sel 0 6 ∨ v < 4 ∨ 4096 < v then d
     else if 262144 < gminSum d1 bank ∨ sharedSize d1 bank < sharedUsed d1 bank then raise d (pg 0x10 bank) 2 else d1) := by
  simp only [writeGmin, Bool.or_eq_true, decide_eq_true_eq, or_assoc]
  rfl

theorem writeEpBase_eq (d : Dev) (v : BitVec 32) : writeEpBase d v.toNat =
    if d.wharf.epValid then d else { d with wharf.epBase := fld v.toNat 9 9, wharf.epValid := v.getLsbD 31 } := by
  rw [writeEpBase, bit_toNat]

/-- A snapshot of the selected berth's integrals, of zeros where it is the other bank's (12 R398). -/
theorem takeMeterSnap_eq (d : Dev) (bank : Nat) : takeMeterSnap d bank =
    (let b := reg d (pg 0x72 bank + 0x100) % 256
     let m := NMap.get {} (accrue d b).sched.meters b
     let kept : MeterSnap := { ltc := d.sys.ltc, vals := if bankOfBerth b = bank then m.ints ++ [m.tx, m.rx] else List.replicate 10 0 }
     let put (d : Dev) : Dev := if bank = 0 then { d with sched.snapEast := kept } else { d with sched.snapWest := kept }
     count (raise (put (accrue d b)) (pg 0x72 bank) 0) (pg 0x72 bank) 0x800) := by
  simp only [takeMeterSnap, beq_iff_eq]
  rfl

/-- A field of a field. -/
theorem fld_fld {n lo w lo' w' : Nat} (h : lo' + w' ≤ w) : fld (fld n lo w) lo' w' = fld n (lo + lo') w' := by
  apply Nat.eq_of_testBit_eq
  intro i
  simp only [fld, Nat.testBit_mod_two_pow, Nat.testBit_div_two_pow]
  by_cases hi : i < w'
  · have hin : i + lo' < w := by omega
    have hsum : i + lo' + lo = i + (lo + lo') := by omega
    simp [hi, hin, hsum]
  · simp [hi]

/-- The reasons to discard a write of FM_CFG: a PRE of 3, or a peak rate below the committed one (12 R391). -/
def FmDiscards (d : Dev) (v : Nat) : Prop :=
  (∃ i, i < 4 ∧ fld v (2 + 2 * i) 2 = 3) ∨ reg d (pg 0x71 0 + 0x120) < reg d (pg 0x71 0 + 0x110)

theorem fmDiscards_iff (d : Dev) (v : Nat) : ((List.range 4).any (fun i => fld (fld v 2 8) (2 * i) 2 == 3) ||
    decide (reg d (pg 0x71 0 + 0x120) < reg d (pg 0x71 0 + 0x110))) = true ↔ FmDiscards d v := by
  rw [Bool.or_eq_true, decide_eq_true_eq, FmDiscards]
  refine or_congr_left ?_
  simp only [List.any_eq_true, List.mem_range, beq_iff_eq]
  refine exists_congr fun i => and_congr_right fun hi => ?_
  rw [fld_fld (by omega)]

theorem writeFmCfg_discarded {d : Dev} {v : Nat} (h : FmDiscards d v) : writeFmCfg d v = d := by
  simp only [writeFmCfg, (fmDiscards_iff d v).mpr h, if_true]

/-- A job that is enabled takes the staged values, its buckets full. -/
theorem writeFmCfg_enables {d : Dev} {v : Nat} (h : ¬ FmDiscards d v) (hon : bit v 0 = true) (hoff : (fareOf d (fareSel d)).enable = false) :
    writeFmCfg d v =
      (let r (o : Nat) : Nat := reg d (pg 0x71 0 + o)
       let g : FareJob := { fareOf d (fareSel d) with
         enable := true, aware := bit v 1, pre := fld v 2 8, cir := r 0x110, cbs := r 0x118, pir := r 0x120, pbs := r 0x128, tc := r 0x118 * 800,
         tp := r 0x128 * 800, seen := d.sys.ltc }
       { d with sched.fare := NMap.set {} d.sched.fare (fareSel d) g }) := by
  have hgood := Bool.eq_false_iff.mpr (mt (fmDiscards_iff d v).mp h)
  simp only [writeFmCfg, hgood, hon, hoff, Bool.not_true, Bool.not_false, Bool.and_self, Bool.false_eq_true, if_false, if_true]

/-! ## Loss lists (04 R134, R147) -/

theorem exec_lossListComplete (ld : Nat) (s : State) : exec (.lossListComplete ld) s = .next (goingOn s (lossComplete s.dev ld)) := rfl

/-- With no request in flight, a loss list that is complete lets none go on. -/
theorem lossComplete_of_no_flying {d : Dev} (h : d.flying = []) (ld : Nat) : lossComplete d ld =
    { d with quay.losses := d.quay.losses.map (fun l => if l.landing = ld then { l with building := false } else l) } := by
  simp only [lossComplete, h, List.filter_nil, List.foldl_nil, beq_iff_eq, ite_self]

theorem exec_lossListExpire (ld : Nat) (s : State) : exec (.lossListExpire ld) s = .next (leaving s (lossExpire s.dev ld)) := rfl

/-- The oldest loss of a Landing expires with its entries. -/
theorem lossExpire_oldest {d : Dev} {l : Loss} {rest : List Loss} {ld : Nat} (h : d.quay.losses = l :: rest) (hld : l.landing = ld)
    (hbuilt : l.building = false) : (lossExpire d ld).quay.losses = rest ∧
      (lossExpire d ld).quay.lossList = d.quay.lossList.filter (fun e => !(e.landing == ld && e.since == l.since)) := by
  have hfind : d.quay.losses.find? (fun l => l.landing == ld && !l.building) = some l := by simp [h, hld, hbuilt]
  have hrest : delFirst (fun x => x.landing == ld && x.since == l.since) d.quay.losses = rest := by simp [h, delFirst, hld]
  simp only [lossExpire, hfind, advanceTo_quay, hrest, and_self]

end Sys2Proof.Machine
end

section
/-! The Wharf and the scheduler's commands. -/

namespace Sys2Proof.Machine

open Sys2Proof

/-- Settles O51: the head of a queue by its admission, a frame by its age, a Landing by what the scheduler chooses, and each register and loss
list by its own rule. -/
theorem wharfAdmitsAgesAndSends : Obligations.WharfAdmitsAgesAndSends := by
  intro s p bank input output cls ld id v hbank d e
  refine ⟨?_, ?_, ?_, ?_, ?_, ?_, ?_, ?_, ?_, ?_, ?_, ?_⟩
  · intro f hlive hhead hgroup hout hage k need g free held fits
    have hexec : exec (.frameAdmit bank input output cls) s = .next (leaving s (admitHead d bank input output cls)) := by
      rw [exec_frameAdmit (inputHead_output hhead ▸ hout), if_pos hlive]
    refine ⟨fun hfits => ?_, fun hrest hnot => ?_⟩
    · obtain ⟨h, hmem, hid, hadmitted, hg, hs, hmsg⟩ := takeIn_admitted d f (guaranteedCells d f, cellsOf f.slots - guaranteedCells d f)
      rw [admitHead_taken hhead hgroup hage (admission_of_fits hfits)] at hexec
      exact ⟨_, h, hexec, hmem, hid, hadmitted, hg, hs, hmsg⟩
    · rw [hexec, admitHead_waits hhead hgroup hage (admission_of_not_fits hrest hnot)]
  · intro hnone hout
    rw [exec_frameAdmit hout, admitHead_none hnone, ite_self]
  · intro f hfind hreport hhead d1 d2
    have hout : agedOut d bank f = d2 := rfl
    refine ⟨agedOut_gone d bank f, ?_⟩
    rw [exec_frameAged, frameAge_head hfind hreport hhead, hout]
  · intro f tag hup hlive hld hlands hchosen hroom
    have hland : land (gatesCounted d ld) ld = land d ld := land_count _ _ _ _ _
    obtain ⟨hgone, hcredit⟩ := sendNext_prio_takes rfl hchosen (by rw [hland]; exact hroom)
      (by rw [length_lands_gatesCounted, hlands]; exact hld)
    exact ⟨sendNext d ld, exec_landingFrameSend_up hup hlive, hgone, hcredit.trans (by rw [hland])⟩
  · intro hup hlive d1 hnone
    rw [exec_landingFrameSend_up hup hlive, sendNext_none (e := d1) rfl hnone]
  · exact exec_landingFrameSend_down
  · intro hr sel d1
    rw [exec_wharfGminWrite v hr, writeGmin_eq]
    rfl
  · intro hr
    rw [exec_wharfEpBaseWrite v hr, writeEpBase_eq]
    rfl
  · intro hr r f discarded
    refine ⟨fun hdiscarded => ?_, ?_⟩
    · rw [exec_fmCfgWrite v hr, writeFmCfg_discarded (d := e) hdiscarded]
    · intro hkept hon hoff g
      rw [exec_fmCfgWrite v hr, writeFmCfg_enables (d := e) hkept ((bit_toNat v 0).trans hon) hoff, bit_toNat]
      rfl
  · intro hr b m kept put
    rw [exec_meterSnap hr, takeMeterSnap_eq]
    rfl
  · intro hflying built
    rw [exec_lossListComplete, lossComplete_of_no_flying hflying]
  · intro l rest hlosses hland hbuilt
    obtain ⟨hrest, hlist⟩ := lossExpire_oldest hlosses hland hbuilt
    exact ⟨lossExpire d ld, exec_lossListExpire ld s, hrest, hlist⟩

end Sys2Proof.Machine
end

section
/-! SUPPORT. Retrains, resent flits, corrected symbols and received flits, case by case (11 R338-R347). -/

namespace Sys2Proof.Machine

open Sys2Proof

/-! ## Fields of byte strings -/

theorem leNat_append : ∀ a b : List Byte, leNat (a ++ b) = leNat a + 256 ^ a.length * leNat b
  | [], b => by simp [leNat]
  | x :: a, b => by
    rw [List.cons_append, leNat, leNat, leNat_append a b, List.length_cons, Nat.pow_succ]
    ring

theorem leNat_lt : ∀ l : List Byte, leNat l < 256 ^ l.length
  | [] => Nat.one_pos
  | x :: l => by
    have hx : x.toNat < 256 := x.isLt
    have hl := leNat_lt l
    rw [leNat, List.length_cons, Nat.pow_succ]
    omega

theorem leAt_lt (l : List Byte) (o k : Nat) : leAt l o k < 256 ^ k := by
  simpa [leAt, length_sub] using leNat_lt (sub l o k)

theorem sub_add (l : List Byte) (o a b : Nat) : sub l o (a + b) = sub l o a ++ sub l (o + a) b := by
  apply List.ext_getElem
  · simp [length_sub]
  · intro i h1 h2
    rw [length_sub] at h1
    rw [← List.getD_eq_getElem _ 0 (by rw [length_sub]; exact h1), ← List.getD_eq_getElem _ 0 h2, getD_sub l o h1]
    by_cases hi : i < a
    · rw [List.getD_append _ _ _ _ (by rw [length_sub]; exact hi), getD_sub l o hi]
    · rw [List.getD_append_right _ _ _ _ (by rw [length_sub]; omega), length_sub, getD_sub l (o + a) (by omega)]
      congr 1
      omega

/-- The bytes of a little-endian number in two parts. -/
theorem leAt_add (l : List Byte) (o a b : Nat) : leAt l o (a + b) = leAt l o a + 256 ^ a * leAt l (o + a) b := by
  rw [leAt, sub_add, leNat_append, length_sub]
  rfl

/-- A number's first byte. -/
theorem fld_leAt_first (l : List Byte) (o : Nat) : fld (leAt l o 8) 0 8 = leAt l o 1 := by
  have hbyte := leAt_lt l o 1
  have hsplit : leAt l o 8 = leAt l o 1 + 256 ^ 1 * leAt l (o + 1) 7 := leAt_add l o 1 7
  rw [hsplit, fld]
  omega

/-- The upper four bytes of a number of eight. -/
theorem fld_leAt_upper (l : List Byte) (o : Nat) : fld (leAt l o 8) 32 32 = leAt l (o + 4) 4 := by
  have hlow := leAt_lt l o 4
  have hhigh := leAt_lt l (o + 4) 4
  have hsplit : leAt l o 8 = leAt l o 4 + 256 ^ 4 * leAt l (o + 4) 4 := leAt_add l o 4 4
  rw [hsplit, fld]
  omega

/-! ## Retrains (11 R346, R347) -/

section
variable {d : Dev} {n : Nat}

/-- A link that is up retrains, counted, with the event RETRAIN. -/
theorem retrain_of_up (h : (land d n).st = .up) (software : Bool) : retrain d n software =
    raise (count (onLand d n (fun l => { l with st := .retraining, swRetrain := software })) (landPage n) 0x830) (landPage n) 3 := by
  have hup : (LinkState.up != LinkState.up) = false := rfl
  simp only [retrain, h, hup, Bool.false_eq_true, if_false]

/-- A retrain leaves every field of a Landing but its state and who has asked for the retrain. -/
theorem land_retrain_keeps {α : Type} (g : Landing → α) (hg : ∀ (l : Landing) st sw, g { l with st := st, swRetrain := sw } = g l) (d : Dev)
    (n : Nat) (software : Bool) (m : Nat) : g (land (retrain d n software) m) = g (land d m) := by
  unfold retrain
  split
  · rfl
  · rw [land_raise, land_count]
    exact land_onLand_keeps g (fun l => hg l _ _) d m n

theorem land_retrain_st (hup : (land d n).st = .up) (hn : n < d.lands.length) (software : Bool) :
    (land (retrain d n software) n).st = .retraining := by
  rw [retrain_of_up hup, land_raise, land_count, land_onLand_same hn]

theorem land_laneBad_keeps {α : Type} (g : Landing → α)
    (hg : ∀ (l : Landing) st sw ok, g { l with st := st, swRetrain := sw, laneOk := ok } = g l) (d : Dev) (n lane m : Nat) :
    g (land (laneBad d n lane) m) = g (land d m) := by
  unfold laneBad
  split
  · rfl
  · rw [land_retrain_keeps g (fun l st sw => hg l st sw l.laneOk)]
    exact land_onLand_keeps g (fun l => hg l l.st l.swRetrain _) d m n

/-! ## Corrected symbols (11 R346) -/

/-- The window of corrected symbols leaves every field of a Landing but the window's own and those a retrain changes. (`laneErrs` is unfolded
as a function, and its page is made a variable: else the kernel would compute the page's address.) -/
theorem land_laneErrs_keeps {α : Type} (g : Landing → α)
    (hg : ∀ (l : Landing) st sw ok errs since, g { l with st := st, swRetrain := sw, laneOk := ok, fecErrs := errs, fecSince := since } = g l)
    (d : Dev) (n : Nat) (corrected : List Nat) (m : Nat) : g (land (laneErrs d n corrected) m) = g (land d m) := by
  have hbad (e : Dev) (lane : Nat) : g (land (laneBad e n lane) m) = g (land e m) :=
    land_laneBad_keeps g (fun l st sw ok => hg l st sw ok l.fecErrs l.fecSince) e n lane m
  refine (congrArg (fun e => g (land e m)) (congrFun (congrFun (congrFun (?_ : laneErrs = ?_) d) n) corrected)).trans ?_
  case refine_2 => delta laneErrs; exact rfl
  generalize landPage n = page
  dsimp only
  split
  · rw [hbad, land_onLand_keeps g (fun l => hg l l.st l.swRetrain l.laneOk _ _), land_count]
  · rw [land_onLand_keeps g (fun l => hg l l.st l.swRetrain l.laneOk _ _), land_count]

/-! ## Resent flits (11 R344) -/

/-- The flits of a replay buffer, sent once more in their order. -/
def resentFlits (n : Nat) (l : List ReplayFlit) (d : Dev) : Dev :=
  l.foldl (fun d r => count (sendFlit d n 1 r.seq r.start true r.slots) (landPage n) 0x818) d

theorem resentFlits_cons (n : Nat) (r : ReplayFlit) (l : List ReplayFlit) (d : Dev) : resentFlits n (r :: l) d =
    resentFlits n l (count (sendFlit d n 1 r.seq r.start true r.slots) (landPage n) 0x818) := by
  simp only [resentFlits, List.foldl_cons]

theorem land_resentFlits_keeps {α : Type} (g : Landing → α)
    (hg : ∀ (l : Landing) next since word bits, g { l with credNext := next, sinceCtl := since, fecWord := word, fecBits := bits } = g l)
    (n m : Nat) : ∀ (l : List ReplayFlit) (d : Dev), g (land (resentFlits n l d) m) = g (land d m)
  | [], _ => rfl
  | r :: l, d => by
    rw [resentFlits_cons, land_resentFlits_keeps g hg n m l, land_count, land_sendFlit_keeps _ _ _ _ _ _ _ g hg]

theorem resend_nothing (h : (land d n).replay = []) : resend d n = d := by
  simp only [resend, h]

variable {r : ReplayFlit} {rest : List ReplayFlit}

/-- Every unacknowledged flit is resent while the oldest may be. -/
theorem resend_again (h : (land d n).replay = r :: rest) (hmay : r.resends < reg d (landPage n + 0x118)) :
    resend d n = resentFlits n (land d n).replay (onLand d n (fun l => { l with
      replay := l.replay.map (fun r => { r with resends := r.resends + 1 }), lastAck := d.sys.ltc })) := by
  simp only [resend, h, Nat.not_le.mpr hmay, if_false, resentFlits]

/-- The link retrains where the oldest has been resent as often as it may. -/
theorem resend_retrains (h : (land d n).replay = r :: rest) (hmost : reg d (landPage n + 0x118) ≤ r.resends) :
    resend d n = retrain d n false := by
  simp only [resend, h, hmost, if_true]

end

theorem land_resend_keeps {α : Type} (g : Landing → α)
    (hflit : ∀ (l : Landing) next since word bits, g { l with credNext := next, sinceCtl := since, fecWord := word, fecBits := bits } = g l)
    (hretrain : ∀ (l : Landing) st sw, g { l with st := st, swRetrain := sw } = g l)
    (hreplay : ∀ (l : Landing) replay last, g { l with replay := replay, lastAck := last } = g l) (d : Dev) (n m : Nat) :
    g (land (resend d n) m) = g (land d m) := by
  cases h : (land d n).replay with
  | nil => rw [resend_nothing h]
  | cons r rest =>
    rcases Nat.lt_or_ge r.resends (reg d (landPage n + 0x118)) with hmay | hmost
    · rw [resend_again h hmay, land_resentFlits_keeps g hflit]
      exact land_onLand_keeps g (fun l => hreplay l _ _) d m n
    · rw [resend_retrains h hmost, land_retrain_keeps g hretrain]

end Sys2Proof.Machine
end

section
/-! SUPPORT. A received flit, case by case, and what its ACK, NAK and credit leave (11 R338-R345). -/

namespace Sys2Proof.Machine

open Sys2Proof

theorem exec_flitRx {s : State} (h : Still s.dev) (n : Nat) (flit : List Byte) (ok : Bool) (corrected : List Nat) :
    exec (.flitRx n flit ok corrected) s =
      .next (afterAccess s (flitIn s.dev s.fuses n flit ok corrected).1 (flitIn s.dev s.fuses n flit ok corrected).2) :=
  runCtl_of_still h (fun d fz => flitIn d fz n flit ok corrected)

/-- ACK, NAK and credit leave the SEQ that a Landing expects. -/
theorem takeAck_rxNext (d : Dev) (n : Nat) (h : FlitHead) : (land (takeAck d n h) n).rxNext = (land d n).rxNext := by
  unfold takeAck
  dsimp only
  split
  · rw [land_resend_keeps Landing.rxNext (fun _ _ _ _ _ => rfl) (fun _ _ _ => rfl) (fun _ _ _ => rfl)]
    exact land_onLand_keeps Landing.rxNext (fun _ => by rfl) d n n
  · exact land_onLand_keeps Landing.rxNext (fun _ => by rfl) d n n

/-- A flit is good: its FEC and its CHECK hold, and its KIND is one (11 R340). -/
def GoodFlit (flit : List Byte) (ok : Bool) : Prop :=
  ok = true ∧ crc64 (sub flit 0 248) = leAt flit 248 8 ∧ fld (leAt flit 0 8) 26 2 ≠ 3

section
variable {d : Dev} {n : Nat}

theorem landOpen_of_up (hlive : bankLive d (n / 8) = true) (hup : (land d n).st = .up) : landOpen d n = true := by
  simp [landOpen, linkUp, hlive, hup]

theorem linkUp_of_st (h : (land d n).st = .down ∨ (land d n).st = .disabled ∨ (land d n).st = .training) : linkUp d n = false := by
  rcases h with h | h | h <;> simp [linkUp, h]

/-- On a link that is down or retrains nothing arrives. -/
theorem flitIn_closed (h : linkUp d n = false ∨ (land d n).st = .retraining) (fz : Fuses) (flit : List Byte) (ok : Bool)
    (corrected : List Nat) : flitIn d fz n flit ok corrected = (d, fz) := by
  have hclosed : (!landOpen d n || (land d n).st == .retraining) = true := by
    rcases h with h | h <;> simp [landOpen, h]
  simp only [flitIn, hclosed, if_true]

/-- The counters of a bad flit. -/
def badCounted (d : Dev) (n : Nat) (ok : Bool) : Dev := count (if ok then d else count d (landPage n) 0x828) (landPage n) 0x810

theorem land_badCounted (d : Dev) (n : Nat) (ok : Bool) (m : Nat) : land (badCounted d n ok) m = land d m := by
  rw [badCounted, land_count]
  split
  · rfl
  · exact land_count _ _ _ _ _

/-- Once a bad flit has been discarded NAK is owed, and what was expected, is unacknowledged or may be sent is as it was. -/
theorem land_flitBad {d : Dev} {n : Nat} (hn : n < d.lands.length) (ok : Bool) (corrected : List Nat) :
    let l := land (laneErrs (onLand (badCounted d n ok) n (fun l => { l with nakOwed := true })) n corrected) n
    l.nakOwed = true ∧ l.rxNext = (land d n).rxNext ∧ l.replay = (land d n).replay ∧ l.credit = (land d n).credit := by
  have hlen : n < (badCounted d n ok).lands.length := by
    rw [badCounted, count_lands]
    split
    · exact hn
    · rw [count_lands]; exact hn
  have hland : land (onLand (badCounted d n ok) n (fun l => { l with nakOwed := true })) n = { land d n with nakOwed := true } := by
    rw [land_onLand_same hlen, land_badCounted]
  refine ⟨?_, ?_, ?_, ?_⟩
  · rw [land_laneErrs_keeps Landing.nakOwed (fun _ _ _ _ _ _ => rfl), hland]
  · rw [land_laneErrs_keeps Landing.rxNext (fun _ _ _ _ _ _ => rfl), hland]
  · rw [land_laneErrs_keeps Landing.replay (fun _ _ _ _ _ _ => rfl), hland]
  · rw [land_laneErrs_keeps Landing.credit (fun _ _ _ _ _ _ => rfl), hland]

/-- The device once a traffic flit has been accepted: the SEQ that is expected has risen, and the oldest flit's messages are no longer among
those of the last 512 (04 R134). -/
def flitAccepted (d : Dev) (n : Nat) : Dev :=
  count (onLand d n (fun l => { l with
    rxNext := (l.rxNext + 1) % 4096, nakOwed := false, rxFlits := l.rxFlits + 1
    accepted := l.accepted.filter (fun a => decide (l.rxFlits + 1 < a.flit + 512)) })) (landPage n) 0x808

section
variable {flit : List Byte} (hlive : bankLive d (n / 8) = true) (hup : (land d n).st = .up)

section
include hlive hup

theorem takes_flits : (!landOpen d n || (land d n).st == .retraining) = false := by
  rw [landOpen_of_up hlive hup, hup]
  rfl

/-- A bad flit is discarded whole, and NAK is owed. -/
theorem flitIn_bad {ok : Bool} (hbad : ¬ GoodFlit flit ok) (fz : Fuses) (corrected : List Nat) : flitIn d fz n flit ok corrected =
    (laneErrs (onLand (badCounted d n ok) n (fun l => { l with nakOwed := true })) n corrected, fz) := by
  have hbad' : (!ok || crc64 (sub flit 0 248) != leAt flit 248 8 || (headOf (leAt flit 0 8)).kind == 3) = true := by
    simp only [GoodFlit, not_and_or, not_not, Bool.not_eq_true] at hbad
    rcases hbad with hok | hcheck | hkind
    · simp [hok]
    · simp [hcheck]
    · simp [headOf, hkind]
  simp only [flitIn, takes_flits hlive hup, hbad', badCounted, Bool.false_eq_true, if_false, if_true]

end

theorem flit_checks (hgood : GoodFlit flit true) {kind : Nat} (hkind : (headOf (leAt flit 0 8)).kind = kind) :
    (!true || crc64 (sub flit 0 248) != leAt flit 248 8 || kind == 3) = false := by
  obtain ⟨-, hcheck, hkind3⟩ := hgood
  have hlisted : kind ≠ 3 := hkind ▸ hkind3
  simp [hcheck, hlisted]

variable (hgood : GoodFlit flit true) (fz : Fuses) (corrected : List Nat)
include hlive hup hgood

/-- An idle flit has its ACK, NAK and credit taken, and no more. -/
theorem flitIn_idle (hkind : (headOf (leAt flit 0 8)).kind = 0) : flitIn d fz n flit true corrected =
    (laneErrs (takeAck d n (headOf (leAt flit 0 8))) n corrected, fz) := by
  have h2 : ((0 : Nat) == 2) = false := rfl
  simp only [flitIn, takes_flits hlive hup, flit_checks hgood hkind, hkind, h2, beq_self_eq_true, Bool.false_eq_true, if_false, if_true]

/-- A control flit may hold a Foghorn frame. -/
theorem flitIn_control (hkind : (headOf (leAt flit 0 8)).kind = 2) : flitIn d fz n flit true corrected =
    (laneErrs (if leAt flit 8 1 = 1 then fogRx (takeAck d n (headOf (leAt flit 0 8))) n (leAt flit 20 4)
      else takeAck d n (headOf (leAt flit 0 8))) n corrected, fz) := by
  simp only [flitIn, takes_flits hlive hup, flit_checks hgood hkind, hkind, fld_leAt_first, fld_leAt_upper, beq_iff_eq, Bool.false_eq_true, if_false,
    if_true]

/-- The messages of a traffic flit with the SEQ that is expected are taken. -/
theorem flitIn_expected (hkind : (headOf (leAt flit 0 8)).kind = 1) (hseq : (headOf (leAt flit 0 8)).seq = (land d n).rxNext) :
    flitIn d fz n flit true corrected =
      (let h := headOf (leAt flit 0 8)
       let r := rxSlots (flitAccepted (takeAck d n h) n) fz n h.start (sub flit 8 240)
       (laneErrs r.1 n corrected, r.2)) := by
  have h2 : ((1 : Nat) == 2) = false := rfl
  have h0 : ((1 : Nat) == 0) = false := rfl
  simp only [flitIn, takes_flits hlive hup, flit_checks hgood hkind, hkind, h2, h0, hseq, takeAck_rxNext, beq_self_eq_true, flitAccepted,
    Bool.false_eq_true, if_false, if_true]

/-- With another SEQ it makes NAK owed. -/
theorem flitIn_unexpected (hkind : (headOf (leAt flit 0 8)).kind = 1) (hseq : (headOf (leAt flit 0 8)).seq ≠ (land d n).rxNext) :
    flitIn d fz n flit true corrected =
      (laneErrs (onLand (takeAck d n (headOf (leAt flit 0 8))) n (fun l => { l with nakOwed := true })) n corrected, fz) := by
  have h2 : ((1 : Nat) == 2) = false := rfl
  have h0 : ((1 : Nat) == 0) = false := rfl
  simp only [flitIn, takes_flits hlive hup, flit_checks hgood hkind, hkind, h2, h0, takeAck_rxNext, beq_eq_false_iff_ne.mpr hseq,
    Bool.false_eq_true, if_false, if_true]

end
end

end Sys2Proof.Machine
end

section
/-! SUPPORT. What a Landing's link-down and Foghorn frames leave (11 R348, R364, R371, R372). -/

namespace Sys2Proof.Machine

open Sys2Proof

/-! ## What moves to other Landings changes none of them -/

theorem foldl_lands {α : Type} {f : Dev → α → Dev} (hf : ∀ d a, (f d a).lands = d.lands) : ∀ (l : List α) (d : Dev),
    (l.foldl f d).lands = d.lands
  | [], _ => rfl
  | a :: l, d => (foldl_lands hf l (f d a)).trans (hf d a)

@[simp] theorem undeliverable_lands (d : Dev) (bank id dst job : Nat) : (undeliverable d bank id dst job).lands = d.lands := by
  rw [undeliverable, raiseFe_lands, count_lands]

@[simp] theorem moveFrame_lands (d : Dev) (f : Frame) : (moveFrame d f).lands = d.lands := by
  unfold moveFrame
  cases newLand d f with
  | none =>
    dsimp only
    split
    · exact (undeliverable_lands _ _ _ _ _).trans (dropFrame_lands d f)
    · rfl
  | some k =>
    dsimp only
    rw [count_lands]
    cases f.msg <;> exact freeCells_lands d f

@[simp] theorem resendReplay_lands (d : Dev) (l : List ReplayFlit) : (resendReplay d l).lands = d.lands := by
  refine foldl_lands (fun d r => ?_) l d
  split
  · split
    · rfl
    · rfl
    · exact pushFrame_lands _ _
  · rfl

@[simp] theorem sendMarked_lands (job input qsets : Nat) (d : Dev) (o : OutReq) : (sendMarked job input qsets d o).lands = d.lands := rfl

@[simp] theorem resendOut_lands (d : Dev) (n : Nat) : (resendOut d n).lands = d.lands := by
  unfold resendOut
  refine (foldl_lands ?_ _ _).trans ((foldl_lands ?_ _ _).trans (foldl_lands ?_ _ _))
  · exact fun d p => sendMarked_lands _ _ _ d _
  · exact fun d o => sendMarked_lands _ _ _ d o
  · exact fun d x => foldl_lands (sendMarked_lands _ _ _) _ d

@[simp] theorem sendSnoop_lands (d : Dev) (bank line : Nat) (s : Snoop) (group : Nat) : (sendSnoop d bank line s group).1.lands = d.lands := by
  unfold sendSnoop
  split
  · rfl
  · split <;> rfl

@[simp] theorem resendSnoops_lands (d : Dev) (from_ : Option Nat) : (resendSnoops d from_).lands = d.lands := by
  refine foldl_lands (fun d (t : Trans) => foldl_lands (fun d s => ?_) t.snoops d) _ d
  split
  · rw [onTrans_lands, sendSnoop_lands]
  · rfl

@[simp] theorem noteIsolated_lands (d : Dev) : (noteIsolated d).lands = d.lands := by
  unfold noteIsolated
  split <;> rfl

@[simp] theorem lossFull_lands (d : Dev) (bank n : Nat) : (lossFull d bank n).lands = d.lands := by
  simp [lossFull]

@[simp] theorem buildLoss_lands (d : Dev) (n : Nat) : (buildLoss d n).lands = d.lands := by
  unfold buildLoss
  dsimp only
  split <;> split <;> simp

/-! ## Link-down (11 R348) -/

/-- A link that has gone down is down, or disabled where its Landing is. -/
theorem land_downLink_st {d : Dev} {n : Nat} (hn : n < d.lands.length) :
    (land (downLink d n) n).st = if landEnabled d n = true then .down else .disabled := by
  unfold downLink
  split
  · rw [land_onLand_same hn]
  · rw [land_of_lands (noteIsolated_lands _), land_of_lands (resendSnoops_lands _ _),
      land_idleTags_keeps Landing.st (fun _ _ _ _ _ => rfl), land_of_lands (resendOut_lands _ _), land_of_lands (resendReplay_lands _ _),
      land_of_lands (foldl_lands moveFrame_lands _ _)]
    refine (land_onLand_keeps Landing.st ?_ _ n n).trans ?_
    · exact fun _ => rfl
    rw [land_of_lands (buildLoss_lands _ _)]
    refine (land_onLand_keeps Landing.st ?_ (raiseFe _ _ _ _) n n).trans ?_
    · exact fun _ => rfl
    rw [land_raiseFe, land_count, land_onLand_same hn]

theorem linkUp_downLink {d : Dev} {n : Nat} (hn : n < d.lands.length) : linkUp (downLink d n) n = false := by
  rw [linkUp, land_downLink_st hn]
  split <;> rfl

/-! ## Timeouts of ACK (11 R344) -/

/-- The device at the time at which ACK has not advanced for LAND_ACK_TIMEOUT. -/
def ackDue (d : Dev) (n : Nat) : Dev := advanceTo d ((land d n).lastAck + reg d (landPage n + 0x110))

theorem exec_landAckTimeout (n : Nat) (s : State) : exec (.landAckTimeout n) s = .next (leaving s
    (if (land s.dev n).st != .up || (land s.dev n).replay.isEmpty then s.dev else resend (ackDue s.dev n) n)) := rfl

theorem exec_landAckTimeout_acknowledged {n : Nat} {s : State} (h : (land s.dev n).replay = []) :
    exec (.landAckTimeout n) s = .next (leaving s s.dev) := by
  rw [exec_landAckTimeout, h, List.isEmpty_nil, Bool.or_true, if_pos rfl]

theorem exec_landAckTimeout_unacknowledged {n : Nat} {s : State} (hup : (land s.dev n).st = .up) {r : ReplayFlit} {rest : List ReplayFlit}
    (h : (land s.dev n).replay = r :: rest) : exec (.landAckTimeout n) s = .next (leaving s (resend (ackDue s.dev n) n)) := by
  have hwaits : ((land s.dev n).st != .up || (land s.dev n).replay.isEmpty) = false := by rw [hup, h]; rfl
  rw [exec_landAckTimeout, hwaits, if_neg Bool.false_ne_true]

/-! ## Foghorn frames (11 R371, R372) -/

theorem exec_foghornTx (ld : Nat) (s : State) : exec (.foghornTx ld) s = .next (leaving s (fogTx s.dev ld)) := rfl

theorem exec_foghornRx (ld : Nat) (sender : BitVec 32) (s : State) :
    exec (.foghornRx ld sender) s = .next (leaving s (fogRx s.dev ld sender.toNat)) := rfl

theorem exec_foghornMiss (ld : Nat) (s : State) : exec (.foghornMiss ld) s = .next (goingOn s (fogMiss s.dev ld)) := rfl

section
variable {d : Dev} {n : Nat}

theorem fogTx_of_down (h : (land d n).st ≠ .up) : fogTx d n = d := by
  simp only [fogTx, bne_iff_ne, ne_eq, h, not_false_eq_true, Bool.or_eq_true, true_or, if_true]

/-- The Foghorn frame that a Landing sends next (11 R371). -/
def fogFrame (d : Dev) (n : Nat) : Foghorn :=
  { port := n, node := d.xmap.node, nodeValid := d.xmap.nodeValid, up := ofBits (upLands d), epoch := d.xmap.epoch, seq := (land d n).fogSeq,
    health := health d, width := if (land d n).width == 4 then 2 else if (land d n).width == 2 then 1 else 0 }

/-- From the SERVICE step on a Landing that is up sends its frame 8,000 cycles after the last, in a control flit. -/
theorem fogTx_of_up (hup : (land d n).st = .up) (hstep : 0x11 ≤ d.sys.step) : fogTx d n =
    (let d1 := advanceTo d ((land d n).fogLastTx + 8000)
     putFlit (onLand d1 n (fun l => { l with
       fogSeq := (l.fogSeq + 1) % 2 ^ 24, fogLastTx := d1.sys.ltc, fogSent := some (fogFrame d1 n) }))
       n 2 0 0 false (fogBytes (fogFrame d1 n))) := by
  have hsends : ((land d n).st != .up || decide (d.sys.step < 0x11)) = false := by
    rw [hup, decide_eq_false (Nat.not_lt.mpr hstep)]
    rfl
  simp only [fogTx, hsends, Bool.false_eq_true, if_false]
  rfl

theorem fogRx_of_up (h : linkUp d n = true) (sender : Nat) : fogRx d n sender =
    setReg (onLand d n (fun l => { l with fogLastRx := d.sys.ltc, fogMissedNow := 0 })) (landPage n + 0x130) sender := by
  simp only [fogRx, h, Bool.not_true, Bool.false_eq_true, if_false]

theorem fogRx_of_down (h : linkUp d n = false) (sender : Nat) : fogRx d n sender = d := by
  simp only [fogRx, h, Bool.not_false, if_true]

theorem fogMiss_of_down (h : linkUp d n = false) : fogMiss d n = d := by
  simp only [fogMiss, h, Bool.not_false, if_true]

/-- A missed frame is counted. -/
def fogMissed (d : Dev) (n : Nat) : Dev :=
  count (onLand (advanceTo d ((land d n).fogLastRx + 8000 * ((land d n).fogMissedNow + 1))) n
    (fun l => { l with fogMissedNow := l.fogMissedNow + 1 })) (landPage n) 0x840

/-- The link goes down with the LAND_FOG_MISS-th. -/
theorem fogMiss_of_up (h : linkUp d n = true) : fogMiss d n =
    if reg (fogMissed d n) (landPage n + 0x128) ≤ (land d n).fogMissedNow + 1
    then raiseFe (downLink (fogMissed d n) n) (landPage n) 4 (feUnit n) else fogMissed d n := by
  have hmissed : count (onLand (advanceTo d ((land d n).fogLastRx + 8000 * ((land d n).fogMissedNow + 1))) n
      (fun l => { l with fogMissedNow := l.fogMissedNow + 1 })) (landPage n) 0x840 = fogMissed d n := rfl
  simp only [fogMiss, h, Bool.not_true, Bool.false_eq_true, if_false, hmissed]

/-- Counting leaves every other register. -/
theorem reg_count_other {off off' page k : Nat} (hd : RegsCanonical d) (hne : canon off' ≠ canon (page + off)) :
    reg (count d page off k) off' = reg d off' := by
  unfold count
  split
  · rfl
  · exact reg_setReg_other hd hne

/-- LAND_FOG_MISS and the counter of missed frames are registers of their own. -/
theorem fogRegs_apart : ∀ n < 16, canon (landPage n + 0x128) ≠ canon (landPage n + 0x840) := by decide

theorem reg_fogMissed (hn : n < 16) (hd : RegsCanonical d) : reg (fogMissed d n) (landPage n + 0x128) = reg d (landPage n + 0x128) :=
  reg_count_other (d := onLand (advanceTo d _) n _) hd (fogRegs_apart n hn)

theorem length_lands_fogMissed (d : Dev) (n : Nat) : (fogMissed d n).lands.length = d.lands.length := by
  rw [fogMissed, count_lands, length_lands_onLand]
  rfl

/-- A missed frame below LAND_FOG_MISS leaves the link up. -/
theorem fogMiss_counted (hn : n < 16) (hd : RegsCanonical d) (h : linkUp d n = true)
    (hbelow : (land d n).fogMissedNow + 1 < reg d (landPage n + 0x128)) : fogMiss d n = fogMissed d n := by
  rw [fogMiss_of_up h, reg_fogMissed hn hd, if_neg (Nat.not_le.mpr hbelow)]

/-- The LAND_FOG_MISS-th takes it down. -/
theorem fogMiss_last (hn : n < 16) (hlands : d.lands.length = 16) (hd : RegsCanonical d) (h : linkUp d n = true)
    (hreached : reg d (landPage n + 0x128) ≤ (land d n).fogMissedNow + 1) : linkUp (fogMiss d n) n = false := by
  have hlen : n < (fogMissed d n).lands.length := by rw [length_lands_fogMissed, hlands]; exact hn
  rw [fogMiss_of_up h, reg_fogMissed hn hd, if_pos hreached, linkUp, land_raiseFe]
  exact linkUp_downLink hlen

end

end Sys2Proof.Machine
end

section
/-! Flits, their acknowledgement, and Foghorn frames. -/

namespace Sys2Proof.Machine

open Sys2Proof

/-- Settles O50: a received flit by what it carries, a flit that is sent by what it takes from its Landing, the replay buffer by its oldest flit,
and Foghorn frames by the state of the link. -/
theorem flitsAreAcceptedInOrderAndResent : Obligations.FlitsAreAcceptedInOrderAndResent := by
  intro s n flit ok fixed sender hn hlands hregs d l page w h good taken rx
  have hlt : n < d.lands.length := hlands.symm ▸ hn
  refine ⟨?_, ?_, ?_, ?_, ?_, ?_, ?_, ?_, ?_⟩
  · intro hstill hlive hup
    have hrx : exec rx s = .next (afterAccess s (flitIn d s.fuses n flit ok fixed).1 (flitIn d s.fuses n flit ok fixed).2) :=
      exec_flitRx hstill n flit ok fixed
    refine ⟨fun hbad => ?_, ?_, ?_, ?_, ?_⟩
    · rw [flitIn_bad hlive hup hbad] at hrx
      exact ⟨_, hrx, land_flitBad hlt ok fixed⟩
    · rintro ⟨rfl, hgood⟩ hkind
      rw [hrx, flitIn_idle hlive hup ⟨rfl, hgood⟩ _ _ hkind]
    · rintro ⟨rfl, hgood⟩ hkind
      rw [hrx, flitIn_control hlive hup ⟨rfl, hgood⟩ _ _ hkind]
    · rintro ⟨rfl, hgood⟩ hkind hseq
      rw [hrx, flitIn_expected hlive hup ⟨rfl, hgood⟩ _ _ hkind hseq]
      rfl
    · rintro ⟨rfl, hgood⟩ hkind hseq
      rw [hrx, flitIn_unexpected hlive hup ⟨rfl, hgood⟩ _ _ hkind hseq]
  · intro hstill hst
    have hclosed : linkUp d n = false ∨ l.st = .retraining := by
      rcases hst with h | h | h | h
      · exact .inl (linkUp_of_st (.inl h))
      · exact .inl (linkUp_of_st (.inr (.inl h)))
      · exact .inl (linkUp_of_st (.inr (.inr h)))
      · exact .inr h
    have hrx := exec_flitRx hstill n flit ok fixed
    rw [flitIn_closed hclosed] at hrx
    exact hrx
  · intro kind seq start resend slots hsince
    rw [sendFlit_alone _ _ _ _ _ _ _ hsince]
    exact ⟨_, rfl, rfl, rfl, decide_eq_true_iff, rfl, rfl, rfl, rfl, rfl, rfl⟩
  · intro r rest hup hreplay now d0
    have hexec := exec_landAckTimeout_unacknowledged hup hreplay
    have hdue : (land (ackDue d n) n).replay = r :: rest := hreplay
    refine ⟨fun hmay => ?_, fun hmost => ?_⟩
    · rw [hexec, resend_again hdue hmay]
      rfl
    · rw [resend_retrains hdue hmost] at hexec
      exact ⟨_, hexec, land_retrain_st (d := ackDue d n) hup hlt false, land_retrain_keeps Landing.replay (fun _ _ _ => rfl) (ackDue d n) n false n⟩
  · exact exec_landAckTimeout_acknowledged
  · intro hup hstep
    rw [exec_foghornTx, fogTx_of_up hup hstep]
    refine ⟨_, fogFrame (advanceTo d (l.fogLastTx + 8000)) n, _, rfl, rfl, rfl, rfl, ?_, rfl, rfl, rfl, rfl⟩
    rw [land_putFlit_keeps _ _ _ _ _ _ _ Landing.fogSeq (fun _ _ _ _ _ => rfl), land_onLand_same (d := advanceTo d (l.fogLastTx + 8000)) hlt]
    rfl
  · intro hdown
    rw [exec_foghornTx, fogTx_of_down hdown]
  · intro hlink
    refine ⟨?_, fun hbelow => ?_, fun hreached => ?_⟩
    · rw [exec_foghornRx, fogRx_of_up hlink]
    · rw [exec_foghornMiss, fogMiss_counted hn hregs hlink hbelow]
      rfl
    · exact ⟨_, exec_foghornMiss n s, fogMiss_last hn hlands hregs hlink hreached⟩
  · intro hlink
    rw [exec_foghornRx, fogRx_of_down hlink, exec_foghornMiss, fogMiss_of_down hlink]
    exact ⟨rfl, rfl⟩

end Sys2Proof.Machine
end

section
/-! SUPPORT. Where no extent is valid, what the device goes on with by itself leaves a degraded module degraded (14 R434): the requests in
flight reach no tier, the Tow's items end, and what else goes on alters neither. First what answers a request. -/

namespace Sys2Proof.Machine

open Sys2Proof

/-- The valid extents, and whether the module is degraded for good. -/
def plight (d : Dev) : List Extent × Bool := (d.toll.extents, d.salv.degraded)

/-- The module is degraded, and no extent is valid. -/
def Impaired (d : Dev) : Prop := plight d = ([], true)

namespace Impaired

variable {d : Dev} (h : Impaired d)
include h

theorem extents : d.toll.extents = [] := congrArg Prod.fst h

theorem degraded : d.salv.degraded = true := congrArg Prod.snd h

theorem same {e : Dev} (he : plight e = plight d) : Impaired e := he.trans h

theorem extOf (base : Nat) : extOf d base = none := by rw [Machine.extOf, h.extents]; rfl

theorem extAt (off : Nat) : extAt d off = none := by rw [Machine.extAt, h.extents]; rfl

omit h in
theorem ite {d e : Dev} {c : Prop} [Decidable c] (hd : Impaired d) (he : Impaired e) : Impaired (if c then d else e) := by
  split
  · exact hd
  · exact he

omit h in
theorem snd_ite {α : Type} {c : Prop} [Decidable c] {r t : α × Dev} (hr : Impaired r.2) (ht : Impaired t.2) :
    Impaired (if c then r else t).2 := by
  split
  · exact hr
  · exact ht

omit h in
theorem foldl {α : Type} {f : Dev → α → Dev} (hf : ∀ {d}, Impaired d → ∀ k, Impaired (f d k)) :
    ∀ (l : List α) {d : Dev}, Impaired d → Impaired (l.foldl f d)
  | [], _, h => h
  | k :: l, _, h => foldl hf l (hf h k)

/-! ## Registers, what is sent, the Causeway, frames -/

theorem emit (o : Out) : Impaired (emit d o) := h.same rfl

theorem count (page off k : Nat) : Impaired (count d page off k) := by
  obtain ⟨m, he⟩ := count_regs_only d page off k
  exact he ▸ h.same rfl

theorem raise (page b : Nat) : Impaired (raise d page b) := by
  obtain ⟨m, t, he⟩ := raise_regs_tx d page b
  exact he ▸ h.same rfl

theorem raiseFe (page b : Nat) (f : Fe) : Impaired (raiseFe d page b f) := by
  obtain ⟨m, t, he⟩ := raiseFe_regs_tx d page b f
  exact he ▸ h.same rfl

theorem cross (m n : Nat) (p : CwPair) (cls : Nat) : Impaired (cross d m n p cls) := by
  unfold Machine.cross
  refine ite h ?_
  obtain ⟨c, he⟩ := sendCw_cw_only d (n == 1) p cls
  exact he ▸ h.same rfl

theorem unless_frozen (page : Nat) (cnt cyc : NMap Nat) :
    Impaired (if frozen d page = true then d else { d with tiers.stallCnt := cnt, tiers.stallCyc := cyc }) := ite h (h.same rfl)

theorem stall (berth cause cyc : Nat) : Impaired (stall d berth cause cyc) :=
  (h.count (pg 0x33 (bankOfBerth berth)) (0x800 + 8 * cause) 1).unless_frozen _ _ _

theorem sendRsp (n input : Nat) (berth : Option Nat) (job off : Nat) (yellow : Bool) (m : Msg) :
    Impaired (sendRsp d n input berth job off yellow m) := by
  have hcounted (k : Nat) : Impaired (if k == n then d else Machine.count d (pg 0x10 (k / 8)) 0x838) := ite h (h.count _ _ _)
  exact (hcounted ((rspLand d n berth off).getD n)).same rfl

theorem meterRx (b : Option Nat) (bytes : Nat) : Impaired (meterRx d b bytes) := by
  cases b with
  | none => exact h
  | some b => exact h.same rfl

theorem misroute (n : Nat) (berth : Option Nat) (epoch off : Nat) : Impaired (misroute d n berth epoch off) := by
  unfold Machine.misroute
  split
  · exact h
  · refine ite h ?_
    split
    · exact ite h (h.count _ _ _)
    · exact h

/-! ## Answers -/

theorem answerDuplicates (src id : Nat) (m : Msg) : Impaired (answerDuplicates d src id m) := by
  unfold Machine.answerDuplicates
  dsimp only
  refine same (foldl (fun {d} h f => ?_) _ h) rfl
  split
  · exact h.sendRsp _ _ _ _ _ _ _
  · exact h

/-- A Landing's answer is noted, and the duplicates of its request take it. -/
theorem respond (src id : Nat) (m m' : Msg) : Impaired (Machine.answerDuplicates (noteOutcome d src id m) src id m') :=
  answerDuplicates (d := noteOutcome d src id m) (h.same rfl) src id m'

theorem setCredits (c : Prop) [Decidable c] (bank src cred : Nat) : Impaired (if c then Machine.setCredits d bank src cred else d) :=
  ite (h.same rfl) h

theorem notifyDone (berth ring status : Nat) : Impaired (notifyDone d berth ring status) := by
  unfold Machine.notifyDone
  exact ite h (raiseFe (d := setRing d berth ring { ringOf d berth ring with notifyFail := true }) (h.same rfl) _ _ _)

theorem snapLost (slot item tile status : Nat) : Impaired (snapLost d slot item tile status) := by
  unfold Machine.snapLost
  split
  · exact h
  · next i _ =>
    rw [h.extOf i.dest]
    exact h.same rfl

theorem answerReq (q : Req) (bank : Nat) (berth : Option Nat) (input status : Nat) (data : List Byte) (grant : Nat) :
    Impaired (answerReq d q bank berth input status data grant) := by
  have hcred (k : Nat) := h.setCredits (q.table = true) bank q.h.src.toNat k
  unfold Machine.answerReq
  dsimp only
  split
  · exact respond ((hcred _).sendRsp _ _ _ _ _ _ _) _ _ _ _
  · exact (hcred _).same rfl
  · exact foldl (fun h c => h.respond _ _ _ _) _ ((hcred _).sendRsp _ _ _ _ _ _ _)
  · exact h
  · exact ite ((hcred _).same rfl) (ite ((hcred _).notifyDone _ _ _) ((hcred _).same rfl))
  · exact h.same rfl
  · exact ite (h.same rfl) (ite h (h.snapLost _ _ _ _))

theorem refuseReq (q : Req) (status bank : Nat) : Impaired (refuseReq d q status bank) := h.answerReq _ _ _ _ _ _ _

theorem crossBack (q : Req) (entry bank : Nat) : Impaired (crossBack d q entry bank).1 := by
  unfold Machine.crossBack
  split
  · exact h
  · exact h
  · exact h.cross _ _ _ _

theorem refuseHome (q : Req) (entry bank status : Nat) : Impaired (refuseHome d q entry bank status) :=
  (h.crossBack q entry bank).answerReq _ _ _ _ _ _ _

theorem nackReq (q : Req) (entry bank : Nat) : Impaired (nackReq d q entry bank) := by
  have hback := h.crossBack q entry bank
  unfold Machine.nackReq
  dsimp only
  split
  · exact respond (hback.sendRsp _ _ _ _ _ _ _) _ _ _ _
  · exact hback
  · exact hback
  · exact hback
  · exact hback
  · exact hback
  · exact hback.same rfl

theorem noteEnd (f : Flying) (status : Nat) : Impaired (noteEnd d f status) := by
  unfold Machine.noteEnd
  split
  · exact h.same rfl
  · exact ite (h.same rfl) h

theorem finishFlying (f : Flying) (status : Nat) (data : List Byte) (grant : Nat) : Impaired (finishFlying d f status data grant) := by
  have hcross (framed : Bool) : Impaired (if framed = true then d else Machine.cross d f.homeBank f.entry .answer 3) := ite h (h.cross _ _ _ _)
  exact (((hcross _).noteEnd f status).answerReq f.q f.homeBank _ _ status data grant).same rfl

theorem addFlying (f : Flying) : Impaired (addFlying d f) := h.same rfl

theorem dropFlying (id : Nat) : Impaired (dropFlying d id) := h.same rfl

theorem acquireDrop (bank job : Nat) : Impaired (acquireDrop d bank job) :=
  count (d := cacheDrop d (fun c => c.job == job)) (h.same rfl) _ _ _

end Impaired

end Sys2Proof.Machine
end

section
/-! SUPPORT. The Toll and the Fare meter leave a degraded module without extents as it is (02 R48, R67; 12 R388-R390). -/

namespace Sys2Proof.Machine.Impaired

open Sys2Proof

variable {d : Dev} (h : Impaired d)
include h

theorem test5 (bank : Nat) (hdr : Hdr) : Impaired (test5 d bank hdr).2 := by
  unfold Machine.test5
  split
  · exact h
  · exact h
  · exact h.raiseFe _ _ _

theorem test3 (op : Op) (hdr : Hdr) : test3 d op hdr = none := by
  rw [Machine.test3]
  dsimp only
  rw [h.extAt]

theorem jobTests (bank : Nat) (op : Op) (hdr : Hdr) (j : Job) : Impaired (tollTests.jobTests d bank op hdr j).2 := by
  have htest := h.test5 bank hdr
  unfold tollTests.jobTests
  dsimp only
  rw [h.test3]
  exact snd_ite h (snd_ite (snd_ite htest htest) h)

theorem tollTests (bank : Nat) (op : Op) (hdr : Hdr) (engine : Bool) : Impaired (tollTests d bank op hdr engine).2 := by
  have hnoted : Impaired (if (hdr.node.toNat != d.xmap.node) = true then
      Machine.raiseFe (Machine.count d (pg 0x20 bank) 0x800) (pg 0x20 bank) 2 (feReq d hdr cDENIED) else d) :=
    ite ((h.count _ _ _).raiseFe _ _ _) h
  unfold Machine.tollTests
  dsimp only
  revert hnoted
  generalize (if (hdr.node.toNat != d.xmap.node) = true then Machine.raiseFe _ _ _ _ else d) = e
  intro he
  rw [he.extAt]
  exact snd_ite he (snd_ite he (he.jobTests _ _ _ _))

theorem tollCheck (bank : Nat) (op : Op) (hdr : Hdr) (engine : Bool) : Impaired (tollCheck d bank op hdr engine).2 :=
  snd_ite h (snd_ite h (h.tollTests bank op hdr engine))

theorem doorbellToll (bank : Nat) (op : Op) (hdr : Hdr) (engine : Bool) : Impaired (doorbellToll d bank op hdr engine).2 := by
  have htest := h.test5 bank hdr
  exact snd_ite h (snd_ite h (snd_ite ((h.count _ _ _).raiseFe _ _ _) (snd_ite h (snd_ite h (snd_ite h (snd_ite htest htest))))))

theorem tollFor (entry : Nat) (op : Op) (hdr : Hdr) (engine : Bool) : Impaired (tollFor d entry op hdr engine).2 :=
  snd_ite (h.doorbellToll _ _ _ _) (h.tollCheck _ _ _ _)

omit h in
theorem combToll (entry : Nat) (hdr : Hdr) : ∀ (l : List (Nat × Nat × PartIs)) {d : Dev}, Impaired d → Impaired (combToll d entry hdr l).2.2
  | [], _, h => h
  | c :: l, d, h => by
    unfold Machine.combToll
    dsimp only
    split
    · exact combToll entry hdr l h
    · split
      · exact combToll entry hdr l (h.tollFor _ _ _ _)
      · exact combToll entry hdr l (h.tollFor _ _ _ _)

theorem tollOf (q : Req) (entry : Nat) : Impaired (tollOf d q entry).2.2 := by
  unfold Machine.tollOf
  split
  · exact combToll entry _ _ h
  · exact h.tollFor _ _ _ _
  · exact h.tollFor _ _ _ _
  · exact h.tollFor _ _ _ _

theorem farePass (op : Op) (hdr : Hdr) : Impaired (farePass d op hdr).2 := by
  have hfare (f : NMap FareJob) : Impaired { d with sched.fare := f } := h.same rfl
  exact snd_ite h (snd_ite (((hfare _).count _ _ _).raiseFe _ _ _) (hfare _))

omit h in
theorem fareComb (hdr : Hdr) : ∀ (l : List (Nat × Nat × PartIs)) {d : Dev}, Impaired d → Impaired (fareComb d hdr l).2.2
  | [], _, h => h
  | c :: l, d, h => by
    unfold Machine.fareComb
    dsimp only
    split
    · exact fareComb hdr l h
    · split
      · exact fareComb hdr l (h.farePass _ _)
      · exact fareComb hdr l (h.farePass _ _)

theorem fareOn (q : Req) : Impaired (fareOn d q).2.2 := by
  unfold Machine.fareOn
  split
  · exact h.farePass _ _
  · exact h.farePass _ _
  · exact fareComb _ _ h
  all_goals exact h

end Sys2Proof.Machine.Impaired
end

section
/-! SUPPORT. Requests, the ports and the Tow leave a degraded module without extents as it is (03 R105-R111; 04 R134-R144; 05 R160-R171;
13 R404-R417). -/

namespace Sys2Proof.Machine.Impaired

open Sys2Proof

variable {d : Dev} (h : Impaired d)

/-- Where a step leads, the module is still impaired. -/
def Leads (o : Option Dev) : Prop := ∀ e, o = some e → Impaired e

theorem Leads.none : Leads none := fun _ he => by cases he

include h in
theorem Leads.some : Leads (some d) := fun _ he => Option.some.inj he ▸ h

theorem Leads.ite {c : Prop} [Decidable c] {o o' : Option Dev} (ho : Leads o) (ho' : Leads o') : Leads (if c then o else o') := by
  split
  · exact ho
  · exact ho'

include h

theorem quay (q : Quay) : Impaired { d with quay := q } := h.same rfl

/-! ## Attempts, and what closes -/

/-- A request in flight has lost its extent. -/
theorem attempt (id : Nat) (first ready : Bool) : Impaired (attempt d id first ready) := by
  unfold Machine.attempt
  split
  · exact h
  · rw [h.extOf]
    exact h.finishFlying _ _ _ _

theorem retry (ids : List Nat) : Impaired (retry ids d) := foldl (fun h id => h.attempt id false false) ids h

theorem wakeSet (bank set : Nat) : Impaired (wakeSet d bank set) := retry (h.quay _) _

theorem closeDir (t : Trans) : Impaired (closeDir d t) := by
  unfold Machine.closeDir
  split
  · split
    · exact ite (h.same rfl) h
    · exact h
  all_goals exact h.same rfl

theorem closeTrans (t : Trans) : Impaired (closeTrans d t) :=
  (retry (closeDir (h.quay _) t) t.waiters).wakeSet _ _

theorem flushOn : Impaired (flushOn d) := by
  unfold Machine.flushOn
  dsimp only
  refine foldl (fun h e => ?_) _ (h.same rfl)
  split
  · exact h.finishFlying _ _ _ _
  · exact h

theorem wakeAccum (bank : Nat) : Impaired (wakeAccum d bank) := by
  unfold Machine.wakeAccum
  split
  · exact attempt (h.quay _) _ _ _
  · exact h

theorem closeAccum (x : Accum) : Impaired (closeAccum d x) :=
  same (wakeAccum (retry (d := accumDrop d x.bank x.offset) (h.same rfl) _) _) rfl

theorem wroteSums (x : Accum) (status : Nat) : Impaired (wroteSums d x status) := by
  unfold Machine.wroteSums
  dsimp only
  rw [h.extAt]
  exact closeAccum (ite (h.count _ _ _) h) x

omit h in
theorem drain : ∀ (k : Nat) {d : Dev}, Impaired d → Impaired (drain k d)
  | 0, _, h => h
  | k + 1, d, h => by
    unfold Machine.drain
    split
    · exact drain k (h.closeTrans _)
    · split
      · exact drain k (h.wroteSums _ _)
      · split
        · exact drain k (h.attempt _ _ _)
        · exact h

theorem drainAll : Impaired (drainAll d) := (drain _ h).flushOn

/-! ## Requests that enter -/

theorem ringDoorbell (b r v : Nat) : Impaired (ringDoorbell d b r v) := by
  unfold Machine.ringDoorbell
  dsimp only
  exact ite (h.same rfl) (raiseFe (d := setRing d b r { ringOf d b r with dbBad := true }) (h.same rfl) _ _ _)

theorem answerTchk (q : Req) (entry bank : Nat) : Impaired (answerTchk d q entry bank) :=
  ite ((h.count _ _ _).nackReq q entry bank) (((h.count _ _ _).raiseFe _ _ _).refuseHome _ _ _ _)

theorem updateCache (bank job off : Nat) (l : List Byte) : Impaired (updateCache d bank job off l) := h.same rfl

theorem toHome (q : Req) (entry : Nat) (x : Extent) : Impaired (toHome d q entry x) := by
  unfold Machine.toHome
  dsimp only
  refine ite ((h.cross _ _ _ _).answerTchk _ _ _) ?_
  split
  · exact h.answerReq _ _ _ _ _ _ _
  · exact ((cross (ite (h.updateCache _ _ _ _) h) _ _ _ _).addFlying _).attempt _ _ _

theorem overCredit (q : Req) (bank : Nat) : Leads (overCredit d q bank) := .ite (.some (h.count _ _ _)) (.ite (.some (h.count _ _ _)) .none)

theorem answered (q : Req) (entry bank k : Nat) (b : Bool) (data : List Byte) :
    Impaired (Machine.answerReq (Machine.crossBack d q entry bank).1 q bank none (if b = true then k else (Machine.crossBack d q entry bank).2)
      cOK data) := (h.crossBack _ _ _).answerReq _ _ _ _ _ _ _

/-- A request of Landing `o` is metered. -/
theorem meter (o b : Option Nat) (epoch off k : Nat) : Impaired (match o with
    | some n => Machine.meterRx (Machine.misroute d n b epoch off) b k
    | none => d) := by
  split
  · exact (h.misroute _ _ _ _).meterRx _ _
  · exact h

theorem passed (q : Req) (entry : Nat) (x : Option Extent) : Impaired (passed d q entry x) := by
  have hfare := h.fareOn q
  unfold Machine.passed
  dsimp only
  generalize Machine.fareOn d q = c at hfare ⊢
  refine ite (hfare.refuseReq _ _ _) ?_
  split
  · refine ite (answerReq (acquireDrop (hfare.meter _ _ _ _ _) _ _) _ _ _ _ _ _ _) ?_
    split
    · exact refuseReq (hfare.meter _ _ _ _ _) _ _ _
    · refine ite (refuseReq (hfare.meter _ _ _ _ _) _ _ _) (ite (answered (ite (acquireDrop (cross (hfare.meter _ _ _ _ _) _ _ _ _) _ _)
        (cross (hfare.meter _ _ _ _ _) _ _ _ _)) _ _ _ _ _ _) (ite (answerTchk (cross (hfare.meter _ _ _ _ _) _ _ _ _) _ _ _)
        (answered (ringDoorbell (cross (hfare.meter _ _ _ _ _) _ _ _ _) _ _ _) _ _ _ _ _ _)))
  · refine ite (refuseReq (hfare.meter _ _ _ _ _) _ _ _) ?_
    split
    · next hover =>
      refine refuseHome (cross ((?_ : Leads _) _ hover) _ _ _ _) _ _ _ _
      exact .ite (overCredit (hfare.meter _ _ _ _ _) _ _) .none
    · exact toHome (ite (quay (hfare.meter _ _ _ _ _) _) (hfare.meter _ _ _ _ _)) _ _ _

theorem enterNow (q : Req) (entry : Nat) : Impaired (enterNow d q entry) := by
  have htoll := h.tollOf q entry
  unfold Machine.enterNow
  dsimp only
  generalize Machine.tollOf d q entry = r at htoll ⊢
  split
  · exact htoll.refuseReq _ _ _
  · exact htoll.passed _ _ _
  · exact addFlying (ite (htoll.stall _ _ _) htoll) _

theorem enter (q : Req) (entry : Nat) : Impaired (enter d q entry) := by
  unfold Machine.enter
  split
  · exact h.addFlying _
  · exact h.enterNow _ _

omit h in
theorem sendCredited : ∀ (k : Nat) {d : Dev}, Impaired d → Impaired (sendCredited k d)
  | 0, _, h => h
  | k + 1, d, h => by
    unfold Machine.sendCredited
    dsimp only
    split
    · exact h
    · exact sendCredited k ((h.dropFlying _).enterNow _ _).drainAll

theorem enterTurn (q : Req) (entry : Nat) : Impaired (enterTurn d q entry) := ite (h.addFlying _) (h.enter _ _)

omit h in
theorem takeTurns : ∀ (k : Nat) {d : Dev}, Impaired d → Impaired (takeTurns k d)
  | 0, _, h => h
  | k + 1, d, h => by
    unfold Machine.takeTurns
    split
    · exact h
    · exact takeTurns k ((h.dropFlying _).enter _ _).drainAll

theorem combNext (q : Req) (bank : Nat) : Impaired (combNext d q bank) := by
  unfold Machine.combNext
  split
  · exact h.addFlying _
  · exact h.enterTurn _ _

theorem combOn : Impaired (combOn d) := foldl (fun h _ => h.combNext _ _) _ (h.same rfl)

/-! ## The ports -/

theorem onPort (p : Nat) (f : Port → Port) : Impaired (onPort d p f) := h.same rfl

theorem issuePiece (p : Nat) (t : Tlp) (i : Nat) : Impaired (issuePiece d p t i) := by
  unfold Machine.issuePiece
  split
  · exact h
  · exact enter (h.onPort p _) _ _

theorem logPiece (p : Nat) (t : Tlp) (e : Piece) (c : Nat) : Impaired (logPiece d p t e c) := (h.count _ _ _).raiseFe _ _ _

theorem reportUr (p fn : Nat) : Impaired (reportUr d p fn) := ite (h.emit _) h

omit h in
theorem freeBytes : ∀ (n : Nat) {d : Dev}, Impaired d → Impaired (freeBytes n d).2
  | 0, _, h => h
  | n + 1, d, h => freeBytes n (d := (freeVal d).2) (h.same rfl)

theorem complete (p fn cls n : Nat) (data : List Byte) (at_ : Nat) : Impaired (complete d p fn cls n data at_) := by
  have hsent (l : List (List Byte)) (bad : Bool) {d : Dev} (h : Impaired d) :
      Impaired (l.foldl (fun d l => Machine.emit d (.cpl p fn 0 bad l)) d) := foldl (fun h l => h.emit _) l h
  exact ite (hsent _ _ h) (ite (hsent _ _ (freeBytes n h)) (ite ((h.count _ _ _).emit _) ((h.count _ _ _).emit _)))

theorem completeCxl (p kind c : Nat) (data : List Byte) : Impaired (completeCxl d p kind c data) :=
  ite (h.emit _) (ite (h.emit _) ((h.count _ _ _).emit _))

theorem finishTlp (p : Nat) (t : Tlp) : Impaired (finishTlp d p t) := by
  have hgone := h.onPort p (fun pt => { pt with tlps := pt.tlps.filter (fun u => u.id != t.id) })
  unfold Machine.finishTlp
  dsimp only
  refine ite (foldl (fun h e => ite h (ite ((h.logPiece _ _ _ _).reportUr _ _) (h.logPiece _ _ _ _))) _ hgone)
    (ite hgone (ite ?_ (hgone.complete _ _ _ _ _ _)))
  exact completeCxl (ite (foldl (fun h e => ite h (h.logPiece _ _ _ _)) _ hgone) hgone) _ _ _ _

theorem portStep (p : Nat) : Leads (portStep d p) := by
  unfold Machine.portStep
  split
  · exact .some (h.finishTlp _ _)
  · split
    · exact .some (h.issuePiece _ _ _)
    · exact .none

omit h in
theorem pump : ∀ (k : Nat) {d : Dev}, Impaired d → Impaired (pump k d)
  | 0, _, h => h
  | k + 1, d, h => by
    unfold Machine.pump
    split
    · next he => exact pump k (h.portStep _ _ he).drainAll
    · split
      · next he => exact pump k (h.portStep _ _ he).drainAll
      · exact h

omit h in
theorem sendKept (p : Nat) : ∀ (k : Nat) {d : Dev}, Impaired d → Impaired (sendKept p k d)
  | 0, _, h => h
  | k + 1, d, h => by
    unfold Machine.sendKept
    split
    · exact h
    · exact sendKept p k ((h.onPort p _).emit _)

theorem hostOn : Impaired (hostOn d) := sendKept 1 _ (sendKept 0 _ h)

theorem sendMsix (n fn vec : Nat) : Impaired (sendMsix d n fn vec) := ite (h.onPort _ _) (h.emit _)

/-! ## Walks, held extents, the Tow -/

theorem walkExt : walkExt d = none := by
  unfold Machine.walkExt
  split
  · exact Option.bind_eq_none_iff.mpr fun _ _ => h.extOf _
  · rfl

theorem walkOn : walkOn d = d := by rw [Machine.walkOn, h.walkExt]

theorem walkEnd : walkEnd d = d := by rw [Machine.walkEnd, h.walkExt]

theorem quietHeld : quietHeld d = d := by
  rw [Machine.quietHeld, h.extents]
  rfl

theorem moveStart (m : MoveItem) : Leads (moveStart d m) := by
  unfold Machine.moveStart
  rw [h.extOf]
  exact .some (h.same rfl)

theorem nextMove : ∀ l : List MoveItem, Leads (nextMove d l)
  | [] => .none
  | m :: ms => by
    refine .ite ?_ (nextMove ms)
    split
    · next hm => exact .some (h.moveStart m _ hm)
    · exact nextMove ms

omit h in
theorem startMoves : ∀ (k : Nat) {d : Dev}, Impaired d → Impaired (startMoves k d)
  | 0, _, h => h
  | k + 1, d, h => by
    unfold Machine.startMoves
    split
    · next he => exact startMoves k (h.nextMove _ _ he)
    · exact h

theorem hostCopies : Impaired (hostCopies d) := by
  refine foldl (fun {d} h m => ?_) _ h
  rw [h.extOf]
  exact h

theorem endPersists : Impaired (endPersists d) := by
  unfold Machine.endPersists
  dsimp only
  refine foldl (fun {d} h p => ?_) _ (h.same rfl)
  split
  · exact h.same rfl
  · exact h

theorem towFinish : Impaired (towFinish d) := h.same rfl

theorem towOn : Impaired (towOn d) :=
  ite (ite h.towFinish h) (startMoves _ h).hostCopies.endPersists.towFinish

theorem goOn : Impaired (goOn d) := by
  have hturns (k : Nat) := takeTurns k h.drainAll.combOn.drainAll
  have hsent (i j k : Nat) := sendCredited k (pump j (hturns i))
  unfold Machine.goOn
  dsimp only
  rw [(hsent _ _ _).walkOn, (hsent _ _ _).quietHeld, (hsent _ _ _).drainAll.walkEnd]
  exact (hsent _ _ _).drainAll.towOn.hostOn

theorem settle (b : Dev) : Impaired (settle b d) := ite (((h.sendMsix 0 0 0).sendMsix 1 0 0).emit _) h

end Sys2Proof.Machine.Impaired
end

section
/-! A retrain without a good lane takes the link down and raises DEGRADED (11 R347), but leaves the module's lasting mark of 14 R434 clear:
the Landing's own lanes say that it is degraded. -/

namespace Sys2Proof.Machine

open Sys2Proof

/-- Where no extent is left, a module that was degraded before it went on is degraded. -/
theorem degraded_of_goOn {b t e : Dev} (he : settle b (goOn t) = e) (hexts : e.toll.extents = []) (hdegraded : t.salv.degraded = true) :
    e.salv.degraded = true := by
  have hanchors : anchors e = anchors t := he ▸ ((Calm.refl t).goOn.settle b).anchored
  have hentries : e.toll.extents.map (·.e) = t.toll.extents.map (·.e) := congrArg (·.2.2.2.1) hanchors
  have ht : t.toll.extents = [] := by simpa [hexts] using hentries.symm
  have himpaired : Impaired t := Prod.ext ht hdegraded
  exact he ▸ (himpaired.goOn.settle b).degraded

/-- Two devices that an instruction leads to go on to one. -/
theorem settle_goOn_eq {i : Instr} {s : State} {t e : Dev} (ht : exec i s = .next (goingOn s t)) (he : exec i s = .next (goingOn s e)) :
    settle s.dev (goOn t) = settle s.dev (goOn e) := congrArg (·.dev) (Host.Outcome.next.inj (ht.symm.trans he))

theorem exec_retrainDone (n : Nat) (good : BitVec 4) (s : State) :
    exec (.retrainDone n good) s = .next (goingOn s (retrainEnd s.dev n good.toNat)) := rfl

namespace LostLink

/-- A device in service without extents, its Landing 3 retraining. -/
def retraining : Dev :=
  { Dev.reset with
    sys.step := 0x12
    lands := modAt (fun l => { l with st := .retraining }) Dev.reset.lands 3 }

/-- The machine with the device. -/
def start : State := { State.reset with dev := retraining }

theorem start_retrains : start.dev.lands.length = 16 ∧ (land start.dev 3).st = .retraining := by decide +kernel

/-- The device once no lane of the Landing has been good. -/
def lost : Dev := settle start.dev (goOn (retrainEnd start.dev 3 (0 : BitVec 4).toNat))

theorem lost_eq : settle start.dev (goOn (retrainEnd start.dev 3 (0 : BitVec 4).toNat)) = lost := rfl

theorem lost_not_degraded : lost.toll.extents = [] ∧ lost.salv.degraded = false ∧ (land lost 3).lanesBad = true := by decide +kernel

end LostLink

/-- What O49 says of a retrain that ends without a good lane. -/
theorem degraded_of_retrainDone_without_lanes (h : Obligations.LinksTrainComeUpRetrainAndGoDown) {s : State} {n : Nat} {good : BitVec 4}
    (hn : n < 16) (hlands : s.dev.lands.length = 16) (hst : (land s.dev n).st = .retraining) (hgood : widest good.toNat = 0) :
    ∃ t, exec (.retrainDone n good) s = .next (goingOn s t) ∧ t.salv.degraded = true := by
  obtain ⟨-, -, -, -, -, -, hretrain, -⟩ := h s .pcie0 n 0 .none good hn hlands
  obtain ⟨-, hlost⟩ := hretrain hst
  obtain ⟨t, hexec, -, -, hdegraded⟩ := hlost (.inl hgood)
  exact ⟨t, hexec, hdegraded⟩

/-- Refutes O49: a retrain that ends without a good lane takes the link down and raises DEGRADED, but the clause says too that the module's
lasting mark is set. Landing 3 retrains on a device without extents, and the mark is clear after it; what the device goes on with by itself
cannot have cleared it. -/
theorem not_linksTrainComeUpRetrainAndGoDown : ¬ Obligations.LinksTrainComeUpRetrainAndGoDown := by
  intro h
  obtain ⟨hlands, hst⟩ := LostLink.start_retrains
  obtain ⟨hexts, hclear, -⟩ := LostLink.lost_not_degraded
  obtain ⟨t, hexec, hdegraded⟩ := degraded_of_retrainDone_without_lanes h (good := 0) (by decide) hlands hst (by decide)
  have hdev := settle_goOn_eq hexec (exec_retrainDone 3 0 LostLink.start)
  rw [LostLink.lost_eq] at hdev
  have hset := degraded_of_goOn hdev hexts hdegraded
  exact absurd (hset.symm.trans hclear) (by decide)

end Sys2Proof.Machine
end
